-- ==== Sys2Proof/Word.lean ====
section
/-! DEFINITION. The word types of the EA6 and the sorted association table in which sparse state is held. -/

namespace Sys2Proof

/-- A 64-bit word: a g register, an instruction word (R9, R60). -/
abbrev Word := BitVec 64

/-- One byte of memory. -/
abbrev Byte := BitVec 8

/-- A vector register: lane i is bits 32i+31 to 32i (R124). -/
abbrev VReg := BitVec 2048

/-- Sparse data by key, keys strictly rising; an unlisted key stands for a default. -/
abbrev Tab (β : Type) := List (Nat × β)

end Sys2Proof
end

