-- ==== Sys2Proof/Machine/Maps.lean ====
section
/-! DEFINITION. Sorted tables by key, and the small bit and list helpers the meanings use. -/

namespace Sys2Proof

/-! ### Tables -/

/-- The entry of a key, if any. -/
def Tab.find (t : Tab β) (k : Nat) : Option β :=
  match t with
  | [] => none
  | (j, v) :: r => if j = k then some v else Tab.find r k

/-- The entry of a key, or the value an unlisted key stands for. -/
def Tab.at (t : Tab β) (k : Nat) (d : β) : β := (Tab.find t k).getD d

/-- Sets a key, keeping the keys rising. -/
def Tab.put (t : Tab β) (k : Nat) (v : β) : Tab β :=
  match t with
  | [] => [(k, v)]
  | (j, u) :: r => if k < j then (k, v) :: (j, u) :: r else if k = j then (k, v) :: r else (j, u) :: Tab.put r k v

/-- Removes a key. -/
def Tab.drop (t : Tab β) (k : Nat) : Tab β := t.filter fun p => p.1 != k

/-- Sets a key to a value, listing it only when it is not the value an unlisted key stands for. -/
def Tab.store [DecidableEq β] (t : Tab β) (d : β) (k : Nat) (v : β) : Tab β :=
  if v = d then Tab.drop t k else Tab.put t k v

/-! ### Bits -/

/-- Bits [lo + n - 1 : lo] of a bit vector as a number. -/
def bits (x : BitVec w) (lo n : Nat) : Nat := (x.extractLsb' lo n).toNat

/-- A number as a 64-bit word. -/
def w64 (n : Nat) : Word := BitVec.ofNat 64 n

/-- 1 for true, 0 for false. -/
def b2n (b : Bool) : Nat := if b then 1 else 0

/-- Bit i of a number. -/
def nbit (n i : Nat) : Bool := n / 2 ^ i % 2 == 1

/-- A number with the bits [lo + n - 1 : lo] of a word replaced. -/
def setBits (x : BitVec w) (lo n v : Nat) : BitVec w :=
  let m : BitVec w := BitVec.ofNat w ((2 ^ n - 1) * 2 ^ lo)
  (x &&& ~~~m) ||| (BitVec.ofNat w (v % 2 ^ n * 2 ^ lo))

/-- Sign-extension of the low n bits of a number to an integer. -/
def sextNat (n v : Nat) : Int :=
  let u := v % 2 ^ n
  if 2 * u < 2 ^ n then (u : Int) else (u : Int) - (2 ^ n : Nat)

/-- Ceiling division. -/
def ceilDiv (a b : Nat) : Nat := (a + b - 1) / b

/-- The set bit numbers of a word below n, rising. -/
def bitList (x : BitVec w) (n : Nat) : List Nat := (List.range n).filter fun i => x.getLsbD i

/-- The number of set bits below n. -/
def popCount (x : BitVec w) (n : Nat) : Nat := (bitList x n).length

/-- The least bit number below n that is set. -/
def lowBit (x : BitVec w) (n : Nat) : Option Nat := (List.range n).find? fun i => x.getLsbD i

/-! ### Bytes -/

/-- The little-endian value of bytes. -/
def leNat : List Byte → Nat
  | [] => 0
  | b :: r => b.toNat + 256 * leNat r

/-- The n little-endian bytes of a number. -/
def leBytes : Nat → Nat → List Byte
  | 0, _ => []
  | n + 1, v => BitVec.ofNat 8 v :: leBytes n (v / 256)

/-! ### Lists -/

/-- Replaces the first element that satisfies a condition. -/
def updFirst (p : α → Bool) (f : α → α) : List α → List α
  | [] => []
  | a :: r => if p a then f a :: r else a :: updFirst p f r

/-- Removes the first element that satisfies a condition. -/
def dropFirst (p : α → Bool) : List α → List α
  | [] => []
  | a :: r => if p a then r else a :: dropFirst p r

/-- Replaces the element at a position. -/
def setNth : List α → Nat → α → List α
  | [], _, _ => []
  | _ :: r, 0, v => v :: r
  | a :: r, n + 1, v => a :: setNth r n v

/-- The least of a list of numbers, or a default. -/
def minOf (d : Nat) : List Nat → Nat
  | [] => d
  | a :: r => Nat.min a (minOf d r)

def maxOf (d : Nat) : List Nat → Nat
  | [] => d
  | a :: r => Nat.max a (maxOf d r)

/-- The element whose key is least, the first of equals. -/
def argMin (key : α → Nat) : List α → Option α
  | [] => none
  | a :: r =>
    match argMin key r with
    | none => some a
    | some b => if key b < key a then some b else some a

/-- Inserts in rising order of a key, after equal keys. -/
def insertBy (key : α → Nat) (a : α) : List α → List α
  | [] => [a]
  | b :: r => if key b ≤ key a then b :: insertBy key a r else a :: b :: r

/-- A sorted copy, equal keys in their old order. -/
def sortBy (key : α → Nat) (l : List α) : List α := l.foldl (fun acc a => insertBy key a acc) []

end Sys2Proof
end

