-- ==== Sys2Proof/Config.lean ====
section
/-! DEFINITION. What an implementation fixes and the values the manual leaves free: opaque constants, so that no proof sees one. -/

namespace Sys2Proof.Config

/-- R35: which of two tied pairs is taken in the n-th tie (log entry 8). -/
opaque tieTakesFirst : Nat → Bool

/-- R293: what a walk routine other than routine 0 answers at its n-th entry, for a name of the routine store's contents, the
space record (root, address-space id, routine number), an address and the access: status, page base, log2 of the page size
and the permissions R and W (log entry 9). -/
opaque walkRoutine (n store : Nat) (root : Word) (asid routine : Nat) (va : Word) (write : Bool) :
  BitVec 2 × Word × Nat × Bool × Bool

/-- The value of a special function whose correctly rounded bits the model's interval arithmetic did not settle
(function code, operand bits; log entry 10). -/
opaque specialOpen : BitVec 4 → BitVec 32 → BitVec 32

/-- R296: the access count at which firmware has the migration engine move a page (log entry 11). -/
opaque migrationThreshold : Nat

/-- R234: where firmware puts the name table of a task, in 64 KiB units of the die's HBM (log entry 15). -/
opaque nameTable : Nat → BitVec 28

/-- R365, R372: where the front end puts the save area of a checkpointable task, in 64 KiB units of the die's HBM (log
entry 15). -/
opaque saveArea : Nat → BitVec 28

/-- R374: the class-0 reserve that firmware fixes at boot (log entry 17). -/
opaque reserve : List Nat

/-- R382: what the boot agents of a panel learn of one another at the n-th boot: the positions of the dies whose boot chain
succeeded and that answered within 20 ms, whether the link of a die's port is up, and a die's dead routers (log entry 18). -/
opaque panelAnswers : Nat → List Nat
opaque panelLink (n pos port : Nat) : Bool
opaque panelDead (n pos : Nat) : List Nat

/-- R397: the nonce that the device supplies for its n-th release token (log entry 19). -/
opaque nonce : Nat → Nat

/-- R398: names for the digests of the boot ROM (kind 1) and the defect map (kind 4; log entry 19). -/
opaque partDigest : Nat → Nat

/-- R398: a name for the digest of an owner key (log entry 19). -/
opaque keyDigest : Nat → Nat

/-- R398: a name for the digest of a whole measurement log (log entry 19). -/
opaque logDigest : List (Nat × Nat) → Nat

end Sys2Proof.Config
end

