-- ==== Sys2Proof/Syntax.lean ====
section
/-! DEFINITION. Every step of the EA6 as syntax: one constructor per row of the opcode table.
A row that has an encoding (R67 to R73) carries the word's header and the fields of its body format (R62);
a row that is an event carries the names of the agents it concerns. -/

namespace Sys2Proof

/-- R60: the header common to all words, less OPC and the zero bit 48. -/
structure Hdr where
  dly : BitVec 3
  gp : BitVec 3
  gn : Bool
  deriving DecidableEq, Repr

/-- R62: formats A and E. -/
structure FmtA where
  rd : BitVec 5
  ra : BitVec 5
  rb : BitVec 5
  rc : BitVec 5
  fn : BitVec 8
  imm : BitVec 20
  deriving DecidableEq, Repr

/-- R62: format B. -/
structure FmtB where
  rd : BitVec 5
  ra : BitVec 5
  fn : BitVec 6
  imm : BitVec 32
  deriving DecidableEq, Repr

/-- R62: format C. -/
structure FmtC where
  rd : BitVec 5
  ra : BitVec 5
  rb : BitVec 5
  fn : BitVec 1
  off : BitVec 32
  deriving DecidableEq, Repr

/-- R62, R64: format M. -/
structure FmtM where
  rt : BitVec 5
  ra : BitVec 5
  rb : BitVec 5
  sz : BitVec 3
  scp : BitVec 3
  ord : BitVec 2
  fnm : BitVec 4
  win : BitVec 8
  off : BitVec 13
  deriving DecidableEq, Repr

/-- R62, R65: format V. -/
structure FmtV where
  vd : BitVec 4
  va : BitVec 4
  vb : BitVec 4
  vc : BitVec 4
  msk : BitVec 3
  z : BitVec 1
  fold : BitVec 2
  ft : BitVec 4
  fn : BitVec 8
  rs : BitVec 5
  imm : BitVec 9
  deriving DecidableEq, Repr

/-- R62: format X. -/
structure FmtX where
  rd : BitVec 5
  ra : BitVec 5
  srn : BitVec 12
  fn : BitVec 6
  imm : BitVec 20
  deriving DecidableEq, Repr

/-- Which of the three writing instructions of R113 a system-register write is. -/
inductive SrOp where
  | move | set | clear
  deriving DecidableEq, Repr

/-- R393: how one fetch of a shard ended: the bytes with a good CRC, a bad CRC, or a completion timeout. -/
inductive FetchResult where
  | good (bytes : List Byte)
  | badCrc
  | timeout
  deriving DecidableEq, Repr

/-- R396: what the boot chain knows of a firmware image: its header's security version and DEBUG flag, a name for
its digest, whether TAG, VER, DIGEST and MSIG check out, and a name for the owner key that OSIG was made with. -/
structure FwImage where
  svn : Nat
  debug : Bool
  digest : Nat
  tagOk : Bool
  digestOk : Bool
  makerOk : Bool
  ownerKey : Nat
  deriving DecidableEq, Repr

/-- R363: the fields a rank program reads. -/
inductive RankField where
  | cls | tokens | remain | cores | queue | weight | type | age
  deriving DecidableEq, Repr

/-- R363: the operations of a rank program over r0 to r7. -/
inductive RankOp where
  | ldf (d : Fin 8) (f : RankField)
  | ldi (d : Fin 8) (n : Nat)
  | add (d a b : Fin 8)
  | sub (d a b : Fin 8)
  | mul (d a b : Fin 8)
  | min (d a b : Fin 8)
  | max (d a b : Fin 8)
  | shl (d a : Fin 8) (n : Nat)
  | shr (d a : Fin 8) (n : Nat)
  deriving DecidableEq, Repr

/-- The 295 rows of the opcode table. -/
inductive Instr where
  /-- NOP (R61): Executes and does nothing; DLY and guard act as on any word. -/
  | nop (h : Hdr) (o : FmtC)
  /-- BR (R89): Branches to PC + OFF32, issuing the target on the third turn after. -/
  | br (h : Hdr) (o : FmtC)
  /-- JMP (R89): Jumps to G(RA) + OFF32, faulting 0x09 if the target lies outside the instruction store. -/
  | jmp (h : Hdr) (o : FmtC)
  /-- CALL (R89): Writes the link PC + 1 and branches to PC + OFF32. -/
  | call (h : Hdr) (o : FmtC)
  /-- CALLR (R89): Writes the link PC + 1 and branches to G(RA) + OFF32. -/
  | callr (h : Hdr) (o : FmtC)
  /-- RET (R89): Returns to the word index in G(RA) without popping any loop level. -/
  | ret (h : Hdr) (o : FmtC)
  /-- LOOP (R93): Pushes a loop level counted from G(RA), or skips the body when the count is 0. -/
  | loop (h : Hdr) (o : FmtC)
  /-- LOOP_IMM (R93): Pushes a loop level with an immediate count of 0 to 1,023. -/
  | loopImm (h : Hdr) (o : FmtC)
  /-- WAITC (R97): Stalls the slot, still RUNNING, until CYCLE reaches G(RA) + OFF32. -/
  | waitc (h : Hdr) (o : FmtC)
  /-- WAITC_IMM (R97): Stalls the slot for OFF32 turns. -/
  | waitcImm (h : Hdr) (o : FmtC)
  /-- END (R98): Moves the slot to HALTED on its issue turn. -/
  | endSlot (h : Hdr) (o : FmtC)
  /-- TRAP (R355): Takes precise fault 0x20 with the code in FINFO. -/
  | trap (h : Hdr) (o : FmtC)
  /-- BRK (R355): Takes precise fault 0x21, or goes to the loupe when the slot is claimed for debug. -/
  | brk (h : Hdr) (o : FmtC)
  /-- RFT (R356): Clears SLOT.H and resumes at EPC, re-issuing the faulting instruction. -/
  | rft (h : Hdr) (o : FmtC)
  /-- RFT_NEXT (R356): Clears SLOT.H and resumes at the instruction after EPC. -/
  | rftNext (h : Hdr) (o : FmtC)
  /-- CHKP (R357): Marks a checkpoint by reloading BUDGET.LEFT from RELOAD. -/
  | chkp (h : Hdr) (o : FmtC)
  /-- CHKP_IMM (R357): Marks a checkpoint and sets both RELOAD and LEFT to n. -/
  | chkpImm (h : Hdr) (o : FmtC)
  /-- ADD (R100): Writes a + b modulo 2^64. -/
  | add (h : Hdr) (o : FmtA)
  /-- SUB (R100): Writes a - b modulo 2^64. -/
  | sub (h : Hdr) (o : FmtA)
  /-- MUL (R100): Writes the low 64 bits of a × b, with latency 3. -/
  | mul (h : Hdr) (o : FmtA)
  /-- MULH (R100): Writes the high 64 bits of a signed, unsigned or mixed product. -/
  | mulh (h : Hdr) (o : FmtA)
  /-- DIV (R101): Divides, signed or unsigned, with latency 18, occupying the divide unit; a zero divisor follows TIZ. -/
  | div (h : Hdr) (o : FmtA)
  /-- REM (R101): Writes the remainder of a signed or unsigned division, using the divide unit. -/
  | rem (h : Hdr) (o : FmtA)
  /-- AND (R100): Writes a AND b. -/
  | andG (h : Hdr) (o : FmtA)
  /-- OR (R100): Writes a OR b. -/
  | orG (h : Hdr) (o : FmtA)
  /-- XOR (R100): Writes a XOR b. -/
  | xorG (h : Hdr) (o : FmtA)
  /-- ANDN (R100): Writes a AND NOT b. -/
  | andn (h : Hdr) (o : FmtA)
  /-- SHL (R100): Shifts a left by b[5:0]. -/
  | shl (h : Hdr) (o : FmtA)
  /-- SHR (R100): Shifts a right logically by b[5:0]. -/
  | shr (h : Hdr) (o : FmtA)
  /-- SAR (R100): Shifts a right arithmetically by b[5:0]. -/
  | sar (h : Hdr) (o : FmtA)
  /-- ROT (R100): Rotates a right, or left with .l, by b[5:0]. -/
  | rot (h : Hdr) (o : FmtA)
  /-- MIN (R100): Writes the signed or unsigned minimum. -/
  | minG (h : Hdr) (o : FmtA)
  /-- MAX (R100): Writes the signed or unsigned maximum. -/
  | maxG (h : Hdr) (o : FmtA)
  /-- CLZ (R100): Counts the leading zero bits of a. -/
  | clz (h : Hdr) (o : FmtA)
  /-- CTZ (R100): Counts the trailing zero bits of a. -/
  | ctz (h : Hdr) (o : FmtA)
  /-- POPC (R100): Counts the set bits of a. -/
  | popc (h : Hdr) (o : FmtA)
  /-- EXT (R102): Sign-extends or zero-extends a from 8, 16 or 32 bits. -/
  | ext (h : Hdr) (o : FmtA)
  /-- BFX (R102): Extracts a bit field, zero-extended or sign-extended. -/
  | bfx (h : Hdr) (o : FmtA)
  /-- BFI (R102): Inserts the low bits of a into a field of the destination. -/
  | bfi (h : Hdr) (o : FmtA)
  /-- SEL (R103): Selects a or b according to a predicate. -/
  | sel (h : Hdr) (o : FmtA)
  /-- LEA (R103): Writes a + (b << sh) + Sext(IMM20). -/
  | lea (h : Hdr) (o : FmtA)
  /-- CMP (R103): Writes a predicate from an integer condition on two registers. -/
  | cmp (h : Hdr) (o : FmtA)
  /-- PLOG (R103): Combines two predicates by a LUT4. -/
  | plog (h : Hdr) (o : FmtA)
  /-- ADDI (R104): Adds a sign-extended 32-bit immediate. -/
  | addi (h : Hdr) (o : FmtB)
  /-- ANDI (R104): ANDs a with a sign-extended or zero-extended immediate. -/
  | andi (h : Hdr) (o : FmtB)
  /-- ORI (R104): ORs a with a sign-extended or zero-extended immediate. -/
  | ori (h : Hdr) (o : FmtB)
  /-- XORI (R104): XORs a with a sign-extended or zero-extended immediate. -/
  | xori (h : Hdr) (o : FmtB)
  /-- SHI (R104): Shifts or rotates a by an immediate amount. -/
  | shi (h : Hdr) (o : FmtB)
  /-- LI (R104): Loads a sign-extended 32-bit immediate. -/
  | li (h : Hdr) (o : FmtB)
  /-- LI_Z (R104): Loads a zero-extended 32-bit immediate. -/
  | liZ (h : Hdr) (o : FmtB)
  /-- LI_H (R104): Writes the immediate into bits [63:32] over a[31:0]. -/
  | liH (h : Hdr) (o : FmtB)
  /-- CMPI (R104): Writes a predicate from a condition against a sign-extended immediate. -/
  | cmpi (h : Hdr) (o : FmtB)
  /-- FADD (R106): Adds two FP32 values with one rounding. -/
  | fadd (h : Hdr) (o : FmtA)
  /-- FSUB (R106): Subtracts two FP32 values with one rounding. -/
  | fsub (h : Hdr) (o : FmtA)
  /-- FMUL (R106): Multiplies two FP32 values with one rounding. -/
  | fmul (h : Hdr) (o : FmtA)
  /-- FFMA (R106): Computes a fused multiply-add with optional negations and one rounding. -/
  | ffma (h : Hdr) (o : FmtA)
  /-- FMIN (R107): Writes the FP32 minimum, with NaN handling selected by FN. -/
  | fmin (h : Hdr) (o : FmtA)
  /-- FMAX (R107): Writes the FP32 maximum, with NaN handling selected by FN. -/
  | fmax (h : Hdr) (o : FmtA)
  /-- FCMP (R108): Writes a predicate from an FP comparison, setting NV as FCOND requires. -/
  | fcmp (h : Hdr) (o : FmtA)
  /-- FCVT (R109): Converts a scalar between formats by the paths of R42. -/
  | fcvt (h : Hdr) (o : FmtA)
  /-- FSF (R110): Computes a special function, rounded RNE to FP32. -/
  | fsf (h : Hdr) (o : FmtA)
  /-- FCLASS (R111): Writes a one-hot classification of an FP32 value. -/
  | fclass (h : Hdr) (o : FmtA)
  /-- FSGN (R112): Manipulates the sign bit of an FP32 value. -/
  | fsgn (h : Hdr) (o : FmtA)
  /-- MFSR (R113): Reads a system register into a g register. -/
  | mfsr (h : Hdr) (o : FmtX)
  /-- MTSR (R113): Writes the rw fields of a system register that has no row of its own; the write takes effect on the next turn. -/
  | mtsr (h : Hdr) (o : FmtX)
  /-- SRSET (R113): ORs a value into a system register. -/
  | srset (h : Hdr) (o : FmtX)
  /-- SRCLR (R113): Clears bits of a system register. -/
  | srclr (h : Hdr) (o : FmtX)
  /-- WHEEL_WRITE (R121): A write to WHEEL is checked against the task's grants, and refused with 0x03 or scheduled for the next boundary. -/
  | wheelWrite (h : Hdr) (op : SrOp) (o : FmtX)
  /-- WHEEL_SWITCH (R122): A pending WHEEL value comes into force at the first 16-aligned P-cycle at least 2 P-cycles after its write. -/
  | wheelSwitch (core : Nat)
  /-- LD (R286): Loads from a local or global address, with its result visible at the window end. -/
  | ld (h : Hdr) (o : FmtM)
  /-- ST (R287): Stores to a local bank write buffer, or posts a global store to the NI. -/
  | st (h : Hdr) (o : FmtM)
  /-- AMO (R288): Performs an indivisible read-modify-write at the bank and returns the old value. -/
  | amo (h : Hdr) (o : FmtM)
  /-- FENCE_ACQ (R290): Stalls until every earlier load and AMO is visible or has faulted. -/
  | fenceAcq (h : Hdr) (o : FmtM)
  /-- FENCE_REL (R290): Stalls until every earlier access has performed at the scope. -/
  | fenceRel (h : Hdr) (o : FmtM)
  /-- FENCE_AR (R290): Stalls until both the acquire and the release conditions hold. -/
  | fenceAr (h : Hdr) (o : FmtM)
  /-- FENCE_SC (R305): Drains as FENCE.ar and then waits for its place in the SC order, or for a heartbeat tick. -/
  | fenceSc (h : Hdr) (o : FmtM)
  /-- FENCE_LAYER (R290): Stalls until VCOMP.DONE reaches the ISSUED count taken at issue. -/
  | fenceLayer (h : Hdr) (o : FmtM)
  /-- GIVE (R274): Starts handing the bank at entry k to entry j of a named core, marking entry k pending. -/
  | give (h : Hdr) (o : FmtM)
  /-- GIVE_ADMISSION (R274): The switch admits the give, or refuses it as BUSY or OCCUPIED, by c0 + 4. -/
  | giveAdmission (core id : Nat)
  /-- GIVE_REPOINT (R274): After the release completes, the bank is re-pointed to the target entry, the forward record is made and the notify bits are set. -/
  | giveRepoint (core id : Nat)
  /-- BATT (R277): Requests a pooled bank for entry k, reporting OCCUPIED or EMPTY when refused. -/
  | batt (h : Hdr) (o : FmtM)
  /-- BATT_COMPLETE (R277): The zeroed bank is attached with an advanced generation. -/
  | battComplete (core k : Nat)
  /-- BDET (R277): Starts detaching the bank at entry k. -/
  | bdet (h : Hdr) (o : FmtM)
  /-- BDET_COMPLETE (R277): The bank is returned to the pool after admitted accesses drain, and V and PEND clear. -/
  | bdetComplete (core k : Nat)
  /-- BQRY (R278): Queries the switch about an entry and its forward record, stalling until the answer is visible. -/
  | bqry (h : Hdr) (o : FmtM)
  /-- BQRY_ANSWER (R278): The switch samples the entry and its forward table, and the answer reaches the slot. -/
  | bqryAnswer (core slot : Nat)
  /-- VADD (R138): Adds vectors elementwise with one rounding per lane. -/
  | vadd (h : Hdr) (o : FmtV)
  /-- VSUB (R138): Subtracts vectors elementwise. -/
  | vsub (h : Hdr) (o : FmtV)
  /-- VMUL (R138): Multiplies vectors elementwise. -/
  | vmul (h : Hdr) (o : FmtV)
  /-- VFMA (R138): Computes a fused multiply-add per lane. -/
  | vfma (h : Hdr) (o : FmtV)
  /-- VMIN (R139): Takes the minimum per lane, ordering pairs by R35 for KEYIDX. -/
  | vmin (h : Hdr) (o : FmtV)
  /-- VMAX (R139): Takes the maximum per lane. -/
  | vmax (h : Hdr) (o : FmtV)
  /-- VSGN (R140): Manipulates the sign of each lane. -/
  | vsgn (h : Hdr) (o : FmtV)
  /-- VCMP (R141): Compares lanes and writes a mask. -/
  | vcmp (h : Hdr) (o : FmtV)
  /-- VSEL (R142): Selects lanes from VA or VB by a mask. -/
  | vsel (h : Hdr) (o : FmtV)
  /-- VAND (R142): ANDs lanes with B, optionally inverted. -/
  | vand (h : Hdr) (o : FmtV)
  /-- VOR (R142): ORs lanes with B, optionally inverted. -/
  | vor (h : Hdr) (o : FmtV)
  /-- VXOR (R142): XORs lanes with B, optionally inverted. -/
  | vxor (h : Hdr) (o : FmtV)
  /-- VSH (R142): Shifts or rotates each lane. -/
  | vsh (h : Hdr) (o : FmtV)
  /-- VCVT (R143): Converts each lane between formats. -/
  | vcvt (h : Hdr) (o : FmtV)
  /-- VSF (R144): Computes a special function per lane. -/
  | vsf (h : Hdr) (o : FmtV)
  /-- VRED (R145): Reduces the lanes by a fixed pairwise tree into lane 0. -/
  | vred (h : Hdr) (o : FmtV)
  /-- VSCAN (R146): Computes an inclusive or exclusive scan in lane order. -/
  | vscan (h : Hdr) (o : FmtV)
  /-- VPERM (R147): Permutes lanes by index or by XOR. -/
  | vperm (h : Hdr) (o : FmtV)
  /-- VBCAST (R147): Broadcasts a scalar or a lane to every lane. -/
  | vbcast (h : Hdr) (o : FmtV)
  /-- VEXT (R147): Extracts one lane into a g register. -/
  | vext (h : Hdr) (o : FmtV)
  /-- VINS (R147): Inserts a scalar into one lane. -/
  | vins (h : Hdr) (o : FmtV)
  /-- VIOTA (R147): Writes lane indices or running mask counts. -/
  | viota (h : Hdr) (o : FmtV)
  /-- VSLIDE (R147): Slides lanes up or down, filling from VB. -/
  | vslide (h : Hdr) (o : FmtV)
  /-- VLD (R150): Loads lanes from the local window at unit or register stride. -/
  | vld (h : Hdr) (o : FmtV)
  /-- VST (R150): Stores lanes to the local window, narrowing each to its container. -/
  | vst (h : Hdr) (o : FmtV)
  /-- VGATH (R150): Gathers lanes from indexed addresses. -/
  | vgath (h : Hdr) (o : FmtV)
  /-- VSCAT (R150): Scatters lanes to indexed addresses. -/
  | vscat (h : Hdr) (o : FmtV)
  /-- VQE8 (R155): Quantises eight points to E8L codes by NearestE8. -/
  | vqe8 (h : Hdr) (o : FmtV)
  /-- VDE8 (R156): Decodes E8L codes and scales to FP32 lanes. -/
  | vde8 (h : Hdr) (o : FmtV)
  /-- VSCE8 (R154): Computes E8L group scales with ScaleE8L. -/
  | vsce8 (h : Hdr) (o : FmtV)
  /-- VQF4 (R158): Encodes two FQ4 groups from given parameters. -/
  | vqf4 (h : Hdr) (o : FmtV)
  /-- VDF4 (R159): Decodes two FQ4 groups into FP32 lanes. -/
  | vdf4 (h : Hdr) (o : FmtV)
  /-- VSCF4 (R157): Computes FQ4 group parameters. -/
  | vscf4 (h : Hdr) (o : FmtV)
  /-- VRNG (R160): Fills lanes from GLINT, as raw bits or uniform FP32. -/
  | vrng (h : Hdr) (o : FmtV)
  /-- VMLOG (R149): Combines two masks by a LUT4. -/
  | vmlog (h : Hdr) (o : FmtV)
  /-- VMPOP (R149): Counts the active set bits of a mask into a g register. -/
  | vmpop (h : Hdr) (o : FmtV)
  /-- VMFST (R149): Finds the first active set lane of a mask. -/
  | vmfst (h : Hdr) (o : FmtV)
  /-- VMOV (R147): Moves vector to vector, vector to mask, or mask to vector. -/
  | vmov (h : Hdr) (o : FmtV)
  /-- VPACK (R148): Packs narrow lanes of VA and VB into containers. -/
  | vpack (h : Hdr) (o : FmtV)
  /-- VUNPK (R148): Unpacks one half of packed containers into lanes. -/
  | vunpk (h : Hdr) (o : FmtV)
  /-- VCLMP (R139): Clamps lanes between VB and VC. -/
  | vclmp (h : Hdr) (o : FmtV)
  /-- EPOP (R225): Pops one entry from every live lane of an output edge into a vector register. -/
  | epop (h : Hdr) (o : FmtV)
  /-- EPUSH (R225): Pushes one token per active lane into an input edge. -/
  | epush (h : Hdr) (o : FmtV)
  /-- EPUSH_HDR (R225): Pushes a header from G(RS) into every active live lane of an input edge. -/
  | epushHdr (h : Hdr) (o : FmtV)
  /-- FUSE (R215): Starts building a lens from its facets. -/
  | fuse (h : Hdr) (o : FmtA)
  /-- FUSE_COMPLETE (R175): Every core acknowledges, and the lens is fused or FUSE fails with a status. -/
  | fuseComplete (lens : Nat)
  /-- UNFUSE (R215): Returns the lens's facets to the unfused state, or reports BUSY or INUSE. -/
  | unfuse (h : Hdr) (o : FmtA)
  /-- LGO (R216): Arms a LENS node that will run a tile-step list, or resume a frozen lens. -/
  | lgo (h : Hdr) (o : FmtA)
  /-- LENS_NODE_START (R216): Once earlier FUSE and LGO commands complete, the list starts, or the node completes NOTFUSED. -/
  | lensNodeStart (lens : Nat)
  /-- LSTOP (R217): Stops injection at the end of the current tile invocation. -/
  | lstop (h : Hdr) (o : FmtA)
  /-- LSTOP_Q (R217): Stops injection from the next A-cycle. -/
  | lstopQ (h : Hdr) (o : FmtA)
  /-- LSTAT (R218): Returns the lens size, state, flags and current row. -/
  | lstat (h : Hdr) (o : FmtA)
  /-- AGSET (R219): Loads an AG descriptor, leaving the AG LOADED or BAD. -/
  | agset (h : Hdr) (o : FmtA)
  /-- AGGO (R219): Starts the named AGs, all or none. -/
  | aggo (h : Hdr) (o : FmtA)
  /-- AGSTAT (R219): Returns an AG's counters and state. -/
  | agstat (h : Hdr) (o : FmtA)
  /-- GATE_CLOSE (R220): Closes the named edge gates of the core. -/
  | gateClose (h : Hdr) (o : FmtA)
  /-- GATE_OPEN (R220): Opens the named edge gates of the core. -/
  | gateOpen (h : Hdr) (o : FmtA)
  /-- BIND (R221): Activates a stream channel. -/
  | bindCh (h : Hdr) (o : FmtA)
  /-- BIND_COMPLETE (R221): The channel binding completes within 256 P-cycles of the BIND. -/
  | bindComplete (task chan : Nat)
  /-- BIND_UN (R221): Stops credits on a channel. -/
  | bindUn (h : Hdr) (o : FmtA)
  /-- UNBIND_COMPLETE (R221): Tokens in flight arrive, and the lanes return to the prism. -/
  | unbindComplete (task chan : Nat)
  /-- SKEW_RD (R222): Reads the delay counter of an edge lane. -/
  | skewRd (h : Hdr) (o : FmtA)
  /-- SKEW_WR (R222): Writes the delay counter of an edge lane. -/
  | skewWr (h : Hdr) (o : FmtA)
  /-- CTAB (R223): Requests a write of one control-table entry of a logical cell. -/
  | ctab (h : Hdr) (o : FmtA)
  /-- CTAB_LAND (R223): The control word lands between two A-cycles, and the restart mask and lane sets are updated. -/
  | ctabLand (lens id : Nat)
  /-- DMAP_FACET (R224): Returns the defect-map facet data of a core. -/
  | dmapFacet (h : Hdr) (o : FmtA)
  /-- DMAP_CORE (R224): Returns the live and retired bits of a core. -/
  | dmapCore (h : Hdr) (o : FmtA)
  /-- SEND (R244): Queues a message to a named core's channel, issuing once a send-queue entry is free. -/
  | sendMsg (h : Hdr) (o : FmtA)
  /-- RECV (R245): Arms a placed receive with a window relative to SYNCREF. -/
  | recv (h : Hdr) (o : FmtA)
  /-- RECVA (R246): Arms a mailbox receive that sets a notify bit. -/
  | recva (h : Hdr) (o : FmtA)
  /-- BAR_AW (R250): Arrives at the barrier and waits for the release. -/
  | barAw (h : Hdr) (o : FmtA)
  /-- BAR_A (R250): Arrives at the barrier without waiting. -/
  | barA (h : Hdr) (o : FmtA)
  /-- BAR_W (R250): Waits for the release if the core has arrived. -/
  | barW (h : Hdr) (o : FmtA)
  /-- NOTE (R253): Sets notify bits of a named slot after a release at the named scope. -/
  | note (h : Hdr) (o : FmtA)
  /-- WAITN (R254): Waits for any or all masked notify bits and clears those matched. -/
  | waitn (h : Hdr) (o : FmtA)
  /-- NAME (R236): Prefetches a name-table walk into the name cache. -/
  | namePre (h : Hdr) (o : FmtA)
  /-- GNODE (R316): Arms a graph node from a 32-byte descriptor. -/
  | gnode (h : Hdr) (o : FmtA)
  /-- GDEP (R335): Adds a dependence edge between two nodes. -/
  | gdep (h : Hdr) (o : FmtA)
  /-- GWAIT (R336): Waits for one node to complete and frees it. -/
  | gwait (h : Hdr) (o : FmtA)
  /-- GWAIT_ALL (R336): Waits for every node that the slot owns. -/
  | gwaitAll (h : Hdr) (o : FmtA)
  /-- GPOLL (R337): Returns a node's state without waiting, freeing it if DONE. -/
  | gpoll (h : Hdr) (o : FmtA)
  /-- GKILL (R338): Cancels a node. -/
  | gkill (h : Hdr) (o : FmtA)
  /-- GSTAT_FREE (R337): Returns the number of FREE node slots. -/
  | gstatFree (h : Hdr) (o : FmtA)
  /-- GSTAT_DONE (R337): Returns the number of DONE nodes. -/
  | gstatDone (h : Hdr) (o : FmtA)
  /-- CPY (R334): Arms a COPY node on a copy-engine channel. -/
  | cpy (h : Hdr) (o : FmtA)
  /-- QNT_E8L (R334): Arms a QUANT node that produces E8L. -/
  | qntE8l (h : Hdr) (o : FmtA)
  /-- QNT_FQ4 (R334): Arms a QUANT node that produces FQ4. -/
  | qntFq4 (h : Hdr) (o : FmtA)
  /-- RESULT_WRITEBACK (R15): A result in flight becomes visible in its register on its visibility turn. -/
  | resultWriteback (core slot id : Nat)
  /-- DEFERRED_FAULT (R343): A deferred-precise fault falls due on a computable turn and is taken under R24 with DEF = 1. -/
  | deferredFault (core slot id : Nat)
  /-- WINDOW_END (R280): At the window end a latched result becomes visible, or the slot takes 0x05 if no data have arrived. -/
  | windowEnd (core slot id : Nat)
  /-- BUDGET_DEADLINE (R351): When BUDGET.LEFT reaches 0, the slot takes deadline fault 0x06. -/
  | budgetDeadline (core slot : Nat)
  /-- INPUT_PRESENT (R200): An input lane presents a token, converted by its port, or idle-zero to its first cell. -/
  | inputPresent (lens edge lane : Nat)
  /-- EDGE_WAIT_END (R202): Every dry lane holds a token and every full lane has an entry, so the region runs again. -/
  | edgeWaitEnd (lens : Nat)
  /-- STEP_ROW (R183): The sequencer runs a STEP row, injecting wave tokens interval by interval. -/
  | stepRow (lens : Nat)
  /-- TILE_LOOP_ROW (R184): The sequencer handles a LOOP row with its counter stack. -/
  | tileLoopRow (lens : Nat)
  /-- WAITG_ROW (R184): The sequencer pauses injection until a graph node completes. -/
  | waitgRow (lens : Nat)
  /-- SIGNAL_ROW (R184): The sequencer sets notify bits in a slot of the origin core. -/
  | signalRow (lens : Nat)
  /-- END_ROW (R184): The sequencer stops injection. -/
  | endRow (lens : Nat)
  /-- SYNC_ROW (R184): The sequencer pauses until CYCLE reaches SYNCREF + OFS. -/
  | syncRow (lens : Nat)
  /-- SYNC_RESUME (R184): The origin's CYCLE reaches the SYNC target, and injection resumes. -/
  | syncResume (lens : Nat)
  /-- INVOCATION_END (R186): A tile invocation ends, and its held stores commit. -/
  | invocationEnd (lens : Nat)
  /-- LIST_FINISH (R184): The last wave token leaves the lens and every store commits, so the list finishes. -/
  | listFinish (lens : Nat)
  /-- ROW_BUDGET_DEADLINE (R188): A row's BUDGET count is reached, and the lens takes region fault 0x06. -/
  | rowBudgetDeadline (lens : Nat)
  /-- AG_FETCH (R206): An input AG's read returns, and tokens enter its lane buffers. -/
  | agFetch (core ag lane : Nat)
  /-- CHANNEL_FORWARD (R211): A producing lane forwards its head token when every consumer holds a credit. -/
  | channelForward (task chan lane : Nat)
  /-- FREEZE_LINE (R346): A region event asserts the lens's freeze line and keeps the earliest event. -/
  | freezeLine (lens : Nat)
  /-- FREEZE_COMPLETE (R347): After the skid every facet stops, invocations are discarded, AGs rewind and the freeze record is written. -/
  | freezeComplete (lens : Nat)
  /-- NODE_COMPLETE (R319): A node's work ends, its completion object is written, notify bits are set and successors are released or cancelled. -/
  | nodeComplete (core node : Nat)
  /-- COPY_SEGMENT (R330): A copy-engine channel reads and writes one 64-byte segment. -/
  | copySegment (core chan : Nat)
  /-- GRAPH_UNIT_RUN (R330): The graph unit runs a GIVE, WAKE or REMOTE node in launch order. -/
  | graphUnitRun (core : Nat)
  /-- REMOTE_RELEASE (R330): A release arrives at a target node and decrements its count if it is ARMED. -/
  | remoteRelease (pkt : Nat)
  /-- GLOBAL_REQUEST_ARRIVE (R264): A global access request arrives at the target NI and performs at the bank's back port, or is refused. -/
  | globalRequestArrive (pkt : Nat)
  /-- GLOBAL_RESPONSE_ARRIVE (R280): Data, an acknowledgement or an error response reaches the requester and is latched. -/
  | globalResponseArrive (pkt : Nat)
  /-- BULK_TRANSFER_DONE (R284): A bulk vertical transfer reaches the bank's write buffer, and VCOMP.DONE advances. -/
  | bulkTransferDone (core : Nat)
  /-- MESSAGE_ARRIVE (R246): A message arrives on a channel and is deposited, or discarded with fault 0x07. -/
  | messageArrive (pkt : Nat)
  /-- RECV_WINDOW_EXPIRE (R246): A placed receive's window ends with no arrival, so the receive is disarmed with 0x07 kind 1. -/
  | recvWindowExpire (core chan : Nat)
  /-- NOTIFY_ARRIVE (R253): Notify bits arrive in a slot's NOTIFY, and any satisfied WAITN passes. -/
  | notifyArrive (core slot : Nat) (mask : BitVec 16)
  /-- NAME_WALK_COMPLETE (R235): A name-table walk ends, and the entry is cached mapped or unmapped. -/
  | nameWalkComplete (core name : Nat)
  /-- BARRIER_ARRIVAL (R311): A core's arrival is latched once its covered accesses have performed. -/
  | barrierArrival (core bar : Nat)
  /-- BARRIER_RELEASE (R249): After the last arrival each core sees the release, sets SYNCREF and ends its waits. -/
  | barrierRelease (core bar : Nat)
  /-- DEVICE_HEARTBEAT (R232): A device heartbeat tick reaches a core, advancing HBEAT and ending device SC fences. -/
  | deviceHeartbeat (core : Nat)
  /-- PANEL_HEARTBEAT (R386): A panel heartbeat tick reaches a core, ending panel SC fences and applying panel barrier releases. -/
  | panelHeartbeat (core : Nat)
  /-- PACKET_RETRANSMIT (R313): After routes are recomputed, the source NI resends unacknowledged packets in SEQ order. -/
  | packetRetransmit (pkt : Nat)
  /-- WALK_COMPLETE (R293): A walk engine finishes a translation walk and returns its status. -/
  | walkComplete (id : Nat)
  /-- EXTENT_INSTALL (R295): A service thread installs a walked extent in an AG, and injection resumes. -/
  | extentInstall (core ag : Nat)
  /-- MIGRATION_COMMIT (R296): The DMA copy ends, and the PTE is rewritten to local HBM and invalidated. -/
  | migrationCommit (asid : Nat) (va : Word)
  /-- QUEUE_MAP (R358): A queue with unprocessed packets is mapped to the longest-idle queue thread. -/
  | queueMap (q : Nat)
  /-- PIFO_PUSH (R362): A queue thread pushes a packet into the PIFO with its rank. -/
  | pifoPush (q : Nat)
  /-- RANK_UPDATE (R363): A PIFO entry's AGE advances, and its rank is computed again. -/
  | rankUpdate (entry : Nat)
  /-- LAUNCH (R228): A LAUNCH packet is checked and placed as a task. -/
  | launchPacket (entry : Nat)
  /-- WAIT (R360): A WAIT packet blocks its queue thread until a word satisfies a condition. -/
  | waitPacket (q : Nat)
  /-- WAIT_SATISFIED (R360): The awaited word satisfies the WAIT condition, and the packet completes. -/
  | waitSatisfied (q : Nat)
  /-- SIGNAL (R360): A SIGNAL packet writes or adds to a word after earlier packets complete. -/
  | signalPacket (entry : Nat)
  /-- LOADW (R393): A LOADW packet checks a manifest and reserves pages for a weight load. -/
  | loadwPacket (entry : Nat)
  /-- LOADW_COMMIT (R393): Every shard is good, so all PTEs are made valid together and RESULT is written. -/
  | loadwCommit (load : Nat)
  /-- COPY (R360): A COPY packet copies bytes with memmove semantics. -/
  | copyPacket (entry : Nat)
  /-- MAP (R360): A MAP packet writes or clears PTEs and invalidates. -/
  | mapPacket (entry : Nat)
  /-- FENCE_PACKET (R360): A FENCE packet completes after every earlier packet of its queue. -/
  | fencePacket (entry : Nat)
  /-- KILL (R360): A KILL packet ends a task under the KILL policy. -/
  | killPacket (entry : Nat)
  /-- PREEMPT_DRAIN (R369): A victim under DRAIN runs to its end while ingress to it stops. -/
  | preemptDrain (task : Nat)
  /-- DRAIN_LIMIT_EXPIRE (R368): A drain victim still runs after twice the drain limit and is decided again without row 1. -/
  | drainLimitExpire (task : Nat)
  /-- PREEMPT_CHECKPOINT (R369): A victim's lenses stop at their interval ends and its slots drain. -/
  | preemptCheckpoint (task : Nat)
  /-- CHECKPOINT_SAVE (R372): A drained victim's state is scanned out to the save area, its banks are parked and it is suspended. -/
  | checkpointSave (task : Nat)
  /-- PREEMPT_KILL (R369): A victim's slots are unbound at once and its banks pooled, and the LAUNCH completes KILLED. -/
  | preemptKill (task : Nat)
  /-- DISPATCH_BIND (R366): Dispatch obeys a bind record: closes gates, attaches banks, purges and streams the image. -/
  | dispatchBind (task : Nat)
  /-- GATES_OPEN (R366): Every core acknowledges, slot state is loaded and the gates open, so the slots run. -/
  | gatesOpen (task : Nat)
  /-- TASK_END (R361): Every bound slot of the task has stopped, so teardown runs and the completion object is written. -/
  | taskEnd (task : Nat)
  /-- TASK_RESUME (R373): A suspended task is rebound on its cores with its state restored and shifted by Δ. -/
  | taskResume (task : Nat)
  /-- WAKE_MAILBOX_DELIVER (R340): A woken cluster receives its mailbox entries and any overflow mask. -/
  | wakeMailboxDeliver (cluster : Nat)
  /-- CLUSTER_WAKE (R402): A clock-gated or power-gated cluster finishes waking. -/
  | clusterWake (cluster : Nat)
  /-- CLOCK_GATE (R402): A cluster idle for 1 ms is clock-gated. -/
  | clockGate (cluster : Nat)
  /-- POWER_GATE (R402): A cluster idle for 100 ms is power-gated. -/
  | powerGate (cluster : Nat)
  /-- THERMAL_STEP (R401): A decided clock step takes effect for a lens's whole clock region between two A-cycles, within 2 µs of the decision. -/
  | thermalStep (lens : Nat) (up : Bool)
  /-- SC_ORDER_PLACE (R290): The cluster's bank switch places a FENCE.SC at SLOT, CORE or CLUSTER scope in its SC order, about 8 P-cycles after the drain, ending the fence's stall. -/
  | scOrderPlace (core slot : Nat)
  /-- HEAD_FLIT_LEAVES (R242): A staged message or notify at the head of the NI send queue leaves its core, freeing a send-queue entry, once its name is mapped and not frozen. -/
  | headFlitLeaves (core : Nat)
  /-- NI_GIVE_UP (R354): No path remains, so the packet is reported as 0x3A against its agent. -/
  | niGiveUp (pkt : Nat)
  /-- HOLD (R168): A cell repeats its previous outputs and changes no state. -/
  | cellHold (lens row col : Nat)
  /-- PASS (R168): A cell forwards W-in east and N-in south. -/
  | cellPass (lens row col : Nat)
  /-- ACM (R168): A cell accumulates the dot product of its inputs into A. -/
  | cellAcm (lens row col : Nat)
  /-- ACMZ (R168): A cell sets A to the dot product of its inputs. -/
  | cellAcmz (lens row col : Nat)
  /-- PSM (R168): A cell adds its weight products to the partial sum from the north. -/
  | cellPsm (lens row col : Nat)
  /-- WLD (R168): A cell loads a weight register from N-in. -/
  | cellWld (lens row col : Nat)
  /-- DRN (R168): A cell emits A and loads A from N-in. -/
  | cellDrn (lens row col : Nat)
  /-- CMPX (R170): A cell compare-exchanges KEYIDX pairs, keeping the higher. -/
  | cellCmpx (lens row col : Nat)
  /-- REC (R171): A cell computes a linear recurrence through the delay node. -/
  | cellRec (lens row col : Nat)
  /-- GEN (R168): A cell produces a GLINT value from its index input. -/
  | cellGen (lens row col : Nat)
  /-- CELL_ADD (R168): A cell adds its two sum inputs. -/
  | cellAdd (lens row col : Nat)
  /-- MAXP (R168): A cell keeps the running maximum in A. -/
  | cellMaxp (lens row col : Nat)
  /-- LDH (R170): A cell loads a pair into HELD and shifts the column's held pairs south. -/
  | cellLdh (lens row col : Nat)
  /-- SNAP (R168): A cell copies A to its shadow. -/
  | cellSnap (lens row col : Nat)
  /-- RESTORE (R168): A cell restores A from its shadow. -/
  | cellRestore (lens row col : Nat)
  /-- ZERO (R168): A cell clears A. -/
  | cellZero (lens row col : Nat)
  /-- NAME_CACHE_INVALIDATE (R234): Firmware invalidates a name entry in every name cache. -/
  | nameCacheInvalidate (task name : Nat)
  /-- TLB_INVALIDATION (R294): An invalidation completes once entries are dropped, extents repatched and old accesses performed. -/
  | tlbInvalidation (asid : Nat) (va : Word) (bytes : Nat)
  /-- MIGRATION_START (R296): A host-tier page's access count reaches the threshold, and the migration engine starts to move it. -/
  | migrationStart (asid : Nat) (va : Word)
  /-- CORE_RETIRE (R352): Firmware retires a core: slots stop, lenses freeze, excuses are set and the notice is posted. -/
  | coreRetire (core : Nat) (router : Bool)
  /-- QUEUE_DOORBELL (R359): A host write of TAIL starts or continues a queue, or marks it broken. -/
  | queueDoorbell (q : Nat) (tail : BitVec 32)
  /-- QUEUE_CONFIG_WRITE (R359): A host write of a queue configuration block enables or disables the queue. -/
  | queueConfigWrite (q dword : Nat) (data : Word)
  /-- PLACEMENT (R364): A management thread takes the PIFO head and places it or carries it out. -/
  | placement
  /-- LOADW_SHARD_FETCH (R393): A shard's host DMA completes and its CRC is checked, refetching or failing the load. -/
  | loadwShardFetch (load shard : Nat) (result : FetchResult)
  /-- INGRESS_OPEN (R367): A host write of OPEN names an ingress configuration and launches its task if needed. -/
  | ingressOpen (port : Nat) (data : Word)
  /-- INGRESS_DATA (R367): A host write of DATA delivers one token to the routed lanes. -/
  | ingressData (port : Nat) (data : Word)
  /-- NOTIFY_APERTURE_WRITE (R339): A host write sets notify bits of a slot of a core, or enters the wake mailbox. -/
  | notifyApertureWrite (offset : Nat) (data : Word)
  /-- WIN4_WRITE (R391): A host write places the BAR4 window onto a die's HBM. -/
  | win4Write (data : Word)
  /-- BAR4_ACCESS (R391): A host read or write reaches HBM through the BAR4 window. -/
  | bar4Access (offset : Nat) (len : Nat) (write : Option Word)
  /-- LINK_TRAINING (R379): Panel links train after reset, or the die runs standalone. -/
  | linkTraining (port width : Nat)
  /-- LINK_FRAME_RECEIVE (R381): A link frame is received in sequence, or a bad CRC is answered with a negative acknowledgement. -/
  | linkFrameReceive (port : Nat) (seq : BitVec 12) (crcOk : Bool) (payload : Nat)
  /-- LINK_REPLAY (R381): A negative acknowledgement makes the sender replay from its replay buffer. -/
  | linkReplay (port : Nat) (seq : BitVec 12)
  /-- LINK_RETRAIN (R381): Sixteen replays within one panel heartbeat interval make the link retrain at a lower width. -/
  | linkRetrain (port : Nat)
  /-- LINK_DOWN (R381): A link fails at every width, and routes and host proxies are recomputed. -/
  | linkDown (port : Nat)
  /-- DEVICE_RESET (R395): On reset release the boot ROM verifies and loads firmware, then the defect map, routes, remap and information block follow. -/
  | deviceReset
  /-- POWER_RAIL_GOOD (R400): A rail is within tolerance for 1 ms, so the next rail starts or reset is released. -/
  | powerRailGood (rail : Nat)
  /-- TEMPERATURE_SAMPLE (R401): Every 100 µs firmware reads the sensors and steps lens clocks down or up. -/
  | temperatureSample (cluster temp : Nat) (hot : Bool)
  /-- THERMAL_TRIP (R401): A cluster reaches 110 °C, and hardware turns off all rails. -/
  | thermalTrip (cluster : Nat)
  /-- DROOP_STRETCH (R189): Hardware stretches single A-cycles of a clock region for droop. -/
  | droopStretch (lens : Nat)
  /-- VTCLASS_CHANGE (R283): Firmware changes a cluster's vertical timing class. -/
  | vtclassChange (cluster : Nat) (cls : Bool)
  /-- PATROL_SCRUB (R403): Patrol scrub reads one bank block, correcting it or soft-repairing its row. -/
  | patrolScrub (bank block : Nat)
  /-- LOUPE_LOG (R404): The loupe writes its lifetime records to the service log. -/
  | loupeLog
  /-- LOUPE_CLAIM (R405): A host request claims a slot for debug, or is refused. -/
  | loupeClaim (core slot : Nat)
  /-- FIRMWARE_UPDATE (R396): A service thread verifies a new image in the inactive slot and switches the boot selector. -/
  | firmwareUpdate (img : FwImage)
  /-- SVN_COMMIT (R396): A signed commit raises the fused minimum SVN. -/
  | svnCommit
  /-- OWNERSHIP_RELEASE (R397): A verified release token erases the owner keys and derived secrets. -/
  | ownershipRelease (serial nonce : Nat) (sigOk : Bool)
  /-- OWNER_CLAIM (R397): A new owner's key is written and fresh secrets are derived. -/
  | ownerClaim (key serial : Nat) (sigOk : Bool)
  /-- GET_MEASUREMENTS (R398): An SPDM request returns the measurement blocks. -/
  | getMeasurements
  /-- LINK_RETRAIN_DONE (R381): A retraining link comes up at some width within 50 µs, and the packets held in the VC buffers flow again at the reduced capacity. -/
  | linkRetrainDone (port width : Nat)
  /-- POWER_FAIL (R400): Power fails or the rails go down in reverse order, losing volatile state; a journalled erase or load in progress is completed or invalidated at the next boot. -/
  | powerFail
  /-- RANK_PROGRAM_LOAD (R363): Firmware loads a new rank program, which is measured into the log or refused when the log is full. -/
  | rankProgramLoad (prog : List RankOp) (digest : Nat)
  /-- ROUTINE_STORE_LOAD (R293): Firmware writes walk routines into the routine store, which are measured into the log or refused when the log is full. -/
  | routineStoreLoad (digest : Nat)
  /-- LOUPE_SINGLE_STEP (R405): A debug request makes a slot claimed by the loupe issue one instruction and stop again. -/
  | loupeSingleStep (core slot : Nat)
  deriving DecidableEq, Repr

end Sys2Proof
end

