-- ==== Sys2Proof/Machine/State.lean ====
section
/-! DEFINITION. The state of the EA6 as plain data: slots, cores, clusters, banks, memory, lenses, channels, the front
end, the panel links and the firmware, and the state after device reset. Rules are cited at each field. -/

namespace Sys2Proof.Machine

/-! ### Slots -/

/-- R10, R11: the life-cycle states of a slot. -/
inductive Life where
  | unbound | boundIdle | running | waiting | halted | faulted
  deriving DecidableEq, Repr

/-- R92: one loop level; it is active while `remaining` is not zero. -/
structure LoopLevel where
  start : BitVec 14
  stop : BitVec 14
  remaining : Word
  deriving DecidableEq, Repr

/-- R191: a token of a lane or a cell. -/
structure Token where
  hdr : Bool
  ft : BitVec 4
  data : BitVec 32
  deriving DecidableEq, Repr

/-- R15, R85, R114, R125, R225, R353: what one result does to its slot (or its core's edge lanes) when it becomes
visible; `ecc` is the 0x39 of a vector load: the load's PC and issue P-cycle, FADDR and FINFO. -/
inductive Write where
  | g (r : BitVec 5) (v : Word)
  | p (r : BitVec 3) (b : Bool)
  | v (r : BitVec 4) (lanes : Word) (data : VReg)
  | m (r : BitVec 3) (lanes : Word) (data : Word)
  | istat (f : BitVec 6)
  | vstat (f : BitVec 7)
  | sys (srn : BitVec 12) (op : SrOp) (v : Word)
  | push (edge : Nat) (toks : List (Nat × Token))
  | ecc (pc : BitVec 14) (cycle : Nat) (addr info : Word)
  deriving DecidableEq, Repr

/-- R15, R17: a result in flight; it is visible on the slot's first turn that is numbered at least `minTurn` and lies
in a P-cycle at or after `minCycle`. `id` is its issue order (R16). -/
structure Flight where
  id : Nat
  minTurn : Nat
  minCycle : Nat
  writes : List Write
  deriving DecidableEq, Repr

/-- R126, R127, R137, R353: a vector load whose elements have not all been read: the register and lanes it writes, what
has been read, the elements still to read, the turn of its last beat, the turn and P-cycle before which its result is
not visible, and the lowest lane that met an uncorrectable error with its address and FINFO. -/
structure VLoad where
  id : Nat
  pc : BitVec 14
  cycle : Nat
  vd : BitVec 4
  lanes : Word
  data : VReg
  left : Nat
  last : Nat
  minTurn : Nat
  minCycle : Nat
  bad : Option (Nat × Word × Word)
  deriving DecidableEq, Repr

/-- R285 to R288: the three kinds of scalar access. -/
inductive AccKind where
  | load | store | amo
  deriving DecidableEq, Repr

/-- R235, R279, R280, R289, R299: how far an access has come: held in the core by its order, waiting for a name walk, sent
to its target, the low half of a `.q` access performed, performed there, its value, acknowledgement or error arrived, or
given up by the NI. -/
inductive AccSt where
  | held | walking | sent | half | performed | arrived | refused (info : Word) | uncorrectable (info : Word) | givenUp
  deriving DecidableEq, Repr

/-- R280, R285 to R289: one scalar access of a slot that has issued and is not over; or (with `vdest`: the vector load, the
lane and the format) an element of a vector access, which performs on turn `atTurn` (R127) or after the accesses of its
bytes that it follows (R21, R289). -/
structure Access where
  id : Nat
  kind : AccKind
  ea : Word
  glob : Bool
  name : BitVec 16
  size : Nat
  sx : Bool
  data : BitVec 128
  cmp : Word
  op : BitVec 4
  rt : BitVec 5
  vdest : Option (Nat × Nat × BitVec 4)
  atTurn : Nat
  ord : BitVec 2
  scp : BitVec 3
  pc : BitVec 14
  cycle : Nat
  turn : Nat
  minTurn : Nat
  minCycle : Nat
  arrive : Nat
  st : AccSt
  val : BitVec 128
  ended : Bool
  needs : List Nat
  deriving DecidableEq, Repr

/-- R253, R274, R311: what is done once the accesses it waits for have performed. -/
inductive RelAct where
  | note (name : BitVec 16) (dst : Option Nat) (tslot : Nat) (mask : BitVec 16) (scope : BitVec 3) (stamp : Word)
    (pc : BitVec 14)
  | give (id : Nat)
  | barrier (bar : Nat)
  deriving DecidableEq, Repr

structure Pend where
  needs : List Nat
  act : RelAct
  deriving DecidableEq, Repr

/-- R290, R305: what a fence still waits for once its accesses are done. -/
inductive StallEnd where
  | plain
  | place
  | placed
  | device (drained : Option Nat)
  | panel (drained : Option Nat)
  | layer (target : BitVec 32)
  | bqry (ea : Word) (rt : BitVec 5) (pc : BitVec 14) (tgt : Option Nat)
  deriving DecidableEq, Repr

/-- R278, R289, R290: a stall: the ordered access that stalls, if it is one; accesses that must be visible or have
faulted, accesses that must have performed, and what follows them. -/
structure Stall where
  own : Option Nat
  vis : List Nat
  perf : List Nat
  stage : StallEnd
  deriving DecidableEq, Repr

/-- R13, R97, R244, R406: when the slot's next word may issue. -/
inductive Gate where
  | closed
  | fromTurn (t : Nat)
  | fromCycle (c : Nat)
  | waitc (t : Nat) (target : Word)
  | offer
  | stalled (st : Stall)
  deriving DecidableEq, Repr

/-- R11: the wait a WAITING slot is in; a GWAIT with the nodes still awaited, those that are done and not yet observed,
and the lowest that failed with its STATUS and DETAIL (R336). -/
inductive Wait where
  | gwait (left seen : List Nat) (fail : Option (Nat × BitVec 8 × BitVec 8))
  | waitn (all : Bool) (mask : BitVec 16) (rd : BitVec 5)
  | bar (id : Nat)
  deriving DecidableEq, Repr

/-- R343, R344: a deferred-precise fault that is due. `own` is the PC of its own instruction, or none where the rule
names the instruction that would issue; `acc` is its access; `dist` is the issue turn from which DIST is counted
(R279, R280); `held` is set when the fault fell due during a stall that holds faults (R406). -/
structure DueFault where
  id : Nat
  acc : Option Nat
  cause : BitVec 8
  own : Option (BitVec 14)
  addr : Word
  info : Word
  rank : Nat
  dist : Option Nat
  held : Bool
  deriving DecidableEq, Repr

/-- R9: one slot. `gfail` is the fault that an ended GWAIT takes when the next word would issue: its PC, H and FINFO
(R336). `hold` is set when a budget deadline fell due during a stall that holds faults (R406). `beats` holds the front-port beats of its vector accesses to come: turn, bank, lowest lane (R267). -/
structure Slot where
  life : Life
  h : Bool
  task : Option Nat
  pc : BitVec 14
  g : Tab Word
  p : BitVec 8
  v : Tab VReg
  m : Tab Word
  loop1 : LoopLevel
  loop2 : LoopLevel
  fvec : BitVec 14
  epc : BitVec 14
  fcause : BitVec 9
  faddr : Word
  finfo : Word
  fhen : Word
  fpctl : BitVec 13
  istat : BitVec 6
  vstat : BitVec 7
  turn : Nat
  reload : BitVec 32
  left : BitVec 32
  est : BitVec 32
  bstat : BitVec 16
  notify : BitVec 16
  wovf : Bool
  rngkey : Word
  lstate : BitVec 32
  gate : Gate
  wait : Option Wait
  gfail : Option (BitVec 14 × Bool × Word)
  divFree : Nat
  vecFree : Nat
  flights : List Flight
  vloads : List VLoad
  accs : List Access
  pends : List Pend
  due : List DueFault
  budgetDue : Bool
  hold : Bool
  nextId : Nat
  claimed : Bool
  oneStep : Bool
  vbad : List (Nat × Nat)
  beats : List (Nat × Nat × Nat)
  deriving DecidableEq, Repr

/-! ### Cores -/

/-- R238, R242, R244: a message or notify staged in the NI send queue. `src` is the sender's name, `dst` the core that its
name resolved to at issue or by a walk. -/
structure Msg where
  id : Nat
  src : BitVec 16
  isNotify : Bool
  name : BitVec 16
  slot : Nat
  pc : BitVec 14
  chan : Nat
  bytes : List Byte
  stamp : Word
  tslot : Nat
  mask : BitVec 16
  scope : BitVec 3
  dst : Option Nat
  deriving DecidableEq, Repr

/-- R245, R246: an armed receive. -/
structure Recv where
  slot : Nat
  dest : Word
  len : Nat
  placed : Bool
  first : Word
  last : Word
  bit : BitVec 4
  deriving DecidableEq, Repr

/-- R246: one receive channel of a core. -/
structure RecvChan where
  armed : Option Recv
  lastSlot : Nat
  late : Bool
  deriving DecidableEq, Repr

/-- R274: where a give stands. -/
inductive GiveSt where
  | walking | admitting | releasing
  deriving DecidableEq, Repr

/-- R274, R330: a give in progress, by a slot or (with `node`) by a GIVE node. -/
structure Give where
  id : Nat
  slot : Nat
  k : Nat
  j : Nat
  name : BitVec 16
  tgt : Nat
  st : GiveSt
  node : Option Nat
  pc : BitVec 14
  deriving DecidableEq, Repr

/-- R315: node states. -/
inductive NodeSt where
  | free | armed | running | done
  deriving DecidableEq, Repr

/-- R315 to R322: a graph node. `needs` are the owner's accesses it follows (R331), `endAt` the P-cycle from which an
ended work completes, `pos` the elements done, `staged` what
a staged copy has read (R328, `keepAll`), `walk` the address whose walk it waits for. -/
structure Node where
  st : NodeSt
  owner : Nat
  kind : BitVec 8
  succ : List Nat
  ntv : Option (Nat × Nat)
  chan : Nat
  autofree : Bool
  deliver : Bool
  pred : Nat
  comp : Word
  arg0 : Word
  arg1 : Word
  td : Option (BitVec 512)
  key : Word
  eset : BitVec 16
  needs : List Nat
  pos : Nat
  staged : List (List Byte)
  flags : BitVec 7
  status : BitVec 8
  detail : BitVec 8
  seq : BitVec 32
  ending : Bool
  endAt : Nat
  killed : Bool
  vaFail : Word
  walk : Option Word
  keepAll : Bool
  freedBy : Option (BitVec 8)
  deriving DecidableEq, Repr

/-- R319 step 3: a completion whose notify bit and successors are still to be served, in a P-cycle from `due` on;
`deliver` names the owner and the VA of a failure it also takes (R329). -/
structure NodeFin where
  node : Nat
  due : Nat
  status : BitVec 8
  detail : BitVec 8
  ntv : Option (Nat × Nat)
  succ : List Nat
  deliver : Option (Nat × Word)
  deriving DecidableEq, Repr

/-- R198: the agent a lane is attached to. -/
inductive Attach where
  | prism
  | ag (n : Nat)
  | chan (c : Nat)
  deriving DecidableEq, Repr

/-- R195: the converter state of an input lane; `bad` marks a bad packet (R194). -/
structure Conv where
  cft : BitVec 4
  scale : BitVec 8
  spx : BitVec 8
  seq : BitVec 12
  bad : Bool
  deriving DecidableEq, Repr

/-- R195 to R198, R225: an edge lane: its FIFO, for each token of an output lane its invocation and the A-cycle in which it
came (R186, R301), its converter,
whether its coset-decoding group has given the first of two steps (R196), its agent, and the pushes in flight. -/
structure Lane where
  fifo : List Token
  tags : List (Nat × Nat)
  conv : Conv
  half : Bool
  att : Attach
  inFlight : Nat
  deriving DecidableEq, Repr

/-- R219: AG states. -/
inductive AgSt where
  | empty | loaded | run | starve | edgeWait | done | bad | fault
  deriving DecidableEq, Repr

/-- R206 to R208: the counters of a lane of an AG: interval, address step, tokens of the address already produced, and
data tokens produced on the lane. -/
structure AgPos where
  i2 : Nat
  i1 : Nat
  sub : Nat
  n : Nat
  deriving DecidableEq, Repr

/-- R346: why an AG cannot read an address: the cause and DETAIL of its region fault, the address and the bank. -/
structure AgErr where
  cause : BitVec 8
  detail : BitVec 8
  addr : Word
  bank : Nat
  deriving DecidableEq, Repr

/-- R208, R281: a token that an AG has asked for in global SRAM: its request, its counters, the requests still to be
answered (of its container and, for FT 9, of its scale byte), the bytes that came, and why it cannot be read. -/
structure AgRead where
  id : Nat
  pos : AgPos
  left : Nat
  bytes : List Byte
  scale : List Byte
  err : Option AgErr
  deriving DecidableEq, Repr

/-- R206 to R208: one data lane of an AG: the next token to fetch or store, the counters of each of its tokens in the
lane's buffer, its reads in flight, the interval ends to come (tokens still to fetch before each, and the interval that
follows), the invocation of the last token stored, how many tokens a FENCE row has it fetch again (R308), and a token
that cannot be read. -/
structure AgLane where
  pos : AgPos
  marks : List AgPos
  reads : List AgRead
  jumps : List (Nat × Nat)
  tag : Nat
  again : Nat
  err : Option AgErr
  deriving DecidableEq, Repr

/-- R204 to R209, R219: an address generator. `i2` is its outer counter, `lens` its lens, `started` the order of its
start (R267), `intervals` the interval that each invocation stores to (R207), `ext` its extents, most recently hit
first (R295), `pending` its writes not yet performed, `walk` an address whose walk is under way, `got` the
extent that it gave, `lost` one that no walk
resolves. -/
structure AG where
  st : AgSt
  desc : BitVec 512
  daddr : Word
  i2 : Nat
  lanes : Tab AgLane
  ext : List (BitVec 128)
  eset : BitVec 16
  lens : Nat
  started : Nat
  since : Nat
  intervals : List (Nat × Nat)
  pending : Nat
  walk : Option Word
  got : Option (BitVec 128)
  lost : Option Word
  deriving DecidableEq, Repr

/-- R294: a cached translation: address space, page base, log2 size, DPA of the page, permissions R and W. -/
structure TlbEntry where
  asid : Nat
  va : Word
  bits : Nat
  pa : Word
  r : Bool
  w : Bool
  deriving DecidableEq, Repr

/-- One core: its prism, NI, graph unit, AGs and edges. `wheelNext` is the WHEEL value last written, `wheelDue` the
written values not yet in force with the P-cycle count of their boundary (R122). `stale` is the task that last left the
core and the tokens it left in the core's buffers and links (R370), `retiring` that firmware retires the core once its vector
beats have run (R128). -/
structure Core where
  istore : Tab Word
  ibad : List Nat
  slots : Tab Slot
  task : Option Nat
  retired : Bool
  retiring : Bool
  skew : Nat
  wheel : Word
  wheelNext : Word
  wheelDue : List (Nat × Word)
  hbeat : Word
  syncref : Word
  boundCls : Bool
  issued : BitVec 32
  done : BitVec 32
  bmap : Tab Word
  bnslot : BitVec 3
  lastlat : BitVec 48
  miss : BitVec 32
  namebase : BitVec 48
  purged : BitVec 40
  stale : Option (Nat × Nat)
  ncache : List (BitVec 16 × Word)
  walks : List (BitVec 16)
  sendq : List Msg
  recv : Tab RecvChan
  seqTo : Tab (BitVec 16)
  seqFrom : Tab (BitVec 16)
  reorder : List Nat
  gives : List Give
  latch : BitVec 4
  gens : Tab Nat
  nodes : Tab Node
  fins : List NodeFin
  cseq : BitVec 32
  eng0 : List Nat
  eng1 : List Nat
  guq : List Nat
  ags : Tab AG
  gates : BitVec 4
  lanes : Tab Lane
  frontBusy : List (Nat × Nat)
  tlb : List TlbEntry
  deriving DecidableEq, Repr

/-! ### Clusters, banks, packets -/

/-- R276: a forward record. -/
structure Fwd where
  core : Nat
  k : Nat
  name : BitVec 16
  j : Nat
  bank : Nat
  gen : BitVec 32
  deriving DecidableEq, Repr

/-- R402: clock and power gating of a cluster. -/
inductive Gating where
  | awake | clockGated | powerGated | waking
  deriving DecidableEq, Repr

/-- R251, R265, R276, R282, R294, R340, R402: one cluster. -/
structure Cluster where
  cls : Bool
  chg : BitVec 16
  excuse : Word
  fwd : List Fwd
  scOrder : List (Nat × Nat × Nat)
  gating : Gating
  idleSince : Nat
  mailbox : List (Nat × Nat × BitVec 16)
  overflow : Option (BitVec 16)
  tlb : List TlbEntry
  hostPages : Tab Nat
  temp : Nat
  coolSince : Option Nat
  deriving DecidableEq, Repr

/-- R265: who holds a bank. -/
inductive BankSt where
  | pooled
  | attached (core k : Nat)
  | pending (core k : Nat)
  | parked (task core k : Nat)
  deriving DecidableEq, Repr

structure Bank where
  gen : BitVec 32
  st : BankSt
  deriving DecidableEq, Repr

/-- R237 to R244, R264, R313, R330: what a packet carries. A message and a notify carry the sender's name (R238); a write
segment of an AG its block and the bytes in it, with the DETAIL of a refusal; a read of an AG its lane and read, and what
it has found. -/
inductive Cargo where
  | access (a : Access)
  | message (chan : Nat) (bytes : List Byte) (stamp : Word) (src : BitVec 16)
  | notify (slot : Nat) (mask : BitVec 16) (scope : BitVec 3) (stamp : Word) (src : BitVec 16)
  | give (id : Nat)
  | release (node src : Nat) (ok : Bool)
  | agWrite (ag : Nat) (ea : Word) (parts : List (Word × List Byte)) (refused : BitVec 8)
  | agRead (ag lane read : Nat) (ea : Word) (size : Nat) (scale : Bool) (got : List Byte) (err : Option AgErr)
  deriving DecidableEq, Repr

/-- R313: a packet from its staging until it is acknowledged. -/
structure Packet where
  id : Nat
  src : Nat
  dst : Nat
  slot : Nat
  pc : BitVec 14
  name : BitVec 16
  seq : BitVec 16
  cargo : Cargo
  performed : Bool
  answered : Bool
  deriving DecidableEq, Repr

/-! ### Lenses and channels -/

/-- R164: one cell and its registered outputs. -/
structure Cell where
  w0 : BitVec 32
  w1 : BitVec 32
  acc0 : BitVec 32
  acc1 : BitVec 32
  accs0 : BitVec 32
  accs1 : BitVec 32
  held : BitVec 64
  pq : Bool
  pk : BitVec 32
  pout : BitVec 64
  dn : BitVec 480
  skid : BitVec 5
  eOut : Token
  sOut : Token
  deriving DecidableEq, Repr

/-- R178: a wave token, with the A-cycle of its injection, its invocation (by the A-cycle of its first injection) and its
iteration vector (R186). -/
structure Wave where
  at_ : Nat
  inv : Nat
  ph : BitVec 4
  is : Bool
  sn : Bool
  row : Nat
  rep : Nat
  ofs : Nat
  deriving DecidableEq, Repr

/-- R169: a token between cells, or between a last cell and its port: the A-cycle of its arrival, the logical cell (or,
past the last row or column, the port), whether it comes from the west, and for a port the invocation it belongs to
(R186). -/
structure Wire where
  due : Nat
  row : Nat
  col : Nat
  west : Bool
  tok : Token
  tag : Nat
  deriving DecidableEq, Repr

/-- R164, R346: the cell memories that parity covers: the registers, and the control-table entries. -/
inductive CellMem where
  | w0 | w1 | acc0 | acc1 | accs0 | accs1 | held | pk | pout
  | dn (d : Nat)
  | entry (ph : Nat)
  deriving DecidableEq, Repr

/-- R218: lens states. -/
inductive LensSt where
  | unfused | fusing | idle | run | starve | edgeWait | frozen | failed
  deriving DecidableEq, Repr

/-- R217: a requested stop. -/
inductive StopReq where
  | none | intervalEnd | now
  deriving DecidableEq, Repr

/-- R181 to R188: the sequencer. `loops` is the counter stack, top first, each a tag, the
first row of its body and a remaining count; `ahead` is
the next row as read (its index, the DETAIL of a failed read, its bits; R185); `adv` the AGADV of an interval that has
just ended; `bad` the DETAIL of a row that could not be read; `named` the AGADV of the last STEP row; `rowDone` is set in
the A-cycle of a row's last injection (R188), and `lastA` is the A-cycle of the lens's last one (R203). -/
structure Sequencer where
  base : Word
  row : Nat
  cur : BitVec 128
  fresh : Bool
  rep : Nat
  ofs : Nat
  loops : List (Nat × Nat × Nat)
  budget : Nat
  active : Bool
  ended : Bool
  stop : StopReq
  fenceDone : Bool
  node : Nat
  firstA : Option Nat
  paused : Bool
  ahead : Option (Nat × BitVec 8 × BitVec 128)
  adv : BitVec 4
  bad : BitVec 8
  named : BitVec 4
  rowDone : Bool
  lastA : Option Nat
  deriving DecidableEq, Repr

/-- R207, R294, R307: a held write of an output AG; `keys` are its bytes in device memory, as translated when the AG took
the token. -/
structure Seg where
  core : Nat
  ag : Nat
  space : BitVec 2
  addr : Word
  bytes : List Byte
  keys : List Nat
  deriving DecidableEq, Repr

/-- R347: the rewind point of a lane of an AG, with the lane's converter as it stood there. -/
structure Rewind where
  core : Nat
  ag : Nat
  lane : Nat
  pos : AgPos
  conv : Conv
  deriving DecidableEq, Repr

/-- R186: an open tile invocation: its row and repeat, the A-cycles of its first and last injection, its phases, its held
stores, the loop counters, and the rewind points of the AGs (R347). -/
structure Invocation where
  row : Nat
  rep : Nat
  first : Nat
  last : Option Nat
  phases : BitVec 16
  snap : Bool
  segs : List Seg
  loops : List (Nat × Nat × Nat)
  rewind : List Rewind
  deriving DecidableEq, Repr

/-- R346, R348: an event that asserts the freeze line: `vec` is its iteration vector, `core` the faulting facet's, `agent` the AG that
caused it (its core and number). -/
structure RegionEvent where
  cause : BitVec 8
  detail : BitVec 8
  fcyc : Nat
  vec : Nat × Nat × Nat
  agent : Option (Nat × Nat)
  core : Nat
  row : Nat
  col : Nat
  lane : Nat
  edge : Nat
  aga : Nat
  agb : Nat
  bank : Nat
  addr : Word
  deriving DecidableEq, Repr

/-- R216, R223, R350: work waiting at a lens. -/
structure LensJob where
  node : Nat
  slot : Nat
  base : Word
  deriving DecidableEq, Repr

/-- R223: a written entry on its way; `told` is set when the slot has issued a later CTAB to the lens, so that this one's
status goes nowhere (R214). -/
structure CtabJob where
  id : Nat
  told : Bool
  core : Nat
  slot : Nat
  row : Nat
  col : Nat
  entry : Nat
  word : BitVec 40
  deriving DecidableEq, Repr

/-- R174 to R190, R217, R218, R346 to R350: one lens. `acyc` counts the A-cycles of the lens (R202 holds it), `region`
those of its clock region (R211); `mid` is set while the region holds in an A-cycle whose wave token is injected;
`oldSkew` keeps (edge, lane, first A-cycle of the new counter, old counter) for the tokens injected before (R222);
`unfusing` is the slot whose UNFUSE waits for writes to perform, and the status it will report (R309); `parity` lists the parity errors of the cells by
logical cell (R346). -/
structure Lens where
  task : Nat
  num : Nat
  ox : Nat
  oy : Nat
  w : Nat
  h : Nat
  st : LensSt
  last : BitVec 8
  flags : BitVec 5
  bypR : List Nat
  bypC : List Nat
  table : Tab (BitVec 40)
  cells : Tab Cell
  westCnt : Tab Nat
  northCnt : Tab Nat
  restart : BitVec 16
  acyc : Nat
  region : Nat
  mid : Bool
  clock : Nat
  frac : Nat
  stretched : Nat
  oldSkew : List (Nat × Nat × Nat × Nat)
  waves : List Wave
  wires : List Wire
  seq : Sequencer
  open_ : List Invocation
  queue : List LensJob
  ctabs : List CtabJob
  fuser : Nat
  unfusing : Option (Nat × Nat)
  raised : List RegionEvent
  kept : Option RegionEvent
  freezing : Bool
  record : BitVec 512
  parity : List (Nat × CellMem)
  deriving DecidableEq, Repr

/-- R210, R221: a range of lanes of a lens edge. -/
structure LaneRange where
  lens : Nat
  edge : Nat
  first : Nat
  last : Nat
  deriving DecidableEq, Repr

/-- R210: a declared route; no source means the ingress endpoint. -/
structure Route where
  src : Option LaneRange
  dst : List LaneRange
  deriving DecidableEq, Repr

inductive ChanSt where
  | unbound | binding | bound | unbinding
  deriving DecidableEq, Repr

/-- R211: a token in a channel: the A-cycle (of the producing lens) of its arrival, its destination range and lane. -/
structure ChanTok where
  due : Nat
  range : Nat
  lane : Nat
  tok : Token
  deriving DecidableEq, Repr

/-- R214, R221: a BIND (or, with `un`, a BIND.un) whose status is not known yet; `told` is set when its slot has issued a
later command on the channel. -/
structure ChanCmd where
  core : Nat
  slot : Nat
  un : Bool
  told : Bool
  deriving DecidableEq, Repr

/-- R211, R221: a channel: its commands under way, in the order of issue, and the tokens in flight. -/
structure Channel where
  st : ChanSt
  cmds : List ChanCmd
  fly : List ChanTok
  deriving DecidableEq, Repr

/-! ### Tasks and the front end -/

/-- R82: an entry of an image's section table: kind, owner, offset, size and alignment, and where dchld places the section:
the first word of a text, or the window address of data. -/
structure Section where
  kind : Nat
  owner : Nat
  offset : Nat
  size : Nat
  align : Nat
  place : Nat
  deriving DecidableEq, Repr

/-- R79, R82, R380: a symbol of an image: unresolved, a value, or a route between two names for messages of a length;
`far` is the die of the source where that is not the launch's. -/
inductive Symbol where
  | unresolved
  | value (v : Word)
  | route (src dst : BitVec 16) (far : Option (BitVec 6)) (len : Nat)
  deriving DecidableEq, Repr

/-- R83: a timing relocation: the word indices of producer and reader, the assembled distance, the producer kind and
the EARLY bit. -/
structure TimingReloc where
  producer : Nat
  reader : Nat
  dist : Nat
  kind : Nat
  early : Bool
  slot : Nat
  deriving DecidableEq, Repr

/-- R82, R230: what an image holds: its 64-byte header, its section table, its symbols and its relocation records as they
stand in it, and the contents of its other sections (log entry 12). `streams` are the AG descriptors: frame-relative core
and window address (R82, R295). -/
structure Kernel where
  header : List Byte
  sections : List Section
  symbols : List Symbol
  relocs : List (BitVec 128)
  fw : Nat
  fh : Nat
  wheel : Word
  budget : BitVec 32
  remain : BitVec 32
  restart : BitVec 2
  text : Tab Word
  slots : BitVec 8
  entry : Tab (BitVec 14)
  presets : List (Nat × List (Nat × Byte))
  coreData : List (Nat × Nat × List (Nat × Byte))
  lenses : List (Nat × Nat × Nat × Nat)
  cells : List (Tab (BitVec 40))
  routes : List Route
  streams : List (Nat × Nat × Nat)
  tls : BitVec 32
  sp : BitVec 32
  tlsStride : BitVec 32
  spStride : BitVec 32
  size : Nat
  deriving DecidableEq, Repr

/-- R365: a bind record. -/
structure BindRec where
  die : Nat
  ox : Nat
  oy : Nat
  fw : Nat
  fh : Nat
  bankn : Nat
  tokens : Nat
  cls : Nat
  restart : Nat
  res : Bool
  wheel : Word
  image : Word
  arg : Word
  namebase : Word
  bargrp : BitVec 32
  remain : BitVec 32
  budget : BitVec 32
  quota : Nat
  text : BitVec 8
  entry : Tab (BitVec 14)
  done : Word
  tls : BitVec 32
  sp : BitVec 32
  tlsStride : BitVec 32
  spStride : BitVec 32
  save : Word
  deriving DecidableEq, Repr

/-- R361, R364 to R373: where a task stands; a drain whose limit has expired has the limit 0 (R368). -/
inductive TaskSt where
  | placed | bound | running | draining (limit : Nat) | checkpointing | killing | suspended
  deriving DecidableEq, Repr

/-- R372: what a checkpoint keeps of a task. -/
structure Saved where
  cycle : Nat
  cores : List (Nat × Core)
  lenses : Tab Lens
  chans : Tab Channel
  copies : List (Nat × Nat)
  deriving DecidableEq, Repr

structure Task where
  st : TaskSt
  rec_ : BindRec
  kernel : Kernel
  queue : Nat
  index : Nat
  packet : BitVec 512
  asid : Nat
  worst : Option (BitVec 8)
  discarded : Nat
  saved : Option Saved
  deriving DecidableEq, Repr

/-- R359: a hardware work queue. `waiting` is a WAIT packet that blocks it; `left` counts packets not yet complete. -/
structure Queue where
  ring : Word
  msix : BitVec 16
  weight : BitVec 8
  log2 : BitVec 5
  loc : BitVec 3
  en : Bool
  tail : BitVec 32
  head : BitVec 32
  notice : Word
  noticeIdx : Nat
  broken : Bool
  waiting : Option (BitVec 512)
  waitSince : Nat
  outstanding : List Nat
  deriving DecidableEq, Repr

/-- R362, R363: a PIFO entry, or (with `leaving`) a packet that has left it and is being carried out; `resume` marks
a suspended task's entry. -/
structure PifoEntry where
  id : Nat
  queue : Nat
  index : Nat
  packet : BitVec 512
  rank : Nat
  pushed : Nat
  age : Nat
  leaving : Bool
  resume : Option Nat
  deriving DecidableEq, Repr

/-- R393: a weight load in progress. -/
structure Load where
  id : Nat
  entry : Nat
  queue : Nat
  index : Nat
  packet : BitVec 512
  asid : Nat
  shards : List (BitVec 256)
  pages : List (List Word)
  fetched : List (Option (List Byte))
  tries : List Nat
  refetch : Nat
  deriving DecidableEq, Repr

/-- R293, R384: an address-space record, its HBM quota in pages (R296, R393) and the HBM pages it may still take. -/
structure Space where
  root : Word
  routine : Nat
  queues : List Nat
  dieset : Word
  quota : Nat
  freePages : List Word
  moving : List (Word × Word)
  deriving DecidableEq, Repr

/-- R293: who asked for a walk. -/
inductive Walker where
  | ag (core n : Nat)
  | node (core n : Nat)
  deriving DecidableEq, Repr

/-- R293: a walk, and the walk engine that serves it. -/
structure Walk where
  id : Nat
  eng : Nat
  asid : Nat
  va : Word
  write : Bool
  who : Walker
  deriving DecidableEq, Repr

/-- R367: an ingress port: STAT and its count, its configuration, the tokens in its buffer, the DATA that flow control
holds at the host, and the route lane of its next token. -/
structure Ingress where
  stat : BitVec 8
  delivered : BitVec 32
  config : Nat
  buffer : List Token
  held : List Word
  next : Nat
  deriving DecidableEq, Repr

structure IngressCfg where
  queue : Nat
  packet : BitVec 512
  chan : Nat
  task : Option Nat
  deriving DecidableEq, Repr

/-- R384: a member of a panel group that binds on another die: its address space and image, its die and frame, the holes of
its frame as logical x and y, and whether it has ended. -/
structure FarMember where
  asid : Nat
  image : Word
  die : Nat
  ox : Nat
  oy : Nat
  fw : Nat
  fh : Nat
  holes : List (Nat × Nat)
  ended : Bool
  deriving DecidableEq, Repr

/-- R385: what die 0's root knows of a barrier of a panel group (by address space, image and id): the dies that have
arrived, and the tick of a release that it has announced. -/
structure PanelBar where
  asid : Nat
  image : Word
  bar : Nat
  dies : List Nat
  tick : Option Nat
  deriving DecidableEq, Repr

/-- R358 to R374: the front end. `pushes` holds what has found the PIFO full (R362), `slotTable` the bind records (R365), `group` the members on other dies (R384),
`bars` the barriers of panel groups (R385). -/
structure FrontEnd where
  slotTable : Tab (BitVec 1024)
  group : List FarMember
  bars : List PanelBar
  queues : Tab Queue
  threads : Tab (Nat × Nat)
  pifo : List PifoEntry
  pushes : List (Nat × Nat × BitVec 512 × Option Nat)
  nextEntry : Nat
  rank : List RankOp
  tasks : Tab Task
  images : List (Word × Kernel)
  spaces : Tab Space
  walks : List Walk
  loads : List Load
  ports : Tab Ingress
  configs : Tab IngressCfg
  msix : List Nat
  records : List (Nat × Nat × Word × Word × Word × Word)
  freezes : List (BitVec 512)
  win4 : Word
  lastRead : Option (List Byte)
  dropped : Nat
  reserve : List Nat
  deriving DecidableEq, Repr

/-! ### Panel and firmware -/

/-- R380, R381, R390: a panel link. -/
inductive LinkSt where
  | reset | up | retraining | down
  deriving DecidableEq, Repr

structure Link where
  st : LinkSt
  width : Nat
  rxSeq : BitVec 12
  txSeq : BitVec 12
  replay : List (BitVec 12 × Nat)
  delivered : List Nat
  replays : BitVec 32
  retrains : BitVec 16
  recent : Nat
  nak : Bool
  since : Nat
  changes : Nat
  deriving DecidableEq, Repr

/-- R2: the defect-map entry of a core. -/
structure Defect where
  live : Bool
  router : Bool
  prism : Bool
  rows : List Nat
  cols : List Nat
  deriving DecidableEq, Repr

/-- R404: the loupe's lifetime records, the records of BRKs in claimed slots (R355), and the head flits of no known kind
(R238). -/
structure Loupe where
  temps : Tab Nat
  steps : Tab Nat
  stretched : Tab Nat
  errors : Tab Nat
  retirements : List (Nat × BitVec 8)
  vtChanges : Tab Nat
  trips : Nat
  bootsA : Nat
  bootsB : Nat
  verifyFails : Nat
  breaks : List (Nat × Nat × Word × Word × Word × Word)
  oddHeads : Nat
  deriving DecidableEq, Repr

/-- R352, R403 to R405: what the service log holds. -/
inductive ServiceRec where
  | lifetime (l : Loupe)
  | retirement (notice : BitVec 256)
  | scrubbed (bank block : Nat)
  | claimRefused (core slot : Nat)
  deriving DecidableEq, Repr

/-- R379 to R382, R390, R395 to R403: firmware, boot, ownership, power. `log` holds the measurements as kind and digest
name, `memErrors` the times of the uncorrectable errors in a core's prism memories; `lost` the members of the panel set that
have died since boot (R382), `hosts` the logical dies with a live host link (R387). -/
structure Firmware where
  powered : Bool
  rails : Nat
  booted : Bool
  bootFailed : Bool
  debug : Bool
  selectorB : Bool
  bootedB : Bool
  slotA : FwImage
  slotB : FwImage
  bootedSvn : Nat
  minSvn : Nat
  serial : Nat
  owner : Option Nat
  secrets : Option Nat
  nonce : Nat
  erasing : Bool
  tripped : Bool
  log : List (Nat × Nat)
  answer : List (Nat × Nat)
  routineDigest : Nat
  grade : Nat
  form : Nat
  infoUp : Bool
  memErrors : Tab (List Nat)
  service : List ServiceRec
  deadRouters : List Nat
  member : Bool
  stranded : Bool
  die : Nat
  members : List (Nat × Nat)
  pos : Nat
  lost : List Nat
  hosts : List Nat
  loupe : Loupe
  deriving DecidableEq, Repr

/-! ### The machine -/

/-- A slot of a core. -/
structure SlotRef where
  core : Nat
  slot : Nat
  deriving DecidableEq, Repr

/-- What the machine does next once no event is due: open the turns of this P-cycle (`events`), open the next of them
(`turns`; with none left, go on to the next P-cycle), weigh its due faults and its budget (`faults`), or offer its word
for issue (`ready`); after the turns the back ports of the banks begin their requests (`backs`). -/
inductive Phase where
  | events
  | backs
  | turns (rest : List SlotRef)
  | faults (rest : List SlotRef)
  | ready (rest : List SlotRef)
  deriving DecidableEq, Repr

/-- R166: the operations of a cell. -/
inductive CellOp where
  | hold | pass | acm | acmz | psm | wld | drn | cmpx | recu | gen | add | maxp | ldh | snap | restore | zero
  deriving DecidableEq, Repr

/-- What only the outside can do to the die: another die writes HBM (R383), answers a packet or a BQRY of this one, or
sends one (R383 to R385); a member of the panel set dies, a host link comes up or fails (R382, R387); a member of a panel
group binds or ends, its die's barrier arrival and a release tick (R384, R385); die 0's heartbeat (R386); a head flit of
no known kind (R238); firmware writes the slot table (R365); the host reads a queue's configuration or a port's STAT
(R359, R367). -/
inductive Outside where
  | write (dpa : Nat) (bytes : List Byte)
  | answer (pkt : Nat) (ok : Bool) (info : Word) (val : BitVec 128) (bytes : List Byte)
  | query (core slot : Nat) (v : Word)
  | packet (src dst : Nat) (seq : BitVec 16) (cargo : Cargo)
  | dieLost (die : Nat)
  | hostLink (die : Nat) (up : Bool)
  | memberBinds (m : FarMember)
  | memberEnds (asid : Nat) (image : Word) (die : Nat)
  | arrived (asid : Nat) (image : Word) (bar die : Nat)
  | release (asid : Nat) (image : Word) (bar tick : Nat)
  | heartbeat
  | oddHead
  | slotTable (task : Nat) (rec_ : BitVec 1024)
  | configRead (queue dw : Nat)
  | statRead (port : Nat)
  deriving DecidableEq, Repr

/-- What is due now: an event; the operation of a cell in the present A-cycle of its lens; the start of an A-cycle, its
edges and its end; the end of the P-cycle in which the front ports of the banks were used; the beats of a slot's vector
accesses on its turn (R127); the second half of a `.q` access (R299); a supervisor's write of WHEEL (R121); a write
segment of an output AG at its bank, with the P-cycles it still takes there (R282, R284); the end of an UNFUSE that waited
(R309); the completion of a frozen list's node (R307); a soft error in a memory unit or in a cell (R346, R353); a retirement
that waits for vector beats (R128); an input of the outside. -/
inductive Due where
  | ev (i : Instr)
  | cell (op : CellOp) (lens row col : Nat)
  | openA (lens : Nat)
  | presentA (lens : Nat)
  | closeA (lens : Nat)
  | freePorts
  | beats (core slot : Nat)
  | otherHalf (core slot id : Nat)
  | superWheel (core : Nat) (v : Word)
  | segment (core ag : Nat) (parts : List (Word × List Byte)) (left : Nat)
  | unfuseEnd (lens : Nat)
  | frozenEnd (lens node : Nat) (cause detail : BitVec 8)
  | memoryError (key : Nat)
  | cellError (lens row col : Nat) (mem : CellMem)
  | retire (core : Nat) (router : Bool)
  | far (x : Outside)
  deriving DecidableEq, Repr

/-- The EA6 die. `now` counts P-cycles since reset (R231); `coming` holds the events to come in time order, the
outside's inputs and the machine's own timers, and `works` other work of the machine that is to come; `agenda` the events
due now; `back` the requests that wait at the back ports of the banks, by bank and in the order of arrival (R266, R376); `cur` the slot whose turn it is; `extra`
the further delays that the outside's contention gives the next packets (R241, R281); `free` counts the draws of free
values. -/
structure State where
  now : Nat
  coming : List (Nat × Instr)
  works : List (Nat × Due)
  agenda : List Due
  back : List (Nat × Due)
  phase : Phase
  cur : SlotRef
  extra : List Nat
  free : Nat
  nextPkt : Nat
  cores : Tab Core
  clusters : Tab Cluster
  banks : Tab Bank
  mem : List Host.Cell
  memErr : List Nat
  packets : List Packet
  lenses : Tab Lens
  chans : Tab Channel
  fe : FrontEnd
  links : Tab Link
  defects : Tab Defect
  pbeat : Nat
  fw : Firmware
  deriving DecidableEq, Repr

/-! ### Why a step can stop -/

/-- Named stops of the machine. -/
inductive Fault where
  /-- Raised by an event step that names an agent outside the device (a core above 767, a slot above 7, ...): no such
  step exists. Safe: the model stops where nothing happens. -/
  | noSuchAgent
  deriving DecidableEq, Repr

/-- Refusals of the machine. -/
inductive Refusal where
  /-- Raised by exec for a row that has no meaning yet. Safe: nothing is claimed of it. -/
  | notModelled (mnemonic : String)
  deriving DecidableEq, Repr

/-! ### Reset -/

/-- R167: the idle-zero token. -/
def Token.idle : Token := ⟨false, 15, 0⟩

/-- R164: the sentinel pair. -/
def sentinelPair : BitVec 64 := 0xFFFFFFFF7FC00000#64

/-- R9, R12, R25, R37, R87, R124, R136, R214, R231, R252, R272, R341, R351: a slot after reset. -/
def Slot.reset : Slot where
  life := .unbound
  h := false
  task := none
  pc := 0
  g := []
  p := 1
  v := []
  m := []
  loop1 := ⟨0, 0, 0⟩
  loop2 := ⟨0, 0, 0⟩
  fvec := 0
  epc := 0
  fcause := 0
  faddr := 0
  finfo := 0
  fhen := 0
  fpctl := 0
  istat := 0
  vstat := 0
  turn := 0
  reload := 0
  left := 0
  est := 0
  bstat := 0
  notify := 0
  wovf := false
  rngkey := 0
  lstate := 0
  gate := .closed
  wait := none
  gfail := none
  divFree := 0
  vecFree := 0
  flights := []
  vloads := []
  accs := []
  pends := []
  due := []
  budgetDue := false
  hold := false
  nextId := 0
  claimed := false
  oneStep := false
  vbad := []
  beats := []

/-- R246: a channel on which nothing was armed. -/
def RecvChan.reset : RecvChan := ⟨none, 0, false⟩

/-- R315: a FREE node. -/
def Node.reset : Node where
  st := .free
  owner := 0
  kind := 0
  succ := []
  ntv := none
  chan := 0
  autofree := false
  deliver := false
  pred := 0
  comp := 0
  arg0 := 0
  arg1 := 0
  td := none
  key := 0
  eset := 0
  needs := []
  pos := 0
  staged := []
  flags := 0
  status := 0
  detail := 0
  seq := 0
  ending := false
  endAt := 0
  killed := false
  vaFail := 0
  walk := none
  keepAll := false
  freedBy := none

/-- R195, R198: an empty lane, its converter as FUSE sets it. -/
def Conv.reset : Conv := ⟨15, 0, 0, 0, false⟩

def Lane.reset : Lane := ⟨[], [], Conv.reset, false, .prism, 0⟩

def AgLane.reset : AgLane := ⟨⟨0, 0, 0, 0⟩, [], [], [], 0, 0, none⟩

/-- R219: an EMPTY AG. -/
def AG.reset : AG := ⟨.empty, 0, 0, 0, [], [], 0, 0, 0, 0, [], 0, none, none, none⟩

/-- A core after reset. -/
def Core.reset : Core where
  istore := []
  ibad := []
  slots := []
  task := none
  retired := false
  retiring := false
  skew := 0
  wheel := 0
  wheelNext := 0
  wheelDue := []
  hbeat := 0
  syncref := 0
  boundCls := false
  issued := 0
  done := 0
  bmap := []
  bnslot := 0
  lastlat := 0
  miss := 0
  namebase := 0
  purged := 0
  stale := none
  ncache := []
  walks := []
  sendq := []
  recv := []
  seqTo := []
  seqFrom := []
  reorder := []
  gives := []
  latch := 0
  gens := []
  nodes := []
  fins := []
  cseq := 1
  eng0 := []
  eng1 := []
  guq := []
  ags := []
  gates := 0
  lanes := []
  frontBusy := []
  tlb := []

def Cluster.reset : Cluster := ⟨false, 0, 0, [], [], .awake, 0, [], none, [], [], 40, none⟩

/-- R265: a pooled bank. -/
def Bank.reset : Bank := ⟨0, .pooled⟩

/-- R164, the Reset column. -/
def Cell.reset : Cell :=
  ⟨0, 0, 0, 0, 0, 0, sentinelPair, false, 0, sentinelPair, 0, 0, Token.idle, Token.idle⟩

def Sequencer.reset : Sequencer :=
  ⟨0, 0, 0, true, 0, 0, [], 0, false, false, .none, false, 0, none, false, none, 0, 0, 15, false, none⟩

/-- A lens name that has never been fused (R218: UNFUSED). -/
def Lens.reset : Lens where
  task := 0
  num := 0
  ox := 0
  oy := 0
  w := 0
  h := 0
  st := .unfused
  last := 0
  flags := 0
  bypR := []
  bypC := []
  table := []
  cells := []
  westCnt := []
  northCnt := []
  restart := 0
  acyc := 0
  region := 0
  mid := false
  clock := 4
  frac := 0
  stretched := 0
  oldSkew := []
  waves := []
  wires := []
  seq := Sequencer.reset
  open_ := []
  queue := []
  ctabs := []
  fuser := 0
  unfusing := none
  raised := []
  kept := none
  freezing := false
  record := 0
  parity := []

def Channel.reset : Channel := ⟨.unbound, [], []⟩

def Queue.reset : Queue where
  ring := 0
  msix := 0
  weight := 0
  log2 := 4
  loc := 0
  en := false
  tail := 0
  head := 0
  notice := 0
  noticeIdx := 0
  broken := false
  waiting := none
  waitSince := 0
  outstanding := []

def Ingress.reset : Ingress := ⟨0, 0, 0, [], [], 0⟩

/-- A kernel with nothing in it: what an unknown image address stands for. -/
def Kernel.none : Kernel where
  header := []
  sections := []
  symbols := []
  relocs := []
  fw := 1
  fh := 1
  wheel := 0
  budget := 0
  remain := 0
  restart := 0
  text := []
  slots := 0
  entry := []
  presets := []
  coreData := []
  lenses := []
  cells := []
  routes := []
  streams := []
  tls := 0
  sp := 0
  tlsStride := 0
  spStride := 0
  size := 0

def BindRec.none : BindRec where
  die := 0
  ox := 0
  oy := 0
  fw := 1
  fh := 1
  bankn := 1
  tokens := 0
  cls := 0
  restart := 0
  res := false
  wheel := 0
  image := 0
  arg := 0
  namebase := 0
  bargrp := 0xFFFFFFFF
  remain := 0
  budget := 0
  quota := 128
  text := 0
  entry := []
  done := 0
  tls := 0
  sp := 0
  tlsStride := 0
  spStride := 0
  save := 0

def Task.none : Task :=
  ⟨.placed, BindRec.none, Kernel.none, 0, 0, 0, 0, Option.none, 0, Option.none⟩

def Space.reset : Space := ⟨0, 0, [], 1, 0, [], []⟩

/-- R363: the reset rank program: w = ((255 - TOKENS) << 16) + 65,535; rank = (CLASS << 24) + w - Min(AGE, w). -/
def resetRank : List RankOp :=
  [.ldf 0 .tokens, .ldi 1 255, .sub 1 1 0, .shl 1 1 16, .ldi 2 65535, .add 1 1 2, .ldf 3 .age, .min 3 3 1,
   .sub 1 1 3, .ldf 0 .cls, .shl 0 0 24, .add 0 0 1]

def FrontEnd.reset : FrontEnd where
  slotTable := []
  group := []
  bars := []
  queues := []
  threads := []
  pifo := []
  pushes := []
  nextEntry := 0
  rank := resetRank
  tasks := []
  images := []
  spaces := []
  walks := []
  loads := []
  ports := []
  configs := []
  msix := []
  records := []
  freezes := []
  win4 := 0
  lastRead := none
  dropped := 0
  reserve := []

def Link.reset : Link := ⟨.reset, 0, 0, 0, [], [], 0, 0, 0, false, 0, 0⟩

/-- R2: a whole facet on a live core. -/
def Defect.none : Defect := ⟨true, true, true, [], []⟩

def Loupe.reset : Loupe := ⟨[], [], [], [], [], [], 0, 0, 0, 0, [], 0⟩

def FwImage.shipped : FwImage := ⟨0, false, 1, true, true, true, 0⟩

/-- R395 to R399: the part as shipped, its rails up and its boot still to run. -/
def Firmware.reset : Firmware where
  powered := true
  rails := 4
  booted := false
  bootFailed := false
  debug := false
  selectorB := false
  bootedB := false
  slotA := FwImage.shipped
  slotB := FwImage.shipped
  bootedSvn := 0
  minSvn := 0
  serial := 0
  owner := some 0
  secrets := some 0
  nonce := 0
  erasing := false
  tripped := false
  log := []
  answer := []
  routineDigest := 0
  grade := 760
  form := 2
  infoUp := false
  memErrors := []
  service := []
  deadRouters := []
  member := false
  stranded := false
  die := 0
  members := []
  pos := 0
  lost := []
  hosts := [0]
  loupe := Loupe.reset

/-- The machine right after device reset: every slot UNBOUND, every bank pooled, nothing in flight, and the boot
(R395) the first event to come. -/
def State.reset : State where
  now := 0
  coming := [(1, .deviceReset)]
  works := []
  agenda := []
  back := []
  phase := .turns []
  cur := ⟨0, 0⟩
  extra := []
  free := 0
  nextPkt := 0
  cores := []
  clusters := []
  banks := []
  mem := []
  memErr := []
  packets := []
  lenses := []
  chans := []
  fe := FrontEnd.reset
  links := []
  defects := []
  pbeat := 0
  fw := Firmware.reset

end Sys2Proof.Machine
end

