-- ==== Sys2Proof/Machine/Ops.lean ====
section
/-! DEFINITION. The shared operations: access to the parts of the state, registers, results in flight, memory bytes,
taking a fault and returning from one, the end of a word's issue, and the event list. -/

namespace Sys2Proof.Machine

/-! ### Parts of the state -/

/-- The coordinates of a physical core: number = 24 y + x (R1). -/
def coreX (c : Nat) : Nat := c % 24
def coreY (c : Nat) : Nat := c / 24
def coreAt (x y : Nat) : Nat := 24 * y + x

/-- R265: the cluster of a core. -/
def clusterOf (c : Nat) : Nat := coreX c / 4 + 6 * (coreY c / 4)

def State.core (s : State) (c : Nat) : Core := Tab.at s.cores c Core.reset

def State.setCore (s : State) (c : Nat) (x : Core) : State := { s with cores := Tab.put s.cores c x }

def State.modCore (s : State) (c : Nat) (f : Core → Core) : State := s.setCore c (f (s.core c))

def Core.slot (x : Core) (k : Nat) : Slot := Tab.at x.slots k Slot.reset

def Core.setSlot (x : Core) (k : Nat) (sl : Slot) : Core := { x with slots := Tab.put x.slots k sl }

def State.slot (s : State) (r : SlotRef) : Slot := (s.core r.core).slot r.slot

def State.setSlot (s : State) (r : SlotRef) (sl : Slot) : State := s.modCore r.core fun x => x.setSlot r.slot sl

def State.modSlot (s : State) (r : SlotRef) (f : Slot → Slot) : State := s.setSlot r (f (s.slot r))

/-- The slot whose turn it is. -/
def State.me (s : State) : Slot := s.slot s.cur

def State.modMe (s : State) (f : Slot → Slot) : State := s.modSlot s.cur f

/-- The core of the slot whose turn it is. -/
def State.myCore (s : State) : Core := s.core s.cur.core

def State.modMyCore (s : State) (f : Core → Core) : State := s.modCore s.cur.core f

def State.cluster (s : State) (c : Nat) : Cluster := Tab.at s.clusters c Cluster.reset

def State.modCluster (s : State) (c : Nat) (f : Cluster → Cluster) : State :=
  { s with clusters := Tab.put s.clusters c (f (s.cluster c)) }

def State.bank (s : State) (b : Nat) : Bank := Tab.at s.banks b Bank.reset

def State.modBank (s : State) (b : Nat) (f : Bank → Bank) : State :=
  { s with banks := Tab.put s.banks b (f (s.bank b)) }

def State.lens (s : State) (l : Nat) : Lens := Tab.at s.lenses l Lens.reset

def State.setLens (s : State) (l : Nat) (x : Lens) : State := { s with lenses := Tab.put s.lenses l x }

def State.modLens (s : State) (l : Nat) (f : Lens → Lens) : State := s.setLens l (f (s.lens l))

/-- Channels are kept per task, 4,096 names each (R210). -/
def chanKey (task n : Nat) : Nat := task * 4096 + n

/-- Lenses are kept per task, 64 names each (R80). -/
def lensKey (task n : Nat) : Nat := task * 64 + n

def State.chan (s : State) (k : Nat) : Channel := Tab.at s.chans k Channel.reset

def State.modChan (s : State) (k : Nat) (f : Channel → Channel) : State :=
  { s with chans := Tab.put s.chans k (f (s.chan k)) }

def State.modFe (s : State) (f : FrontEnd → FrontEnd) : State := { s with fe := f s.fe }

def State.modFw (s : State) (f : Firmware → Firmware) : State := { s with fw := f s.fw }

def State.task (s : State) (t : Nat) : Task := Tab.at s.fe.tasks t Task.none

def State.modTask (s : State) (t : Nat) (f : Task → Task) : State :=
  s.modFe fun e => { e with tasks := Tab.put e.tasks t (f (s.task t)) }

def Core.node (x : Core) (n : Nat) : Node := Tab.at x.nodes n Node.reset

def Core.modNode (x : Core) (n : Nat) (f : Node → Node) : Core := { x with nodes := Tab.put x.nodes n (f (x.node n)) }

def Core.ag (x : Core) (n : Nat) : AG := Tab.at x.ags n AG.reset

def Core.modAg (x : Core) (n : Nat) (f : AG → AG) : Core := { x with ags := Tab.put x.ags n (f (x.ag n)) }

/-- R191, R195: edge lanes by edge (0 W, 1 N, 2 S, 3 E) and segment lane. -/
def Core.lane (x : Core) (e l : Nat) : Lane := Tab.at x.lanes (64 * e + l) Lane.reset

def Core.modLane (x : Core) (e l : Nat) (f : Lane → Lane) : Core :=
  { x with lanes := Tab.put x.lanes (64 * e + l) (f (x.lane e l)) }

def State.defect (s : State) (c : Nat) : Defect := Tab.at s.defects c Defect.none

/-- R2: the map leaves the core live: one whose facet would need more than two bypassed rows or columns is retired with
that facet. -/
def Defect.usable (d : Defect) : Bool :=
  d.live && decide (d.rows.eraseDups.length ≤ 2) && decide (d.cols.eraseDups.length ≤ 2)

/-! ### Events -/

/-- Puts an event in the list of events to come, after those of the same time. -/
def State.later (s : State) (d : Nat) (i : Instr) : State :=
  { s with coming := insertBy (fun x => x.1) (s.now + d, i) s.coming }

/-- Puts other work of the machine in the list of what is to come. -/
def State.work (s : State) (d : Nat) (w : Due) : State :=
  { s with works := insertBy (fun x => x.1) (s.now + d, w) s.works }

/-- Puts an event at the end of the events due now. -/
def State.soon (s : State) (i : Instr) : State := { s with agenda := s.agenda ++ [.ev i] }

/-- Puts events before all others due now. -/
def State.first (s : State) (l : List Due) : State := { s with agenda := l ++ s.agenda }

/-- Puts an event before all others due now. -/
def State.next1 (s : State) (i : Instr) : State := s.first [.ev i]

/-- Takes the next further delay that the outside's contention gives (R241, R281), 0 where none is given. -/
def State.takeExtra (s : State) : Nat × State :=
  match s.extra with
  | [] => (0, s)
  | d :: r => (d, { s with extra := r })

/-- The next draw of a free value. -/
def State.draw (s : State) : Nat × State := (s.free, { s with free := s.free + 1 })

/-! ### Time (R116, R231, R232) -/

/-- The P-cycle count of a core: CYCLE. -/
def State.cycle (s : State) (c : Nat) : Word := w64 (s.now + (s.core c).skew)

/-- R116, R117: the slot that a wheel value names for a position. -/
def wheelSlot (wheel : Word) (pos : Nat) : Option Nat :=
  let v := bits wheel (4 * (pos % 16)) 4
  if v < 8 then none else some (v - 8)

/-- R116: the next P-cycle at or after t that is a turn of a slot, within one rotation. -/
def nextTurnCycle (wheel : Word) (skew slot t : Nat) : Option Nat :=
  ((List.range 16).map fun i => t + i).find? fun c => wheelSlot wheel (c + skew) == some slot

/-! ### Registers (R9, R85, R124) -/

/-- R85: G(n), with G(0) = 0. -/
def Slot.gr (sl : Slot) (r : BitVec 5) : Word := if r = 0 then 0 else Tab.at sl.g r.toNat 0

/-- R85: P(n), with P(0) = 1. -/
def Slot.pr (sl : Slot) (r : BitVec 3) : Bool := r = 0 || sl.p.getLsbD r.toNat

def Slot.vr (sl : Slot) (r : BitVec 4) : VReg := Tab.at sl.v r.toNat 0

/-- R124: m0 reads all ones. -/
def Slot.mr (sl : Slot) (r : BitVec 3) : Word := if r = 0 then BitVec.allOnes 64 else Tab.at sl.m r.toNat 0

/-- R124: lane i of a vector register. -/
def vlane (v : VReg) (i : Nat) : BitVec 32 := v.extractLsb' (32 * i) 32

/-- R16: a write to g0 is discarded. -/
def Slot.setG (sl : Slot) (r : BitVec 5) (v : Word) : Slot :=
  if r = 0 then sl else { sl with g := Tab.store sl.g 0 r.toNat v }

/-- R16: a write to p0 is discarded. -/
def Slot.setP (sl : Slot) (r : BitVec 3) (b : Bool) : Slot :=
  if r = 0 then sl
  else { sl with p := if b then sl.p ||| ((1 : BitVec 8) <<< r.toNat) else sl.p &&& ~~~((1 : BitVec 8) <<< r.toNat) }

/-- The lanes of a mask spread to 32 bits each. -/
def laneMask (lanes : Word) : Nat → VReg
  | 0 => 0
  | n + 1 => laneMask lanes n ||| (if lanes.getLsbD n then (0xFFFFFFFF : VReg) <<< (32 * n) else 0)

/-- R125: the lanes written, the others kept. -/
def Slot.setV (sl : Slot) (r : BitVec 4) (lanes : Word) (v : VReg) : Slot :=
  let m := laneMask lanes 64
  { sl with
    v := Tab.store sl.v 0 r.toNat ((sl.vr r &&& ~~~m) ||| (v &&& m))
    vbad := sl.vbad.filter fun x => !(x.1 == r.toNat && lanes.getLsbD x.2) }

/-- R124: a write to m0 is discarded. -/
def Slot.setM (sl : Slot) (r : BitVec 3) (lanes v : Word) : Slot :=
  if r = 0 then sl
  else { sl with m := Tab.store sl.m 0 r.toNat ((sl.mr r &&& ~~~lanes) ||| (v &&& lanes)) }

/-! ### Results in flight (R15 to R17) -/

/-- R15: a result of the slot whose turn it is, visible `lat` turns after this one and not before P-cycle `cyc`. -/
def State.emitAt (s : State) (lat cyc : Nat) (ws : List Write) : State :=
  s.modMe fun sl =>
    { sl with
      flights := sl.flights ++ [⟨sl.nextId, sl.turn + lat, cyc, ws⟩]
      nextId := sl.nextId + 1 }

def State.emit (s : State) (lat : Nat) (ws : List Write) : State := s.emitAt lat 0 ws

/-- R17: whether a result is due on the slot's present turn. -/
def Flight.due (f : Flight) (turn now : Nat) : Bool := decide (f.minTurn ≤ turn) && decide (f.minCycle ≤ now)

/-! ### Guards and the end of a word's issue (R13, R14, R92 to R97) -/

/-- R14: the guard of a word, on the predicates visible on its issue turn. -/
def Slot.guard (sl : Slot) (h : Hdr) : Bool := sl.pr h.gp != h.gn

def LoopLevel.active (l : LoopLevel) : Bool := l.remaining != 0

/-- R92, R94: the innermost active level is level 2, then level 1. -/
def Slot.innermost (sl : Slot) : Option (Bool × LoopLevel) :=
  if sl.loop2.active then some (true, sl.loop2) else if sl.loop1.active then some (false, sl.loop1) else none

def Slot.setLevel (sl : Slot) (two : Bool) (l : LoopLevel) : Slot :=
  if two then { sl with loop2 := l } else { sl with loop1 := l }

/-- R94: the loop unit at the end word of a level, at most two levels deep. After word 16,383 the PC, 14 bits wide, wraps
to 0 (log entry 30). -/
def atEndWord : Nat → Slot → Slot
  | 0, sl => { sl with pc := sl.pc + 1 }
  | n + 1, sl =>
    match sl.innermost with
    | none => { sl with pc := sl.pc + 1 }
    | some (two, l) =>
      if l.stop = sl.pc then
        if l.remaining.toNat > 1 then { (sl.setLevel two { l with remaining := l.remaining - 1 }) with pc := l.start }
        else atEndWord n (sl.setLevel two { l with remaining := 0 })
      else { sl with pc := sl.pc + 1 }

/-- R94, R96: the next word after one that commits without a transfer of control. -/
def Slot.advance (sl : Slot) : Slot := if sl.h then { sl with pc := sl.pc + 1 } else atEndWord 2 sl

/-- R13: the end of a word that is not a taken branch. -/
def State.retire (s : State) : State :=
  s.modMe fun sl => { sl.advance with gate := .fromTurn (sl.turn + 1) }

/-- R95: the levels that a taken BR or JMP to a target leaves; none while a handler runs (R96). -/
def Slot.popLoops (sl : Slot) (tgt : BitVec 14) : Slot :=
  if sl.h then sl
  else
    let out (l : LoopLevel) : Bool := decide (tgt.toNat < l.start.toNat) || decide (l.stop.toNat < tgt.toNat)
    if sl.loop2.active && out sl.loop2 then
      let sl := { sl with loop2 := { sl.loop2 with remaining := 0 } }
      if sl.loop1.active && out sl.loop1 then { sl with loop1 := { sl.loop1 with remaining := 0 } } else sl
    else if !sl.loop2.active && sl.loop1.active && out sl.loop1 then
      { sl with loop1 := { sl.loop1 with remaining := 0 } }
    else sl

/-- R13: a taken branch: the target issues on the slot's third turn after. -/
def State.transfer (s : State) (tgt : BitVec 14) : State :=
  s.modMe fun sl => { sl with pc := tgt, gate := .fromTurn (sl.turn + 3) }

/-! ### Taking a fault (R23, R24, R343) -/

/-- R24, R343: a fault record that goes to the front end. -/
def State.record (s : State) (r : SlotRef) (epc fcause faddr finfo : Word) : State :=
  s.modFe fun e => { e with records := e.records ++ [(r.core, r.slot, epc, fcause, faddr, finfo)] }

/-- R24: the record of a slot left FAULTED. -/
def State.sendRecord (s : State) (r : SlotRef) : State :=
  let sl := s.slot r
  s.record r (sl.epc.setWidth 64) (sl.fcause.setWidth 64) sl.faddr sl.finfo

/-- R11: a slot that stops issuing. -/
def Slot.stopAs (sl : Slot) (l : Life) : Slot :=
  { sl with life := l, gate := .closed, wait := none, hold := false, oneStep := false }

/-- R24, R343: the slot takes a fault: the saved registers are written and the slot enters its handler, whose first
word issues on the third turn after, or is FAULTED; inside a handler it is a double fault. -/
def Slot.fault (sl : Slot) (dfr : Bool) (cause : BitVec 8) (epc : BitVec 14) (addr info : Word) : Slot :=
  if sl.h then
    { sl with
      finfo := (epc.setWidth 64 <<< 16) ||| cause.setWidth 64
      fcause := 0x22 }.stopAs .faulted
  else
    let sl := { sl with
      epc := epc
      fcause := (BitVec.ofBool dfr) ++ cause
      faddr := addr
      finfo := info }
    if sl.fhen.getLsbD cause.toNat then
      { sl with h := true, life := .running, wait := none, pc := sl.fvec, gate := .fromTurn (sl.turn + 3) }
    else sl.stopAs .faulted

/-- R24: taking a fault, with the record to the front end when the slot is left FAULTED. -/
def State.takeFault (s : State) (r : SlotRef) (dfr : Bool) (cause : BitVec 8) (epc : BitVec 14) (addr info : Word) :
    State :=
  let s := s.modSlot r fun sl => sl.fault dfr cause epc addr info
  if (s.slot r).life = .faulted then s.sendRecord r else s

/-- R23: a precise fault of the word that is issuing. -/
def State.precise (s : State) (cause : BitVec 8) (addr info : Word) : State :=
  s.takeFault s.cur false cause s.me.pc addr info

/-- R343: a deferred-precise fault that falls due on the slot's next turn; none for an unbound slot. -/
def State.defer (s : State) (r : SlotRef) (acc : Option Nat) (cause : BitVec 8) (own : Option (BitVec 14))
    (addr info : Word) (rank : Nat) (dist : Option Nat) : State :=
  s.modSlot r fun sl =>
    if sl.life = .unbound then sl
    else { sl with due := sl.due ++ [⟨sl.nextId, acc, cause, own, addr, info, rank, dist, false⟩], nextId := sl.nextId + 1 }

/-- R356: the return from a handler: H clears and the target issues like that of a taken branch. -/
def State.returnTo (s : State) (tgt : BitVec 14) : State :=
  (s.modMe fun sl => { sl with h := false }).transfer tgt

/-! ### Uncorrectable errors that are counted (R403, R404) -/

/-- The units of which the loupe counts errors, numbered: banks, then instruction stores, vector registers and cells by
core, and the HBM stacks. -/
def unitBank (b : Nat) : Nat := b
def unitText (c : Nat) : Nat := 8192 + c
def unitVector (c : Nat) : Nat := 9216 + c
def unitCells (c : Nat) : Nat := 10240 + c

/-- R404: one more error of a unit. -/
def State.countError (s : State) (u : Nat) : State :=
  s.modFw fun f => { f with loupe := { f.loupe with errors := Tab.put f.loupe.errors u (Tab.at f.loupe.errors u 0 + 1) } }

/-- R352, R403: an uncorrectable error in a prism memory of a core. -/
def State.prismError (s : State) (c u : Nat) : State :=
  (s.countError u).modFw fun f => { f with memErrors := Tab.put f.memErrors c (Tab.at f.memErrors c [] ++ [s.now]) }

/-! ### Words -/

/-- R14: a word executes when its guard holds; otherwise it only spends its turn. -/
def State.guarded (s : State) (h : Hdr) (body : State → State) : State :=
  if s.me.guard h then body s else s.retire

/-- A result of `lat` turns and the end of the word. -/
def State.result (s : State) (lat : Nat) (ws : List Write) : State := (s.emit lat ws).retire

/-! ### Memory (R20, R265, R291) -/

/-- The byte that an address not listed reads as (log entry 3). -/
def emptyByte : Byte := 0

/-- The byte at an address. -/
def memRead (m : List Host.Cell) (a : Nat) : Byte :=
  match m with
  | [] => emptyByte
  | (b, v) :: r => if b = a then v else memRead r a

/-- Writes one byte, keeping the canonical form. -/
def memWrite (m : List Host.Cell) (a : Nat) (v : Byte) : List Host.Cell :=
  match m with
  | [] => if v = emptyByte then [] else [(a, v)]
  | (b, u) :: r =>
    if a < b then (if v = emptyByte then (b, u) :: r else (a, v) :: (b, u) :: r)
    else if a = b then (if v = emptyByte then r else (a, v) :: r)
    else (b, u) :: memWrite r a v

/-- The canonical form: addresses strictly rising, no byte equal to what an unlisted address reads as. -/
def memCanonFrom (lo : Nat) : List Host.Cell → Bool
  | [] => true
  | (a, v) :: r => decide (lo ≤ a) && v != emptyByte && memCanonFrom (a + 1) r

def Memory.wf (m : List Host.Cell) : Bool := memCanonFrom 0 m

def State.byte (s : State) (a : Nat) : Byte := memRead s.mem a

def State.bytes (s : State) (a n : Nat) : List Byte := (List.range n).map fun i => s.byte (a + i)

/-- R353: writing all of an aligned 64-bit unit clears its uncorrectable error. -/
def clearErr (errs : List Nat) (a n : Nat) : List Nat :=
  errs.filter fun e => !(decide (a ≤ e) && decide (e + 8 ≤ a + n))

def memWriteAll (m : List Host.Cell) (a : Nat) : List Byte → List Host.Cell
  | [] => m
  | b :: r => memWriteAll (memWrite m a b) (a + 1) r

def State.poke (s : State) (a : Nat) (bs : List Byte) : State :=
  { s with mem := memWriteAll s.mem a bs, memErr := clearErr s.memErr a bs.length }

def State.word (s : State) (a n : Nat) : Nat := leNat (s.bytes a n)

/-- R353: an uncorrectable error among n bytes. -/
def State.hasErr (s : State) (a n : Nat) : Bool :=
  s.memErr.any fun e => decide (e < a + n) && decide (a < e + 8)

/-- R353: an uncorrectable error appears in the 8-byte word that holds a byte, from outside. -/
def State.memoryError (s : State) (a : Nat) : State :=
  if s.memErr.contains (a / 8 * 8) then s else { s with memErr := s.memErr ++ [a / 8 * 8] }

/-- The memory key of a byte of a bank (R265). -/
def bankKey (bank off : Nat) : Nat := bank * 262144 + off

/-- The memory key of a device physical address (R291). -/
def dpaKey (a : Nat) : Nat := 2 ^ 60 + a

/-- R265: a bank is zeroed. -/
def State.zeroBank (s : State) (bank : Nat) : State :=
  { s with
    mem := s.mem.filter fun c => !(decide (bankKey bank 0 ≤ c.1) && decide (c.1 < bankKey (bank + 1) 0))
    memErr := s.memErr.filter fun e => !(decide (bankKey bank 0 ≤ e) && decide (e < bankKey (bank + 1) 0)) }

/-! ### Bank maps (R269) -/

def Core.bm (x : Core) (e : Nat) : Word := Tab.at x.bmap e 0

def Core.setBm (x : Core) (e : Nat) (v : Word) : Core := { x with bmap := Tab.store x.bmap 0 e v }

def bmV (w : Word) : Bool := w.getLsbD 63
def bmPend (w : Word) : Bool := w.getLsbD 62
def bmWp (w : Word) : Bool := w.getLsbD 61
def bmCl (w : Word) : Nat := bits w 50 6
def bmBank (w : Word) : Nat := bits w 43 7
def bmGen (w : Word) : Nat := bits w 0 32

/-- R265: the die-wide number of the bank that an entry names. -/
def bmIndex (w : Word) : Nat := bmCl w * 128 + bmBank w

/-- R269: an entry's value. -/
def bmMake (v pend wp : Bool) (cl bank gen : Nat) : Word :=
  w64 (b2n v * 2 ^ 63 + b2n pend * 2 ^ 62 + b2n wp * 2 ^ 61 + cl % 64 * 2 ^ 50 + bank % 128 * 2 ^ 43 + gen % 2 ^ 32)

def bmSetV (w : Word) (b : Bool) : Word := setBits w 63 1 (b2n b)
def bmSetPend (w : Word) (b : Bool) : Word := setBits w 62 1 (b2n b)

/-- R263: the local window. -/
def isLocal (ea : Word) : Bool := decide (ea.toNat < 4194304)

/-- R263: the global SRAM aperture. -/
def isGlobal (ea : Word) : Bool := bits ea 41 23 == 0 && ea.getLsbD 40 && bits ea 38 2 == 0

/-- R263: the logical name of a global address. -/
def eaName (ea : Word) : BitVec 16 := ea.extractLsb' 22 16

/-- R20, R263: the window entry of an address. -/
def eaEntry (ea : Word) : Nat := bits ea 18 4

/-- The memory key of a window byte of a core through its bank map. -/
def Core.winKey (x : Core) (ea : Word) : Nat := bankKey (bmIndex (x.bm (eaEntry ea))) (bits ea 0 18)

/-- R263: the global address of a window byte of a logical name. -/
def globalAddr (name : BitVec 16) (off : Nat) : Word := w64 (2 ^ 40 + name.toNat * 4194304 + off)

/-! ### Reading and writing a window (R20, R266, R279) -/

/-- R279: why an entry cannot serve an access: whether it is pending, whether write-protected; none when it can. -/
def entryRefuses (w : Word) (write : Bool) : Option (Bool × Bool) :=
  if !bmV w || bmPend w then some (bmPend w, false)
  else if write && bmWp w then some (false, true)
  else none

def State.winBytes (s : State) (c : Nat) (ea : Word) (n : Nat) : List Byte := s.bytes ((s.core c).winKey ea) n

def State.winPoke (s : State) (c : Nat) (ea : Word) (bs : List Byte) : State := s.poke ((s.core c).winKey ea) bs

/-! ### Names of the frame (R226, R227, R233) -/

/-- R233: the logical name of frame coordinates on this die. -/
def nameOf (die fx fy : Nat) : BitVec 16 := BitVec.ofNat 16 (die % 64 * 1024 + fy % 32 * 32 + fx % 32)

/-- The frame coordinates of a physical core of a task. -/
def frameXY (r : BindRec) (c : Nat) : Nat × Nat := (coreX c - r.ox, coreY c - r.oy)

/-- The physical core at frame coordinates of a task. -/
def frameCore (r : BindRec) (fx fy : Nat) : Nat := coreAt (r.ox + fx) (r.oy + fy)

/-- R226: the cores of a task's frame, in row order. -/
def frameCores (r : BindRec) : List Nat :=
  (List.range r.fh).flatMap fun y => (List.range r.fw).map fun x => frameCore r x y

/-- The task a core works for, with its record. -/
def State.recOf (s : State) (c : Nat) : BindRec :=
  match (s.core c).task with
  | some t => (s.task t).rec_
  | none => BindRec.none

/-- R233: the name of a core in its task. -/
def State.ownName (s : State) (c : Nat) : BitVec 16 :=
  let r := s.recOf c
  let (fx, fy) := frameXY r c
  nameOf r.die fx fy

/-! ### Timing classes (R282) -/

def State.classOf (s : State) (c : Nat) : Nat := b2n (s.cluster (clusterOf c)).cls

end Sys2Proof.Machine
end

