-- ==== Sys2Proof/Machine/Control.lean ====
section
/-! DEFINITION. The control group: NOP, branches, LOOP, WAITC, END, TRAP, BRK, RFT and CHKP (R61, R89 to R98, R355 to
R357). -/

namespace Sys2Proof.Machine

/-- The outcome of a word: it executes under its guard (R14). -/
def word (h : Hdr) (s : State) (body : State → State) : Host.Outcome State Fault Refusal := .next (s.guarded h body)

/-- R62: OFF32 as a signed 64-bit value. -/
def off64 (o : FmtC) : Word := o.off.signExtend 64

/-- R89: a transfer to a word index, or 0x09 where the target lies outside the instruction store; `link` names the
register of the link, and BR and JMP leave loops (R95). -/
def State.goto (s : State) (tgt : Word) (link : Option (BitVec 5)) (pops : Bool) : State :=
  if tgt.toNat > 16383 then s.precise 0x09 tgt 0
  else
    let pc := tgt.setWidth 14
    let s := match link with
      | some rd => s.emit 1 [.g rd (s.me.pc.setWidth 64 + 1)]
      | none => s
    let s := if pops then s.modMe fun sl => sl.popLoops pc else s
    s.transfer pc

/-- R61. -/
def execNop (h : Hdr) (_o : FmtC) (s : State) : Host.Outcome State Fault Refusal := word h s State.retire

/-- R89: BR. -/
def execBr (h : Hdr) (o : FmtC) (s : State) : Host.Outcome State Fault Refusal :=
  word h s fun s => s.goto (s.me.pc.setWidth 64 + off64 o) none true

/-- R89: JMP. -/
def execJmp (h : Hdr) (o : FmtC) (s : State) : Host.Outcome State Fault Refusal :=
  word h s fun s => s.goto (s.me.gr o.ra + off64 o) none true

/-- R89: CALL. -/
def execCall (h : Hdr) (o : FmtC) (s : State) : Host.Outcome State Fault Refusal :=
  word h s fun s => s.goto (s.me.pc.setWidth 64 + off64 o) (some o.rd) false

/-- R89: CALLR. -/
def execCallr (h : Hdr) (o : FmtC) (s : State) : Host.Outcome State Fault Refusal :=
  word h s fun s => s.goto (s.me.gr o.ra + off64 o) (some o.rd) false

/-- R89: RET. -/
def execRet (h : Hdr) (o : FmtC) (s : State) : Host.Outcome State Fault Refusal :=
  word h s fun s => s.goto (s.me.gr o.ra) none false

/-- R93: a LOOP nested wrongly inside the body of the innermost active level. -/
def Slot.badNesting (sl : Slot) (e : Nat) : Bool :=
  match sl.innermost with
  | some (_, l) => decide (l.start.toNat ≤ sl.pc.toNat) && decide (sl.pc.toNat ≤ l.stop.toNat) && decide (l.stop.toNat < e)
  | none => false

/-- R92, R93: a new level, outside the active one. -/
def Slot.pushLevel (sl : Slot) (l : LoopLevel) : Slot :=
  if sl.loop1.active then { sl with loop2 := l } else { sl with loop1 := l }

/-- R93: LOOP with a count. The lowest cause code prevails: 0x04 before 0x09. FADDR of the 0x09 of an end word index above
16,383 is that index, with a count of 0 as well (log entry 30). -/
def State.loopWord (s : State) (count : Word) (off : BitVec 32) : State :=
  let sl := s.me
  let e := sl.pc.toNat + off.toNat
  if sl.badNesting e || sl.h || (count != 0 && sl.loop1.active && sl.loop2.active) then s.precise 0x04 0 2
  else if e > 16383 then s.precise 0x09 (w64 e) 0
  else if count = 0 then
    if e = 16383 then s.precise 0x09 16384 0 else s.transfer (BitVec.ofNat 14 (e + 1))
  else (s.modMe fun sl => sl.pushLevel ⟨sl.pc + 1, BitVec.ofNat 14 e, count⟩).retire

/-- R93: LOOP ga, end. -/
def execLoop (h : Hdr) (o : FmtC) (s : State) : Host.Outcome State Fault Refusal :=
  word h s fun s => s.loopWord (s.me.gr o.ra) o.off

/-- R93: LOOP #n, end; n is bits [42:33] of the word. -/
def execLoopImm (h : Hdr) (o : FmtC) (s : State) : Host.Outcome State Fault Refusal :=
  word h s fun s => s.loopWord ((o.ra ++ o.rb).setWidth 64) o.off

/-- R97: WAITC ga, n. -/
def execWaitc (h : Hdr) (o : FmtC) (s : State) : Host.Outcome State Fault Refusal :=
  word h s fun s =>
    let target := s.me.gr o.ra + off64 o
    s.retire.modMe fun sl => { sl with gate := .waitc (sl.turn + 1) target }

/-- R97: WAITC #n. -/
def execWaitcImm (h : Hdr) (o : FmtC) (s : State) : Host.Outcome State Fault Refusal :=
  word h s fun s => s.retire.modMe fun sl => { sl with gate := .fromTurn (sl.turn + 1 + o.off.toNat) }

/-- R98: END. -/
def execEndSlot (h : Hdr) (_o : FmtC) (s : State) : Host.Outcome State Fault Refusal :=
  word h s fun s => s.modMe fun sl => sl.stopAs .halted

/-- R355: TRAP. -/
def execTrap (h : Hdr) (o : FmtC) (s : State) : Host.Outcome State Fault Refusal :=
  word h s fun s => s.precise 0x20 0 (o.off.setWidth 64)

/-- R355, R405: BRK in a slot that the loupe has claimed leaves it FAULTED, its record going to the loupe. -/
def State.breakClaimed (s : State) (info : Word) : State :=
  let s := s.modMe fun sl =>
    { (({ sl with fhen := 0 } : Slot).fault false 0x21 sl.pc 0 info) with fhen := sl.fhen }
  let sl := s.me
  s.modFw fun f =>
    { f with
      loupe := { f.loupe with
        breaks := f.loupe.breaks ++
          [(s.cur.core, s.cur.slot, sl.epc.setWidth 64, sl.fcause.setWidth 64, sl.faddr, sl.finfo)] } }

/-- R355: BRK. -/
def execBrk (h : Hdr) (o : FmtC) (s : State) : Host.Outcome State Fault Refusal :=
  word h s fun s =>
    let info := o.off.setWidth 64
    if s.me.claimed then s.breakClaimed info else s.precise 0x21 0 info

/-- R356: RFT. -/
def execRft (h : Hdr) (_o : FmtC) (s : State) : Host.Outcome State Fault Refusal :=
  word h s fun s => s.returnTo s.me.epc

/-- R96: the slot as it goes on after the instruction at EPC. -/
def Slot.afterEpc (sl : Slot) : Slot := ({ sl with h := false, pc := sl.epc } : Slot).advance

/-- R94, R96: the instruction at EPC ends the body of an active level that repeats. -/
def Slot.epcRepeats (sl : Slot) : Bool := sl.h && sl.epc == 16383 && sl.afterEpc.pc != 0

/-- R96, R356: RFT.next; the word at EPC counts as having committed, so its loop end is obeyed. -/
def execRftNext (h : Hdr) (_o : FmtC) (s : State) : Host.Outcome State Fault Refusal :=
  word h s fun s =>
    let sl := s.me
    if sl.epc = 16383 ∧ !sl.epcRepeats then s.precise 0x09 16384 0
    else if sl.h then
      let t := sl.afterEpc
      (s.modMe fun x => { x with loop1 := t.loop1, loop2 := t.loop2 }).returnTo t.pc
    else s.returnTo (sl.epc + 1)

/-- R357: CHKP. -/
def execChkp (h : Hdr) (_o : FmtC) (s : State) : Host.Outcome State Fault Refusal :=
  word h s fun s => (s.modMe fun sl => { sl with left := sl.reload }).retire

/-- R357: CHKP #n. -/
def execChkpImm (h : Hdr) (o : FmtC) (s : State) : Host.Outcome State Fault Refusal :=
  word h s fun s => (s.modMe fun sl => { sl with reload := o.off, left := o.off }).retire

end Sys2Proof.Machine
end

