-- ==== Sys2Proof/Machine/Flags.lean ====
section
/-! DEFINITION. The exception conditions of R40 and how each unit keeps them: the seven of VSTAT (R136) and the six of
ISTAT (R87), and which condition traps (R41). -/

namespace Sys2Proof.Machine

/-- The conditions of one operation in the bit order of VSTAT (R136): SAT 6, LOVF 5, NV 4, DZ 3, OF 2, UF 1, NX 0. -/
abbrev Flags := BitVec 7

def fNX : Flags := 0x01
def fUF : Flags := 0x02
def fOF : Flags := 0x04
def fDZ : Flags := 0x08
def fNV : Flags := 0x10
def fLOVF : Flags := 0x20
def fSAT : Flags := 0x40

/-- A condition that holds or not. -/
def flagIf (c : Bool) (f : Flags) : Flags := if c then f else 0

/-- R87: the conditions that ISTAT keeps, NV to NX. -/
def istatOf (f : Flags) : BitVec 6 := (f.extractLsb' 0 5).setWidth 6

/-- R87, R101: IDZ and DZ, set by an integer division by zero. -/
def istatIdz : BitVec 6 := 0x28

/-- R37, R41: the lowest cause code that traps among the conditions met, under the enables of FPCTL. -/
def trapCause (fpctl : BitVec 13) (f : Flags) : Option (BitVec 8) :=
  if f.getLsbD 4 && fpctl.getLsbD 8 then some 0x10
  else if f.getLsbD 3 && fpctl.getLsbD 9 then some 0x11
  else if f.getLsbD 2 && fpctl.getLsbD 10 then some 0x12
  else if f.getLsbD 5 && fpctl.getLsbD 11 then some 0x13
  else none

/-- R41: the condition of a trap cause. -/
def causeFlag (c : BitVec 8) : Flags := if c = 0x10 then fNV else if c = 0x11 then fDZ else if c = 0x12 then fOF else fLOVF

/-- R41, R128: the trap of an instruction over its lanes, each with the conditions it met: the cause and the lowest
lane that met it. -/
def laneTrap (fpctl : BitVec 13) (fs : List (Nat × Flags)) : Option (BitVec 8 × Nat) :=
  let all := fs.foldl (fun acc x => acc ||| x.2) (0 : Flags)
  match trapCause fpctl all with
  | none => none
  | some c => some (c, minOf 63 ((fs.filter fun x => x.2 &&& causeFlag c != 0).map (·.1)))

end Sys2Proof.Machine
end

