-- ==== Sys2Proof/Machine/ScalarInt.lean ====
section
/-! DEFINITION. The scalar integer group (R99 to R104). -/

namespace Sys2Proof.Machine

/-! ### Values -/

/-- R103: the conditions of CMP and CMPI. -/
def intCond (c : Nat) (a b : Word) : Bool :=
  match c with
  | 0 => a == b
  | 1 => a != b
  | 2 => a.slt b
  | 3 => b.sle a
  | 4 => a.sle b
  | 5 => b.slt a
  | 6 => a.ult b
  | 7 => b.ule a
  | 8 => a.ule b
  | _ => b.ult a

/-- R100: a shift amount is the low six bits. -/
def amount (b : Word) : Nat := bits b 0 6

/-- R100: leading zero bits, counted from bit n - 1 down. -/
def clzFrom (a : Word) : Nat → Nat
  | 0 => 0
  | n + 1 => if a.getLsbD n then 0 else 1 + clzFrom a n

/-- R100: trailing zero bits among the top n. -/
def ctzFrom (a : Word) : Nat → Nat
  | 0 => 0
  | n + 1 => if a.getLsbD (63 - n) then 0 else 1 + ctzFrom a n

/-- R100: MULH by FN: signed, unsigned, signed × unsigned. -/
def mulHigh (fn : Nat) (a b : Word) : Word :=
  let x : Int := if fn = 1 then (a.toNat : Int) else a.toInt
  let y : Int := if fn = 0 then b.toInt else (b.toNat : Int)
  BitVec.ofInt 64 (x * y / 18446744073709551616)

/-- R101: quotient and remainder for a nonzero divisor. -/
def divide (signed : Bool) (a b : Word) : Word × Word :=
  if signed then
    if a = 0x8000000000000000 ∧ b = BitVec.allOnes 64 then (a, 0)
    else
      let q := BitVec.ofInt 64 (Int.tdiv a.toInt b.toInt)
      (q, a - q * b)
  else
    let q := BitVec.ofNat 64 (a.toNat / b.toNat)
    (q, a - q * b)

/-- R102: EXT by FN. -/
def extend (fn : Nat) (a : Word) : Word :=
  match fn with
  | 0 => (a.setWidth 8).signExtend 64
  | 1 => (a.setWidth 16).signExtend 64
  | 2 => (a.setWidth 32).signExtend 64
  | 4 => (a.setWidth 8).setWidth 64
  | 5 => (a.setWidth 16).setWidth 64
  | _ => (a.setWidth 32).setWidth 64

/-- R102: the field position and width of BFX and BFI. -/
def fieldPos (o : FmtA) : Nat := bits o.imm 0 6
def fieldWidth (o : FmtA) : Nat := bits o.imm 6 6 + 1

/-- R102: BFX. -/
def extractField (signed : Bool) (a : Word) (pos w : Nat) : Word :=
  let v := a.toNat / 2 ^ pos % 2 ^ w
  if signed then BitVec.ofInt 64 (sextNat w v) else w64 v

/-- R66: the result of a LUT4 for two inputs. -/
def lut4 (sub : Nat) (a b : Bool) : Bool := nbit sub (2 * b2n a + b2n b)

/-- R103, R104: sext and zext of immediates. -/
def sext20 (i : BitVec 20) : Word := i.signExtend 64
def imm64 (z : Bool) (i : BitVec 32) : Word := if z then i.setWidth 64 else i.signExtend 64

/-! ### Forms -/

/-- R99: a three-register operation whose result is visible `lat` turns after issue. -/
def alu (lat : Nat) (h : Hdr) (o : FmtA) (s : State) (f : Word → Word → Word) : Host.Outcome State Fault Refusal :=
  word h s fun s => s.result lat [.g o.rd (f (s.me.gr o.ra) (s.me.gr o.rb))]

/-- R104: a register-immediate operation. -/
def aluImm (h : Hdr) (o : FmtB) (s : State) (f : Word → Word) : Host.Outcome State Fault Refusal :=
  word h s fun s => s.result 1 [.g o.rd (f (s.me.gr o.ra))]

/-- R63: a register field that names a predicate. -/
def predOf (r : BitVec 5) : BitVec 3 := r.setWidth 3

/-! ### Instructions -/

def execAdd (h : Hdr) (o : FmtA) (s : State) : Host.Outcome State Fault Refusal := alu 1 h o s fun a b => a + b

def execSub (h : Hdr) (o : FmtA) (s : State) : Host.Outcome State Fault Refusal := alu 1 h o s fun a b => a - b

def execMul (h : Hdr) (o : FmtA) (s : State) : Host.Outcome State Fault Refusal := alu 3 h o s fun a b => a * b

def execMulh (h : Hdr) (o : FmtA) (s : State) : Host.Outcome State Fault Refusal :=
  alu 3 h o s fun a b => mulHigh o.fn.toNat a b

/-- R18, R19, R99, R101: a divide. The unit is occupied for 18 turns from issue, by a guard-false divide too; a second
divide within that time takes 0x04, and a zero divisor 0x14 under TIZ, the lower code first. -/
def divWord (h : Hdr) (o : FmtA) (s : State) (remainder : Bool) : Host.Outcome State Fault Refusal :=
  let occupy (s : State) : State := s.modMe fun sl => { sl with divFree := Nat.max sl.divFree (sl.turn + 18) }
  .next <|
    if s.me.guard h then
      let sl := s.me
      let a := sl.gr o.ra
      let b := sl.gr o.rb
      if sl.turn < sl.divFree then s.precise 0x04 0 0
      else if b = 0 then
        if sl.fpctl.getLsbD 12 then s.precise 0x14 0 0
        else (occupy s).result 18 [.g o.rd (if remainder then a else BitVec.allOnes 64), .istat istatIdz]
      else
        let (q, r) := divide (o.fn == 0) a b
        (occupy s).result 18 [.g o.rd (if remainder then r else q)]
    else (occupy s).retire

def execDiv (h : Hdr) (o : FmtA) (s : State) : Host.Outcome State Fault Refusal := divWord h o s false

def execRem (h : Hdr) (o : FmtA) (s : State) : Host.Outcome State Fault Refusal := divWord h o s true

def execAndG (h : Hdr) (o : FmtA) (s : State) : Host.Outcome State Fault Refusal := alu 1 h o s fun a b => a &&& b

def execOrG (h : Hdr) (o : FmtA) (s : State) : Host.Outcome State Fault Refusal := alu 1 h o s fun a b => a ||| b

def execXorG (h : Hdr) (o : FmtA) (s : State) : Host.Outcome State Fault Refusal := alu 1 h o s fun a b => a ^^^ b

def execAndn (h : Hdr) (o : FmtA) (s : State) : Host.Outcome State Fault Refusal := alu 1 h o s fun a b => a &&& ~~~b

def execShl (h : Hdr) (o : FmtA) (s : State) : Host.Outcome State Fault Refusal :=
  alu 1 h o s fun a b => a <<< amount b

def execShr (h : Hdr) (o : FmtA) (s : State) : Host.Outcome State Fault Refusal :=
  alu 1 h o s fun a b => a >>> amount b

def execSar (h : Hdr) (o : FmtA) (s : State) : Host.Outcome State Fault Refusal :=
  alu 1 h o s fun a b => a.sshiftRight (amount b)

def execRot (h : Hdr) (o : FmtA) (s : State) : Host.Outcome State Fault Refusal :=
  alu 1 h o s fun a b => if o.fn = 0 then a.rotateRight (amount b) else a.rotateLeft (amount b)

def execMinG (h : Hdr) (o : FmtA) (s : State) : Host.Outcome State Fault Refusal :=
  alu 1 h o s fun a b => if (if o.fn = 0 then a.sle b else a.ule b) then a else b

def execMaxG (h : Hdr) (o : FmtA) (s : State) : Host.Outcome State Fault Refusal :=
  alu 1 h o s fun a b => if (if o.fn = 0 then a.sle b else a.ule b) then b else a

def execClz (h : Hdr) (o : FmtA) (s : State) : Host.Outcome State Fault Refusal :=
  alu 1 h o s fun a _ => w64 (clzFrom a 64)

def execCtz (h : Hdr) (o : FmtA) (s : State) : Host.Outcome State Fault Refusal :=
  alu 1 h o s fun a _ => w64 (ctzFrom a 64)

def execPopc (h : Hdr) (o : FmtA) (s : State) : Host.Outcome State Fault Refusal :=
  alu 1 h o s fun a _ => w64 (popCount a 64)

def execExt (h : Hdr) (o : FmtA) (s : State) : Host.Outcome State Fault Refusal :=
  alu 1 h o s fun a _ => extend o.fn.toNat a

def execBfx (h : Hdr) (o : FmtA) (s : State) : Host.Outcome State Fault Refusal :=
  alu 1 h o s fun a _ => extractField (o.fn == 1) a (fieldPos o) (fieldWidth o)

/-- R102: BFI merges into the value of gd visible on the issue turn. -/
def execBfi (h : Hdr) (o : FmtA) (s : State) : Host.Outcome State Fault Refusal :=
  word h s fun s =>
    s.result 1 [.g o.rd (setBits (s.me.gr o.rd) (fieldPos o) (fieldWidth o) (s.me.gr o.ra).toNat)]

def execSel (h : Hdr) (o : FmtA) (s : State) : Host.Outcome State Fault Refusal :=
  alu 1 h o s fun a b => if s.me.pr (predOf o.rc) then a else b

def execLea (h : Hdr) (o : FmtA) (s : State) : Host.Outcome State Fault Refusal :=
  alu 1 h o s fun a b => a + (b <<< o.fn.toNat) + sext20 o.imm

def execCmp (h : Hdr) (o : FmtA) (s : State) : Host.Outcome State Fault Refusal :=
  word h s fun s => s.result 1 [.p (predOf o.rd) (intCond o.fn.toNat (s.me.gr o.ra) (s.me.gr o.rb))]

def execPlog (h : Hdr) (o : FmtA) (s : State) : Host.Outcome State Fault Refusal :=
  word h s fun s =>
    s.result 1 [.p (predOf o.rd) (lut4 o.fn.toNat (s.me.pr (predOf o.ra)) (s.me.pr (predOf o.rb)))]

def execAddi (h : Hdr) (o : FmtB) (s : State) : Host.Outcome State Fault Refusal :=
  aluImm h o s fun a => a + imm64 false o.imm

def execAndi (h : Hdr) (o : FmtB) (s : State) : Host.Outcome State Fault Refusal :=
  aluImm h o s fun a => a &&& imm64 (o.fn == 1) o.imm

def execOri (h : Hdr) (o : FmtB) (s : State) : Host.Outcome State Fault Refusal :=
  aluImm h o s fun a => a ||| imm64 (o.fn == 1) o.imm

def execXori (h : Hdr) (o : FmtB) (s : State) : Host.Outcome State Fault Refusal :=
  aluImm h o s fun a => a ^^^ imm64 (o.fn == 1) o.imm

def execShi (h : Hdr) (o : FmtB) (s : State) : Host.Outcome State Fault Refusal :=
  aluImm h o s fun a =>
    let n := bits o.imm 0 6
    match o.fn.toNat with
    | 0 => a <<< n
    | 1 => a >>> n
    | 2 => a.sshiftRight n
    | _ => a.rotateRight n

def execLi (h : Hdr) (o : FmtB) (s : State) : Host.Outcome State Fault Refusal :=
  aluImm h o s fun _ => imm64 false o.imm

def execLiZ (h : Hdr) (o : FmtB) (s : State) : Host.Outcome State Fault Refusal :=
  aluImm h o s fun _ => imm64 true o.imm

def execLiH (h : Hdr) (o : FmtB) (s : State) : Host.Outcome State Fault Refusal :=
  aluImm h o s fun a => o.imm ++ a.setWidth 32

def execCmpi (h : Hdr) (o : FmtB) (s : State) : Host.Outcome State Fault Refusal :=
  word h s fun s => s.result 1 [.p (predOf o.rd) (intCond o.fn.toNat (s.me.gr o.ra) (imm64 false o.imm))]

end Sys2Proof.Machine
end

