-- ==== Sys2Proof/Machine/Rows.lean ====
section
/-! DEFINITION. The field rules of the opcode map (R61 to R74, R89 to R112, R133, R134, R225, R285 to R290): for each
row, which field values are reserved (fault 0x01) and which bits are must-be-zero (fault 0x02). -/

namespace Sys2Proof.Rows

/-! ### Sets of field values -/

/-- R66: RMF values 5 and 6 are reserved. -/
def badRmf (r : BitVec 3) : Bool := r == 5 || r == 6

/-- R134: FL. -/
def isFL (ft : BitVec 4) : Bool := ft.toNat ≤ 4

/-- R134: IN. -/
def isIN (ft : BitVec 4) : Bool := ft == 6 || ft == 7 || ft == 8 || ft == 10 || ft == 12

def isFLIN (ft : BitVec 4) : Bool := isFL ft || isIN ft

/-- R134: ANY, every tag except 5, 13 and 14. -/
def isAny (ft : BitVec 4) : Bool := ft != 5 && ft != 13 && ft != 14

/-- R148: the formats of VPACK and VUNPK. -/
def isPack (ft : BitVec 4) : Bool :=
  ft == 1 || ft == 2 || ft == 3 || ft == 4 || ft == 6 || ft == 7 || ft == 9 || ft == 12

/-- R143, with the pairs R42 permits. -/
def vcvtPair (s d : BitVec 4) : Bool :=
  (isFLIN s || s == 15) && (isFLIN d || d == 15) || (s == 11 || s == 15) && (d == 11 || d == 15)

/-- R45, R109, R143: only S32 to S8 or Z8 takes a shift. -/
def shiftPair (s d : BitVec 4) : Bool := s == 8 && (d == 6 || d == 7)

/-- R75: the listed system registers. -/
def srnListed (n : BitVec 12) : Bool :=
  let k := n.toNat
  k ≤ 4 || k == 8 || (0x10 ≤ k && k ≤ 0x15) || (0x18 ≤ k && k ≤ 0x1A) || (0x20 ≤ k && k ≤ 0x25) || k == 0x28 ||
    k == 0x29 || (0x30 ≤ k && k ≤ 0x3F) || k == 0x40 || k == 0x41 || k == 0x44 || k == 0x45 || k == 0x48 ||
    k == 0x49 || k == 0x50 || k == 0x60 || k == 0x61 || k == 0x80 || k == 0x81

/-- R74: the supervisor-only system registers. -/
def srnSupervisor (n : BitVec 12) : Bool := 0x80 ≤ n.toNat && n.toNat ≤ 0xFF

/-! ### Must-be-zero bits (R63): each argument gives the bits of a field that the row uses -/

def all5 : BitVec 5 := 31
def pred5 : BitVec 5 := 7

def mbzA (o : FmtA) (rd ra rb rc : BitVec 5) (imm : BitVec 20) : Bool :=
  (o.rd &&& ~~~rd) != 0 || (o.ra &&& ~~~ra) != 0 || (o.rb &&& ~~~rb) != 0 || (o.rc &&& ~~~rc) != 0 ||
    (o.imm &&& ~~~imm) != 0

def mbzC (o : FmtC) (rd ra rb : BitVec 5) (off : BitVec 32) : Bool :=
  (o.rd &&& ~~~rd) != 0 || (o.ra &&& ~~~ra) != 0 || (o.rb &&& ~~~rb) != 0 || (o.off &&& ~~~off) != 0

def mbzV (o : FmtV) (vd va vb vc : BitVec 4) (rs : BitVec 5) (imm : BitVec 9) (mk z : Bool) : Bool :=
  (o.vd &&& ~~~vd) != 0 || (o.va &&& ~~~va) != 0 || (o.vb &&& ~~~vb) != 0 || (o.vc &&& ~~~vc) != 0 ||
    (o.rs &&& ~~~rs) != 0 || (o.imm &&& ~~~imm) != 0 || (!mk && o.msk != 0) || (!z && o.z != 0)

/-! ### Format C (R61, R67, R89, R93, R97, R98, R355) -/

/-- Reserved values: an FN the row does not list; a LOOP offset below 1 (R93). -/
def illegalC (opc : BitVec 8) (o : FmtC) : Bool :=
  match opc.toNat with
  | 0x06 => (o.off : BitVec 32).slt 1
  | 0x07 | 0x0A | 0x0C => false
  | _ => o.fn != 0

def reservedC (opc : BitVec 8) (o : FmtC) : Bool :=
  match opc.toNat with
  | 0x01 => mbzC o 0 0 0 (-1)
  | 0x02 => mbzC o 0 31 0 (-1)
  | 0x03 => mbzC o 31 0 0 (-1)
  | 0x04 => mbzC o 31 31 0 (-1)
  | 0x05 => mbzC o 0 31 0 0
  | 0x06 => if o.fn = 0 then mbzC o 0 31 0 (-1) else mbzC o 0 31 31 (-1)
  | 0x07 => if o.fn = 0 then mbzC o 0 31 0 (-1) else mbzC o 0 0 0 (-1)
  | 0x09 | 0x0B => mbzC o 0 0 0 (-1)
  | 0x0C => if o.fn = 0 then mbzC o 0 0 0 0 else mbzC o 0 0 0 (-1)
  | _ => mbzC o 0 0 0 0

/-! ### Format A and E (R68, R69, R72, R73, R100 to R112, R213 to R224, R243 to R254, R333 to R338) -/

/-- R102: pos + w > 64. -/
def fieldTooLong (imm : BitVec 20) : Bool :=
  (imm.extractLsb' 0 6).toNat + (imm.extractLsb' 6 6).toNat + 1 > 64

/-- R109: the formats of FCVT. -/
def isFcvt (ft : BitVec 4) : Bool := isFLIN ft

def illegalA (opc : BitVec 8) (o : FmtA) : Bool :=
  let fn := o.fn.toNat
  match opc.toNat with
  | 0x13 => decide (fn > 2)
  | 0x14 | 0x15 | 0x1D | 0x1E | 0x1F => decide (fn > 1)
  | 0x23 => fn == 3 || decide (fn > 6)
  | 0x24 => decide (fn > 1) || fieldTooLong o.imm
  | 0x25 => decide (fn > 0) || fieldTooLong o.imm
  | 0x27 => decide (fn > 3)
  | 0x28 => decide (fn > 9)
  | 0x29 => decide (fn > 15)
  | 0x31 | 0x32 | 0x33 => decide (fn > 7) || badRmf (o.fn.extractLsb' 0 3)
  | 0x34 => decide (fn > 31) || badRmf (o.fn.extractLsb' 0 3)
  | 0x35 | 0x36 => decide (fn > 1)
  | 0x37 => decide (fn > 15)
  | 0x38 => !isFcvt (o.fn.extractLsb' 4 4) || !isFcvt (o.fn.extractLsb' 0 4) || badRmf (o.imm.extractLsb' 0 3)
  | 0x39 => decide (fn > 8)
  | 0x3B => decide (fn > 4)
  | 0x83 | 0x88 | 0x89 | 0x8A | 0x8E => decide (fn > 1)
  | 0xA0 | 0xA1 | 0xA2 => decide (fn > 15)
  | 0xA3 => decide (fn > 2)
  | 0xA4 => decide (fn > 0) || decide ((o.imm.extractLsb' 0 3).toNat > 4)
  | 0xA5 | 0xB2 | 0xB5 | 0xB6 | 0xB7 => decide (fn > 1)
  | _ => decide (fn > 0)

def reservedA (opc : BitVec 8) (o : FmtA) : Bool :=
  match opc.toNat with
  | 0x20 | 0x21 | 0x22 | 0x23 | 0x39 | 0x3A => mbzA o 31 31 0 0 0
  | 0x24 | 0x25 => mbzA o 31 31 0 0 0xFFF
  | 0x26 => mbzA o 31 31 31 7 0
  | 0x27 => mbzA o 31 31 31 0 (-1)
  | 0x28 | 0x37 => mbzA o 7 31 31 0 0
  | 0x29 => mbzA o 7 7 7 0 0
  | 0x34 => mbzA o 31 31 31 31 0
  | 0x38 => mbzA o 31 31 0 0 (if shiftPair (o.fn.extractLsb' 4 4) (o.fn.extractLsb' 0 4) then 0x1FF else 0xF)
  | 0x3B => mbzA o 31 31 (if o.fn.toNat < 3 then 31 else 0) 0 0
  | 0x80 | 0x81 | 0x83 => mbzA o 0 0 0 0 63
  | 0x82 => mbzA o 31 31 0 0 63
  | 0x84 => mbzA o 31 0 0 0 63
  | 0x85 => mbzA o 0 31 0 0 3
  | 0x86 | 0x88 => mbzA o 0 0 0 0 15
  | 0x87 => mbzA o 31 0 0 0 3
  | 0x89 => mbzA o 0 0 0 0 0xFFF
  | 0x8A => if o.fn = 0 then mbzA o 31 0 31 0 0x7F else mbzA o 0 31 31 0 0x7F
  | 0x8D => mbzA o 0 31 31 0 0x3FF
  | 0x8E | 0xB0 | 0xB3 | 0xB6 | 0xB7 => mbzA o 31 31 0 0 0
  | 0xA0 => mbzA o 0 31 31 31 0
  | 0xA1 => mbzA o 0 31 31 0 (-1)
  | 0xA2 => mbzA o 0 31 31 0 15
  | 0xA3 => mbzA o 0 0 0 0 3
  | 0xA4 => mbzA o 0 31 31 0 7
  | 0xA5 => mbzA o 31 0 0 0 0xFFFF
  | 0xA6 | 0xB4 => mbzA o 0 31 0 0 0
  | 0xB1 => mbzA o 0 31 31 0 0
  | 0xB2 => if o.fn = 0 then mbzA o 0 31 0 0 0 else mbzA o 0 0 0 0 0
  | 0xB5 => mbzA o 31 0 0 0 0
  | _ => mbzA o 31 31 31 0 0

/-! ### Format B (R68, R104) -/

def illegalB (opc : BitVec 8) (o : FmtB) : Bool :=
  let fn := o.fn.toNat
  match opc.toNat with
  | 0x2A => decide (fn > 0)
  | 0x2E => decide (fn > 3)
  | 0x2F => decide (fn > 2)
  | 0x30 => decide (fn > 9)
  | _ => decide (fn > 1)

def reservedB (opc : BitVec 8) (o : FmtB) : Bool :=
  match opc.toNat with
  | 0x2E => o.imm.extractLsb' 6 26 != 0
  | 0x2F => decide (o.fn.toNat < 2) && o.ra != 0
  | 0x30 => o.rd.extractLsb' 3 2 != 0
  | _ => false

/-! ### Format X (R70, R113) -/

def illegalX (opc : BitVec 8) (o : FmtX) : Bool :=
  !srnListed o.srn || (if opc = 0x3C then o.fn != 0 else decide (o.fn.toNat > 1))

def reservedX (opc : BitVec 8) (o : FmtX) : Bool :=
  if opc = 0x3C then o.ra != 0 || o.imm != 0
  else o.rd != 0 || (if o.fn = 0 then o.imm != 0 else o.ra != 0)

/-! ### Format M (R64, R70, R115, R274, R277, R278, R285 to R290) -/

def illegalM (opc : BitVec 8) (o : FmtM) : Bool :=
  let sz := o.sz.toNat
  let oddq := sz == 4 && o.rt.getLsbD 0
  match opc.toNat with
  | 0x40 => decide (sz > 5) || decide (o.scp.toNat > 4) || decide (o.fnm.toNat > 1) || o.ord == 2 ||
      (o.fnm == 1 && decide (sz > 2)) || oddq
  | 0x41 => decide (sz > 5) || decide (o.scp.toNat > 4) || o.fnm != 0 || o.ord == 1 || oddq
  | 0x42 => !(sz == 2 || sz == 3) || decide (o.scp.toNat > 4) || decide (o.fnm.toNat > 10) ||
      (o.fnm == 10 && sz == 3)
  | 0x43 => decide (o.scp.toNat > 4) ||
      !(o.fnm == 0 && o.ord != 0 || o.fnm == 1 && o.ord == 3 || o.fnm == 2 && o.ord == 0 && o.scp == 0)
  | _ => false

/-- The ten fields of a row that uses none of SZ to WIN (R274, R277, R278). -/
def plainM (o : FmtM) : Bool := o.sz != 0 || o.scp != 0 || o.ord != 0 || o.fnm != 0 || o.win != 0

def reservedM (opc : BitVec 8) (o : FmtM) : Bool :=
  match opc.toNat with
  | 0x40 | 0x41 | 0x42 => o.ord == 0 && o.scp != 0
  | 0x43 => o.rt != 0 || o.ra != 0 || o.rb != 0 || o.sz != 0 || o.win != 0 || o.off != 0
  | 0x44 => plainM o || o.rt != 0 || o.rb != 0 || o.off.extractLsb' 8 5 != 0
  | 0x47 => plainM o || o.rb != 0 || o.off != 0
  | _ => plainM o || o.rt != 0 || o.ra != 0 || o.rb != 0 || o.off.extractLsb' 4 9 != 0

/-! ### Format V (R65, R71, R72, R132 to R160, R225) -/

/-- R125: VL. -/
def vlen (fold : BitVec 2) : Nat := 8 * 2 ^ fold.toNat

/-- R145, R146: the formats of the reductions and scans. -/
def redFt (op : Nat) (ft : BitVec 4) (pairs : Bool) : Bool :=
  match op with
  | 0 => isFLIN ft
  | 1 | 2 => isFLIN ft || (pairs && ft == 11)
  | 3 | 4 | 5 => isIN ft || ft == 15
  | _ => false

def illegalV (opc : BitVec 8) (o : FmtV) : Bool :=
  let fn := o.fn.toNat
  let op := fn % 16
  let ft := o.ft
  let rm := badRmf (o.fn.extractLsb' 5 3)
  let k := (o.imm.extractLsb' 0 6).toNat
  match opc.toNat with
  | 0x50 | 0x51 | 0x52 => rm || decide (op > 1) || !isFLIN ft
  | 0x53 => rm || decide (op > 7) || !isFLIN ft
  | 0x54 | 0x55 => decide (fn > 3) || !(isFLIN ft || (ft == 11 && fn == 0)) || (isIN ft && decide (fn > 1))
  | 0x56 => decide (fn > 4) || !isFL ft
  | 0x57 => decide (fn > 15) || !(isFLIN ft || ft == 11) || (!isFL ft && decide (fn > 5))
  | 0x58 => decide (fn > 0) || !isAny ft
  | 0x59 | 0x5A | 0x5B => decide (fn > 3) || !(isIN ft || ft == 0 || ft == 9 || ft == 15)
  | 0x5C => decide (fn > 7) || !(isIN ft || ft == 15)
  | 0x5D => rm || !vcvtPair (o.fn.extractLsb' 0 4) ft
  | 0x5E => decide (fn > 8) || !isFL ft
  | 0x5F => rm || o.fn.getLsbD 4 || !redFt op ft true
  | 0x60 => rm || !redFt op ft false
  | 0x61 | 0x62 => decide (fn > 1) || !isAny ft
  | 0x63 => decide (fn > 1) || !isAny ft || decide (k ≥ vlen o.fold)
  | 0x64 => decide (fn > 0) || !isAny ft || decide (k ≥ vlen o.fold)
  | 0x65 => decide (fn > 1) || !(ft == 8 || ft == 10)
  | 0x66 => decide (fn > 1) || !isAny ft || decide (k > vlen o.fold)
  | 0x67 | 0x68 => decide (fn > 1) || !isAny ft
  | 0x69 | 0x6A => decide (fn > 0) || !isAny ft
  | 0x6B | 0x6C => decide (fn > 0) || ft != 9 || o.fold != 3
  | 0x6D => decide (fn > 0) || ft != 9
  | 0x6E | 0x6F => decide (fn > 0) || ft != 5 || o.fold != 3
  | 0x70 => decide (fn > 0) || ft != 5
  | 0x71 => !(fn == 0 && (ft == 10 || ft == 15) || fn == 1 && ft == 0)
  | 0x72 => decide (fn > 15) || ft != 0
  | 0x73 | 0x74 => decide (fn > 0) || ft != 0
  | 0x75 => decide (fn > 2) || !(if fn < 2 then isAny ft else isFLIN ft)
  | 0x76 => decide (fn > 0) || !isPack ft
  | 0x77 => decide (fn > 1) || !isPack ft
  | 0x78 => rm || decide (op > 0) || !isFLIN ft
  | 0x8B => !(fn == 2 || fn == 3) || o.fold != 3 ||
      !(ft == 0 || ft == 1 || ft == 2 || ft == 8 || ft == 10 || ft == 11 || ft == 15)
  | 0x8C => decide (fn > 15) || o.fn.getLsbD 1 || o.fold != 3 ||
      (if o.fn.getLsbD 3 then ft != 0 || o.fn.getLsbD 2
       else if o.fn.getLsbD 2 then !(ft == 3 || ft == 4 || ft == 6 || ft == 7)
       else !(isFL ft || ft == 6 || ft == 7 || ft == 8 || ft == 10 || ft == 11 || ft == 15))
  | _ => true

def reservedV (opc : BitVec 8) (o : FmtV) : Bool :=
  let fn := o.fn.toNat
  let b0 := o.fn.getLsbD 0
  match opc.toNat with
  | 0x50 | 0x51 | 0x52 | 0x54 | 0x55 | 0x59 | 0x5A | 0x5B =>
      if b0 then mbzV o 15 15 0 0 31 0 true true else mbzV o 15 15 15 0 0 0 true true
  | 0x53 => if o.fn.getLsbD 2 then mbzV o 15 15 0 15 31 0 true true else mbzV o 15 15 15 15 0 0 true true
  | 0x56 => mbzV o 15 15 (if fn < 3 then 15 else 0) 0 0 0 true true
  | 0x57 => mbzV o 7 15 15 0 0 0 true true
  | 0x58 => mbzV o 15 15 15 7 0 0 true true
  | 0x5C => if o.fn.getLsbD 2 then mbzV o 15 15 0 0 0 31 true true else mbzV o 15 15 15 0 0 0 true true
  | 0x5D => mbzV o 15 15 0 0 0 (if shiftPair (o.fn.extractLsb' 0 4) o.ft then 31 else 0) true true
  | 0x61 => if fn = 0 then mbzV o 15 15 15 0 0 0 true true else mbzV o 15 15 0 0 0 63 true true
  | 0x62 => if fn = 0 then mbzV o 15 0 0 0 31 0 true true else mbzV o 15 15 0 0 0 63 true true
  | 0x63 => mbzV o 0 15 0 0 31 63 false false
  | 0x64 => mbzV o 15 0 0 0 31 63 false false
  | 0x65 => mbzV o 15 (if fn = 0 then 0 else 7) 0 0 0 0 true true
  | 0x66 => mbzV o 15 15 15 0 0 63 true true
  | 0x67 => mbzV o 15 0 (if fn = 0 then 0 else 15) 0 31 (-1) true true
  | 0x68 => mbzV o 15 0 (if fn = 0 then 0 else 15) 0 31 (-1) true false
  | 0x69 => mbzV o 15 15 15 0 31 0 true true
  | 0x6A => mbzV o 15 15 15 0 31 0 true false
  | 0x6B | 0x6C | 0x6E => mbzV o 15 15 15 0 0 0 true true
  | 0x71 => mbzV o 15 0 0 0 31 0 true true
  | 0x72 => mbzV o 7 7 7 0 0 0 true true
  | 0x73 | 0x74 => mbzV o 0 7 0 0 31 0 true false
  | 0x75 => mbzV o (if fn = 1 then 7 else 15) (if fn = 2 then 7 else 15) 0 0 0 0 true true
  | 0x76 => mbzV o 15 15 15 0 0 0 false false
  | 0x78 => mbzV o 15 15 15 15 0 0 true true
  | 0x8B => mbzV o 15 0 0 0 0 0 true true
  | 0x8C => if o.fn.getLsbD 3 then mbzV o 0 0 0 0 31 0 true false
      else mbzV o 0 15 (if o.fn.getLsbD 2 then 15 else 0) 0 0 0 true false
  | _ => mbzV o 15 15 0 0 0 0 true true

/-! ### Formats by opcode (R67 to R73) -/

end Sys2Proof.Rows
end

