-- ==== Sys2Proof/WellFormed.lean ====
section
/-! DEFINITION. The body of an instruction word by its format, and which terms of Instr stand for a legal word or for an
event of an agent that exists. -/

namespace Sys2Proof

/-- R62: the body fields of a word, by format. -/
inductive Fields where
  | a (o : FmtA)
  | b (o : FmtB)
  | c (o : FmtC)
  | m (o : FmtM)
  | v (o : FmtV)
  | x (o : FmtX)
  deriving DecidableEq, Repr

/-- R60: a word taken apart: its opcode, its header and its body. -/
structure Body where
  opc : BitVec 8
  hdr : Hdr
  fields : Fields
  deriving DecidableEq, Repr

/-- The opcode and the fields of a word row (R67 to R73); an event row has none. -/
def Instr.body : Instr → Option Body
  | .nop h o => some ⟨0x00, h, .c o⟩
  | .br h o => some ⟨0x01, h, .c o⟩
  | .jmp h o => some ⟨0x02, h, .c o⟩
  | .call h o => some ⟨0x03, h, .c o⟩
  | .callr h o => some ⟨0x04, h, .c o⟩
  | .ret h o => some ⟨0x05, h, .c o⟩
  | .loop h o => some ⟨0x06, h, .c o⟩
  | .loopImm h o => some ⟨0x06, h, .c o⟩
  | .waitc h o => some ⟨0x07, h, .c o⟩
  | .waitcImm h o => some ⟨0x07, h, .c o⟩
  | .endSlot h o => some ⟨0x08, h, .c o⟩
  | .trap h o => some ⟨0x09, h, .c o⟩
  | .brk h o => some ⟨0x0B, h, .c o⟩
  | .rft h o => some ⟨0x0A, h, .c o⟩
  | .rftNext h o => some ⟨0x0A, h, .c o⟩
  | .chkp h o => some ⟨0x0C, h, .c o⟩
  | .chkpImm h o => some ⟨0x0C, h, .c o⟩
  | .add h o => some ⟨0x10, h, .a o⟩
  | .sub h o => some ⟨0x11, h, .a o⟩
  | .mul h o => some ⟨0x12, h, .a o⟩
  | .mulh h o => some ⟨0x13, h, .a o⟩
  | .div h o => some ⟨0x14, h, .a o⟩
  | .rem h o => some ⟨0x15, h, .a o⟩
  | .andG h o => some ⟨0x16, h, .a o⟩
  | .orG h o => some ⟨0x17, h, .a o⟩
  | .xorG h o => some ⟨0x18, h, .a o⟩
  | .andn h o => some ⟨0x19, h, .a o⟩
  | .shl h o => some ⟨0x1A, h, .a o⟩
  | .shr h o => some ⟨0x1B, h, .a o⟩
  | .sar h o => some ⟨0x1C, h, .a o⟩
  | .rot h o => some ⟨0x1D, h, .a o⟩
  | .minG h o => some ⟨0x1E, h, .a o⟩
  | .maxG h o => some ⟨0x1F, h, .a o⟩
  | .clz h o => some ⟨0x20, h, .a o⟩
  | .ctz h o => some ⟨0x21, h, .a o⟩
  | .popc h o => some ⟨0x22, h, .a o⟩
  | .ext h o => some ⟨0x23, h, .a o⟩
  | .bfx h o => some ⟨0x24, h, .a o⟩
  | .bfi h o => some ⟨0x25, h, .a o⟩
  | .sel h o => some ⟨0x26, h, .a o⟩
  | .lea h o => some ⟨0x27, h, .a o⟩
  | .cmp h o => some ⟨0x28, h, .a o⟩
  | .plog h o => some ⟨0x29, h, .a o⟩
  | .addi h o => some ⟨0x2A, h, .b o⟩
  | .andi h o => some ⟨0x2B, h, .b o⟩
  | .ori h o => some ⟨0x2C, h, .b o⟩
  | .xori h o => some ⟨0x2D, h, .b o⟩
  | .shi h o => some ⟨0x2E, h, .b o⟩
  | .li h o => some ⟨0x2F, h, .b o⟩
  | .liZ h o => some ⟨0x2F, h, .b o⟩
  | .liH h o => some ⟨0x2F, h, .b o⟩
  | .cmpi h o => some ⟨0x30, h, .b o⟩
  | .fadd h o => some ⟨0x31, h, .a o⟩
  | .fsub h o => some ⟨0x32, h, .a o⟩
  | .fmul h o => some ⟨0x33, h, .a o⟩
  | .ffma h o => some ⟨0x34, h, .a o⟩
  | .fmin h o => some ⟨0x35, h, .a o⟩
  | .fmax h o => some ⟨0x36, h, .a o⟩
  | .fcmp h o => some ⟨0x37, h, .a o⟩
  | .fcvt h o => some ⟨0x38, h, .a o⟩
  | .fsf h o => some ⟨0x39, h, .a o⟩
  | .fclass h o => some ⟨0x3A, h, .a o⟩
  | .fsgn h o => some ⟨0x3B, h, .a o⟩
  | .mfsr h o => some ⟨0x3C, h, .x o⟩
  | .mtsr h o => some ⟨0x3D, h, .x o⟩
  | .srset h o => some ⟨0x3E, h, .x o⟩
  | .srclr h o => some ⟨0x3F, h, .x o⟩
  | .wheelWrite h op o => some ⟨match op with | .move => 0x3D | .set => 0x3E | .clear => 0x3F, h, .x o⟩
  | .ld h o => some ⟨0x40, h, .m o⟩
  | .st h o => some ⟨0x41, h, .m o⟩
  | .amo h o => some ⟨0x42, h, .m o⟩
  | .fenceAcq h o => some ⟨0x43, h, .m o⟩
  | .fenceRel h o => some ⟨0x43, h, .m o⟩
  | .fenceAr h o => some ⟨0x43, h, .m o⟩
  | .fenceSc h o => some ⟨0x43, h, .m o⟩
  | .fenceLayer h o => some ⟨0x43, h, .m o⟩
  | .give h o => some ⟨0x44, h, .m o⟩
  | .batt h o => some ⟨0x45, h, .m o⟩
  | .bdet h o => some ⟨0x46, h, .m o⟩
  | .bqry h o => some ⟨0x47, h, .m o⟩
  | .vadd h o => some ⟨0x50, h, .v o⟩
  | .vsub h o => some ⟨0x51, h, .v o⟩
  | .vmul h o => some ⟨0x52, h, .v o⟩
  | .vfma h o => some ⟨0x53, h, .v o⟩
  | .vmin h o => some ⟨0x54, h, .v o⟩
  | .vmax h o => some ⟨0x55, h, .v o⟩
  | .vsgn h o => some ⟨0x56, h, .v o⟩
  | .vcmp h o => some ⟨0x57, h, .v o⟩
  | .vsel h o => some ⟨0x58, h, .v o⟩
  | .vand h o => some ⟨0x59, h, .v o⟩
  | .vor h o => some ⟨0x5A, h, .v o⟩
  | .vxor h o => some ⟨0x5B, h, .v o⟩
  | .vsh h o => some ⟨0x5C, h, .v o⟩
  | .vcvt h o => some ⟨0x5D, h, .v o⟩
  | .vsf h o => some ⟨0x5E, h, .v o⟩
  | .vred h o => some ⟨0x5F, h, .v o⟩
  | .vscan h o => some ⟨0x60, h, .v o⟩
  | .vperm h o => some ⟨0x61, h, .v o⟩
  | .vbcast h o => some ⟨0x62, h, .v o⟩
  | .vext h o => some ⟨0x63, h, .v o⟩
  | .vins h o => some ⟨0x64, h, .v o⟩
  | .viota h o => some ⟨0x65, h, .v o⟩
  | .vslide h o => some ⟨0x66, h, .v o⟩
  | .vld h o => some ⟨0x67, h, .v o⟩
  | .vst h o => some ⟨0x68, h, .v o⟩
  | .vgath h o => some ⟨0x69, h, .v o⟩
  | .vscat h o => some ⟨0x6A, h, .v o⟩
  | .vqe8 h o => some ⟨0x6B, h, .v o⟩
  | .vde8 h o => some ⟨0x6C, h, .v o⟩
  | .vsce8 h o => some ⟨0x6D, h, .v o⟩
  | .vqf4 h o => some ⟨0x6E, h, .v o⟩
  | .vdf4 h o => some ⟨0x6F, h, .v o⟩
  | .vscf4 h o => some ⟨0x70, h, .v o⟩
  | .vrng h o => some ⟨0x71, h, .v o⟩
  | .vmlog h o => some ⟨0x72, h, .v o⟩
  | .vmpop h o => some ⟨0x73, h, .v o⟩
  | .vmfst h o => some ⟨0x74, h, .v o⟩
  | .vmov h o => some ⟨0x75, h, .v o⟩
  | .vpack h o => some ⟨0x76, h, .v o⟩
  | .vunpk h o => some ⟨0x77, h, .v o⟩
  | .vclmp h o => some ⟨0x78, h, .v o⟩
  | .epop h o => some ⟨0x8B, h, .v o⟩
  | .epush h o => some ⟨0x8C, h, .v o⟩
  | .epushHdr h o => some ⟨0x8C, h, .v o⟩
  | .fuse h o => some ⟨0x80, h, .a o⟩
  | .unfuse h o => some ⟨0x81, h, .a o⟩
  | .lgo h o => some ⟨0x82, h, .a o⟩
  | .lstop h o => some ⟨0x83, h, .a o⟩
  | .lstopQ h o => some ⟨0x83, h, .a o⟩
  | .lstat h o => some ⟨0x84, h, .a o⟩
  | .agset h o => some ⟨0x85, h, .a o⟩
  | .aggo h o => some ⟨0x86, h, .a o⟩
  | .agstat h o => some ⟨0x87, h, .a o⟩
  | .gateClose h o => some ⟨0x88, h, .a o⟩
  | .gateOpen h o => some ⟨0x88, h, .a o⟩
  | .bindCh h o => some ⟨0x89, h, .a o⟩
  | .bindUn h o => some ⟨0x89, h, .a o⟩
  | .skewRd h o => some ⟨0x8A, h, .a o⟩
  | .skewWr h o => some ⟨0x8A, h, .a o⟩
  | .ctab h o => some ⟨0x8D, h, .a o⟩
  | .dmapFacet h o => some ⟨0x8E, h, .a o⟩
  | .dmapCore h o => some ⟨0x8E, h, .a o⟩
  | .sendMsg h o => some ⟨0xA0, h, .a o⟩
  | .recv h o => some ⟨0xA1, h, .a o⟩
  | .recva h o => some ⟨0xA2, h, .a o⟩
  | .barAw h o => some ⟨0xA3, h, .a o⟩
  | .barA h o => some ⟨0xA3, h, .a o⟩
  | .barW h o => some ⟨0xA3, h, .a o⟩
  | .note h o => some ⟨0xA4, h, .a o⟩
  | .waitn h o => some ⟨0xA5, h, .a o⟩
  | .namePre h o => some ⟨0xA6, h, .a o⟩
  | .gnode h o => some ⟨0xB0, h, .a o⟩
  | .gdep h o => some ⟨0xB1, h, .a o⟩
  | .gwait h o => some ⟨0xB2, h, .a o⟩
  | .gwaitAll h o => some ⟨0xB2, h, .a o⟩
  | .gpoll h o => some ⟨0xB3, h, .a o⟩
  | .gkill h o => some ⟨0xB4, h, .a o⟩
  | .gstatFree h o => some ⟨0xB5, h, .a o⟩
  | .gstatDone h o => some ⟨0xB5, h, .a o⟩
  | .cpy h o => some ⟨0xB6, h, .a o⟩
  | .qntE8l h o => some ⟨0xB7, h, .a o⟩
  | .qntFq4 h o => some ⟨0xB7, h, .a o⟩
  | .wheelSwitch _ => none
  | .giveAdmission _ _ => none
  | .giveRepoint _ _ => none
  | .battComplete _ _ => none
  | .bdetComplete _ _ => none
  | .bqryAnswer _ _ => none
  | .fuseComplete _ => none
  | .lensNodeStart _ => none
  | .bindComplete _ _ => none
  | .unbindComplete _ _ => none
  | .ctabLand _ _ => none
  | .resultWriteback _ _ _ => none
  | .deferredFault _ _ _ => none
  | .windowEnd _ _ _ => none
  | .budgetDeadline _ _ => none
  | .cellHold _ _ _ => none
  | .cellPass _ _ _ => none
  | .cellAcm _ _ _ => none
  | .cellAcmz _ _ _ => none
  | .cellPsm _ _ _ => none
  | .cellWld _ _ _ => none
  | .cellDrn _ _ _ => none
  | .cellCmpx _ _ _ => none
  | .cellRec _ _ _ => none
  | .cellGen _ _ _ => none
  | .cellAdd _ _ _ => none
  | .cellMaxp _ _ _ => none
  | .cellLdh _ _ _ => none
  | .cellSnap _ _ _ => none
  | .cellRestore _ _ _ => none
  | .cellZero _ _ _ => none
  | .inputPresent _ _ _ => none
  | .edgeWaitEnd _ => none
  | .stepRow _ => none
  | .tileLoopRow _ => none
  | .waitgRow _ => none
  | .signalRow _ => none
  | .endRow _ => none
  | .syncRow _ => none
  | .syncResume _ => none
  | .invocationEnd _ => none
  | .listFinish _ => none
  | .rowBudgetDeadline _ => none
  | .agFetch _ _ _ => none
  | .channelForward _ _ _ => none
  | .freezeLine _ => none
  | .freezeComplete _ => none
  | .nodeComplete _ _ => none
  | .copySegment _ _ => none
  | .graphUnitRun _ => none
  | .remoteRelease _ => none
  | .globalRequestArrive _ => none
  | .globalResponseArrive _ => none
  | .bulkTransferDone _ => none
  | .messageArrive _ => none
  | .recvWindowExpire _ _ => none
  | .notifyArrive _ _ _ => none
  | .nameWalkComplete _ _ => none
  | .nameCacheInvalidate _ _ => none
  | .barrierArrival _ _ => none
  | .barrierRelease _ _ => none
  | .deviceHeartbeat _ => none
  | .panelHeartbeat _ => none
  | .packetRetransmit _ => none
  | .niGiveUp _ => none
  | .walkComplete _ => none
  | .extentInstall _ _ => none
  | .tlbInvalidation _ _ _ => none
  | .migrationStart _ _ => none
  | .migrationCommit _ _ => none
  | .coreRetire _ _ => none
  | .queueDoorbell _ _ => none
  | .queueConfigWrite _ _ _ => none
  | .queueMap _ => none
  | .pifoPush _ => none
  | .rankUpdate _ => none
  | .placement => none
  | .launchPacket _ => none
  | .waitPacket _ => none
  | .waitSatisfied _ => none
  | .signalPacket _ => none
  | .loadwPacket _ => none
  | .loadwShardFetch _ _ _ => none
  | .loadwCommit _ => none
  | .copyPacket _ => none
  | .mapPacket _ => none
  | .fencePacket _ => none
  | .killPacket _ => none
  | .preemptDrain _ => none
  | .drainLimitExpire _ => none
  | .preemptCheckpoint _ => none
  | .checkpointSave _ => none
  | .preemptKill _ => none
  | .dispatchBind _ => none
  | .gatesOpen _ => none
  | .taskEnd _ => none
  | .taskResume _ => none
  | .ingressOpen _ _ => none
  | .ingressData _ _ => none
  | .notifyApertureWrite _ _ => none
  | .wakeMailboxDeliver _ => none
  | .clusterWake _ => none
  | .clockGate _ => none
  | .powerGate _ => none
  | .win4Write _ => none
  | .bar4Access _ _ _ => none
  | .linkTraining _ _ => none
  | .linkFrameReceive _ _ _ _ => none
  | .linkReplay _ _ => none
  | .linkRetrain _ => none
  | .linkDown _ => none
  | .deviceReset => none
  | .powerRailGood _ => none
  | .temperatureSample _ _ _ => none
  | .thermalTrip _ => none
  | .droopStretch _ => none
  | .vtclassChange _ _ => none
  | .patrolScrub _ _ => none
  | .loupeLog => none
  | .loupeClaim _ _ => none
  | .firmwareUpdate _ => none
  | .svnCommit => none
  | .ownershipRelease _ _ _ => none
  | .ownerClaim _ _ _ => none
  | .getMeasurements => none
  | .linkRetrainDone _ _ => none
  | .thermalStep _ _ => none
  | .powerFail => none
  | .rankProgramLoad _ _ => none
  | .routineStoreLoad _ => none
  | .loupeSingleStep _ _ => none
  | .scOrderPlace _ _ => none
  | .headFlitLeaves _ => none

/-- R74: a field holds a reserved value (fault 0x01). -/
def Body.illegal (b : Body) : Bool :=
  match b.fields with
  | .a o => Rows.illegalA b.opc o
  | .b o => Rows.illegalB b.opc o
  | .c o => Rows.illegalC b.opc o
  | .m o => Rows.illegalM b.opc o
  | .v o => Rows.illegalV b.opc o
  | .x o => Rows.illegalX b.opc o

/-- R63: a must-be-zero bit of the body is set (fault 0x02). -/
def Body.reserved (b : Body) : Bool :=
  match b.fields with
  | .a o => Rows.reservedA b.opc o
  | .b o => Rows.reservedB b.opc o
  | .c o => Rows.reservedC b.opc o
  | .m o => Rows.reservedM b.opc o
  | .v o => Rows.reservedV b.opc o
  | .x o => Rows.reservedX b.opc o

/-- The field values that tell rows of one opcode apart (R67, R68, R70, R72, R73). -/
def Instr.rowSelected : Instr → Bool
  | .loop _ o | .waitc _ o | .rft _ o | .chkp _ o => o.fn == 0
  | .loopImm _ o | .waitcImm _ o | .rftNext _ o | .chkpImm _ o => o.fn == 1
  | .li _ o => o.fn == 0
  | .liZ _ o => o.fn == 1
  | .liH _ o => o.fn == 2
  | .mtsr _ o | .srset _ o | .srclr _ o => o.srn != 8
  | .wheelWrite _ _ o => o.srn == 8
  | .fenceAcq _ o => o.fnm == 0 && o.ord == 1
  | .fenceRel _ o => o.fnm == 0 && o.ord == 2
  | .fenceAr _ o => o.fnm == 0 && o.ord == 3
  | .fenceSc _ o => o.fnm == 1
  | .fenceLayer _ o => o.fnm == 2
  | .epush _ o => !o.fn.getLsbD 3
  | .epushHdr _ o => o.fn.getLsbD 3
  | .lstop _ o | .gateClose _ o | .bindCh _ o | .skewRd _ o | .dmapFacet _ o | .barAw _ o | .gwait _ o
  | .gstatFree _ o | .qntE8l _ o => o.fn == 0
  | .lstopQ _ o | .gateOpen _ o | .bindUn _ o | .skewWr _ o | .dmapCore _ o | .barA _ o | .gwaitAll _ o
  | .gstatDone _ o | .qntFq4 _ o => o.fn == 1
  | .barW _ o => o.fn == 2
  | _ => true

/-- The agents an event row names exist: 768 cores of 8 slots, 48 clusters, 6,144 banks, 1,024 queues. -/
def Instr.agentsExist : Instr → Bool
  | .resultWriteback c s _ | .deferredFault c s _ | .windowEnd c s _ | .budgetDeadline c s | .bqryAnswer c s
  | .scOrderPlace c s | .loupeClaim c s | .loupeSingleStep c s | .notifyArrive c s _ =>
      decide (c < 768) && decide (s < 8)
  | .wheelSwitch c | .deviceHeartbeat c | .panelHeartbeat c | .bulkTransferDone c | .graphUnitRun c
  | .headFlitLeaves c | .giveAdmission c _ | .giveRepoint c _ | .coreRetire c _ | .nameWalkComplete c _ =>
      decide (c < 768)
  | .battComplete c k | .bdetComplete c k | .recvWindowExpire c k => decide (c < 768) && decide (k < 16)
  | .agFetch c a l => decide (c < 768) && decide (a < 4) && decide (l < 64)
  | .extentInstall c a | .barrierArrival c a | .barrierRelease c a => decide (c < 768) && decide (a < 4)
  | .nodeComplete c n => decide (c < 768) && decide (n < 64)
  | .copySegment c n => decide (c < 768) && decide (n < 2)
  | .inputPresent _ e l => decide (e < 4) && decide (l < 1536)
  | .queueDoorbell q _ | .queueConfigWrite q _ _ | .queueMap q | .pifoPush q | .waitPacket q | .waitSatisfied q =>
      decide (q < 1024)
  | .wakeMailboxDeliver c | .clusterWake c | .clockGate c | .powerGate c | .thermalTrip c
  | .temperatureSample c _ _ | .vtclassChange c _ => decide (c < 48)
  | .ingressOpen p _ | .ingressData p _ => decide (p < 16)
  | .patrolScrub b _ => decide (b < 6144)
  | _ => true

/-- A legal word of its own row (R63, R74), or an event of agents that exist. -/
def Instr.wellFormed (i : Instr) : Bool :=
  i.rowSelected && i.agentsExist &&
    match i.body with
    | some b => !b.illegal && !b.reserved
    | none => true

abbrev WellFormed (i : Instr) : Prop := i.wellFormed = true

end Sys2Proof
end

