-- ==== Sys2Proof/Decode.lean ====
section
/-! DEFINITION. Decoding a 64-bit word into an instruction or a named defect (R60 to R74), and the encoder. -/

namespace Sys2Proof

/-- R74: why a word is not an instruction; `illegal` takes fault 0x01, `reserved` fault 0x02. -/
inductive WordDefect where
  | illegal
  | reserved
  deriving DecidableEq, Repr

/-! ### Fields of a word (R60, R62) -/

def hdrOf (w : Word) : Hdr := ⟨w.extractLsb' 53 3, w.extractLsb' 50 3, w.getLsbD 49⟩

def fmtA (w : Word) : FmtA :=
  ⟨w.extractLsb' 43 5, w.extractLsb' 38 5, w.extractLsb' 33 5, w.extractLsb' 28 5, w.extractLsb' 20 8,
    w.extractLsb' 0 20⟩

def fmtB (w : Word) : FmtB :=
  ⟨w.extractLsb' 43 5, w.extractLsb' 38 5, w.extractLsb' 32 6, w.extractLsb' 0 32⟩

def fmtC (w : Word) : FmtC :=
  ⟨w.extractLsb' 43 5, w.extractLsb' 38 5, w.extractLsb' 33 5, w.extractLsb' 32 1, w.extractLsb' 0 32⟩

def fmtM (w : Word) : FmtM :=
  ⟨w.extractLsb' 43 5, w.extractLsb' 38 5, w.extractLsb' 33 5, w.extractLsb' 30 3, w.extractLsb' 27 3,
    w.extractLsb' 25 2, w.extractLsb' 21 4, w.extractLsb' 13 8, w.extractLsb' 0 13⟩

def fmtV (w : Word) : FmtV :=
  ⟨w.extractLsb' 44 4, w.extractLsb' 40 4, w.extractLsb' 36 4, w.extractLsb' 32 4, w.extractLsb' 29 3,
    w.extractLsb' 28 1, w.extractLsb' 26 2, w.extractLsb' 22 4, w.extractLsb' 14 8, w.extractLsb' 9 5,
    w.extractLsb' 0 9⟩

def fmtX (w : Word) : FmtX :=
  ⟨w.extractLsb' 43 5, w.extractLsb' 38 5, w.extractLsb' 26 12, w.extractLsb' 20 6, w.extractLsb' 0 20⟩

/-- R67 to R74: the body of a word with a listed opcode. -/
def fieldsOf (w : Word) : Option Fields :=
  let n := (w.extractLsb' 56 8).toNat
  if n ≤ 0x0C then some (.c (fmtC w))
  else if 0x10 ≤ n ∧ n ≤ 0x29 then some (.a (fmtA w))
  else if 0x2A ≤ n ∧ n ≤ 0x30 then some (.b (fmtB w))
  else if 0x31 ≤ n ∧ n ≤ 0x3B then some (.a (fmtA w))
  else if 0x3C ≤ n ∧ n ≤ 0x3F then some (.x (fmtX w))
  else if 0x40 ≤ n ∧ n ≤ 0x47 then some (.m (fmtM w))
  else if 0x50 ≤ n ∧ n ≤ 0x78 then some (.v (fmtV w))
  else if n = 0x8B ∨ n = 0x8C then some (.v (fmtV w))
  else if 0x80 ≤ n ∧ n ≤ 0x8E then some (.a (fmtA w))
  else if 0xA0 ≤ n ∧ n ≤ 0xA6 then some (.a (fmtA w))
  else if 0xB0 ≤ n ∧ n ≤ 0xB7 then some (.a (fmtA w))
  else none

/-! ### The row of an opcode -/

/-- The rows of format C. -/
def pickC (opc : BitVec 8) (h : Hdr) (o : FmtC) : Option Instr :=
  match opc.toNat with
  | 0x00 => some (.nop h o)
  | 0x01 => some (.br h o)
  | 0x02 => some (.jmp h o)
  | 0x03 => some (.call h o)
  | 0x04 => some (.callr h o)
  | 0x05 => some (.ret h o)
  | 0x06 => some (if o.fn = 0 then .loop h o else .loopImm h o)
  | 0x07 => some (if o.fn = 0 then .waitc h o else .waitcImm h o)
  | 0x08 => some (.endSlot h o)
  | 0x09 => some (.trap h o)
  | 0x0A => some (if o.fn = 0 then .rft h o else .rftNext h o)
  | 0x0B => some (.brk h o)
  | 0x0C => some (if o.fn = 0 then .chkp h o else .chkpImm h o)
  | _ => none

/-- The rows of format A. -/
def pickA (opc : BitVec 8) (h : Hdr) (o : FmtA) : Option Instr :=
  match opc.toNat with
  | 0x10 => some (.add h o)
  | 0x11 => some (.sub h o)
  | 0x12 => some (.mul h o)
  | 0x13 => some (.mulh h o)
  | 0x14 => some (.div h o)
  | 0x15 => some (.rem h o)
  | 0x16 => some (.andG h o)
  | 0x17 => some (.orG h o)
  | 0x18 => some (.xorG h o)
  | 0x19 => some (.andn h o)
  | 0x1A => some (.shl h o)
  | 0x1B => some (.shr h o)
  | 0x1C => some (.sar h o)
  | 0x1D => some (.rot h o)
  | 0x1E => some (.minG h o)
  | 0x1F => some (.maxG h o)
  | 0x20 => some (.clz h o)
  | 0x21 => some (.ctz h o)
  | 0x22 => some (.popc h o)
  | 0x23 => some (.ext h o)
  | 0x24 => some (.bfx h o)
  | 0x25 => some (.bfi h o)
  | 0x26 => some (.sel h o)
  | 0x27 => some (.lea h o)
  | 0x28 => some (.cmp h o)
  | 0x29 => some (.plog h o)
  | 0x31 => some (.fadd h o)
  | 0x32 => some (.fsub h o)
  | 0x33 => some (.fmul h o)
  | 0x34 => some (.ffma h o)
  | 0x35 => some (.fmin h o)
  | 0x36 => some (.fmax h o)
  | 0x37 => some (.fcmp h o)
  | 0x38 => some (.fcvt h o)
  | 0x39 => some (.fsf h o)
  | 0x3A => some (.fclass h o)
  | 0x3B => some (.fsgn h o)
  | 0x80 => some (.fuse h o)
  | 0x81 => some (.unfuse h o)
  | 0x82 => some (.lgo h o)
  | 0x83 => some (if o.fn = 0 then .lstop h o else .lstopQ h o)
  | 0x84 => some (.lstat h o)
  | 0x85 => some (.agset h o)
  | 0x86 => some (.aggo h o)
  | 0x87 => some (.agstat h o)
  | 0x88 => some (if o.fn = 0 then .gateClose h o else .gateOpen h o)
  | 0x89 => some (if o.fn = 0 then .bindCh h o else .bindUn h o)
  | 0x8A => some (if o.fn = 0 then .skewRd h o else .skewWr h o)
  | 0x8D => some (.ctab h o)
  | 0x8E => some (if o.fn = 0 then .dmapFacet h o else .dmapCore h o)
  | 0xA0 => some (.sendMsg h o)
  | 0xA1 => some (.recv h o)
  | 0xA2 => some (.recva h o)
  | 0xA3 => some (if o.fn = 0 then .barAw h o else if o.fn = 1 then .barA h o else .barW h o)
  | 0xA4 => some (.note h o)
  | 0xA5 => some (.waitn h o)
  | 0xA6 => some (.namePre h o)
  | 0xB0 => some (.gnode h o)
  | 0xB1 => some (.gdep h o)
  | 0xB2 => some (if o.fn = 0 then .gwait h o else .gwaitAll h o)
  | 0xB3 => some (.gpoll h o)
  | 0xB4 => some (.gkill h o)
  | 0xB5 => some (if o.fn = 0 then .gstatFree h o else .gstatDone h o)
  | 0xB6 => some (.cpy h o)
  | 0xB7 => some (if o.fn = 0 then .qntE8l h o else .qntFq4 h o)
  | _ => none

/-- The rows of format B. -/
def pickB (opc : BitVec 8) (h : Hdr) (o : FmtB) : Option Instr :=
  match opc.toNat with
  | 0x2A => some (.addi h o)
  | 0x2B => some (.andi h o)
  | 0x2C => some (.ori h o)
  | 0x2D => some (.xori h o)
  | 0x2E => some (.shi h o)
  | 0x2F => some (if o.fn = 0 then .li h o else if o.fn = 1 then .liZ h o else .liH h o)
  | 0x30 => some (.cmpi h o)
  | _ => none

/-- The rows of format X. -/
def pickX (opc : BitVec 8) (h : Hdr) (o : FmtX) : Option Instr :=
  match opc.toNat with
  | 0x3C => some (.mfsr h o)
  | 0x3D => some (if o.srn = 8 then .wheelWrite h .move o else .mtsr h o)
  | 0x3E => some (if o.srn = 8 then .wheelWrite h .set o else .srset h o)
  | 0x3F => some (if o.srn = 8 then .wheelWrite h .clear o else .srclr h o)
  | _ => none

/-- The rows of format M. -/
def pickM (opc : BitVec 8) (h : Hdr) (o : FmtM) : Option Instr :=
  match opc.toNat with
  | 0x40 => some (.ld h o)
  | 0x41 => some (.st h o)
  | 0x42 => some (.amo h o)
  | 0x43 => some (if o.fnm = 1 then .fenceSc h o else if o.fnm = 2 then .fenceLayer h o else if o.ord = 1 then .fenceAcq h o else if o.ord = 2 then .fenceRel h o else .fenceAr h o)
  | 0x44 => some (.give h o)
  | 0x45 => some (.batt h o)
  | 0x46 => some (.bdet h o)
  | 0x47 => some (.bqry h o)
  | _ => none

/-- The rows of format V. -/
def pickV (opc : BitVec 8) (h : Hdr) (o : FmtV) : Option Instr :=
  match opc.toNat with
  | 0x50 => some (.vadd h o)
  | 0x51 => some (.vsub h o)
  | 0x52 => some (.vmul h o)
  | 0x53 => some (.vfma h o)
  | 0x54 => some (.vmin h o)
  | 0x55 => some (.vmax h o)
  | 0x56 => some (.vsgn h o)
  | 0x57 => some (.vcmp h o)
  | 0x58 => some (.vsel h o)
  | 0x59 => some (.vand h o)
  | 0x5A => some (.vor h o)
  | 0x5B => some (.vxor h o)
  | 0x5C => some (.vsh h o)
  | 0x5D => some (.vcvt h o)
  | 0x5E => some (.vsf h o)
  | 0x5F => some (.vred h o)
  | 0x60 => some (.vscan h o)
  | 0x61 => some (.vperm h o)
  | 0x62 => some (.vbcast h o)
  | 0x63 => some (.vext h o)
  | 0x64 => some (.vins h o)
  | 0x65 => some (.viota h o)
  | 0x66 => some (.vslide h o)
  | 0x67 => some (.vld h o)
  | 0x68 => some (.vst h o)
  | 0x69 => some (.vgath h o)
  | 0x6A => some (.vscat h o)
  | 0x6B => some (.vqe8 h o)
  | 0x6C => some (.vde8 h o)
  | 0x6D => some (.vsce8 h o)
  | 0x6E => some (.vqf4 h o)
  | 0x6F => some (.vdf4 h o)
  | 0x70 => some (.vscf4 h o)
  | 0x71 => some (.vrng h o)
  | 0x72 => some (.vmlog h o)
  | 0x73 => some (.vmpop h o)
  | 0x74 => some (.vmfst h o)
  | 0x75 => some (.vmov h o)
  | 0x76 => some (.vpack h o)
  | 0x77 => some (.vunpk h o)
  | 0x78 => some (.vclmp h o)
  | 0x8B => some (.epop h o)
  | 0x8C => some (if o.fn.getLsbD 3 then .epushHdr h o else .epush h o)
  | _ => none

/-- The row a body stands for. -/
def Body.pick (b : Body) : Option Instr :=
  match b.fields with
  | .a o => pickA b.opc b.hdr o
  | .b o => pickB b.opc b.hdr o
  | .c o => pickC b.opc b.hdr o
  | .m o => pickM b.opc b.hdr o
  | .v o => pickV b.opc b.hdr o
  | .x o => pickX b.opc b.hdr o

/-- R74: decodes any word; where a word has several defects the lowest cause code prevails. -/
def decodeWord (w : Word) : Except WordDefect Instr :=
  match fieldsOf w with
  | none => .error .illegal
  | some f =>
    let b : Body := ⟨w.extractLsb' 56 8, hdrOf w, f⟩
    if b.illegal then .error .illegal
    else if b.reserved || w.getLsbD 48 then .error .reserved
    else
      match b.pick with
      | some i => .ok i
      | none => .error .illegal

/-! ### Encoding -/

/-- R62: the 48 body bits. -/
def Fields.bits : Fields → BitVec 48
  | .a o => o.rd ++ o.ra ++ o.rb ++ o.rc ++ o.fn ++ o.imm
  | .b o => o.rd ++ o.ra ++ o.fn ++ o.imm
  | .c o => o.rd ++ o.ra ++ o.rb ++ o.fn ++ o.off
  | .m o => o.rt ++ o.ra ++ o.rb ++ o.sz ++ o.scp ++ o.ord ++ o.fnm ++ o.win ++ o.off
  | .v o => o.vd ++ o.va ++ o.vb ++ o.vc ++ o.msk ++ o.z ++ o.fold ++ o.ft ++ o.fn ++ o.rs ++ o.imm
  | .x o => o.rd ++ o.ra ++ o.srn ++ o.fn ++ o.imm

/-- R60: the word of a body. -/
def Body.word (b : Body) : Word :=
  b.opc ++ b.hdr.dly ++ b.hdr.gp ++ BitVec.ofBool b.hdr.gn ++ 0#1 ++ b.fields.bits

/-- The word of a word row; an event has none. -/
def encode (i : Instr) : Option Word := i.body.map Body.word

/-- The decoder on an opcode-table word of `nbits` bits, the bits above them zero. -/
def decodeTableWord (nbits w : Nat) : Option Instr :=
  match decodeWord (BitVec.ofNat 64 (w % 2 ^ nbits)) with
  | .ok i => some i
  | .error _ => none

end Sys2Proof
end

