-- ==== Sys2Proof/Machine/Turn.lean ====
section
/-! DEFINITION. The turn of a slot: opening it, its due results and window ends, its due faults and its budget, and
whether its word may issue (R13 to R17, R116, R343, R344, R351, R406). -/

namespace Sys2Proof.Machine

/-- R11: the slot is bound. -/
def Slot.bound (sl : Slot) : Bool := sl.life != .unbound

/-- R10, R11: the slot runs or waits. -/
def Slot.live (sl : Slot) : Bool := sl.life == .running || sl.life == .waiting

/-- R13: a gate that opens with a P-cycle is counted from the first turn at or after it. -/
def Slot.regate (sl : Slot) (now : Nat) : Slot :=
  match sl.gate with
  | .fromCycle c => if c ≤ now then { sl with gate := .fromTurn sl.turn } else sl
  | _ => sl

/-- A result that writes a system register; it is applied before the flags of its turn (R88). -/
def Flight.writesSys (f : Flight) : Bool :=
  f.writes.any fun w => match w with
    | .sys _ _ _ => true
    | _ => false

/-- The results and window ends of a slot that fall due on its present turn, in the order they are applied: writes of
system registers (R88), then by issue order (R16). -/
def dueEvents (r : SlotRef) (sl : Slot) (now : Nat) : List Instr :=
  let fl := sl.flights.filter fun f => f.due sl.turn now
  let sys := (fl.filter (·.writesSys)).map fun f => Instr.resultWriteback r.core r.slot f.id
  let res := (fl.filter fun f => !f.writesSys).map fun f => (f.id, Instr.resultWriteback r.core r.slot f.id)
  let win := (sl.accs.filter fun a => !a.ended && decide (a.minTurn ≤ sl.turn) && decide (a.minCycle ≤ now)).map
    fun a => (a.id, Instr.windowEnd r.core r.slot a.id)
  sys ++ (sortBy (·.1) (res ++ win)).map (·.2)

/-- R127: the slot has a vector access in progress. -/
def Slot.beating (sl : Slot) : Bool := !sl.beats.isEmpty || !sl.vloads.isEmpty || sl.accs.any fun a => a.atTurn != 0

/-- R116: a turn of a slot opens: it is counted, its beats are run, and the results due on it become visible. -/
def State.openTurn (s : State) (r : SlotRef) (rest : List SlotRef) : State :=
  let s := { s with cur := r }
  if (s.slot r).bound then
    let s := s.modSlot r fun sl => ({ sl with turn := sl.turn + 1 } : Slot).regate s.now
    let beats := if (s.slot r).beating then [Due.beats r.core r.slot] else []
    { s with agenda := s.agenda ++ beats ++ (dueEvents r (s.slot r) s.now).map Due.ev, phase := .faults rest }
  else { s with phase := .turns rest }

/-- A word of the instruction store of a slot's core. -/
def State.wordOf (s : State) (r : SlotRef) (pc : BitVec 14) : Word := Tab.at (s.core r.core).istore pc.toNat 0

/-- The word at a slot's PC, its instruction store being its core's. -/
def State.wordAt (s : State) (r : SlotRef) : Word := s.wordOf r (s.slot r).pc

/-- R336: the precise fault that an ended GWAIT of the slot takes where its next word would issue. -/
def Slot.gwaitFault (sl : Slot) : Option Word :=
  match sl.gfail with
  | some (pc, h, info) => if pc = sl.pc && h == sl.h then some info else none
  | none => none

/-- R60: the pre-delay of a word. -/
def dlyOf (w : Word) : Nat := bits w 53 3

/-- R369: the task's lenses and slots come to rest for a checkpoint. -/
def State.drains (s : State) (t : Option Nat) : Bool :=
  match t with
  | some t => (s.task t).st == .checkpointing
  | none => false

/-- R128, R369: the slot issues nothing more: its task is saved or killed, or its core retired. -/
def State.ceases (s : State) (r : SlotRef) : Bool :=
  (s.core r.core).retiring || match (s.slot r).task with
    | some t => (match (s.task t).st with
      | .checkpointing | .killing => true
      | _ => false)
    | none => false

/-- R13, R97, R244, R405: the slot's word may issue on this turn. WAITC compares its target, a 64-bit sum that wraps, as a
signed value with CYCLE (log entry 30). -/
def State.mayIssue (s : State) (r : SlotRef) : Bool :=
  let sl := s.slot r
  let d := dlyOf (match sl.gwaitFault with
    | some _ => s.wordOf r sl.advance.pc
    | none => s.wordAt r)
  sl.life == .running && (!sl.claimed || sl.oneStep) && !s.ceases r && match sl.gate with
    | .fromTurn t => decide (t + d ≤ sl.turn)
    | .waitc t target => decide (t + d ≤ sl.turn) && decide (target.toInt ≤ (s.cycle r.core).toNat)
    | .offer => true
    | _ => false

/-- R351: the turn is counted against the budget. -/
def Slot.countBudget (sl : Slot) : Slot :=
  if sl.reload != 0 && sl.left != 0 && sl.live && !sl.h then
    let n := sl.left - 1
    { sl with left := n, budgetDue := sl.budgetDue || n == 0 }
  else sl

/-- R344: the earlier of two due faults by instant, then by cause code. -/
def DueFault.before (a b : DueFault) : Bool :=
  decide (a.rank < b.rank) || (a.rank == b.rank && decide (a.cause.toNat < b.cause.toNat))

def firstDue : List DueFault → Option DueFault
  | [] => none
  | a :: r =>
    match firstDue r with
    | none => some a
    | some b => if b.before a then some b else some a

/-- R406: the ordered access a slot stalls on. -/
def Slot.stallAcc (sl : Slot) : Option Nat :=
  match sl.gate with
  | .stalled st => st.own
  | _ => none

/-- R406: the slot stalls on BQRY, a fence or an ordered access. -/
def Slot.stalled (sl : Slot) : Bool :=
  match sl.gate with
  | .stalled _ => true
  | _ => false

/-- R279, R280: FINFO with the turns from the access's issue to the turn on which the fault falls due. -/
def DueFault.stamp (f : DueFault) (turn : Nat) : DueFault :=
  match f.dist with
  | some t0 => { f with info := f.info ||| w64 (Nat.min (turn - t0) 65535), dist := none }
  | none => f

/-- R343, R351, R406: the faults that are due fall due on this turn: DIST is fixed, the budget is counted, and a stall of
the slot holds them, but for those of the stalling access itself. -/
def Slot.fallDue (sl : Slot) : Slot :=
  let sl := sl.countBudget
  let own (f : DueFault) : Bool := f.acc.isSome && f.acc == sl.stallAcc
  { sl with
    due := sl.due.map fun (f : DueFault) => { f.stamp sl.turn with held := f.held || (sl.stalled && !own f) }
    hold := sl.hold || (sl.stalled && sl.budgetDue) }

/-- R343, R344, R406: the faults that may be taken on this turn: those that a stall holds only on a turn on which the
slot would issue, or once it has stopped. -/
def State.takeable (s : State) (r : SlotRef) : List DueFault :=
  if s.mayIssue r || !(s.slot r).live then (s.slot r).due else (s.slot r).due.filter fun f => !f.held

/-- R344, R351: the turn's fault, if any: a deferred-precise one first, else the budget deadline. A deadline that is
not taken is dropped, but for a stall that holds it. What a CHECKPOINT kept waits until the gates open (R11, R343). -/
def State.weighFaults (s : State) (r : SlotRef) : State :=
  if (s.slot r).life = .boundIdle then s
  else
    let s := s.modSlot r Slot.fallDue
    let held := (s.slot r).hold && !s.mayIssue r
    match firstDue (s.takeable r) with
    | some f =>
      (s.modSlot r fun x => { x with budgetDue := x.budgetDue && held, hold := held }).soon (.deferredFault r.core r.slot f.id)
    | none => if (s.slot r).budgetDue && !held then s.soon (.budgetDeadline r.core r.slot) else s

/-- R403: a word of the instruction store with an uncorrectable error. -/
def State.istoreBad (s : State) (r : SlotRef) : Bool := (s.core r.core).ibad.contains (s.slot r).pc.toNat

/-- R336, R405: the word issues: a single step of the loupe is used up, and the fault of an ended GWAIT outside a handler
waits for the handler's end. -/
def State.issuing (s : State) : State :=
  s.modMe fun sl =>
    { sl with oneStep := false, gfail := if sl.gwaitFault.isSome || sl.h then sl.gfail else none }

/-- R74: the cause of a word that is not an instruction. -/
def wordCause : WordDefect → BitVec 8
  | .illegal => 0x01
  | .reserved => 0x02

/-- R74, R403: the instruction at the PC, or the state in which its fault has been taken. -/
def State.fetch (s : State) : Except State Instr :=
  let w := s.wordAt s.cur
  match s.me.gwaitFault with
  | some info => .error ((s.modMe fun sl => { sl with gfail := none }).precise 0x0F 0 info)
  | none =>
  if s.istoreBad s.cur then .error ((s.prismError s.cur.core (unitText s.cur.core)).precise 0x39 0 0)
  else
    match decodeWord w with
    | .ok i => .ok i
    | .error d => .error (s.precise (wordCause d) 0 w)

/-- R116: the slots whose position this P-cycle is, core by core. -/
def State.turnsNow (s : State) : List SlotRef :=
  s.cores.filterMap fun x => (wheelSlot x.2.wheel (s.now + x.2.skew)).map fun k => ⟨x.1, k⟩

end Sys2Proof.Machine
end

