-- ==== Sys2Proof/Machine/SysReg.lean ====
section
/-! DEFINITION. The system registers (R75, R113, R114, R121, R122): what each reads, what a write changes, and what the
results in flight change when they become visible (R15). -/

namespace Sys2Proof.Machine

/-! ### Reading -/

/-- R10: the number of a slot state. -/
def Life.num : Life → Nat
  | .unbound => 0
  | .boundIdle => 1
  | .running => 2
  | .waiting => 3
  | .halted => 4
  | .faulted => 5

/-- R2, R224: the live rows and columns of a facet. -/
def Defect.rowsLive (d : Defect) : Nat := 64 - d.rows.eraseDups.length
def Defect.colsLive (d : Defect) : Nat := 64 - d.cols.eraseDups.length

/-- R231: FRAME of a task's record. -/
def frameWord (t : Nat) (r : BindRec) : Word :=
  w64 (t % 256 * 2 ^ 32 + r.oy % 256 * 2 ^ 24 + r.ox % 256 * 2 ^ 16 + r.fh % 256 * 2 ^ 8 + r.fw % 256)

/-- The registers that belong to the slot, by SRN; 0 for another. -/
def Slot.readSr (sl : Slot) (n : Nat) : Word :=
  match n with
  | 0x10 => sl.fvec.setWidth 64
  | 0x11 => sl.epc.setWidth 64
  | 0x12 => sl.fcause.setWidth 64
  | 0x13 => sl.faddr
  | 0x14 => sl.finfo
  | 0x15 => sl.fhen
  | 0x18 => sl.fpctl.setWidth 64
  | 0x19 => sl.istat.setWidth 64
  | 0x1A => sl.vstat.setWidth 64
  | 0x21 => w64 (sl.turn - 1)
  | 0x24 => sl.reload ++ sl.left
  | 0x25 => sl.est.setWidth 64
  | 0x40 => sl.bstat.setWidth 64
  | 0x44 => sl.notify.setWidth 64
  | 0x45 => w64 (b2n sl.wovf)
  | 0x50 => sl.rngkey
  | 0x60 => sl.lstate.setWidth 64
  | _ => 0

/-- R75: the value of a listed system register for a slot. -/
def State.readSr (s : State) (r : SlotRef) (n : Nat) : Word :=
  let sl := s.slot r
  let x := s.core r.core
  let d := s.defect r.core
  match n with
  | 0x00 => w64 (b2n sl.h * 65536 + sl.life.num * 256 + r.slot % 8)
  | 0x01 =>
    let (fx, fy) := frameXY (s.recOf r.core) r.core
    w64 (fy % 256 * 256 + fx % 256)
  | 0x02 => w64 (s.fw.die % 64 * 65536 + coreY r.core * 256 + coreX r.core)
  | 0x03 => match x.task with
    | some t => frameWord t (s.task t).rec_
    | none => 0
  | 0x04 => w64 (d.colsLive * 256 + d.rowsLive)
  | 0x08 => x.wheelNext
  | 0x20 => s.cycle r.core
  | 0x22 => x.hbeat
  | 0x23 => x.syncref
  | 0x28 => w64 ((s.cluster (clusterOf r.core)).chg.toNat * 65536 + b2n x.boundCls * 2 + s.classOf r.core)
  | 0x29 => x.issued ++ x.done
  | 0x41 => x.bnslot.setWidth 64
  | 0x48 => x.lastlat.setWidth 64
  | 0x49 => w64 (x.walks.length % 65536 * 2 ^ 48 + x.miss.toNat)
  | 0x61 => x.purged.setWidth 64
  | 0x80 => (s.cluster (clusterOf r.core)).excuse
  | 0x81 => x.namebase.setWidth 64 <<< 16
  | _ => if 0x30 ≤ n ∧ n ≤ 0x3F then x.bm (n - 0x30) else sl.readSr n

/-! ### Writing -/

/-- R113: the value a write leaves in plain rw fields. -/
def srNew (op : SrOp) (old v : Word) : Word :=
  match op with
  | .move => v
  | .set => old ||| v
  | .clear => old &&& ~~~v

/-- R25, R342: the bits of FHEN that are cause codes and not hardwired. -/
def fhenMask : Word := 0x06070003031FFFFE#64

/-- R37: an RM above 4 leaves RM unchanged. -/
def newFpctl (old : BitVec 13) (v : Word) : BitVec 13 :=
  let rm := if bits v 0 3 > 4 then old &&& 7 else v.setWidth 13 &&& 7
  (v.setWidth 13 &&& 0x1F00) ||| rm

/-- R113: a write to a register of the slot. -/
def Slot.writeSr (sl : Slot) (n : Nat) (op : SrOp) (v : Word) : Slot :=
  let u := srNew op (sl.readSr n) v
  match n with
  | 0x10 => { sl with fvec := u.setWidth 14 }
  | 0x11 => { sl with epc := u.setWidth 14 }
  | 0x12 => { sl with fcause := u.setWidth 9 }
  | 0x13 => { sl with faddr := u }
  | 0x14 => { sl with finfo := u }
  | 0x15 => { sl with fhen := u &&& fhenMask }
  | 0x18 => { sl with fpctl := newFpctl sl.fpctl u }
  | 0x19 => { sl with istat := u.setWidth 6 }
  | 0x1A => { sl with vstat := u.setWidth 7 }
  | 0x24 => { sl with reload := u.extractLsb' 32 32, left := u.setWidth 32 }
  | 0x25 => { sl with est := u.setWidth 32 }
  | 0x44 => { sl with notify := u.setWidth 16 }
  | 0x45 => if op != .clear && v.getLsbD 0 then { sl with wovf := false } else sl
  | 0x50 => { sl with rngkey := u }
  | _ => sl

/-- R269, R271: a write to a register of the core. -/
def Core.writeSr (x : Core) (n : Nat) (op : SrOp) (v : Word) : Core :=
  if n = 0x41 then { x with bnslot := (srNew op (x.bnslot.setWidth 64) v).setWidth 3 }
  else if 0x30 ≤ n ∧ n ≤ 0x3F then
    let w := x.bm (n - 0x30)
    x.setBm (n - 0x30) (setBits w 61 1 (bits (srNew op w v) 61 1))
  else x

/-- R113: a write of a system register takes effect. -/
def State.writeSr (s : State) (r : SlotRef) (n : Nat) (op : SrOp) (v : Word) : State :=
  (s.modCore r.core fun x => x.writeSr n op v).modSlot r fun sl => sl.writeSr n op v

/-! ### Results becoming visible (R15, R16, R88) -/

/-- One write of a result. -/
def State.applyWrite (s : State) (r : SlotRef) (w : Write) : State :=
  match w with
  | .g d v => s.modSlot r fun sl => sl.setG d v
  | .p d b => s.modSlot r fun sl => sl.setP d b
  | .v d lanes v => s.modSlot r fun sl => sl.setV d lanes v
  | .m d lanes v => s.modSlot r fun sl => sl.setM d lanes v
  | .istat f => s.modSlot r fun sl => { sl with istat := sl.istat ||| f }
  | .vstat f => s.modSlot r fun sl => { sl with vstat := sl.vstat ||| f }
  | .sys n op v => s.writeSr r n.toNat op v
  | .push e toks =>
    s.modCore r.core fun x => toks.foldl (fun x p => x.modLane e p.1 fun l =>
      { l with fifo := l.fifo ++ [p.2], inFlight := l.inFlight - 1 }) x
  | .ecc pc cycle addr info => s.defer r none 0x39 (some pc) addr info cycle none

def State.applyWrites (s : State) (r : SlotRef) (ws : List Write) : State := ws.foldl (fun s w => s.applyWrite r w) s

/-- The agents an event names exist; otherwise there is no such step. -/
def onCore (c : Nat) (t : State) : Host.Outcome State Fault Refusal :=
  if c < 768 then .next t else .fault .noSuchAgent

def onSlot (c k : Nat) (t : State) : Host.Outcome State Fault Refusal :=
  if c < 768 ∧ k < 8 then .next t else .fault .noSuchAgent

/-! ### Instructions -/

/-- R113: the value written: G(RA), or the zero-extended immediate. -/
def srValue (o : FmtX) (s : State) : Word := if o.fn = 0 then s.me.gr o.ra else o.imm.setWidth 64

/-- R74, R113: a task slot's access to a supervisor register takes 0x03 before its guard. -/
def srWord (h : Hdr) (o : FmtX) (s : State) (body : State → State) : Host.Outcome State Fault Refusal :=
  .next <| if Rows.srnSupervisor o.srn then s.precise 0x03 0 (s.wordAt s.cur) else s.guarded h body

def execMfsr (h : Hdr) (o : FmtX) (s : State) : Host.Outcome State Fault Refusal :=
  srWord h o s fun s => s.result 1 [.g o.rd (s.readSr s.cur o.srn.toNat)]

def execMtsr (h : Hdr) (o : FmtX) (s : State) : Host.Outcome State Fault Refusal :=
  srWord h o s fun s => s.result 1 [.sys o.srn .move (srValue o s)]

def execSrset (h : Hdr) (o : FmtX) (s : State) : Host.Outcome State Fault Refusal :=
  srWord h o s fun s => s.result 1 [.sys o.srn .set (srValue o s)]

def execSrclr (h : Hdr) (o : FmtX) (s : State) : Host.Outcome State Fault Refusal :=
  srWord h o s fun s => s.result 1 [.sys o.srn .clear (srValue o s)]

/-- R117: entry k of a wheel value. -/
def wheelEntry (w : Word) (k : Nat) : Nat := bits w (4 * k) 4

/-- The wheel positions that satisfy a condition, as a mask. -/
def positions (p : Nat → Bool) : Nat := (List.range 16).foldl (fun m k => if p k then m + 2 ^ k else m) 0

/-- A slot holds a position of a wheel value. -/
def holdsPos (w : Word) (k pos : Nat) : Bool := wheelSlot w pos == some k

/-- R121: a wheel value leaves a slot that is BOUND-IDLE, RUNNING or WAITING with no position. -/
def Core.starves (x : Core) (new : Word) (k : Nat) : Bool :=
  ((x.slot k).live || (x.slot k).life == .boundIdle) && (List.range 16).all fun p => !holdsPos new k p

/-- R121: the offending positions of each of the three checks, and whether any check fails. -/
def wheelCheck (s : State) (c : Nat) (task : Option Nat) (old new : Word) : Bool × Nat :=
  let x := s.core c
  let mine (k : Nat) : Bool := (x.slot k).bound && (x.slot k).task == task
  let one := positions fun p => x.task != task && wheelEntry old p != wheelEntry new p
  let two := positions fun p => match wheelSlot new p with
    | some k => !mine k
    | none => false
  let three := positions fun p => match wheelSlot old p with
    | some k => mine k && x.starves new k
    | none => false
  (one != 0 || two != 0 || (List.range 8).any fun k => mine k && x.starves new k, one ||| two ||| three)

/-- R122: the first boundary at least two P-cycles after a P-cycle. -/
def wheelBoundary (c : Nat) : Nat := ceilDiv (c + 2) 16 * 16

/-- R122: a wheel value is written; it comes into force at its boundary. -/
def State.setWheel (s : State) (c : Nat) (new : Word) : State :=
  let t := s.now + (s.core c).skew
  let b := wheelBoundary t
  (s.modCore c fun x => { x with wheelNext := new, wheelDue := x.wheelDue ++ [(b, new)] }).later (b - t) (.wheelSwitch c)

/-- R121, R122: MTSR, SRSET and SRCLR of WHEEL. The value read changes for every slot of the core at once (log entry 30). -/
def execWheelWrite (h : Hdr) (op : SrOp) (o : FmtX) (s : State) : Host.Outcome State Fault Refusal :=
  word h s fun s =>
    let c := s.cur.core
    let x := s.myCore
    let new := srNew op x.wheelNext (srValue o s)
    let (bad, info) := wheelCheck s c s.me.task x.wheelNext new
    if bad then s.precise 0x03 0 (w64 info) else (s.setWheel c new).retire

/-- R121: a supervisor's write of WHEEL: it is refused only where it would leave a bound slot with no position. -/
def State.superWheel (s : State) (c : Nat) (new : Word) : State :=
  if (List.range 8).any fun k => (s.core c).starves new k then s else s.setWheel c new

/-- R122: the values whose boundary has come; the latest written is in force. -/
def Core.switchWheel (x : Core) (t : Nat) : Core :=
  x.wheelDue.foldl (fun x p => if p.1 ≤ t then { x with wheel := p.2 } else x)
    { x with wheelDue := x.wheelDue.filter fun p => decide (t < p.1) }

def execWheelSwitch (core : Nat) (s : State) : Host.Outcome State Fault Refusal :=
  onCore core <| s.modCore core fun x => x.switchWheel (s.now + x.skew)

/-! ### Notify bits (R252 to R254) -/

/-- R250, R254, R336: a slot leaves a wait; its next instruction issues on its first turn from P-cycle c on. -/
def Slot.leaveWait (sl : Slot) (c : Nat) : Slot :=
  { sl.advance with life := .running, wait := none, gate := .fromCycle c }

/-- R254: whether the test of a WAITN passes. -/
def waitnPasses (all : Bool) (mask bits : BitVec 16) : Bool := if all then bits &&& mask == mask else bits &&& mask != 0

/-- R11, R254: the test of a waiting WAITN in this P-cycle. -/
def Slot.testWaitn (sl : Slot) (now : Nat) : Slot :=
  match sl.wait with
  | some (.waitn all mask rd) =>
    if sl.life == .waiting && waitnPasses all mask sl.notify then
      let got := sl.notify &&& mask
      { sl.leaveWait (now + 1) with
        notify := sl.notify &&& ~~~mask
        flights := sl.flights ++ [⟨sl.nextId, 0, now + 1, [.g rd (got.setWidth 64)]⟩]
        nextId := sl.nextId + 1 }
    else sl
  | _ => sl

/-- The slot's turn of this P-cycle is still to open. -/
def State.turnToOpen (s : State) (r : SlotRef) : Bool :=
  match s.phase with
  | .events => wheelSlot (s.core r.core).wheel (s.now + (s.core r.core).skew) == some r.slot
  | .turns l | .faults l | .ready l => l.contains r
  | .backs => false

/-- R252: a write of NOTIFY that takes effect in this P-cycle is applied before the bits that arrive in it. -/
def Slot.earlyNotify (sl : Slot) (now : Nat) : Slot :=
  let hit (f : Flight) : Bool := f.due (sl.turn + 1) now && f.writes.any fun w => match w with
    | .sys n _ _ => n == 0x44
    | _ => false
  let sl' := (sl.flights.filter hit).foldl (fun x f => f.writes.foldl (fun x w => match w with
    | .sys n op v => x.writeSr n.toNat op v
    | _ => x) x) sl
  { sl' with flights := sl.flights.filter fun f => !hit f }

/-- R252, R253: notify bits arrive at a slot, and a WAITN they satisfy passes. -/
def State.notify (s : State) (r : SlotRef) (mask : BitVec 16) : State :=
  let early := s.turnToOpen r
  s.modSlot r fun sl =>
    let sl := if early then sl.earlyNotify s.now else sl
    ({ sl with notify := sl.notify ||| mask } : Slot).testWaitn s.now

end Sys2Proof.Machine
end

