-- ==== Sys2Proof/Machine/Mesh.lean ====
section
/-! DEFINITION. The mesh as the NI sees it: routes (R239, R261), names (R233 to R236, R240), and packets with their
sequence numbers (R313). -/

namespace Sys2Proof.Machine

/-! ### Routes -/

/-- R239: the dead routers of the die. -/
def State.deadRouters (s : State) : List Nat :=
  s.fw.deadRouters ++ (s.defects.filter fun d => !d.2.router).map (·.1)

/-- R162: seams crossed by a step in x or y between neighbouring columns or rows. -/
def seamX (a b : Nat) : Nat := let m := Nat.min a b; if m = 7 ∨ m = 15 then 1 else 0
def seamY (a b : Nat) : Nat := if Nat.min a b = 15 then 1 else 0

/-- R162: seams between two columns or two rows. -/
def seamsX (a b : Nat) : Nat :=
  let side (x : Nat) : Nat := if x < 8 then 0 else if x < 16 then 1 else 2
  Nat.max (side a) (side b) - Nat.min (side a) (side b)
def seamsY (a b : Nat) : Nat := if (decide (a < 16)) = (decide (b < 16)) then 0 else 1

def dist (a b : Nat) : Nat := Nat.max a b - Nat.min a b

/-- R239: one hop under the west-first rule: x, y and whether a hop other than west was taken, with the seams. -/
def westFirstHops (x y : Nat) (turned : Bool) : List ((Nat × Nat × Bool) × Nat) :=
  (if !turned && 0 < x then [((x - 1, y, false), seamX x (x - 1))] else []) ++
  (if 0 < y then [((x, y - 1, true), seamY y (y - 1))] else []) ++
  (if y < 31 then [((x, y + 1, true), seamY y (y + 1))] else []) ++
  (if x < 23 then [((x + 1, y, true), seamX x (x + 1))] else [])

/-- A place of the search, as a number. -/
def placeNum (x y : Nat) (turned : Bool) : Nat := 2 * coreAt x y + b2n turned

/-- R261: fewest hops, then fewest seams, by layers of equal hops; `front` holds the places of the layer with their
least seams. -/
def layers (dead : List Nat) (dst : Nat) : Nat → Nat → List Nat → Tab Nat → Option (Nat × Nat)
  | 0, _, _, _ => none
  | fuel + 1, hops, seen, front =>
    let here := front.filter fun p => p.1 / 2 == dst
    match here with
    | _ :: _ => some (hops, minOf 99 (here.map (·.2)))
    | [] =>
      if front.isEmpty then none
      else
        let next := front.foldl (fun acc p =>
          let c := p.1 / 2
          (westFirstHops (coreX c) (coreY c) (p.1 % 2 == 1)).foldl (fun acc q =>
            let ((x, y, t), sm) := q
            let n := placeNum x y t
            if seen.contains n || dead.contains (coreAt x y) then acc
            else Tab.put acc n (Nat.min (Tab.at acc n 99) (p.2 + sm))) acc) ([] : Tab Nat)
        layers dead dst fuel (hops + 1) (seen ++ next.map (·.1)) next

/-- The mirror image of a core in x, under which east-first is west-first. -/
def mirror (c : Nat) : Nat := coreAt (23 - coreX c) (coreY c)

/-- R239, R261: hops and seams of the route between two cores, west-first (VC 0, 1, 3) or east-first (VC 2); none when
cut off. -/
def State.route (s : State) (eastFirst : Bool) (src dst : Nat) : Option (Nat × Nat) :=
  let dead := s.deadRouters
  if dead.isEmpty then
    some (dist (coreX src) (coreX dst) + dist (coreY src) (coreY dst),
      seamsX (coreX src) (coreX dst) + seamsY (coreY src) (coreY dst))
  else if dead.contains src || dead.contains dst then none
  else
    let f (c : Nat) : Nat := if eastFirst then mirror c else c
    layers (dead.map f) (f dst) 1600 0 [placeNum (coreX (f src)) (coreY (f src)) false]
      [(placeNum (coreX (f src)) (coreY (f src)) false, 0)]

/-! ### Routing tables (R239, R261) -/

/-- R237: the ports of a router towards its neighbours. -/
inductive Port where
  | n | s | e | w
  deriving DecidableEq, Repr

/-- The router behind a port. -/
def Port.next (p : Port) (c : Nat) : Option Nat :=
  let x := coreX c
  let y := coreY c
  match p with
  | .n => if 0 < y then some (coreAt x (y - 1)) else none
  | .s => if y < 31 then some (coreAt x (y + 1)) else none
  | .e => if x < 23 then some (coreAt (x + 1) y) else none
  | .w => if 0 < x then some (coreAt (x - 1) y) else none

/-- R239: a hop in the first direction of a rule (west, or east on VC 2) must not follow a hop in another. -/
def Port.allowed (p : Port) (eastFirst turned : Bool) : Bool := !turned || p != (if eastFirst then .e else .w)

/-- R261: the order of preference of a router's outputs: y, then x, then N, S, E, W. -/
def portOrder (c dst : Nat) : List Port :=
  (if coreY dst < coreY c then [.n] else if coreY c < coreY dst then [.s] else []) ++
    (if coreX dst < coreX c then [.w] else if coreX c < coreX dst then [.e] else []) ++ [.n, .s, .e, .w]

/-- R239, R261: the fewest hops, and then seams, from a router to another for a packet that has or has not taken a hop out
of the first direction of its rule. -/
def State.hopsFrom (s : State) (eastFirst turned : Bool) (src dst : Nat) : Option (Nat × Nat) :=
  let dead := s.deadRouters
  let f (c : Nat) : Nat := if eastFirst then mirror c else c
  if dead.contains src || dead.contains dst then none
  else if dead.isEmpty then
    if turned && decide (coreX (f dst) < coreX (f src)) then none else s.route eastFirst src dst
  else
    let p := placeNum (coreX (f src)) (coreY (f src)) turned
    layers (dead.map f) (f dst) 1600 0 [p] [(p, 0)]

/-- R239, R261: a router's entry for a destination: the first output in the order of preference that begins a path with
the fewest hops and, among those, the fewest seams. -/
def State.outPort (s : State) (eastFirst turned : Bool) (c dst : Nat) : Option Port :=
  match s.hopsFrom eastFirst turned c dst with
  | some (h + 1, z) =>
    (portOrder c dst).find? fun p =>
      match p.next c with
      | some d =>
        let seam := if coreX c = coreX d then seamY (coreY c) (coreY d) else seamX (coreX c) (coreX d)
        let t := turned || p != (if eastFirst then .e else .w)
        p.allowed eastFirst turned && (s.hopsFrom eastFirst t d dst).any fun r => r.1 == h && r.2 + seam == z
      | none => false
  | _ => none

/-- The routers of a packet's path, from its source router on. -/
def State.pathFrom (s : State) (eastFirst : Bool) (dst : Nat) : Nat → Bool → Nat → List Nat
  | 0, _, c => [c]
  | fuel + 1, turned, c =>
    match s.outPort eastFirst turned c dst with
    | some p =>
      c :: s.pathFrom eastFirst dst fuel (turned || p != (if eastFirst then .e else .w)) ((p.next c).getD c)
    | none => [c]

def State.path (s : State) (eastFirst : Bool) (src dst : Nat) : List Nat := s.pathFrom eastFirst dst 1600 false src

/-- R240: a destination is cut off when either way is. -/
def State.cutOff (s : State) (src dst : Nat) : Bool := (s.route false src dst).isNone || (s.route true dst src).isNone

/-- R380, R291: the routers at which an HBM stack or the host interface attaches. -/
def tileRouters (dpa : Word) : List Nat :=
  if bits dpa 44 2 = 2 then [coreAt 11 0, coreAt 12 0]
  else
    let st := bits dpa 12 3
    if st < 4 then [coreAt (6 * st + 2) 0, coreAt (6 * st + 3) 0]
    else [coreAt (6 * st - 22) 31, coreAt (6 * st - 21) 31]

/-- R240: a request from a core to an HBM tile or to the host interface finds a way. -/
def State.tileReach (s : State) (c : Nat) (dpa : Word) : Bool := (tileRouters dpa).any fun t => !s.cutOff c t

/-- R237, R239: what a routing table is indexed by: a core, the router of an HBM tile or of the host interface, a panel
link and the half of its traffic (R380). -/
inductive Dest where
  | core (c : Nat)
  | tile (router : Nat)
  | link (port : Nat) (odd : Bool)
  deriving DecidableEq, Repr

/-- R380: the two routers of a panel link port (0 N, 1 E, 2 S, 3 W), by the bit that chooses between them. -/
def linkRouter (port : Nat) (odd : Bool) : Nat :=
  match port with
  | 0 => if odd then coreAt 13 0 else coreAt 10 0
  | 1 => if odd then coreAt 23 16 else coreAt 23 15
  | 2 => if odd then coreAt 12 31 else coreAt 11 31
  | _ => if odd then coreAt 0 16 else coreAt 0 15

/-- R237, R291, R380: the router at which a destination hangs. -/
def Dest.router : Dest → Nat
  | .core c => c
  | .tile r => r
  | .link p odd => linkRouter p odd

/-- R239: what a routing-table entry says: the router's own NI, tile or link, an output port, or cut off. -/
inductive TableEntry where
  | here
  | port (p : Port)
  | cutOff
  deriving DecidableEq, Repr

/-- R239: the entry of a router's table (of VC 2 with `eastFirst`) for a destination. -/
def State.tableEntry (s : State) (eastFirst : Bool) (router : Nat) (d : Dest) : TableEntry :=
  if router = d.router ∧ !s.deadRouters.contains router then .here
  else
    match s.outPort eastFirst false router d.router with
    | some p => .port p
    | none => .cutOff

/-! ### Names -/

/-- R235: what a name resolves to; a core of another die has a number above 1023. -/
inductive NameRes where
  | bad
  | hit (dst : Nat)
  | away (dst : Nat)
  | unmapped (ret cut : Bool)
  | frozen
  | miss
  deriving DecidableEq, Repr

/-- R381, R382: a core of another die, from its place in a name-table entry, and the die and core it stands for. -/
def farCore (e : Word) : Nat := 1024 * (bits e 16 6 + 1) + coreAt (bits e 0 8) (bits e 8 8)
def farDie (d : Nat) : Nat := d / 1024 - 1

/-- R382: where a member of the panel set stands. -/
def State.dieAt (s : State) (die : Nat) : Option Nat := (s.fw.members.find? fun m => m.2 == die).map (·.1)

/-- R261, R382: the ports by which a packet for another position may leave a die, in the order of preference: every hop
west comes first. -/
def portsTo (here there : Nat) : List Nat :=
  if there % 8 < here % 8 then [3]
  else
    (if there / 8 < here / 8 then [0] else if here / 8 < there / 8 then [2] else []) ++
      if here % 8 < there % 8 then [1] else []

def State.link (s : State) (p : Nat) : Link := Tab.at s.links p Link.reset

def State.modLink (s : State) (p : Nat) (f : Link → Link) : State := { s with links := Tab.put s.links p (f (s.link p)) }

/-- R380 to R382: the panel port by which packets for another die of the panel set leave. -/
def State.portTo (s : State) (die : Nat) : Option Nat :=
  (s.dieAt die).bind fun p => (portsTo s.fw.pos p).find? fun q => (s.link q).st != .down

/-- R382, R354: a die that no packet reaches: one that has died since boot, or to which no link leads. -/
def State.dieCut (s : State) (die : Nat) : Bool := s.fw.lost.contains die || (s.portTo die).isNone

/-- R380: which of a port's two routers carries the traffic for a core. -/
def oddHalf (port dst : Nat) : Bool := if port = 0 ∨ port = 2 then coreX dst % 2 == 1 else coreY dst % 2 == 1

/-- R240, R380: a core of another die is cut off: no up link leads to it, or the router of the link is out of reach. -/
def State.awayCut (s : State) (c : Nat) (e : Word) : Bool :=
  match s.portTo (bits e 16 6) with
  | none => true
  | some p => s.cutOff c (linkRouter p (oddHalf p (coreAt (bits e 0 8) (bits e 8 8))))

/-- R261, R380, R382: hops, seams and link crossings from a core to one of another die; a crossing is a hop. -/
def panelWay (dst there : Nat) : Nat → Nat → Nat → Option (Nat × Nat × Nat)
  | 0, _, _ => none
  | fuel + 1, here, c =>
    let on (d : Nat) : Nat × Nat :=
      (dist (coreX c) (coreX d) + dist (coreY c) (coreY d), seamsX (coreX c) (coreX d) + seamsY (coreY c) (coreY d))
    match portsTo here there with
    | [] => if here = there then some ((on dst).1, (on dst).2, 0) else none
    | p :: _ =>
      let odd := oddHalf p dst
      let (h, z) := on (linkRouter p odd)
      let next := match p with
        | 0 => here - 8
        | 1 => here + 1
        | 2 => here + 8
        | _ => here - 1
      (panelWay dst there fuel next (linkRouter ((p + 2) % 4) odd)).map fun r => (h + 1 + r.1, z + r.2.1, 1 + r.2.2)

/-- R241, R380: the way to a core, of this die or of another, or from another die to a core of this one. -/
def State.way (s : State) (src dst : Nat) : Option (Nat × Nat × Nat) :=
  if 1024 ≤ src then
    match s.dieAt (farDie src) with
    | some p => if s.dieCut (farDie src) then none else panelWay dst s.fw.pos 16 p (src % 1024)
    | none => none
  else if dst < 1024 then (s.route false src dst).map fun r => (r.1, r.2, 0)
  else
    match s.dieAt (farDie dst) with
    | some p => if s.dieCut (farDie dst) then none else panelWay (dst % 1024) p 16 s.fw.pos src
    | none => none

/-- R369: the freeze of a task that is evicted does not hold the task's own cores on this die, nor the NI of a core that it
has left (log entry 25). -/
def State.ownFreeze (s : State) (c : Nat) : Bool :=
  match (s.core c).task with
  | none => true
  | some t => match (s.task t).st with
    | .draining _ | .checkpointing | .killing => true
    | _ => false

/-- R234, R235, R240: what a cached entry says to a core; of an unmapped entry the cache keeps RET, and bit 40 for a walk
that was cut off (State.walkEntry). -/
def State.entryRes (s : State) (c : Nat) (e : Word) : NameRes :=
  if !e.getLsbD 63 || bits e 22 39 != 0 then .unmapped (e.getLsbD 61) (!e.getLsbD 63 && e.getLsbD 40)
  else if e.getLsbD 62 && !(bits e 16 6 == s.fw.die && s.ownFreeze c) then .frozen
  else if bits e 16 6 ≠ s.fw.die then (if s.awayCut c e then .unmapped false true else .away (farCore e))
  else if bits e 0 8 > 23 ∨ bits e 8 8 > 31 then .unmapped false false
  else
    let d := coreAt (bits e 0 8) (bits e 8 8)
    if s.cutOff c d then .unmapped false true else .hit d

/-- R233: a name of the sender's own die that lies outside the frame. -/
def State.outOfFrame (s : State) (c : Nat) (n : BitVec 16) : Bool :=
  let r := s.recOf c
  decide (bits n 10 6 = r.die) && (decide (r.fw ≤ bits n 0 5) || decide (r.fh ≤ bits n 5 5))

def cachedName (cache : List (BitVec 16 × Word)) (n : BitVec 16) : Option Word :=
  (cache.find? fun p => p.1 == n).map (·.2)

/-- R235: a name in frame, as the name cache of a core knows it. -/
def State.lookup (s : State) (c : Nat) (n : BitVec 16) : NameRes :=
  match cachedName (s.core c).ncache n with
  | some e => s.entryRes c e
  | none => .miss

/-- R235: a name, as the name cache of a core knows it. -/
def State.resolve (s : State) (c : Nat) (n : BitVec 16) : NameRes :=
  if s.outOfFrame c n then .bad else s.lookup c n

/-- R235: least-recently-used replacement: a name that is used moves to the front. -/
def State.useName (s : State) (c : Nat) (n : BitVec 16) : State :=
  s.modCore c fun x =>
    match cachedName x.ncache n with
    | some e => { x with ncache := (n, e) :: x.ncache.filter fun p => p.1 != n }
    | none => x

/-- R235, R240: FINFO of 0x0C. -/
def nameInfo (ret cut : Bool) : Word := w64 (b2n ret + 2 * b2n cut)

/-- R235, R240: the precise 0x0C that a name shows at issue, with its FINFO. -/
def NameRes.fault : NameRes → Option Word
  | .bad => some 0
  | .unmapped ret cut => some (nameInfo ret cut)
  | _ => none

/-- Schedules an event after a nominal time and the outside's further delay. -/
def State.laterX (s : State) (d : Nat) (i : Instr) : State :=
  let (e, s) := s.takeExtra
  s.later (d + e) i

/-- Schedules an event that the spec only says comes within `hi` P-cycles, and not before `lo`; the outside's delay
chooses when. -/
def State.laterWithin (s : State) (lo hi : Nat) (i : Instr) : State :=
  let (e, s) := s.takeExtra
  s.later (Nat.max lo (Nat.min (lo + e) hi)) i

/-- R235, R236: a walk of the name table starts; the device does not bound its time. -/
def State.newWalk (s : State) (c : Nat) (n : BitVec 16) : State :=
  (s.modCore c fun x => { x with walks := x.walks ++ [n] }).laterX 1 (.nameWalkComplete c n.toNat)

/-- R235: the walk that a miss needs: the one that is under way for the name, or a new one. -/
def State.startWalk (s : State) (c : Nat) (n : BitVec 16) : State :=
  if (s.core c).walks.contains n then s else s.newWalk c n

/-- R234, R240: the entry a walk finds, as the cache keeps it: of one with V = 0 only RET; one that was cut off is unmapped
with bit 40. -/
def State.walkEntry (s : State) (c : Nat) (n : BitVec 16) : Word :=
  let dpa := (s.core c).namebase.setWidth 64 <<< 16
  if s.tileReach c dpa then
    let e := w64 (s.word (dpaKey ((dpa.toNat + 8 * n.toNat))) 8)
    if e.getLsbD 63 then e else e &&& w64 (2 ^ 61)
  else w64 (2 ^ 40)

/-! ### The end of a node's work (R319) -/

/-- The work of a node of a core ends d P-cycles from now with a status. -/
def State.nodeEndIn (s : State) (d c n : Nat) (status detail : BitVec 8) : State :=
  if ((s.core c).node n).st = .free then s
  else
  let s := s.modCore c fun x => x.modNode n fun nd =>
    { nd with ending := true, endAt := s.now + d, status := status, detail := detail }
  if d = 0 then s.soon (.nodeComplete c n) else s.later d (.nodeComplete c n)

def State.nodeEnd (s : State) (c n : Nat) (status detail : BitVec 8) : State := s.nodeEndIn 0 c n status detail

/-! ### Packets (R313) -/

/-- R313: the next sequence number from one core to another. -/
def State.takeSeq (s : State) (src dst : Nat) : BitVec 16 × State :=
  let q := Tab.at (s.core src).seqTo dst 0
  (q, s.modCore src fun x => { x with seqTo := Tab.put x.seqTo dst (q + 1) })

/-- A slot number of a packet whose slot or node is no more. -/
def noSlot : Nat := 15

/-- No agent of this die waits for the packet's answer: its task has left, or it comes from another die. -/
def Packet.orphan (p : Packet) : Bool := p.slot == noSlot || decide (1024 ≤ p.src)

/-- R313: packets that write at their destination. -/
def Cargo.writes : Cargo → Bool
  | .access a => a.kind != .load
  | .agRead _ _ _ _ _ _ _ _ => false
  | _ => true

/-- R381: a frame leaves on a link, and stays in its 1,024-frame replay buffer. -/
def Link.send (l : Link) (pkt : Nat) : Link :=
  { l with
    txSeq := l.txSeq + 1
    replay := (l.replay ++ [(l.txSeq, pkt)]).drop ((l.replay.length + 1) - 1024) }

/-- R381: a packet for another die leaves by its link; while the link retrains it waits. -/
def State.sendFrame (s : State) (die pkt : Nat) : State :=
  match s.portTo die with
  | some p => if (s.link p).st = .up then s.modLink p fun l => l.send pkt else s
  | none => s

/-- Stages a packet whose name resolved to `dst` (769 where a name is awaited); its number is answered. -/
def State.stage (s : State) (src dst slot : Nat) (pc : BitVec 14) (name : BitVec 16) (g : Cargo) : Nat × State :=
  let id := s.nextPkt
  let (q, s) := if g.writes && dst != 769 then s.takeSeq src dst else (0, s)
  let s : State := { s with
    nextPkt := id + 1
    packets := s.packets ++ [⟨id, src, dst, slot, pc, name, q, g, false, false⟩] }
  (id, if 1024 ≤ dst then s.sendFrame (farDie dst) id else s)

def State.packet? (s : State) (id : Nat) : Option Packet := s.packets.find? fun p => p.id == id

def State.modPacket (s : State) (id : Nat) (f : Packet → Packet) : State :=
  { s with packets := updFirst (fun p => p.id == id) f s.packets }

def State.dropPacket (s : State) (id : Nat) : State := { s with packets := dropFirst (fun p => p.id == id) s.packets }

/-- R313: what the destination does with a packet that writes: perform it, acknowledge a duplicate again, or keep it
for its turn. -/
inductive SeqFate where
  | perform | duplicate | early
  deriving DecidableEq, Repr

def State.seqFate (s : State) (p : Packet) : SeqFate :=
  if !p.cargo.writes then .perform
  else
    let d := p.seq - Tab.at (s.core p.dst).seqFrom p.src 0
    if d = 0 then .perform else if decide (d.toNat < 32768) then .early else .duplicate

/-- The event by which a packet arrives. -/
def Packet.arrival (p : Packet) : Instr :=
  match p.cargo with
  | .access _ | .agWrite _ _ _ _ | .agRead _ _ _ _ _ _ _ _ => .globalRequestArrive p.id
  | .release _ _ _ => .remoteRelease p.id
  | .give id => .giveAdmission p.src id
  | .message _ _ _ _ | .notify _ _ _ _ _ => .messageArrive p.id

/-- R266: work joins those that wait at the back port of a bank. -/
def State.backPort (s : State) (bank : Nat) (d : Due) : State := { s with back := s.back ++ [(bank, d)] }

/-- R266: the bank whose back port a packet needs. -/
def State.packetBank (s : State) (p : Packet) : Option Nat :=
  match p.cargo with
  | .access a => some (bmIndex ((s.core p.dst).bm (eaEntry a.ea)))
  | .agWrite _ ea _ _ => some (bmIndex ((s.core p.dst).bm (eaEntry ea)))
  | .agRead _ _ _ ea _ _ _ _ => some (bmIndex ((s.core p.dst).bm (eaEntry ea)))
  | _ => none

/-- A packet (of a memory request) that has reached its destination does its work there: at once, or through the back port of its bank. -/
def State.deliver (s : State) (p : Packet) : State :=
  match s.packetBank p with
  | some b => s.backPort b (.ev p.arrival)
  | none => s.soon p.arrival

/-- R313: a packet ahead of the expected number waits in the 16-entry reorder buffer, or, when it is full, is sent
again later. -/
def State.park (s : State) (p : Packet) : State :=
  let x := s.core p.dst
  if x.reorder.contains p.id then s
  else if x.reorder.length < 16 then s.modCore p.dst fun x => { x with reorder := x.reorder ++ [p.id] }
  else s.laterX 1 (.packetRetransmit p.id)

/-- R313: the expected number advances, and a packet that waited for it arrives. -/
def State.accepted (s : State) (p : Packet) : State :=
  if p.cargo.writes then
    let s := s.modCore p.dst fun x => { x with seqFrom := Tab.put x.seqFrom p.src (p.seq + 1) }
    match (s.core p.dst).reorder.filterMap s.packet? |>.find? fun q => q.src == p.src && q.seq == p.seq + 1 with
    | some q =>
      (s.modCore p.dst fun x => { x with reorder := x.reorder.filter fun i => i != q.id }).deliver q
    | none => s
  else s

end Sys2Proof.Machine
end

