-- ==== Sys2Proof/Machine/Float.lean ====
section
/-! DEFINITION. Exact arithmetic and rounding: the floating-point formats (R31 to R33), rounding (R36, R38, R39, R43),
integers (R34, R44, R45) and the conversions of R42. -/

namespace Sys2Proof.Machine

/-! ### Exact values -/

/-- The exact magnitude m × 2^e with a sign; with `sticky` the magnitude lies strictly between m × 2^e and
(m + 1) × 2^e. -/
structure Ex where
  neg : Bool
  m : Nat
  e : Int
  sticky : Bool
  deriving DecidableEq, Repr

/-- A floating-point datum before it is rounded. -/
inductive FVal where
  | nan (signalling : Bool)
  | inf (neg : Bool)
  | fin (x : Ex)
  deriving DecidableEq, Repr

/-- The number of significant bits of m. -/
def bitLen (m : Nat) : Nat := if m = 0 then 0 else Nat.log2 m + 1

def pow2 (n : Nat) : Nat := 1 <<< n

def FVal.zero (neg : Bool) : FVal := .fin ⟨neg, 0, 0, false⟩

def FVal.isNan : FVal → Bool
  | .nan _ => true
  | _ => false

def FVal.isSnan : FVal → Bool
  | .nan s => s
  | _ => false

def FVal.isInf : FVal → Bool
  | .inf _ => true
  | _ => false

def FVal.isZero : FVal → Bool
  | .fin x => x.m == 0 && !x.sticky
  | _ => false

def FVal.sign : FVal → Bool
  | .nan _ => false
  | .inf n => n
  | .fin x => x.neg

def FVal.negate : FVal → FVal
  | .nan s => .nan s
  | .inf n => .inf !n
  | .fin x => .fin { x with neg := !x.neg }

/-- An integer as an exact value. -/
def exOfInt (i : Int) : Ex := ⟨decide (i < 0), i.natAbs, 0, false⟩

/-- x × 2^k, exactly. -/
def Ex.scale (x : Ex) (k : Int) : Ex := { x with e := x.e + k }

/-- x × 2^k as an integer, for an exact x that is a multiple of 2^-k. -/
def Ex.fixed (x : Ex) (k : Nat) : Int :=
  let sh := x.e + k
  let n := if 0 ≤ sh then x.m * pow2 sh.toNat else x.m / pow2 (-sh).toNat
  if x.neg then -(n : Int) else n

/-! ### Formats (R31) -/

/-- The parameters of a floating-point format: container bits, mantissa bits, bias. -/
structure FForm where
  width : Nat
  mant : Nat
  bias : Nat
  deriving DecidableEq, Repr

/-- R31, by format tag; any other tag reads as FP32. -/
def fform (ft : BitVec 4) : FForm :=
  match ft.toNat with
  | 1 => ⟨16, 7, 127⟩
  | 2 => ⟨16, 10, 15⟩
  | 3 => ⟨8, 3, 7⟩
  | 4 => ⟨8, 2, 15⟩
  | _ => ⟨32, 23, 127⟩

def FForm.expBits (f : FForm) : Nat := f.width - 1 - f.mant

/-- The exponent of the smallest normal value. -/
def FForm.emin (f : FForm) : Int := 1 - (f.bias : Int)

/-- R31: the largest finite magnitude. -/
def maxFinite (ft : BitVec 4) : Ex :=
  match ft.toNat with
  | 1 => ⟨false, 255, 120, false⟩
  | 2 => ⟨false, 2047, 5, false⟩
  | 3 => ⟨false, 14, 5, false⟩
  | 4 => ⟨false, 7, 13, false⟩
  | _ => ⟨false, 16777215, 104, false⟩

/-- R31, R32: the canonical NaN. -/
def canonNan (ft : BitVec 4) : Nat :=
  match ft.toNat with
  | 1 => 0x7FC0
  | 2 => 0x7E00
  | 3 => 0x7F
  | 4 => 0x7E
  | _ => 0x7FC00000

/-- R31, R32: the value of a container. -/
def unpackF (ft : BitVec 4) (n : Nat) : FVal :=
  let f := fform ft
  let m := n % 2 ^ f.mant
  let e := n / 2 ^ f.mant % 2 ^ f.expBits
  let s := nbit n (f.width - 1)
  if ft = 3 then
    if e = 15 ∧ m = 7 then .nan false
    else if e = 0 then .fin ⟨s, m, f.emin - f.mant, false⟩
    else .fin ⟨s, m + 2 ^ f.mant, (e : Int) - f.bias - f.mant, false⟩
  else if e = 2 ^ f.expBits - 1 then
    if m = 0 then .inf s else .nan (ft != 4 && !nbit m (f.mant - 1))
  else if e = 0 then .fin ⟨s, m, f.emin - f.mant, false⟩
  else .fin ⟨s, m + 2 ^ f.mant, (e : Int) - f.bias - f.mant, false⟩

/-- The container of a value that lies in the format's grid (R31); a NaN gives the canonical NaN. -/
def packF (ft : BitVec 4) (v : FVal) : Nat :=
  let f := fform ft
  let sgn (s : Bool) := if s then 2 ^ (f.width - 1) else 0
  match v with
  | .nan _ => canonNan ft
  | .inf s => if ft = 3 then canonNan ft else sgn s + (2 ^ f.expBits - 1) * 2 ^ f.mant
  | .fin x =>
    if x.m = 0 then sgn x.neg
    else
      let q := f.emin - f.mant
      let top := x.e + bitLen x.m - 1
      if top < f.emin then sgn x.neg + ((⟨false, x.m, x.e - q, false⟩ : Ex).fixed 0).toNat
      else
        let frac := ((⟨false, x.m, x.e - top + f.mant, false⟩ : Ex).fixed 0).toNat
        sgn x.neg + (top + f.bias).toNat * 2 ^ f.mant + (frac - 2 ^ f.mant)

/-- The value of an FP32 image. -/
def f32 (b : BitVec 32) : FVal := unpackF 0 b.toNat

/-- The FP32 image of a value of any format (R30). -/
def image (v : FVal) : BitVec 32 := BitVec.ofNat 32 (packF 0 v)

/-! ### Magnitudes -/

/-- |a| < |b| for exact values; a sticky value lies just above its m × 2^e. -/
def magLt (a b : Ex) : Bool :=
  if b.m = 0 then false
  else if a.m = 0 then true
  else
    let ta := a.e + bitLen a.m
    let tb := b.e + bitLen b.m
    if ta < tb then true
    else if tb < ta then false
    else
      let e := if a.e < b.e then a.e else b.e
      let x := a.m * pow2 (a.e - e).toNat
      let y := b.m * pow2 (b.e - e).toNat
      decide (x < y) || (x == y && !a.sticky && b.sticky)

/-- a + b, exactly (neither sticky); the sign of a zero sum is left to R33. -/
def exAdd (a b : Ex) : Ex :=
  let e := if a.e < b.e then a.e else b.e
  let x : Int := (a.m * pow2 (a.e - e).toNat : Nat)
  let y : Int := (b.m * pow2 (b.e - e).toNat : Nat)
  let z := (if a.neg then -x else x) + (if b.neg then -y else y)
  ⟨decide (z < 0), z.natAbs, e, false⟩

def exMul (a b : Ex) : Ex := ⟨a.neg != b.neg, a.m * b.m, a.e + b.e, false⟩

/-- a / b for b ≠ 0 to at least n significant bits. -/
def exDiv (n : Nat) (a b : Ex) : Ex :=
  let k := n + bitLen b.m
  let num := a.m * pow2 k
  ⟨a.neg != b.neg, num / b.m, a.e - b.e - k, num % b.m != 0⟩

/-- The integer square root by Newton's rule from above. -/
def isqrtFrom : Nat → Nat → Nat → Nat
  | 0, _, x => x
  | k + 1, n, x =>
    let y := (x + n / x) / 2
    if y < x then isqrtFrom k n y else x

def isqrt (n : Nat) : Nat := if n = 0 then 0 else isqrtFrom (bitLen n + 8) n (pow2 ((bitLen n + 1) / 2))

/-- √a for a ≥ 0 to at least n significant bits. -/
def exSqrt (n : Nat) (a : Ex) : Ex :=
  let k := 2 * n + (if a.e % 2 = 0 then 0 else 1)
  let m := a.m * pow2 k
  let r := isqrt m
  ⟨false, r, (a.e - k) / 2, r * r != m⟩

/-! ### Rounding (R36 to R39, R43) -/

/-- R36: the rounding modes; SR is 4. -/
inductive Rm where
  | rne | rtz | rup | rdn | sr
  deriving DecidableEq, Repr

/-- R36, R37: a mode by its number. -/
def rmOf (n : Nat) : Rm :=
  match n with
  | 1 => .rtz
  | 2 => .rup
  | 3 => .rdn
  | 4 => .sr
  | _ => .rne

/-- R38: one round of GLINT. -/
def glintRound (z : Word) : Word :=
  let z := (z ^^^ (z >>> 32)) * 0xA3B195C42D7F61E9#64
  (z ^^^ (z >>> 29)) * 0xC6E41B9357D2A84B#64

/-- R38: GLINT. -/
def glint (key index : Word) : BitVec 32 :=
  (glintRound (glintRound (glintRound (index ^^^ key))) >>> 32).setWidth 32

/-- What a rounding needs: its mode, its saturation option, and the key and index of SR (R39). -/
structure Rnd where
  rm : Rm
  sat : Bool
  key : Word
  idx : Word
  deriving DecidableEq, Repr

/-- R57, R110: RNE without saturation. -/
def rndNe : Rnd := ⟨.rne, false, 0, 0⟩

/-- Does the magnitude with integer part `lo`, remainder rem / 2^d (plus a little with `sticky`) round up? R36, R39. -/
def roundsUp (r : Rnd) (neg : Bool) (lo rem d : Nat) (sticky : Bool) : Bool :=
  let inexact := rem != 0 || sticky
  match r.rm with
  | .rne =>
    let h := 2 * rem
    decide (h > pow2 d) || (h == pow2 d && (sticky || lo % 2 == 1))
  | .rtz => false
  | .rup => inexact && !neg
  | .rdn => inexact && neg
  | .sr =>
    let u := (glint r.key r.idx).toNat / 256
    decide (rem * 16777216 > u * pow2 d) || (sticky && rem * 16777216 == u * pow2 d)

/-- The multiple of 2^q that x rounds to, and whether it is inexact. -/
def roundAt (r : Rnd) (q : Int) (x : Ex) : Ex × Bool :=
  if q ≤ x.e then (⟨x.neg, x.m, x.e, false⟩, x.sticky)
  else
    let d := (q - x.e).toNat
    if d > bitLen x.m + 26 then
      let up := match r.rm with
        | .rup => !x.neg
        | .rdn => x.neg
        | .sr => (glint r.key r.idx).toNat / 256 == 0
        | _ => false
      (⟨x.neg, if up && (x.m != 0 || x.sticky) then 1 else 0, q, false⟩, x.m != 0 || x.sticky)
    else
      let lo := x.m / pow2 d
      let rem := x.m % pow2 d
      (⟨x.neg, if roundsUp r x.neg lo rem d x.sticky then lo + 1 else lo, q, false⟩, rem != 0 || x.sticky)

/-- R43: RoundFloat; SR at FP32 rounds as RNE (R36). -/
def roundFloat (ft : BitVec 4) (r : Rnd) (v : FVal) : FVal × Flags :=
  let r := if ft = 0 ∧ r.rm = .sr then { r with rm := .rne } else r
  match v with
  | .nan s => (.nan false, flagIf s fNV)
  | .inf n =>
    if r.sat then (.fin { maxFinite ft with neg := n }, fSAT)
    else if ft = 3 then (.nan false, 0)
    else (.inf n, 0)
  | .fin x =>
    let f := fform ft
    let top := x.e + bitLen x.m - 1
    let q := if top < f.emin then f.emin - f.mant else top - f.mant
    let (y, inexact) := roundAt r q x
    if magLt (maxFinite ft) y then
      if r.sat then (.fin { maxFinite ft with neg := x.neg }, fSAT)
      else if ft = 3 then (.nan false, fOF ||| fNX)
      else if r.rm = .rtz || (r.rm = .rup && x.neg) || (r.rm = .rdn && !x.neg) then
        (.fin { maxFinite ft with neg := x.neg }, fOF ||| fNX)
      else (.inf x.neg, fOF ||| fNX)
    else
      (.fin y, flagIf inexact fNX ||| flagIf (inexact && decide (top < f.emin)) fUF)

/-! ### Sums and products (R32, R33, R106) -/

/-- The exact value of a + b with R33's zero sign under the mode, and the NV of ∞ - ∞ and signalling NaNs. -/
def addF (rm : Rm) (a b : FVal) : FVal × Flags :=
  match a, b with
  | .nan s, y => (.nan false, flagIf (s || y.isSnan) fNV)
  | x, .nan s => (.nan false, flagIf (s || x.isSnan) fNV)
  | .inf p, .inf q => if p = q then (.inf p, 0) else (.nan false, fNV)
  | .inf p, .fin _ => (.inf p, 0)
  | .fin _, .inf q => (.inf q, 0)
  | .fin x, .fin y =>
    let z := exAdd x y
    if z.m = 0 then
      let n := if x.m = 0 ∧ y.m = 0 ∧ x.neg = y.neg then x.neg else rm == .rdn
      (.fin ⟨n, 0, 0, false⟩, 0)
    else (.fin z, 0)

/-- The exact product, with the NV of 0 × ∞ and signalling NaNs. -/
def mulF (a b : FVal) : FVal × Flags :=
  match a, b with
  | .nan s, y => (.nan false, flagIf (s || y.isSnan) fNV)
  | x, .nan s => (.nan false, flagIf (s || x.isSnan) fNV)
  | .inf p, .inf q => (.inf (p != q), 0)
  | .inf p, .fin y => if y.m = 0 then (.nan false, fNV) else (.inf (p != y.neg), 0)
  | .fin x, .inf q => if x.m = 0 then (.nan false, fNV) else (.inf (q != x.neg), 0)
  | .fin x, .fin y => (.fin (exMul x y), 0)

/-- R106: ±(a × b) ± c, exactly. -/
def fmaF (rm : Rm) (np na : Bool) (a b c : FVal) : FVal × Flags :=
  let (p, f1) := mulF a b
  let p := if np then p.negate else p
  let c := if na then c.negate else c
  let (z, f2) := addF rm p c
  (z, f1 ||| f2)

/-! ### Comparison (R107, R108) -/

/-- The order of FP32 images that are not NaN, as integers; ±0 are equal. -/
def f32Key (b : BitVec 32) : Int :=
  let m : Nat := b.toNat % 2 ^ 31
  if b.getLsbD 31 then -(m : Int) else (m : Int)

def f32Nan (b : BitVec 32) : Bool := decide (b.toNat % 2 ^ 31 > 0x7F800000)

/-- R32: a signalling FP32 NaN. -/
def f32Snan (b : BitVec 32) : Bool := f32Nan b && !b.getLsbD 22

def nanImage : BitVec 32 := 0x7FC00000

/-- R107: FMIN (or FMAX) of FP32 images, with `prop` the form that lets a NaN through. -/
def minMaxF (isMax prop : Bool) (a b : BitVec 32) : BitVec 32 × Flags :=
  let fl := flagIf (f32Snan a || f32Snan b) fNV
  if f32Nan a && f32Nan b then (nanImage, fl)
  else if f32Nan a then (if prop then nanImage else b, fl)
  else if f32Nan b then (if prop then nanImage else a, fl)
  else
    let less := decide (f32Key a < f32Key b) || (decide (f32Key a = f32Key b) && a.getLsbD 31)
    (if less != isMax then a else b, fl)

/-- R108: the truth of an FCOND on FP32 images, and NV. -/
def cmpF (cond : Nat) (a b : BitVec 32) : Bool × Flags :=
  let un := f32Nan a || f32Nan b
  let x := f32Key a
  let y := f32Key b
  let r := match cond % 8 with
    | 0 => !un && decide (x = y)
    | 1 => un || decide (x ≠ y)
    | 2 => !un && decide (x < y)
    | 3 => !un && decide (y ≤ x)
    | 4 => !un && decide (x ≤ y)
    | 5 => !un && decide (y < x)
    | 6 => un
    | _ => !un
  (r, flagIf (f32Snan a || f32Snan b || (nbit cond 3 && un)) fNV)

/-! ### Integers (R34, R44, R45) -/

/-- R34: the range of an integer format. -/
def intLo (ft : BitVec 4) : Int :=
  match ft.toNat with
  | 6 => -128
  | 7 | 10 => 0
  | 12 => -32768
  | _ => -2147483648

def intHi (ft : BitVec 4) : Int :=
  match ft.toNat with
  | 6 => 127
  | 7 => 255
  | 10 => 4294967295
  | 12 => 32767
  | _ => 2147483647

/-- R28: the width of an integer format. -/
def intWidth (ft : BitVec 4) : Nat :=
  match ft.toNat with
  | 6 | 7 => 8
  | 12 => 16
  | _ => 32

/-- R34: whether an integer format is unsigned. -/
def intUnsigned (ft : BitVec 4) : Bool := ft == 7 || ft == 10

/-- R44: IntNarrow. -/
def intNarrow (ft : BitVec 4) (v : Int) : Int × Flags :=
  if v < intLo ft then (intLo ft, fSAT) else if intHi ft < v then (intHi ft, fSAT) else (v, 0)

/-- R44: ToInt, SR treated as RNE. -/
def toIntF (ft : BitVec 4) (r : Rnd) (v : FVal) : Int × Flags :=
  let r := if r.rm = .sr then { r with rm := .rne } else r
  match v with
  | .nan _ => (0, fNV)
  | .inf n => (if n then intLo ft else intHi ft, fNV)
  | .fin x =>
    if x.e + bitLen x.m > 64 ∧ x.m ≠ 0 then (if x.neg then intLo ft else intHi ft, fNV)
    else
      let (y, inexact) := roundAt r 0 x
      let i := y.fixed 0
      if i < intLo ft then (intLo ft, fNV)
      else if intHi ft < i then (intHi ft, fNV)
      else (i, flagIf inexact fNX)

/-- R45: Requantise. -/
def requantise (ft : BitVec 4) (v : Int) (sh : Nat) : Int × Flags :=
  let x : Ex := (exOfInt v).scale (-(Nat.min sh 31 : Nat))
  intNarrow ft ((roundAt rndNe 0 x).1.fixed 0)

/-- R138: an exact integer brought to a format, saturating or wrapping. -/
def reduceInt (ft : BitVec 4) (sat : Bool) (v : Int) : Int × Flags :=
  if sat then intNarrow ft v
  else
    let u := (Int.emod v (2 ^ intWidth ft : Nat)).toNat
    (if intUnsigned ft then (u : Int) else sextNat (intWidth ft) u, 0)

/-! ### Values by format (R28, R30, R42) -/

/-- A datum read from a lane or container: a float, an integer, or bits. -/
inductive Num where
  | flt (x : FVal)
  | int (v : Int)
  | raw (b : BitVec 32)
  deriving DecidableEq, Repr

def isFloatFt (ft : BitVec 4) : Bool := decide (ft.toNat ≤ 4)

def isIntFt (ft : BitVec 4) : Bool := ft == 6 || ft == 7 || ft == 8 || ft == 10 || ft == 12

/-- R30: the value a lane holds under a format. -/
def laneNum (ft : BitVec 4) (b : BitVec 32) : Num :=
  if isFloatFt ft then .flt (f32 b)
  else if isIntFt ft then .int (if intUnsigned ft then (b.toNat : Int) else b.toInt)
  else .raw b

/-- R28, R109: the value of a container of a format. -/
def contNum (ft : BitVec 4) (n : Nat) : Num :=
  if isFloatFt ft then .flt (unpackF ft n)
  else if isIntFt ft then
    let u := n % 2 ^ intWidth ft
    .int (if intUnsigned ft then (u : Int) else sextNat (intWidth ft) u)
  else .raw (BitVec.ofNat 32 (if ft = 9 then n % 65536 else n))

/-- R30, R130: the lane image of a value. -/
def Num.lane : Num → BitVec 32
  | .flt x => image x
  | .int v => BitVec.ofInt 32 v
  | .raw b => b

/-- R109: the g-register form of a value of a format. -/
def Num.scalar (ft : BitVec 4) : Num → Word
  | .flt x => w64 (packF ft x)
  | .int v => BitVec.ofInt 64 v
  | .raw b => b.setWidth 64

/-- R28, R150: the container of a value of a format. -/
def Num.cont (ft : BitVec 4) : Num → Nat
  | .flt x => packF ft x
  | .int v => (Int.emod v (2 ^ intWidth ft : Nat)).toNat
  | .raw b => if ft = 9 then b.toNat % 65536 else b.toNat

/-- R42: the conversion of a value to a format, one rounding; `sh` is the shift of R45 and applies to S32 sources. -/
def convert (dst : BitVec 4) (r : Rnd) (sh : Nat) (n : Num) : Num × Flags :=
  if isFloatFt dst then
    match n with
    | .flt x => let (y, f) := roundFloat dst r x; (.flt y, f)
    | .int v => let (y, f) := roundFloat dst r (.fin (exOfInt v)); (.flt y, f)
    | .raw b => (.raw b, 0)
  else if isIntFt dst then
    match n with
    | .flt x => let (v, f) := toIntF dst r x; (.int v, f)
    | .int v => let (u, f) := if sh = 0 then intNarrow dst v else requantise dst v sh; (.int u, f)
    | .raw b => (.raw b, 0)
  else
    match n with
    | .raw b => (.raw b, 0)
    | m => (.raw m.lane, 0)

/-- R42, R109: the copy of a value to its own format: a NaN becomes canonical, NV for a signalling one. -/
def copyNum (n : Num) : Num × Flags :=
  match n with
  | .flt (.nan s) => (.flt (.nan false), flagIf s fNV)
  | m => (m, 0)

/-- R150: the narrowing of a store: RoundFloat under FPCTL.RM, IntNarrow, or the bits; FP32 keeps its bits. A Z8 lane is
read as an unsigned 32-bit value (log entry 31). -/
def storeNarrow (ft : BitVec 4) (r : Rnd) (b : BitVec 32) : Nat × Flags :=
  if ft = 0 then (b.toNat, 0)
  else
    let (n, f) :=
      if isFloatFt ft then let (y, f) := roundFloat ft r (f32 b); (Num.flt y, f)
      else if isIntFt ft then
        match laneNum ft b with
        | .int v => let (u, f) := intNarrow ft v; (Num.int u, f)
        | n => (n, 0)
      else (Num.raw b, 0)
    (n.cont ft, f)

/-- R28: the container size in bytes; 8 for a KEYIDX pair. -/
def contSize (ft : BitVec 4) : Nat :=
  match ft.toNat with
  | 0 | 8 | 10 | 15 => 4
  | 1 | 2 | 9 | 12 => 2
  | 11 => 8
  | _ => 1

/-! ### KEYIDX (R35) -/

/-- A KEYIDX pair: its key as an FP32 image and its index. -/
structure Pair where
  key : BitVec 32
  idx : BitVec 32
  deriving DecidableEq, Repr

/-- R35: a ranks above b. -/
def ranksAbove (a b : Pair) : Bool :=
  let na := f32Nan a.key
  let nb := f32Nan b.key
  if na && nb then decide (a.idx.toNat < b.idx.toNat)
  else if nb then true
  else if na then false
  else decide (f32Key b.key < f32Key a.key) ||
    (decide (f32Key a.key = f32Key b.key) && decide (a.idx.toNat < b.idx.toNat))

/-- R35: neither ranks above the other. -/
def tiedPairs (a b : Pair) : Bool := !ranksAbove a b && !ranksAbove b a

end Sys2Proof.Machine
end

