-- ==== Sys2Proof/Machine/Quant.lean ====
section
/-! DEFINITION. The block formats: FQ4 (R46 to R50) and E8L (R51 to R56). -/

namespace Sys2Proof.Machine

/-! ### FQ4 (R46 to R49) -/

/-- R47: a group before it is packed: codes, down-shifts d0 to d7 in SH, scale SE and special value SV. -/
structure Fq4Params where
  se : Nat
  sh : Nat
  sv : Nat
  deriving DecidableEq, Repr

/-- R46: down-shift d_k. -/
def Fq4Params.d (p : Fq4Params) (k : Nat) : Nat := p.sh / 4 ^ k % 4

/-- R47: twice the value of an E2M1 code (0b1000 is not asked). -/
def e2m1Twice (c : Nat) : Int :=
  let t : Int := match c % 8 with
    | 0 => 0
    | 1 => 1
    | 2 => 2
    | 3 => 3
    | 4 => 4
    | 5 => 6
    | 6 => 8
    | _ => 12
  if c ≥ 8 then -t else t

/-- The finite exact value of an FP32 image; a NaN or infinity reads as 0 and is asked for before. -/
def exOf : FVal → Ex
  | .fin x => x
  | _ => ⟨false, 0, 0, false⟩

def isFinite : FVal → Bool
  | .fin _ => true
  | _ => false

/-- R48: element e of a group of 20 bytes. -/
def decodeFq4 (sat : Bool) (code : Nat) (p : Fq4Params) (e : Nat) : FVal × Flags :=
  if p.se = 255 then (.nan false, 0)
  else
    let c := if code = 8 then unpackF 3 p.sv
      else
        let t := e2m1Twice code
        .fin ⟨decide (8 < code), t.natAbs, -1, false⟩
    match c with
    | .nan _ => (.nan false, 0)
    | .inf n => (.inf n, 0)
    | .fin x => roundFloat 0 ⟨.rne, sat, 0, 0⟩ (.fin (x.scale ((p.se : Int) - 127 - p.d (e / 4))))

/-- |x| ≤ 6 × 2^k. -/
def within6 (x : Ex) (k : Int) : Bool := !magLt ⟨false, 6, k, false⟩ x

/-- The smallest SE from `se` on, below 254, with gmax ≤ 6 × 2^(SE - 127); 254 if none. -/
def leastSe (gmax : Ex) : Nat → Nat → Nat
  | 0, _ => 254
  | n + 1, se => if within6 gmax ((se : Int) - 127) then se else leastSe gmax n (se + 1)

def maxMag (l : List Ex) : Ex := l.foldl (fun a b => if magLt a b then b else a) ⟨false, 0, 0, false⟩

/-- The index of the first element of greatest magnitude. -/
def firstMax (g : Ex) : List Ex → Nat → Nat
  | [], _ => 0
  | x :: r, i => if magLt x g then firstMax g r (i + 1) else i

/-- R49, first part: SE, SH and SV of 32 values, and NV for an infinite input; a NaN or infinity gives the NaN scale. -/
def fq4Params (xs : List FVal) : Fq4Params × Flags :=
  if !xs.all isFinite then (⟨255, 0, 0⟩, flagIf (xs.any FVal.isInf) fNV)
  else
    let es := xs.map exOf
    let g := maxMag es
    let se := leastSe g 254 0
    let dk (k : Nat) : Nat :=
      let s := maxMag ((es.drop (4 * k)).take 4)
      let fits (d : Nat) : Bool := within6 s ((se : Int) - 127 - d)
      if fits 3 then 3 else if fits 2 then 2 else if fits 1 then 1 else 0
    let sh := (List.range 8).foldl (fun a k => a + dk k * 4 ^ k) 0
    let m := firstMax g es 0
    let xm := (es[m]?).getD ⟨false, 0, 0, false⟩
    let (v, _) := roundFloat 3 ⟨.rne, true, 0, 0⟩ (.fin (xm.scale (127 + (dk (m / 4) : Int) - se)))
    (⟨se, sh, packF 3 v⟩, 0)

/-- The number of fraction bits in which FQ4 and E8L errors are compared exactly. -/
def fineBits : Nat := 300

def fineOne : Int := (pow2 fineBits : Nat)

/-- R49: the nearest ordinary code to y (in units of 2^-fineBits), ties to the code whose bit [0] is 0. -/
def nearestCode (y : Int) : Nat :=
  let mag := y.natAbs
  let dist (c : Nat) : Nat := ((e2m1Twice c) * fineOne / 2 - (mag : Int)).natAbs
  let better (a b : Nat) : Nat :=
    if dist b < dist a then b else if dist a < dist b then a else if a % 2 = 0 then a else b
  let c := [1, 2, 3, 4, 5, 6, 7].foldl better 0
  if y < 0 ∧ c ≠ 0 then c + 8 else c

/-- R49: one element's code under given parameters, and SAT. -/
def fq4Code (p : Fq4Params) (x : Ex) (e : Nat) : Nat × Flags :=
  let y := (x.scale (127 + (p.d (e / 4) : Int) - p.se)).fixed fineBits
  let c := nearestCode y
  let dc := (y - e2m1Twice c * fineOne / 2).natAbs
  let useSv := match unpackF 3 p.sv with
    | .fin s => decide ((y - s.fixed fineBits).natAbs < dc)
    | _ => false
  let c := if useSv then 8 else c
  (c, flagIf (decide (6 * fineOne < (y.natAbs : Int)) && !useSv) fSAT)

/-- R46: the 20 bytes of a group. -/
def fq4Bytes (codes : List Nat) (p : Fq4Params) : List Byte :=
  let nib (i : Nat) : Nat := (codes[i]?).getD 0
  ((List.range 16).map fun j => BitVec.ofNat 8 (nib (2 * j) + 16 * nib (2 * j + 1))) ++
    [BitVec.ofNat 8 p.sh, BitVec.ofNat 8 (p.sh / 256), BitVec.ofNat 8 p.se, BitVec.ofNat 8 p.sv]

/-- R46: the parameters in the last four bytes of a group. -/
def fq4ParamsOf (bs : List Byte) : Fq4Params :=
  let b (i : Nat) : Nat := ((bs[i]?).getD 0).toNat
  ⟨b 18, b 16 + 256 * b 17, b 19⟩

/-- R46: the code of element e of a group's bytes. -/
def fq4CodeOf (bs : List Byte) (e : Nat) : Nat :=
  let b := ((bs[e / 2]?).getD 0).toNat
  if e % 2 = 0 then b % 16 else b / 16

/-- R158: a group under given parameters: its bytes, with the conditions each element met. -/
def fq4Encode (p : Fq4Params) (xs : List FVal) : List Byte × List (Nat × Flags) :=
  if !xs.all isFinite || p.se == 255 then
    (fq4Bytes [] ⟨255, 0, 0⟩, (xs.zipIdx.filter fun x => x.1.isInf).map fun x => (x.2, fNV))
  else
    let cs := xs.zipIdx.map fun x => fq4Code p (exOf x.1) x.2
    (fq4Bytes (cs.map (·.1)) p, cs.zipIdx.map fun x => (x.2, x.1.2))

/-- R49: QuantFQ4. -/
def quantFq4 (xs : List FVal) : List Byte × Flags :=
  let (p, f) := fq4Params xs
  let (bs, fs) := fq4Encode p xs
  (bs, fs.foldl (fun a x => a ||| x.2) f)

/-! ### E8L (R51 to R56) -/

/-- R51, R52: level L_i of a point code. -/
def e8Level (c : Nat) (i : Nat) : Nat :=
  if i < 7 then c / 4 ^ i % 4
  else
    let s := (List.range 7).foldl (fun a j => a + c / 4 ^ j % 4) 0
    c / 2 ^ 14 % 2 * 2 + s % 2

/-- R52: twice coordinate i of a point code. -/
def e8Twice (c : Nat) (i : Nat) : Int :=
  if nbit c 15 then 2 * (e8Level c i : Int) - 3 else 2 * (e8Level c i : Int) - 2

/-- R52: EncodePoint of twice the coordinates. -/
def encodePoint (half : Bool) (xs : List Int) : Nat :=
  let lv (i : Nat) : Nat := (((xs[i]?).getD 0 + (if half then 3 else 2)) / 2).toNat
  b2n half * 2 ^ 15 + lv 7 / 2 * 2 ^ 14 + (List.range 7).foldl (fun a i => a + lv i * 4 ^ i) 0

/-- R53: DecodeE8 of one coordinate under a scale byte; exact. -/
def decodeE8 (code scale i : Nat) : FVal :=
  match unpackF 3 scale with
  | .fin s =>
    let t := e8Twice code i
    .fin (exMul ⟨decide (t < 0), t.natAbs, -1, false⟩ s)
  | v => v

/-- The nearest level's grid point, in halves, ties as R55 gives: integers half-even; halves to the smaller magnitude,
and to +1/2 between -1/2 and +1/2. -/
def gridNear (half : Bool) (y : Int) : Int :=
  let fl := y / fineOne
  let fr := y % fineOne
  if half then
    -- odd halves: between integers the midpoint is nearest; at an integer there is a tie
    if fr = 0 then (if 0 < fl then 2 * fl - 1 else if fl = 0 then 1 else 2 * fl + 1) else 2 * fl + 1
  else
    if 2 * fr < fineOne then 2 * fl
    else if fineOne < 2 * fr then 2 * fl + 2
    else if fl % 2 = 0 then 2 * fl else 2 * fl + 2

/-- One coordinate of a candidate: twice its level, its cost of a parity move, its direction, and whether it clamped. -/
structure E8Coord where
  c : Int
  dir : Int
  cost : Int
  clamped : Bool
  deriving DecidableEq, Repr

/-- (y - c)^2 with c in halves, in units of 2^(-2 fineBits - 2). -/
def sqErr (y c : Int) : Int := (2 * y - c * fineOne) * (2 * y - c * fineOne)

def e8Coord (half : Bool) (y : Int) : E8Coord :=
  let lo : Int := if half then -3 else -2
  let hi : Int := if half then 3 else 4
  let t := gridNear half y
  let c := if t < lo then lo else if hi < t then hi else t
  let d0 : Int := if c * fineOne < 2 * y then 2 else -2
  let d := if c + d0 < lo ∨ hi < c + d0 then -d0 else d0
  ⟨c, d, sqErr y (c + d) - sqErr y c, decide (t < lo) || decide (hi < t)⟩

/-- The first index of least cost. -/
def leastCost (cs : List E8Coord) : Nat :=
  ((cs.zipIdx.foldl (fun (acc : Option (Nat × Int)) x =>
    match acc with
    | none => some (x.2, x.1.cost)
    | some (i, k) => if x.1.cost < k then some (x.2, x.1.cost) else some (i, k)) none).getD (0, 0)).1

/-- R55: Candidate: twice the coordinates, the clamped coordinates and the error. -/
def e8Candidate (half : Bool) (ys : List Int) : List Int × List Nat × Int :=
  let cs := ys.map (e8Coord half)
  let sum : Int := cs.foldl (fun a x => a + x.c) 0
  -- the coordinate sum is odd when the sum of halves is 2 mod 4
  let xs := cs.map (·.c)
  let xs := if sum % 4 = 2 then
      let j := leastCost cs
      let cj := (cs[j]?).getD ⟨0, 0, 0, false⟩
      setNth xs j (cj.c + cj.dir)
    else xs
  let err : Int := (ys.zip xs).foldl (fun a p => a + sqErr p.1 p.2) 0
  (xs, (cs.zipIdx.filter fun x => x.1.clamped).map (·.2), err)

/-- R55: NearestE8: the code, NV, and the coordinates that clamped in the chosen candidate. -/
def nearestE8 (xs : List FVal) (scale : Nat) : Nat × Bool × List Nat :=
  match unpackF 3 scale with
  | .fin s =>
    if s.m = 0 then (0x1555, false, [])
    else if !xs.all isFinite then (0x1555, true, [])
    else
      let ys := xs.map fun x =>
        match (roundFloat 0 rndNe (.fin (exDiv 64 (exOf x) s))).1 with
        | .fin y => y.fixed fineBits
        | .inf n => if n then -4 * fineOne else 4 * fineOne
        | .nan _ => 0
      let (a, ca, ea) := e8Candidate false ys
      let (b, cb, eb) := e8Candidate true ys
      if ea ≤ eb then (encodePoint false a, false, ca) else (encodePoint true b, false, cb)
  | _ => (0x1555, false, [])

/-- R56: ScaleE8L: the scale byte, and NV for an infinite input. -/
def scaleE8L (xs : List FVal) : Nat × Flags :=
  if xs.any FVal.isNan then (0x7F, 0)
  else if xs.any FVal.isInf then (0x7F, fNV)
  else
    let m := maxMag (xs.map exOf)
    if m.m = 0 then (0, 0)
    else
      -- m / 1.5 = 2m / 3
      let q := exDiv 64 { m with neg := false, e := m.e + 1 } ⟨false, 3, 0, false⟩
      (packF 3 (roundFloat 3 ⟨.rup, true, 0, 0⟩ (.fin q)).1, 0)

end Sys2Proof.Machine
end

