-- ==== Sys2Proof/Machine/Special.lean ====
section
/-! DEFINITION. The special functions of R110, each exactly rounded: algebraic ones by integer arithmetic, the others
by an enclosing interval that is tightened enough to settle the rounding. -/

namespace Sys2Proof.Machine

/-! ### Intervals of fixed-point numbers: (lo, hi) stands for a value strictly between lo and hi, times 2^-prec -/

/-- The number of fraction bits. -/
def prec : Nat := 320

structure Iv where
  lo : Nat
  hi : Nat
  deriving DecidableEq, Repr

def ivOne : Nat := pow2 prec

def Iv.mul (a b : Iv) : Iv := ⟨a.lo * b.lo / ivOne, a.hi * b.hi / ivOne + 1⟩

def Iv.add (a b : Iv) : Iv := ⟨a.lo + b.lo, a.hi + b.hi⟩

def Iv.sub (a b : Iv) : Iv := ⟨a.lo - b.hi, a.hi - b.lo⟩

def Iv.divN (a : Iv) (n : Nat) : Iv := ⟨a.lo / n, a.hi / n + 1⟩

/-- a / b for b away from zero. -/
def Iv.div (a b : Iv) : Iv := ⟨a.lo * ivOne / b.hi, a.hi * ivOne / b.lo + 1⟩

/-- Sum of x^k / k! for k from `k` on, `n` terms, given the term before. -/
def expTerms : Nat → Nat → Iv → Iv → Iv → Iv
  | 0, _, _, _, acc => ⟨acc.lo, acc.hi + 2⟩
  | n + 1, k, x, t, acc =>
    let t := (t.mul x).divN k
    expTerms n (k + 1) x t (acc.add t)

/-- e^x for 0 ≤ x ≤ 1. -/
def expIv (x : Iv) : Iv := expTerms 90 1 x ⟨ivOne, ivOne⟩ ⟨ivOne, ivOne⟩

/-- Sum of (1/q)^(2k+1) / (2k+1), alternating: the arctangent of 1/q, as (positive terms, negative terms). -/
def atanTerms : Nat → Nat → Nat → Nat → Iv → Iv → Bool → Iv
  | 0, _, _, _, p, m, _ => ⟨p.lo - m.hi - 2, p.hi - m.lo + 2⟩
  | n + 1, q, k, t, p, m, neg =>
    let u : Iv := ⟨t / k, t / k + 2⟩
    let t' := t / (q * q)
    if neg then atanTerms n q (k + 2) t' p (m.add u) false else atanTerms n q (k + 2) t' (p.add u) m true

def atanIv (q : Nat) : Iv := atanTerms 150 q 1 (ivOne / q) ⟨0, 0⟩ ⟨0, 0⟩ false

/-- π by Machin's formula. -/
def piIv : Iv :=
  let a := atanIv 5
  let b := atanIv 239
  ⟨16 * a.lo - 4 * b.hi, 16 * a.hi - 4 * b.lo⟩

/-- Sum of 1 / (k 2^k): the natural logarithm of 2. -/
def ln2Terms : Nat → Nat → Iv → Iv
  | 0, _, acc => ⟨acc.lo, acc.hi + 2⟩
  | n + 1, k, acc =>
    let t := ivOne / (k * pow2 k)
    ln2Terms n (k + 1) (acc.add ⟨t, t + 1⟩)

def ln2Iv : Iv := ln2Terms 330 1 ⟨0, 0⟩

/-- Alternating sum of x^j / j! stepping j by 2, the terms added and subtracted kept apart. -/
def trigTerms : Nat → Nat → Iv → Iv → Iv → Iv → Bool → Iv
  | 0, _, _, _, p, m, _ => ⟨p.lo - m.hi - 2, p.hi - m.lo + 2⟩
  | n + 1, k, x2, t, p, m, neg =>
    let t' := (t.mul x2).divN ((k + 1) * (k + 2))
    if neg then trigTerms n (k + 2) x2 t' p (m.add t) false else trigTerms n (k + 2) x2 t' (p.add t) m true

/-- sin and cos of 0 < x < 2. -/
def sinIv (x : Iv) : Iv := trigTerms 60 1 (x.mul x) x ⟨0, 0⟩ ⟨0, 0⟩ false
def cosIv (x : Iv) : Iv := trigTerms 60 0 (x.mul x) ⟨ivOne, ivOne⟩ ⟨0, 0⟩ ⟨0, 0⟩ false

/-- The binary digits of log2 of a value in [1, 2), by repeated squaring; none where the interval straddles 2. -/
def logDigits : Nat → Iv → Option Nat
  | 0, _ => some 0
  | n + 1, y =>
    let z := y.mul y
    if 2 * ivOne ≤ z.lo then (logDigits n ⟨z.lo / 2, z.hi / 2 + 1⟩).map fun r => pow2 n + r
    else if z.hi < 2 * ivOne then logDigits n z
    else none

/-! ### Delivering an enclosed value -/

/-- R110: the rounding that both ends of lo × 2^k < |x| < hi × 2^k share. -/
def settle (ft : BitVec 4) (neg : Bool) (v : Iv) (k : Int) : Option (FVal × Flags) :=
  if v.lo + 1 < v.hi ∧ 0 < v.lo then
    let a := roundFloat ft rndNe (.fin ⟨neg, v.lo, k - prec, true⟩)
    let b := roundFloat ft rndNe (.fin ⟨neg, v.hi - 1, k - prec, true⟩)
    if image a.1 = image b.1 ∧ a.2 = b.2 then some a else none
  else none

/-- e^x for an exact x ≥ 0 with x < 2^9: mantissa interval in [1, 2e) and a power of two. -/
def expNat (x : Ex) : Iv × Nat :=
  let n := (x.fixed prec).toNat
  let l := ln2Iv
  let k := n / l.hi
  let r : Iv := ⟨n - k * l.hi, n - k * l.lo + 1⟩
  (expIv r, k)

/-- 2^f for a fraction f × 2^-prec in (0, 1). -/
def exp2Frac (f : Nat) : Iv := expIv ((⟨f, f⟩ : Iv).mul ln2Iv)

/-- R110, SFN 3: 2^x for a finite x. -/
def exp2Of (ft : BitVec 4) (x : Ex) : Option (FVal × Flags) :=
  if 40 < x.e + bitLen x.m then
    -- |x| ≥ 2^39: far beyond every format's range
    some (roundFloat ft rndNe (.fin ⟨false, 1, if x.neg then -1099511627776 else 1099511627776, false⟩))
  else
    let i := x.fixed prec
    let k := i / (ivOne : Int)
    let f := (i % (ivOne : Int)).toNat
    if f = 0 then some (roundFloat ft rndNe (.fin ⟨false, 1, k, false⟩))
    else settle ft false (exp2Frac f) k

/-- R110, SFN 4: log2 of a positive finite x. -/
def log2Of (ft : BitVec 4) (x : Ex) : Option (FVal × Flags) :=
  let top := x.e + bitLen x.m - 1
  let y := ((⟨false, x.m, x.e - top, false⟩ : Ex).fixed prec).toNat
  if y = ivOne then
    if top = 0 then some (.zero false, 0) else some (roundFloat ft rndNe (.fin (exOfInt top)))
  else
    match logDigits 150 ⟨y, y⟩ with
    | none => none
    | some d =>
      let u := pow2 (prec - 150)
      if 0 ≤ top then
        let b := top.toNat * ivOne
        settle ft false ⟨b + d * u, b + (d + 1) * u⟩ 0
      else
        let b := (-top).toNat * ivOne
        settle ft true ⟨b - (d + 1) * u, b - d * u⟩ 0

/-- R110, SFN 5 and 6: sin(πx) or cos(πx) of a finite x. -/
def trigOf (ft : BitVec 4) (isCos : Bool) (x : Ex) : Option (FVal × Flags) :=
  -- x mod 2 in units of 2^-prec; a multiple of 2^1 or more is even
  let i : Nat := if 0 < x.e then 0 else ((⟨false, x.m, x.e, false⟩ : Ex).fixed prec).toNat % (2 * ivOne)
  let odd : Bool := decide (ivOne ≤ i)
  let r := i % ivOne
  let half := ivOne / 2
  if isCos then
    if r = half then some (.zero false, 0)
    else if r = 0 then some (.fin ⟨odd, 1, 0, false⟩, 0)
    else
      let neg := odd != decide (half < r)
      let q := if half < r then ivOne - r else r
      settle ft neg (cosIv ((⟨q, q⟩ : Iv).mul piIv)) 0
  else
    if r = 0 then some (.zero x.neg, 0)
    else
      let neg := odd != x.neg
      if r = half then some (.fin ⟨neg, 1, 0, false⟩, 0)
      else
        let q := if half < r then ivOne - r else r
        settle ft neg (sinIv ((⟨q, q⟩ : Iv).mul piIv)) 0

/-- R110, SFN 7: tanh of a finite x ≠ 0. -/
def tanhOf (ft : BitVec 4) (x : Ex) : Option (FVal × Flags) :=
  let top := x.e + bitLen x.m
  if top < -40 then
    some (roundFloat ft rndNe (.fin ⟨x.neg, x.m * pow2 40 - 1, x.e - 40, true⟩))
  else if 8 < top then settle ft x.neg ⟨ivOne - pow2 200, ivOne⟩ 0
  else
    let (m, k) := expNat { x with neg := false, e := x.e + 1 }
    let t : Iv := ⟨m.lo * pow2 k, m.hi * pow2 k⟩
    settle ft x.neg (Iv.div ⟨t.lo - ivOne, t.hi - ivOne⟩ ⟨t.lo + ivOne, t.hi + ivOne⟩) 0

/-- R110, SFN 8: 1 / (1 + e^-x) of a finite x ≠ 0. -/
def sigmOf (ft : BitVec 4) (x : Ex) : Option (FVal × Flags) :=
  let top := x.e + bitLen x.m
  if 8 < top then
    if x.neg then some (roundFloat ft rndNe (.fin ⟨false, 1, -368, true⟩))
    else settle ft false ⟨ivOne - pow2 200, ivOne⟩ 0
  else
    let (m, k) := expNat { x with neg := false }
    -- e^|x| = m 2^k
    if x.neg then
      -- 1 / (1 + e^|x|)
      let d : Iv := ⟨m.lo + ivOne / pow2 k, m.hi + ivOne / pow2 k + 1⟩
      settle ft false (Iv.div ⟨ivOne, ivOne⟩ d) (-(k : Int))
    else
      let t : Iv := ⟨m.lo * pow2 k, m.hi * pow2 k⟩
      settle ft false (Iv.div t ⟨t.lo + ivOne, t.hi + ivOne⟩) 0

/-- R110: the value where the interval did not settle the rounding. -/
def openSpecial (sfn : BitVec 4) (x : Ex) : FVal × Flags :=
  (f32 (Config.specialOpen sfn (image (.fin x))), fNX)

/-- R110: the special function SFN of a value, rounded RNE to a float format. -/
def specialF (sfn : BitVec 4) (ft : BitVec 4) (v : FVal) : FVal × Flags :=
  let one : Ex := ⟨false, 1, 0, false⟩
  match v with
  | .nan s => (.nan false, flagIf s fNV)
  | .inf n =>
    match sfn.toNat with
    | 0 => (.zero n, 0)
    | 1 => if n then (.nan false, fNV) else (.zero false, 0)
    | 2 => if n then (.nan false, fNV) else roundFloat ft rndNe (.inf false)
    | 3 => if n then (.zero false, 0) else roundFloat ft rndNe (.inf false)
    | 4 => if n then (.nan false, fNV) else roundFloat ft rndNe (.inf false)
    | 5 | 6 => (.nan false, fNV)
    | 7 => (.fin { one with neg := n }, 0)
    | _ => if n then (.zero false, 0) else (.fin one, 0)
  | .fin x =>
    if x.m = 0 then
      match sfn.toNat with
      | 0 => let (y, f) := roundFloat ft rndNe (.inf x.neg); (y, f ||| fDZ)
      | 1 => let (y, f) := roundFloat ft rndNe (.inf x.neg); (y, f ||| fDZ)
      | 2 | 5 | 7 => (.zero x.neg, 0)
      | 3 | 6 => (.fin one, 0)
      | 4 => let (y, f) := roundFloat ft rndNe (.inf true); (y, f ||| fDZ)
      | _ => (.fin ⟨false, 1, -1, false⟩, 0)
    else
      let r := match sfn.toNat with
        | 0 => some (roundFloat ft rndNe (.fin (exDiv 64 one x)))
        | 1 =>
          if x.neg then some (.nan false, fNV)
          else
            -- 1 / √x = √(1 / x); 1 / x is first held to many bits, exactly where it is exact
            let q := exDiv 128 one x
            let s := exSqrt 64 { q with neg := false }
            some (roundFloat ft rndNe (.fin { s with sticky := s.sticky || q.sticky }))
        | 2 => if x.neg then some (.nan false, fNV) else some (roundFloat ft rndNe (.fin (exSqrt 64 x)))
        | 3 => exp2Of ft x
        | 4 => if x.neg then some (.nan false, fNV) else log2Of ft x
        | 5 => trigOf ft false x
        | 6 => trigOf ft true x
        | 7 => tanhOf ft x
        | _ => sigmOf ft x
      r.getD (openSpecial sfn x)

end Sys2Proof.Machine
end

