-- ==== Sys2Proof/Machine/ScalarFp.lean ====
section
/-! DEFINITION. The scalar floating-point group (R105 to R112). -/

namespace Sys2Proof.Machine

/-! ### Values -/

/-- R66, R105: the rounding an RMF field names; DYN takes FPCTL.RM. -/
def Slot.rm (sl : Slot) (rmf : Nat) : Rm := rmOf (if rmf % 8 = 7 then bits sl.fpctl 0 3 else rmf % 8)

/-- R105, R109: the rounding of a scalar operation; the SR index is 0. -/
def Slot.rndScalar (sl : Slot) (rmf : Nat) (sat : Bool) : Rnd := ⟨sl.rm rmf, sat, sl.rngkey, 0⟩

/-- The low half of a g register (R105). -/
def Slot.fr (sl : Slot) (r : BitVec 5) : BitVec 32 := (sl.gr r).setWidth 32

/-- R106: an exact value rounded to FP32, with the conditions met. -/
def fround (r : Rnd) (x : FVal × Flags) : BitVec 32 × Flags :=
  let (y, f) := roundFloat 0 r x.1
  (image y, x.2 ||| f)

/-- R111: the class of an FP32 image. -/
def classOf (a : BitVec 32) : Word :=
  let n := a.getLsbD 31
  let e := bits a 23 8
  let m := bits a 0 23
  if e = 255 ∧ m ≠ 0 then (if f32Snan a then 0x100 else 0x200)
  else if e = 255 then (if n then 0x001 else 0x080)
  else if e ≠ 0 then (if n then 0x002 else 0x040)
  else if m ≠ 0 then (if n then 0x004 else 0x020)
  else if n then 0x008 else 0x010

/-- R112: the sign bit that FSGN and VSGN write. -/
def signOf (fn : Nat) (a b : Bool) : Bool :=
  match fn with
  | 0 => b
  | 1 => !b
  | 2 => a != b
  | 3 => false
  | _ => !a

/-- R112, R140: a with another sign bit; a NaN gives the canonical NaN. -/
def withSign (fn : Nat) (a b : BitVec 32) : BitVec 32 :=
  if f32Nan a then nanImage
  else (a &&& 0x7FFFFFFF) ||| (if signOf fn (a.getLsbD 31) (b.getLsbD 31) then 0x80000000 else 0)

/-! ### Forms -/

/-- R41, R86: the end of an FP instruction: the trap of a condition met, or its write and its flags after `lat` turns. -/
def State.fpResult (s : State) (lat : Nat) (w : Write) (f : Flags) : State :=
  match trapCause s.me.fpctl f with
  | some c => s.precise c 0 0
  | none => s.result lat (if f = 0 then [w] else [w, .istat (istatOf f)])

/-- R106: an arithmetic operation. -/
def farith (h : Hdr) (o : FmtA) (s : State) (f : Rm → FVal → FVal → FVal → FVal × Flags) :
    Host.Outcome State Fault Refusal :=
  word h s fun s =>
    let sl := s.me
    let r := sl.rndScalar (bits o.fn 0 3) false
    let (v, fl) := fround r (f r.rm (f32 (sl.fr o.ra)) (f32 (sl.fr o.rb)) (f32 (sl.fr o.rc)))
    s.fpResult 4 (.g o.rd (v.setWidth 64)) fl

/-! ### Instructions -/

def execFadd (h : Hdr) (o : FmtA) (s : State) : Host.Outcome State Fault Refusal :=
  farith h o s fun rm a b _ => addF rm a b

def execFsub (h : Hdr) (o : FmtA) (s : State) : Host.Outcome State Fault Refusal :=
  farith h o s fun rm a b _ => addF rm a b.negate

def execFmul (h : Hdr) (o : FmtA) (s : State) : Host.Outcome State Fault Refusal :=
  farith h o s fun _ a b _ => mulF a b

def execFfma (h : Hdr) (o : FmtA) (s : State) : Host.Outcome State Fault Refusal :=
  farith h o s fun rm a b c => fmaF rm (o.fn.getLsbD 3) (o.fn.getLsbD 4) a b c

def execFmin (h : Hdr) (o : FmtA) (s : State) : Host.Outcome State Fault Refusal :=
  word h s fun s =>
    let (v, f) := minMaxF false (o.fn == 1) (s.me.fr o.ra) (s.me.fr o.rb)
    s.fpResult 4 (.g o.rd (v.setWidth 64)) f

def execFmax (h : Hdr) (o : FmtA) (s : State) : Host.Outcome State Fault Refusal :=
  word h s fun s =>
    let (v, f) := minMaxF true (o.fn == 1) (s.me.fr o.ra) (s.me.fr o.rb)
    s.fpResult 4 (.g o.rd (v.setWidth 64)) f

def execFcmp (h : Hdr) (o : FmtA) (s : State) : Host.Outcome State Fault Refusal :=
  word h s fun s =>
    let (v, f) := cmpF (bits o.fn 0 4) (s.me.fr o.ra) (s.me.fr o.rb)
    s.fpResult 4 (.p (predOf o.rd) v) f

/-- R109. -/
def execFcvt (h : Hdr) (o : FmtA) (s : State) : Host.Outcome State Fault Refusal :=
  word h s fun s =>
    let sl := s.me
    let src := o.fn.extractLsb' 4 4
    let dst := o.fn.extractLsb' 0 4
    let n := contNum src ((sl.gr o.ra).toNat % 2 ^ (8 * contSize src))
    let (v, f) :=
      if src = dst then copyNum n
      else convert dst (sl.rndScalar (bits o.imm 0 3) (o.imm.getLsbD 3)) (bits o.imm 4 5) n
    s.fpResult 4 (.g o.rd (v.scalar dst)) f

/-- R110. -/
def execFsf (h : Hdr) (o : FmtA) (s : State) : Host.Outcome State Fault Refusal :=
  word h s fun s =>
    let (v, f) := specialF (o.fn.extractLsb' 0 4) 0 (f32 (s.me.fr o.ra))
    s.fpResult 10 (.g o.rd ((image v).setWidth 64)) f

/-- R111. -/
def execFclass (h : Hdr) (o : FmtA) (s : State) : Host.Outcome State Fault Refusal :=
  word h s fun s => s.result 4 [.g o.rd (classOf (s.me.fr o.ra))]

/-- R112. -/
def execFsgn (h : Hdr) (o : FmtA) (s : State) : Host.Outcome State Fault Refusal :=
  word h s fun s =>
    s.result 4 [.g o.rd ((withSign o.fn.toNat (s.me.fr o.ra) (s.me.fr o.rb)).setWidth 64)]

end Sys2Proof.Machine
end

