-- ==== Sys2Proof/Machine/Sea.lean ====
section
/-! DEFINITION. The cells of a lens: its geometry (R174 to R180), control words (R166, R173), the roles of tokens (R167),
the operations (R168 to R172), and the step of one cell in an A-cycle. -/

namespace Sys2Proof.Machine

/-! ### Geometry (R174, R176, R178) -/

/-- R176: the physical rows (columns) of a lens that are not bypassed, in order. -/
def Lens.liveRows (l : Lens) : List Nat := (List.range (64 * l.h)).filter fun i => !l.bypR.contains i
def Lens.liveCols (l : Lens) : List Nat := (List.range (64 * l.w)).filter fun i => !l.bypC.contains i

/-- R177: the logical size. -/
def Lens.rows (l : Lens) : Nat := l.liveRows.length
def Lens.cols (l : Lens) : Nat := l.liveCols.length

/-- The physical row (column) of a logical one. -/
def Lens.physRow (l : Lens) (a : Nat) : Nat := l.liveRows.getD a (64 * l.h)
def Lens.physCol (l : Lens) (b : Nat) : Nat := l.liveCols.getD b (64 * l.w)

/-- R178: A-cycles from the origin cell to a physical row (column), seams included. -/
def Lens.rowTime (l : Lens) (i : Nat) : Nat := i + 2 * seamsY l.oy (l.oy + Nat.min (i / 64) (l.h - 1))
def Lens.colTime (l : Lens) (j : Nat) : Nat := j + 2 * seamsX l.ox (l.ox + Nat.min (j / 64) (l.w - 1))

/-- R178: A-cycles from an injection until its wave token reaches a logical cell. -/
def Lens.reach (l : Lens) (a b : Nat) : Nat := l.rowTime (l.physRow a) + l.colTime (l.physCol b)

/-- R186: A-cycles from an injection until its wave token reaches the south-east physical cell. -/
def Lens.seTime (l : Lens) : Nat := l.rowTime (64 * l.h - 1) + l.colTime (64 * l.w - 1)

/-- The core of the facet that holds a physical cell of the lens. -/
def Lens.facetCore (l : Lens) (i j : Nat) : Nat :=
  coreAt (l.ox + Nat.min (j / 64) (l.w - 1)) (l.oy + Nat.min (i / 64) (l.h - 1))

def Lens.cellCore (l : Lens) (a b : Nat) : Nat := l.facetCore (l.physRow a) (l.physCol b)

def Lens.origin (l : Lens) : Nat := coreAt l.ox l.oy

/-- R174: the cores of a lens. -/
def Lens.cores (l : Lens) : List Nat :=
  (List.range l.h).flatMap fun y => (List.range l.w).map fun x => coreAt (l.ox + x) (l.oy + y)

/-- R218: the lens holds its facets. -/
def Lens.fused (l : Lens) : Bool :=
  match l.st with
  | .unfused | .fusing | .failed => false
  | _ => true

/-- R197: the first logical lane and the number of lanes of the segment that a facet has on an edge (0 W, 1 N, 2 S, 3 E),
by the facet's row or column in the lens. -/
def Lens.segment (l : Lens) (edge f : Nat) : Nat × Nat :=
  let live := if edge = 0 ∨ edge = 3 then l.liveRows else l.liveCols
  ((live.filter fun i => decide (i < 64 * f)).length, (live.filter fun i => i / 64 == f).length)

/-- R197: the core and segment lane of a logical lane of an edge. -/
def Lens.laneAt (l : Lens) (edge i : Nat) : Nat × Nat :=
  if edge = 0 ∨ edge = 3 then
    let f := l.physRow i / 64
    (coreAt (if edge = 0 then l.ox else l.ox + l.w - 1) (l.oy + f), i - (l.segment edge f).1)
  else
    let f := l.physCol i / 64
    (coreAt (l.ox + f) (if edge = 1 then l.oy else l.oy + l.h - 1), i - (l.segment edge f).1)

/-- The number of logical lanes of an edge. -/
def Lens.lanesOn (l : Lens) (edge : Nat) : Nat := if edge = 0 ∨ edge = 3 then l.rows else l.cols

/-- R180: the computed delay counter of a west or north lane. -/
def Lens.counterFor (l : Lens) (edge i : Nat) : Nat :=
  if edge = 0 then l.rowTime (l.physRow i) - i else l.colTime (l.physCol i) - i

/-- R180, R222: the delay counter in force. -/
def Lens.counter (l : Lens) (edge i : Nat) : Nat :=
  Tab.at (if edge = 0 then l.westCnt else l.northCnt) i 0

/-- R222: the counter that holds for a wave token injected in A-cycle t: the old one where it was injected before the
change. -/
def Lens.counterFrom (l : Lens) (edge i t : Nat) : Nat :=
  match l.oldSkew.find? fun x => x.1 == edge && x.2.1 == i && decide (t < x.2.2.1) with
  | some x => x.2.2.2
  | none => l.counter edge i

/-! ### Control words (R166, R173) -/

abbrev CtlWord := BitVec 40

def CtlWord.op (w : CtlWord) : Nat := bits w 35 5
def CtlWord.wsel (w : CtlWord) : Bool := w.getLsbD 34
def CtlWord.asel (w : CtlWord) : Bool := w.getLsbD 33
def CtlWord.fmt (w : CtlWord) : BitVec 4 := w.extractLsb' 29 4
def CtlWord.eosel (w : CtlWord) : Nat := bits w 27 2
def CtlWord.sosel (w : CtlWord) : Nat := bits w 25 2
def CtlWord.dly (w : CtlWord) : Nat := bits w 21 4
def CtlWord.sat (w : CtlWord) : Bool := w.getLsbD 20
def CtlWord.trapen (w : CtlWord) : Bool := w.getLsbD 17
def CtlWord.oft (w : CtlWord) : BitVec 4 := w.extractLsb' 9 4

/-- R166: the rounding of narrowing conversions. -/
def CtlWord.rnd (w : CtlWord) : Rnd := ⟨rmOf (bits w 18 2), w.sat, 0, 0⟩

/-- The numbers of the operations (R168). -/
def CellOp.num : CellOp → Nat
  | .hold => 0
  | .pass => 1
  | .acm => 2
  | .acmz => 3
  | .psm => 4
  | .wld => 5
  | .drn => 6
  | .cmpx => 7
  | .recu => 8
  | .gen => 9
  | .add => 10
  | .maxp => 11
  | .ldh => 12
  | .snap => 13
  | .restore => 14
  | .zero => 15

def cellOpOf (n : Nat) : CellOp :=
  match n with
  | 0 => .hold
  | 1 => .pass
  | 2 => .acm
  | 3 => .acmz
  | 4 => .psm
  | 5 => .wld
  | 6 => .drn
  | 7 => .cmpx
  | 8 => .recu
  | 9 => .gen
  | 10 => .add
  | 11 => .maxp
  | 12 => .ldh
  | 13 => .snap
  | 14 => .restore
  | _ => .zero

/-- R173: the word breaks no rule. -/
def CtlWord.ok (w : CtlWord) : Bool :=
  let f := w.fmt.toNat
  let narrow := w.oft == 0 || w.oft == 1 || w.oft == 2
  decide (w.op < 16) && bits w 13 4 == 0 && bits w 0 9 == 0 && f != 13 && f != 14 &&
    match w.op with
    | 0 | 1 => w.dly == 0 && w.oft == 0
    | 2 | 3 | 4 => decide (1 ≤ f ∧ f ≤ 7) && w.dly == 0 && (w.oft == 0 || (narrow && decide (f ≤ 5)))
    | 5 => (decide (1 ≤ f ∧ f ≤ 7) || f == 15) && w.dly == 0 && w.oft == 0
    | 6 | 13 | 14 | 15 => (f == 0 || f == 8 || f == 15) && w.dly == 0 && (w.oft == 0 || (narrow && f == 0))
    | 7 | 12 => f == 11 && w.dly == 0 && w.oft == 0
    | 8 => (f == 0 || f == 8) && (w.oft == 0 || (narrow && f == 0))
    | 9 => (f == 0 || f == 10) && w.dly == 0 && w.oft == 0
    | _ => (f == 0 || f == 8) && w.dly == 0 && (w.oft == 0 || (narrow && f == 0))

/-- The key of a logical cell, and of an entry of its control table. -/
def cellKey (a b : Nat) : Nat := a * 1536 + b
def entryKey (a b ph : Nat) : Nat := cellKey a b * 16 + ph

def Lens.entry (l : Lens) (a b ph : Nat) : CtlWord := Tab.at l.table (entryKey a b ph) 0

def Lens.cell (l : Lens) (a b : Nat) : Cell := Tab.at l.cells (cellKey a b) Cell.reset

def Lens.setCell (l : Lens) (a b : Nat) (c : Cell) : Lens :=
  { l with cells := Tab.store l.cells Cell.reset (cellKey a b) c }

/-- R175: an operation that a restart cannot undo. -/
def restartOp (op : Nat) : Bool := op == 5 || op == 7 || op == 12 || op == 13

/-- R175: the restart mask of a control table. -/
def restartMask (t : Tab (BitVec 40)) : BitVec 16 :=
  t.foldl (fun m p => if restartOp (CtlWord.op p.2) then m ||| ((1 : BitVec 16) <<< (p.1 % 16)) else m) 0

/-! ### Sticky flags (R172, R218) -/

/-- R218: SAT, NV, OF, UF and NX in the order of LSTAT. -/
def lensFlags (f : Flags) : BitVec 5 :=
  BitVec.ofNat 5 (b2n (f.getLsbD 6) * 16 + b2n (f.getLsbD 4) * 8 + bits f 0 3)

def Lens.flag (l : Lens) (f : Flags) : Lens := { l with flags := l.flags ||| lensFlags f }

/-! ### Roles (R167, R192) -/

/-- The value of an element or sum: float or integer, by the class of FMT. -/
abbrev CellVal := Num

/-- R167: FMT 0 to 5 are float class. -/
def floatClass (fmt : BitVec 4) : Bool := decide (fmt.toNat ≤ 5)

/-- R167: the number of elements of a token. -/
def perToken (fmt : BitVec 4) : Nat :=
  match fmt.toNat with
  | 1 | 2 => 1
  | 5 => 4
  | _ => 2

def zeroOf (fmt : BitVec 4) : CellVal := if floatClass fmt then .flt (.zero false) else .int 0

/-- R192: element e of the lane form of FQ4. -/
def laneFq4 (d : BitVec 32) (e : Nat) : FVal :=
  let x := bits d 24 8
  if x = 255 then .nan false
  else
    let c := bits d (4 * e) 4
    let v := if c = 8 then unpackF 3 (bits d 16 8)
      else
        let t := e2m1Twice c
        .fin ⟨decide (8 < c), t.natAbs, -1, false⟩
    match v with
    | .fin y => .fin (y.scale ((x : Int) - 127))
    | v => v

/-- R191, R192: the elements of data bits in an encoding. -/
def decodeElems (ft : BitVec 4) (d : BitVec 32) : List CellVal :=
  match ft.toNat with
  | 1 | 2 => [contNum ft (bits d 0 16)]
  | 5 => (List.range 4).map fun e => .flt (laneFq4 d e)
  | _ => [contNum ft (bits d 0 8), contNum ft (bits d 8 8)]

/-- R167: the class of token formats that the element role takes as they are. -/
def sameClass (fmt ft : BitVec 4) : Bool :=
  match fmt.toNat with
  | 1 | 2 => ft == 1 || ft == 2
  | 3 | 4 => ft == 3 || ft == 4
  | 5 => ft == 5
  | _ => ft == 6 || ft == 7

/-- R167: the element role: the k elements, and the conditions met. -/
def elements (w : CtlWord) (t : Token) : List CellVal × Flags :=
  let fmt := w.fmt
  if t.ft = 15 then (decodeElems fmt t.data, 0)
  else if sameClass fmt t.ft then (decodeElems t.ft t.data, 0)
  else if t.ft = 0 ∧ (fmt = 1 ∨ fmt = 2) then
    let (v, f) := roundFloat fmt w.rnd (f32 t.data)
    ([.flt v], f)
  else (List.replicate (perToken fmt) (zeroOf fmt), fNV)

/-- R167: the sum role: the 32 bits. -/
def sumBits (w : CtlWord) (t : Token) : BitVec 32 × Flags :=
  if w.fmt = 15 || t.ft == 15 || (if floatClass w.fmt then t.ft == 0 else t.ft == 8) then (t.data, 0) else (0, fNV)

/-- R167: the index role. -/
def indexBits (t : Token) : BitVec 32 × Flags :=
  if t.ft = 8 ∨ t.ft = 10 ∨ t.ft = 15 then (t.data, 0) else (0, fNV)

/-- R167: the pair role. -/
def pairBits (t : Token) : BitVec 32 × Flags := if t.ft = 11 ∨ t.ft = 15 then (t.data, 0) else (0, fNV)

/-! ### Arithmetic (R168) -/

/-- R57, R168: Dot of float elements: the exact sum of the exact products, with the conditions they meet. -/
def dotF : List (CellVal × CellVal) → Option (FVal × Flags)
  | [] => none
  | (.flt u, .flt v) :: r =>
    let (x, f) := mulF u v
    match dotF r with
    | none => some (x, f)
    | some (y, g) =>
      let (z, k) := addF .rne x y
      some (z, f ||| g ||| k)
  | _ :: r => dotF r

/-- R57, R168: Acc(start + Dot), in the class of the values: the products are summed before the accumulator is added. -/
def dotAcc (isFloat : Bool) (start : BitVec 32) (us vs : List CellVal) : BitVec 32 × Flags :=
  if isFloat then
    match dotF (us.zip vs) with
    | none => fround rndNe (f32 start, 0)
    | some (x, f) =>
      let (y, g) := addF .rne (f32 start) x
      fround rndNe (y, f ||| g)
  else
    let z : Int := (us.zip vs).foldl (fun (acc : Int) p =>
      match p with
      | (.int u, .int v) => acc + u * v
      | _ => acc) start.toInt
    (BitVec.ofInt 32 z, 0)

/-- Acc(a + b) of two sum-role values. -/
def sumAcc (isFloat : Bool) (a b : BitVec 32) : BitVec 32 × Flags :=
  if isFloat then fround rndNe (addF .rne (f32 a) (f32 b)) else (a + b, 0)

/-- R171: Acc(w × p + n). -/
def recAcc (isFloat : Bool) (w p n : BitVec 32) : BitVec 32 × Flags :=
  if isFloat then fround rndNe (fmaF .rne false false (f32 w) (f32 p) (f32 n)) else (w * p + n, 0)

/-- R168: the element of WLD in FMT's encoding. -/
def weightOf (w : CtlWord) (v : CellVal) : Nat × Flags :=
  match v with
  | .flt x => let (y, f) := roundFloat w.fmt w.rnd x; (packF w.fmt y, f)
  | .int i => let (j, f) := intNarrow w.fmt i; ((Int.emod j 256).toNat, f)
  | .raw b => (b.toNat, 0)

/-- R168: what WLD stores. -/
def weightBits (w : CtlWord) (t : Token) : BitVec 32 × Flags :=
  if w.fmt = 15 then (t.data, 0)
  else if w.fmt = 5 then (if t.ft = 5 ∨ t.ft = 15 then (t.data, 0) else (0, fNV))
  else
    let (es, f) := elements w t
    let ws := es.map (weightOf w)
    let n := ws.zipIdx.foldl (fun a p => a + p.1.1 * 256 ^ p.2) 0
    (BitVec.ofNat 32 n, ws.foldl (fun a p => a ||| p.2) f)

/-- A weight that holds a NaN (R172). -/
def weightNan (w : CtlWord) (b : BitVec 32) : Bool :=
  floatClass w.fmt && (decodeElems w.fmt b).any fun v => match v with
    | .flt x => x.isNan
    | _ => false

/-! ### One cell in one A-cycle (R168 to R172) -/

def Cell.acc (c : Cell) (w : CtlWord) : BitVec 32 := if w.asel then c.acc1 else c.acc0

def Cell.setAcc (c : Cell) (w : CtlWord) (v : BitVec 32) : Cell :=
  if w.asel then { c with acc1 := v } else { c with acc0 := v }

def Cell.wreg (c : Cell) (w : CtlWord) : BitVec 32 := if w.wsel then c.w1 else c.w0

def Cell.setWreg (c : Cell) (w : CtlWord) (v : BitVec 32) : Cell :=
  if w.wsel then { c with w1 := v } else { c with w0 := v }

/-- R171: DN[d], d from 1 to 15. -/
def Cell.delay (c : Cell) (d : Nat) : BitVec 32 := c.dn.extractLsb' (32 * (d - 1)) 32

/-- R171: the delay node takes the value that A held. -/
def Cell.shiftDelay (c : Cell) (a : BitVec 32) : Cell := { c with dn := (c.dn <<< 32) ||| a.setWidth 480 }

/-- R172: the actions of IS and SN. -/
def Cell.begin (c : Cell) (is sn : Bool) : Cell :=
  let c := if is then { c with dn := 0 } else c
  if sn then { c with accs0 := c.acc0, accs1 := c.acc1 } else c

def pairOfBits (b : BitVec 64) : Pair := ⟨b.extractLsb' 0 32, b.extractLsb' 32 32⟩

def bitsOfPair (p : Pair) : BitVec 64 := p.idx ++ p.key

/-- What an operation comes to: the cell's new state, its result, the conditions, and a NaN written to A, HELD or Wr. -/
structure CellOut where
  cell : Cell
  res : BitVec 32
  flags : Flags
  nan : Bool

/-- A result that is also the new A. -/
def Cell.toAcc (c : Cell) (w : CtlWord) (v : BitVec 32 × Flags) : CellOut :=
  ⟨c.setAcc w v.1, v.1, v.2, floatClass w.fmt && f32Nan v.1⟩

/-- R170: PairCycle. -/
def Cell.pairCycle (c : Cell) (isCmp : Bool) (n : BitVec 32 × Flags) : CellOut :=
  let out := if isCmp then c.pout else c.held
  if !c.pq then ⟨{ c with pk := n.1, pq := true }, out.extractLsb' 0 32, n.2, false⟩
  else
    let p : Pair := ⟨c.pk, n.1⟩
    let r := out.extractLsb' 32 32
    let keep (c : Cell) : CellOut := ⟨{ c with held := bitsOfPair p, pq := false }, r, n.2, f32Nan p.key⟩
    if !isCmp then keep c
    else if ranksAbove p (pairOfBits c.held) then keep { c with pout := c.held }
    else ⟨{ c with pout := bitsOfPair p, pq := false }, r, n.2, false⟩

/-- R168: the operation of an entry on its inputs; HOLD and PASS change no state and have no result. -/
def Cell.run (c : Cell) (w : CtlWord) (win nin : Token) : CellOut :=
  let fl := floatClass w.fmt
  let a := c.acc w
  match w.op with
  | 2 =>
    let (u, f) := elements w win
    let (v, g) := elements w nin
    let (x, e) := dotAcc fl a u v
    c.toAcc w (x, f ||| g ||| e)
  | 3 =>
    let (u, f) := elements w win
    let (v, g) := elements w nin
    let (x, e) := dotAcc fl 0 u v
    c.toAcc w (x, f ||| g ||| e)
  | 4 =>
    let (u, f) := elements w win
    let (n, g) := sumBits w nin
    let (x, e) := dotAcc fl n u (decodeElems w.fmt (c.wreg w))
    ⟨c, x, f ||| g ||| e, false⟩
  | 5 =>
    let (v, f) := weightBits w nin
    ⟨c.setWreg w v, nin.data, f, weightNan w v⟩
  | 6 =>
    let (v, f) := sumBits w nin
    ⟨c.setAcc w v, a, f, w.fmt == 0 && f32Nan v⟩
  | 7 => c.pairCycle true (pairBits nin)
  | 8 =>
    let (u, f) := sumBits w win
    let (n, g) := sumBits w nin
    let prev := if w.dly = 0 then a else c.delay w.dly
    let (x, e) := recAcc fl u prev n
    (c.shiftDelay a).toAcc w (x, f ||| g ||| e)
  | 9 =>
    let (i, f) := indexBits win
    let v := glint (c.w0 ++ c.w1) (i.setWidth 64)
    ⟨c, if w.fmt = 10 then v else image (.fin ⟨false, v.toNat / 256, -24, false⟩), f, false⟩
  | 10 =>
    let (u, f) := sumBits w win
    let (n, g) := sumBits w nin
    let (x, e) := sumAcc fl u n
    ⟨c, x, f ||| g ||| e, false⟩
  | 11 =>
    let (u, f) := sumBits w win
    let (x, e) := if fl then minMaxF true false a u else (if a.toInt < u.toInt then u else a, 0)
    c.toAcc w (x, f ||| e)
  | 12 => c.pairCycle false (pairBits nin)
  | 13 => ⟨if w.asel then { c with accs1 := c.acc1 } else { c with accs0 := c.acc0 }, a, 0, false⟩
  | 14 =>
    let v := if w.asel then c.accs1 else c.accs0
    c.toAcc w (v, 0)
  | 15 => c.toAcc w (0, 0)
  | _ => ⟨c, 0, 0, false⟩

/-- R169: the token of a result, or of A through SOSEL 3, and the conditions of its narrowing. -/
def resultToken (w : CtlWord) (isA : Bool) (nin : Token) (v : BitVec 32) : Token × Flags :=
  if w.op = 5 && !isA then (nin, 0)
  else if w.fmt = 11 then (⟨false, if isA then 15 else 11, v⟩, 0)
  else if w.fmt = 15 then (⟨false, 15, v⟩, 0)
  else if w.fmt = 10 then (⟨false, 10, v⟩, 0)
  else if floatClass w.fmt then
    if w.oft = 0 then (⟨false, 0, v⟩, 0)
    else
      let (x, f) := roundFloat w.oft w.rnd (f32 v)
      (⟨false, w.oft, BitVec.ofNat 32 (packF w.oft x)⟩, f)
  else (⟨false, 8, v⟩, 0)

/-- R172: a NaN leaves as R: a float value, or the key of a pair. -/
def nanLeaves (w : CtlWord) (key : Bool) (v : BitVec 32) : Bool :=
  (w.eosel == 1 || w.sosel == 1) && w.op != 5 && (floatClass w.fmt || (w.fmt == 11 && key)) && f32Nan v

/-- R169: the E and S tokens of an entry that is not HOLD or PASS, and the conditions of their narrowing. -/
def cellTokens (w : CtlWord) (old : Cell) (win nin : Token) (r : BitVec 32) : Token × Token × Flags :=
  let (rt, f) := if w.eosel = 1 ∨ w.sosel = 1 then resultToken w false nin r else (Token.idle, 0)
  let (at_, g) := if w.sosel = 3 then resultToken w true nin (old.acc w) else (Token.idle, 0)
  let held := if old.pq then old.held.extractLsb' 32 32 else old.held.extractLsb' 0 32
  let e := match w.eosel with
    | 0 => win
    | 1 => rt
    | 2 => Token.idle
    | _ => ⟨false, 11, held⟩
  let s := match w.sosel with
    | 0 => nin
    | 1 => rt
    | 2 => Token.idle
    | _ => at_
  (e, s, f ||| g)

/-- R172: a cell's whole A-cycle under an entry: its new state with its registered outputs, the conditions, and whether a
TRAPEN entry meets one that freezes the lens. -/
def Cell.cycle (c : Cell) (w : CtlWord) (is sn : Bool) (win nin : Token) : Cell × Flags × Bool :=
  let c := c.begin is sn
  match w.op with
  | 0 => (c, 0, false)
  | 1 => ({ c with eOut := win, sOut := nin }, 0, false)
  | _ =>
    let o := c.run w win nin
    let (e, s, f) := cellTokens w c win nin o.res
    let fl := o.flags ||| f
    ({ o.cell with eOut := e, sOut := s }, fl,
      w.trapen && (fl &&& fNV != 0 || o.nan || nanLeaves w (!c.pq) o.res))

/-! ### Cells of a lens -/

/-- R165, R178: the wave token that a logical cell receives in the lens's present A-cycle. -/
def Lens.waveAt (l : Lens) (a b : Nat) : Option Wave :=
  let t := l.reach a b
  l.waves.find? fun v => v.at_ + t == l.acyc

/-- R167, R169: the token on W-in or N-in of a logical cell. -/
def Lens.input (l : Lens) (a b : Nat) (west : Bool) : Token :=
  match l.wires.find? fun x => x.due == l.acyc && x.row == a && x.col == b && x.west == west with
  | some x => x.tok
  | none => Token.idle

/-- R199, R201: the phase pushes into an output lane from its last cell. -/
def pushes (w : CtlWord) (south : Bool) : Bool :=
  w.op == 1 || (w.op != 0 && (if south then w.sosel else w.eosel) != 2)

/-- R347: A-cycles that a facet runs past the fault cycle. -/
def Lens.skidOf (_ : Lens) (core : Nat) (e : RegionEvent) : Nat :=
  6 + ceilDiv (dist (coreX core) (coreX e.core) + dist (coreY core) (coreY e.core)) 3

/-- R347: the facet of a core still runs in the present A-cycle. -/
def Lens.runs (l : Lens) (core : Nat) : Bool :=
  match l.kept with
  | some e => !l.freezing || decide (l.acyc ≤ e.fcyc + l.skidOf core e)
  | none => true

/-- R169, R201: the tokens that a cell registers, on their way east and south. -/
def Lens.sendOn (l : Lens) (a b : Nat) (w : CtlWord) (v : Wave) (c : Cell) : List Wire :=
  let i := l.physRow a
  let j := l.physCol b
  let eDue := l.acyc + (if b + 1 < l.cols then l.colTime (l.physCol (b + 1)) else l.colTime (64 * l.w - 1) + 1) - l.colTime j
  let sDue := l.acyc + (if a + 1 < l.rows then l.rowTime (l.physRow (a + 1)) else l.rowTime (64 * l.h - 1) + 1) - l.rowTime i
  (if b + 1 < l.cols || pushes w false then [⟨eDue, a, b + 1, true, c.eOut, v.inv⟩] else []) ++
    (if a + 1 < l.rows || pushes w true then [⟨sDue, a + 1, b, false, c.sOut, v.inv⟩] else [])

/-- The iteration vector of the next token that the sequencer injects; past the last one of a row, that of the row after it. -/
def Lens.pos (l : Lens) : Nat × Nat × Nat :=
  if l.seq.rowDone then (l.seq.row + 1, 0, 0) else (l.seq.row, l.seq.rep, l.seq.ofs)

/-- An event of a cell (R346). -/
def Lens.cellFault (l : Lens) (a b : Nat) (v : Wave) (detail : BitVec 8) : RegionEvent :=
  { cause := 0x30, detail := detail, fcyc := l.acyc, vec := (v.row, v.rep, v.ofs), agent := none,
    core := l.cellCore a b, row := a, col := b, lane := 0, edge := 0, aga := 0, agb := 0, bank := 0, addr := 0 }

/-- An event of an AG (R207, R267, R346): its core and number, its lane and edge. -/
def Lens.agEvent (l : Lens) (c n lane edge : Nat) (cause detail : BitVec 8) (a : Word) (bank : Nat) : RegionEvent :=
  { cause := cause, detail := detail, fcyc := l.acyc, vec := l.pos, agent := some (c, n),
    core := c, row := 0xFFFF, col := 0xFFFF, lane := lane, edge := edge, aga := n, agb := 0, bank := bank % 128, addr := a }

def Lens.raise (l : Lens) (e : RegionEvent) : Lens := { l with raised := l.raised ++ [e] }

/-- R166: the accumulator and the shadow that an entry selects, as memories that parity covers. -/
def CtlWord.accMem (w : CtlWord) : CellMem := if w.asel then .acc1 else .acc0
def CtlWord.shadowMem (w : CtlWord) : CellMem := if w.asel then .accs1 else .accs0

/-- R168, R170 to R172: the cell memories that a cell reads and writes in an A-cycle. -/
def CtlWord.memUse (w : CtlWord) (pq is sn : Bool) : List CellMem × List CellMem :=
  let (r, v) : List CellMem × List CellMem := match w.op with
    | 2 | 6 | 11 => ([w.accMem], [w.accMem])
    | 3 | 15 => ([], [w.accMem])
    | 4 => ([if w.wsel then .w1 else .w0], [])
    | 5 => ([], [if w.wsel then .w1 else .w0])
    | 7 => if pq then ([.pk, .held, .pout], [.held, .pout]) else ([.pout], [.pk])
    | 8 => (w.accMem :: (if w.dly = 0 then [] else [.dn w.dly]), [w.accMem, .dn 1])
    | 9 => ([.w0, .w1], [])
    | 12 => if pq then ([.pk, .held], [.held]) else ([.held], [.pk])
    | 13 => ([w.accMem], [w.shadowMem])
    | 14 => ([w.shadowMem], [w.accMem])
    | _ => ([], [])
  let out : List CellMem :=
    if w.op = 0 ∨ w.op = 1 then [] else (if w.eosel = 3 then [.held] else []) ++ if w.sosel = 3 then [w.accMem] else []
  ((if sn then [.acc0, .acc1] else []) ++ r ++ out,
    (if is then (List.range 15).map fun d => .dn (d + 1) else []) ++ (if sn then [.accs0, .accs1] else []) ++ v)

/-- R171: REC moves the delay node on, and with it an error in it. -/
def CellMem.moved (op : Nat) : CellMem → CellMem
  | .dn d => if op = 8 then .dn (d + 1) else .dn d
  | m => m

/-- R346: an A-cycle of a cell that holds parity errors: DETAIL 3 for a register that it reads, DETAIL 4 for the entry
that its wave token selects. What the cell writes holds no error. -/
def Lens.checkParity (l : Lens) (a b : Nat) (v : Wave) (w : CtlWord) (pq : Bool) : Lens :=
  let (mine, rest) := l.parity.partition fun p => p.1 == cellKey a b
  if mine.isEmpty then l
  else
    let (rd, wr) := w.memUse pq v.is v.sn
    let l := if mine.any fun p => rd.contains p.2 then l.raise (l.cellFault a b v 3) else l
    let l := if mine.any fun p => p.2 == .entry v.ph.toNat then l.raise (l.cellFault a b v 4) else l
    { l with parity := rest ++ ((mine.map fun p => (p.1, p.2.moved w.op)).filter fun p => !wr.contains p.2) }

/-- R165, R172: the cell at a logical place runs the entry of its wave token, if that entry has the operation. -/
def Lens.cellStep (l : Lens) (op : CellOp) (a b : Nat) : Lens :=
  match l.waveAt a b with
  | none => l
  | some v =>
    let w := l.entry a b v.ph.toNat
    if w.op ≠ op.num || decide (l.rows ≤ a) || decide (l.cols ≤ b) || !l.runs (l.cellCore a b) then l
    else
      let c := l.cell a b
      let (c', f, trap) := c.cycle w v.is v.sn (l.input a b true) (l.input a b false)
      let l' := { (l.setCell a b c').flag f with wires := l.wires ++ l.sendOn a b w v c' }
      (if trap then l'.raise (l.cellFault a b v 1) else l').checkParity a b v w c.pq

/-- R172: one operation of one cell. -/
def cellEvent (op : CellOp) (lens row col : Nat) (s : State) : Host.Outcome State Fault Refusal :=
  .next (s.modLens lens fun l => l.cellStep op row col)

def execCellHold (lens row col : Nat) (s : State) : Host.Outcome State Fault Refusal := cellEvent .hold lens row col s
def execCellPass (lens row col : Nat) (s : State) : Host.Outcome State Fault Refusal := cellEvent .pass lens row col s
def execCellAcm (lens row col : Nat) (s : State) : Host.Outcome State Fault Refusal := cellEvent .acm lens row col s
def execCellAcmz (lens row col : Nat) (s : State) : Host.Outcome State Fault Refusal := cellEvent .acmz lens row col s
def execCellPsm (lens row col : Nat) (s : State) : Host.Outcome State Fault Refusal := cellEvent .psm lens row col s
def execCellWld (lens row col : Nat) (s : State) : Host.Outcome State Fault Refusal := cellEvent .wld lens row col s
def execCellDrn (lens row col : Nat) (s : State) : Host.Outcome State Fault Refusal := cellEvent .drn lens row col s
def execCellCmpx (lens row col : Nat) (s : State) : Host.Outcome State Fault Refusal := cellEvent .cmpx lens row col s
def execCellRec (lens row col : Nat) (s : State) : Host.Outcome State Fault Refusal := cellEvent .recu lens row col s
def execCellGen (lens row col : Nat) (s : State) : Host.Outcome State Fault Refusal := cellEvent .gen lens row col s
def execCellAdd (lens row col : Nat) (s : State) : Host.Outcome State Fault Refusal := cellEvent .add lens row col s
def execCellMaxp (lens row col : Nat) (s : State) : Host.Outcome State Fault Refusal := cellEvent .maxp lens row col s
def execCellLdh (lens row col : Nat) (s : State) : Host.Outcome State Fault Refusal := cellEvent .ldh lens row col s
def execCellSnap (lens row col : Nat) (s : State) : Host.Outcome State Fault Refusal := cellEvent .snap lens row col s
def execCellRestore (lens row col : Nat) (s : State) : Host.Outcome State Fault Refusal := cellEvent .restore lens row col s
def execCellZero (lens row col : Nat) (s : State) : Host.Outcome State Fault Refusal := cellEvent .zero lens row col s

end Sys2Proof.Machine
end

