-- ==== Sys2Proof/Machine/SlotEvents.lean ====
section
/-! DEFINITION. The faults that fall due on a turn: deferred-precise faults (R343, R344) and the budget deadline (R351). -/

namespace Sys2Proof.Machine

/-- R343: a due fault of a slot is taken; a HALTED or FAULTED slot sends its record instead. The 0x0B of a later beat of a
vector access counts as a precise fault (R267; log entry 32). -/
def State.takeDueFault (s : State) (r : SlotRef) (f : DueFault) : State :=
  let s := s.modSlot r fun sl => { sl with due := dropFirst (fun x => x.id == f.id) sl.due }
  let s := if f.cause = 0x39 && isLocal f.addr then s.countError (unitBank (bmIndex ((s.core r.core).bm (eaEntry f.addr)))) else s
  let sl := s.slot r
  let epc := f.own.getD sl.pc
  if sl.live then s.takeFault r (f.cause != 0x0B) f.cause epc f.addr f.info
  else s.record r (epc.setWidth 64) (((1#1) ++ f.cause : BitVec 9).setWidth 64) f.addr f.info

def execDeferredFault (core slot id : Nat) (s : State) : Host.Outcome State Fault Refusal :=
  onSlot core slot <|
    match (s.slot ⟨core, slot⟩).due.find? fun f => f.id == id with
    | some f => s.takeDueFault ⟨core, slot⟩ f
    | none => s

/-- R351: the deadline of a slot's budget, if it is due. -/
def execBudgetDeadline (core slot : Nat) (s : State) : Host.Outcome State Fault Refusal :=
  let r : SlotRef := ⟨core, slot⟩
  let sl := s.slot r
  onSlot core slot <|
    if sl.budgetDue then
      let s := s.modSlot r fun x => { x with budgetDue := false, hold := false }
      if sl.live then s.takeFault r false 0x06 sl.pc 0 (sl.reload.setWidth 64) else s
    else s

end Sys2Proof.Machine
end

