-- ==== Sys2Proof/Machine/Memory.lean ====
section
/-! DEFINITION. Scalar accesses (R20, R21, R263, R264, R279 to R289), the stalls and holds of ordered accesses and
fences (R289, R290, R305), and the window end (R280). -/

namespace Sys2Proof.Machine

/-! ### Sizes and addresses -/

/-- R115: the bytes of an SZ value. -/
def sizeOf (sz : BitVec 3) : Nat :=
  match sz.toNat with
  | 0 => 1
  | 1 | 5 => 2
  | 2 => 4
  | 3 => 8
  | _ => 16

/-- R285: the effective address. -/
def memAddr (sl : Slot) (o : FmtM) (indexed : Bool) : Word :=
  sl.gr o.ra + o.off.signExtend 64 + (if indexed then sl.gr o.rb else 0)

/-- R268, R279: FINFO parts: the window entry in [11:8]. -/
def entryField (ea : Word) : Nat := eaEntry ea * 256

/-- R279: FINFO of a precise 0x0A. -/
def detachInfo (ea : Word) (pend wp : Bool) (lane : Nat) : Word :=
  w64 (entryField ea + lane * 4 + b2n wp * 2 + b2n pend)

/-- R268: FINFO of 0x0B. -/
def conflictInfo (bank second first : Nat) (ea : Word) (lane : Nat) : Word :=
  w64 (bank % 128 * 2 ^ 24 + second * 2 ^ 20 + first * 2 ^ 16 + entryField ea + lane)

/-- R267: the second requester that a slot's access to a bank meets in this P-cycle, with the lane of a beat: a timed
AG, or a beat of the slot's own vector instruction. -/
def State.frontConflict (s : State) (r : SlotRef) (bank : Nat) (beats : Bool) : Option (Nat × Nat) :=
  let sl := s.slot r
  match (if beats then sl.beats.find? fun b => b.1 == sl.turn && b.2.1 == bank else none) with
  | some b => some (r.slot, b.2.2)
  | none => ((s.core r.core).frontBusy.find? fun p => p.1 == bank && decide (8 ≤ p.2)).map fun p => (p.2, 0)

/-- R266, R267: the prism column uses a bank's front port in this P-cycle. -/
def State.useFront (s : State) (r : SlotRef) (bank : Nat) : State :=
  s.modCore r.core fun x => { x with frontBusy := x.frontBusy ++ [(bank, r.slot)] }

/-- R276, R279: the forward-table hint for an entry of a core. -/
def State.hint (s : State) (c k : Nat) : Option Fwd :=
  (s.cluster (clusterOf c)).fwd.find? fun f => f.core == c && f.k == k

/-- R279: the hint part of FINFO of a deferred 0x0A. -/
def State.hintInfo (s : State) (c k : Nat) (wp noHint : Bool) : Word :=
  match (if noHint then none else s.hint c k) with
  | some f => w64 (f.name.toNat * 2 ^ 48 + f.j % 16 * 2 ^ 44 + 2 ^ 43 + b2n wp * 2 ^ 42)
  | none => w64 (b2n wp * 2 ^ 42)

/-! ### Accesses of a slot -/

def Slot.acc? (sl : Slot) (id : Nat) : Option Access := sl.accs.find? fun a => a.id == id

def Slot.setAcc (sl : Slot) (a : Access) : Slot :=
  { sl with accs := updFirst (fun b => b.id == a.id) (fun _ => a) sl.accs }

def Slot.dropAcc (sl : Slot) (id : Nat) : Slot := { sl with accs := dropFirst (fun b => b.id == id) sl.accs }

/-- R289: a load or AMO has performed when its value is fixed, a store when its bank has acknowledged it; an access
that ended otherwise is not waited for. -/
def Access.isPerformed (a : Access) : Bool :=
  match a.st with
  | .arrived | .refused _ | .uncorrectable _ | .givenUp => true
  | .performed => a.kind != .store
  | _ => false

/-- R20, R263: the name and window offset an access reaches; a local one lies in the core's own window. -/
def Access.place (a : Access) : BitVec 16 × Nat := (a.name, bits a.ea 0 22)

/-- R21, R289: two accesses of a slot share a byte. -/
def Access.overlaps (a b : Access) : Bool :=
  a.place.1 == b.place.1 && decide (a.place.2 < b.place.2 + b.size) && decide (b.place.2 < a.place.2 + a.size)

/-- R289, R302: an access is covered by a scope of a core. -/
def Access.covered (a : Access) (scp : BitVec 3) (own : BitVec 16) : Bool := decide (2 ≤ scp.toNat) || a.name == own

/-- The ids of accesses not yet performed. -/
def Slot.unperformed (sl : Slot) (p : Access → Bool) : List Nat :=
  (sl.accs.filter fun a => !a.isPerformed && p a).map (·.id)

def Slot.waitsFor (sl : Slot) (ids : List Nat) : Bool :=
  sl.accs.any fun a => ids.contains a.id && !a.isPerformed

/-- R137, R290: the results of vector loads in flight, which alone among the writes of vector registers wait for a
P-cycle. -/
def Flight.isVectorLoad (f : Flight) : Bool :=
  f.minCycle != 0 && f.writes.any fun w => match w with
    | .v _ _ _ | .ecc _ _ _ _ => true
    | _ => false

/-- R289, R290: a load or AMO whose window has not ended. -/
def Access.unseen (a : Access) : Bool := !a.ended

/-- R290: the vector loads whose result is not visible yet. -/
def Slot.vectorLoads (sl : Slot) : List Nat := (sl.flights.filter (·.isVectorLoad)).map (·.id) ++ sl.vloads.map (·.id)

/-- R289, R290: loads and AMOs among the ids that are neither visible nor faulted. -/
def Slot.unseen (sl : Slot) (ids : List Nat) : Bool :=
  (sl.accs.any fun a => ids.contains a.id && a.unseen) || sl.vectorLoads.any ids.contains

/-- R288: the new memory value of an AMO on n bytes. -/
def amoValue (op : BitVec 4) (n : Nat) (m b c : Nat) : Nat :=
  let lim := 2 ^ (8 * n)
  let sx (v : Nat) : Int := sextNat (8 * n) v
  match op.toNat with
  | 0 => b
  | 1 => if m = c then b else m
  | 2 => (m + b) % lim
  | 3 => m &&& b
  | 4 => m ||| b
  | 5 => m ^^^ b
  | 6 => if sx m ≤ sx b then m else b
  | 7 => if sx m ≤ sx b then b else m
  | 8 => Nat.min m b
  | 9 => Nat.max m b
  | _ => (fround rndNe (addF .rne (f32 (BitVec.ofNat 32 m)) (f32 (BitVec.ofNat 32 b)))).1.toNat

/-- R300: the bytes of a load with the slot's earlier stores that have not performed laid over them. -/
def overlayStores (a : Access) (stores : List Access) (bs : List Byte) : List Byte :=
  stores.foldl (fun bs e =>
    (List.range bs.length).map fun i =>
      let p := a.place.2 + i
      if e.place.2 ≤ p ∧ p < e.place.2 + e.size then BitVec.ofNat 8 (e.data.toNat / 2 ^ (8 * (p - e.place.2)))
      else bs.getD i 0) bs

/-- R353: FINFO of 0x39 for an access at a bank. -/
def eccInfo (bank : Nat) (ea : Word) (lane : Nat) : Word := w64 (bank % 128 * 2 ^ 24 + entryField ea + lane)

/-- R353: the lane that an access serves; 0 for a scalar one. -/
def Access.lane (a : Access) : Nat :=
  match a.vdest with
  | some (_, l, _) => l
  | none => 0

/-- R288, R299, R300, R353: an access of up to 8 bytes performs at the window of a core. -/
def State.performAt (s : State) (tgt : Nat) (earlier : List Access) (a : Access) : State × Access :=
  let key := (s.core tgt).winKey a.ea
  let bank := bmBank ((s.core tgt).bm (eaEntry a.ea))
  match a.kind with
  | .store => (s.poke key (leBytes a.size a.data.toNat), { a with st := .performed })
  | .load =>
    if s.hasErr key a.size then (s, { a with st := .uncorrectable (eccInfo bank a.ea a.lane) })
    else
      let fwd := earlier.filter fun e => e.kind == .store && !e.isPerformed && e.st != .performed && e.overlaps a
      let v := leNat (overlayStores a fwd (s.bytes key a.size))
      (s, { a with st := .performed, val := BitVec.ofNat 128 v })
  | .amo =>
    if s.hasErr key a.size then (s, { a with st := .uncorrectable (eccInfo bank a.ea 0) })
    else
      let m := s.word key a.size
      let lim := 2 ^ (8 * a.size)
      let n := amoValue a.op a.size m (a.data.toNat % lim) (a.cmp.toNat % lim)
      (s.poke key (leBytes a.size n), { a with st := .performed, val := BitVec.ofNat 128 m })

/-- R299: the low or the high half of a `.q` access performs. -/
def State.performHalf (s : State) (tgt : Nat) (earlier : List Access) (a : Access) (high : Bool) : State × Access :=
  let n := if high then 8 else 0
  let (s, b) := s.performAt tgt earlier { a with ea := a.ea + w64 n, size := 8, data := a.data >>> (8 * n) }
  match b.st with
  | .performed =>
    (s, if high then { a with st := .performed, val := a.val ||| (b.val <<< 64) } else { a with st := .half, val := b.val })
  | e => (s, { a with st := e })

/-- R299: an access performs, or the next half of a `.q` access: the further delay of its second half comes from the
outside's contention. -/
def State.performNext (s : State) (tgt : Nat) (earlier : List Access) (a : Access) : Nat × State × Access :=
  if a.size ≠ 16 then (0, s.performAt tgt earlier a)
  else if a.st = .half then (0, s.performHalf tgt earlier a true)
  else
    let (s, b) := s.performHalf tgt earlier a false
    if b.st ≠ .half then (0, s, b)
    else
      let (e, s) := s.takeExtra
      if e = 0 then (0, s.performHalf tgt earlier b true) else (e, s, b)

/-- R30, R150: the lanes that a container of a format fills, from a lane on; a NaN arrives canonical, a key's too. -/
def elementLanes (ft : BitVec 4) (v : Nat) : List (BitVec 32) :=
  if ft = 11 then
    let key := BitVec.ofNat 32 v
    [if f32Nan key then nanImage else key, BitVec.ofNat 32 (v / 2 ^ 32)]
  else [(contNum ft v).lane]

/-- A vector register image of lane values. -/
def packLanes (vs : List (Nat × BitVec 32)) : VReg := 
  vs.foldl (fun (a : VReg) (p : Nat × BitVec 32) => a ||| ((p.2.setWidth 2048 : VReg) <<< (32 * p.1))) 0

/-- The lanes named, as a mask. -/
def lanesOf (is : List Nat) : Word := is.foldl (fun a i => a ||| ((1 : Word) <<< i)) 0

/-- R126: the lanes of one loaded element join those of its vector load. -/
def VLoad.take (v : VLoad) (lane : Nat) (ft : BitVec 4) (x : Nat) : VLoad :=
  { v with data := v.data ||| packLanes ((elementLanes ft x).zipIdx.map fun p => (lane + p.2, p.1)) }

/-- R353: an element meets an uncorrectable error; the lowest lane is reported. -/
def VLoad.fail (v : VLoad) (lane : Nat) (addr info : Word) : VLoad :=
  match v.bad with
  | some (l, _, _) => if l ≤ lane then v else { v with bad := some (lane, addr, info) }
  | none => { v with bad := some (lane, addr, info) }

/-- R115: what an arrived scalar access writes to its registers. -/
def Access.writes (a : Access) : List Write :=
  let v := a.val.toNat
  if a.kind = .store then []
  else if a.size = 16 then [.g a.rt (w64 v), .g (a.rt + 1) (w64 (v / 2 ^ 64))]
  else if a.sx then [.g a.rt (BitVec.ofInt 64 (sextNat (8 * a.size) v))]
  else [.g a.rt (w64 v)]

/-! ### Faults of accesses -/

/-- A deferred-precise fault that names the access's own instruction (R343). -/
def State.deferAcc (s : State) (r : SlotRef) (a : Access) (cause : BitVec 8) (addr info : Word) (withDist : Bool) :
    State :=
  s.defer r (some a.id) cause (some a.pc) addr info a.cycle (if withDist then some a.turn else none)

/-- R279: a refused access takes 0x0A. -/
def State.refuseAcc (s : State) (r : SlotRef) (a : Access) (info : Word) : State := s.deferAcc r a 0x0A a.ea info true

/-- R280: FINFO of 0x05, less DIST. -/
def missInfo (a : Access) : Word :=
  w64 (a.name.toNat * 2 ^ 48 + b2n (a.kind == .amo) * 2 ^ 23 + b2n (!a.glob) * 2 ^ 22)

/-! ### Sending and performing -/

/-- R281: the request leg of a global access. -/
def State.requestLeg (s : State) (src dst : Nat) : Nat :=
  match s.route false src dst with
  | some (h, z) => 12 + 3 * h + 2 * z + 2 * s.classOf dst
  | none => 12

/-- R281: the response leg of an LD (10) or an AMO (14); the time of an acknowledgement is not given (log entry 14). -/
def State.responseLeg (s : State) (src dst : Nat) (k : AccKind) : Nat :=
  match k, s.route true dst src with
  | .load, some (h, z) => 10 + 3 * h + 2 * z
  | .amo, some (h, z) => 14 + 3 * h + 2 * z
  | _, _ => 1

/-- R264, R281: a global access leaves for its target; an access to another die leaves by the panel links. -/
def State.sendAcc (s : State) (r : SlotRef) (a : Access) (dst : Nat) : State :=
  let a := { a with st := .sent }
  let (id, s) := (s.modSlot r fun sl => sl.setAcc a).stage r.core dst r.slot a.pc a.name (.access a)
  if dst < 768 then s.laterX (s.requestLeg r.core dst) (.globalRequestArrive id) else s

/-- R235, R264: a global access looks its name up and is sent, waits for a walk or for FRZ to clear, or takes a
deferred-precise 0x0C. -/
def State.routeAcc (s : State) (r : SlotRef) (a : Access) : State :=
  match s.resolve r.core a.name with
  | .hit dst => (s.useName r.core a.name).sendAcc r a dst
  | .away dst => (s.useName r.core a.name).sendAcc r a dst
  | .miss => (s.modSlot r fun sl => sl.setAcc { a with st := .walking }).startWalk r.core a.name
  | .frozen => s.modSlot r fun sl => sl.setAcc { a with st := .walking }
  | .unmapped ret cut => (s.modSlot r fun sl => sl.dropAcc a.id).deferAcc r a 0x0C a.ea (nameInfo ret cut) false
  | .bad => (s.modSlot r fun sl => sl.dropAcc a.id).deferAcc r a 0x0C a.ea 0 false

/-- R27, R282: P-cycles until the data of a local access arrive, by class. -/
def localTime (cls : Nat) (k : AccKind) : Nat := (if k = .amo then 10 else 6) + 2 * cls

/-- R17, R280: the data of an access that has missed its window are written on the first turn after they arrive. -/
def State.lateWrite (s : State) (r : SlotRef) (a : Access) (arrive : Nat) : State :=
  s.modSlot r fun sl =>
    { sl.dropAcc a.id with
      flights := sl.flights ++ [⟨a.id, 0, arrive, a.writes⟩] }

/-- R126, R137, R353: a vector load that has read all its elements, its last beat past, has its result in flight. -/
def Slot.closeVload (sl : Slot) (id : Nat) : Slot :=
  match sl.vloads.find? fun v => v.id == id && v.left == 0 && decide (v.last ≤ sl.turn) with
  | none => sl
  | some v =>
    let w : Write := match v.bad with
      | some (_, addr, info) => .ecc v.pc v.cycle addr info
      | none => .v v.vd v.lanes v.data
    { sl with vloads := dropFirst (fun x => x.id == id) sl.vloads, flights := sl.flights ++ [⟨v.id, v.minTurn, v.minCycle, [w]⟩] }

/-- R126, R353: an element of a vector load has been read. -/
def Slot.landElem (sl : Slot) (id : Nat) (at_ : Nat) (f : VLoad → VLoad) : Slot :=
  ({ sl with
    vloads := updFirst (fun v => v.id == id) (fun v => { f v with left := v.left - 1, minCycle := Nat.max v.minCycle at_ }) sl.vloads } :
    Slot).closeVload id

/-- R17, R280: what a local access that has performed comes to. -/
def State.landLocal (s : State) (r : SlotRef) (a b : Access) : State :=
  let at_ := s.now + localTime (s.classOf r.core) a.kind
  match a.kind, a.vdest, b.st with
  | .store, _, _ => s.modSlot r fun sl => sl.dropAcc a.id
  | _, some (id, lane, _), .uncorrectable info =>
    s.modSlot r fun sl => (sl.dropAcc a.id).landElem id at_ fun v => v.fail lane a.ea info
  | _, some (id, lane, ft), _ =>
    s.modSlot r fun sl => (sl.dropAcc a.id).landElem id at_ fun v => v.take lane ft b.val.toNat
  | _, none, .performed =>
    if a.ended then s.lateWrite r b at_ else s.modSlot r fun sl => sl.setAcc { b with st := .arrived, arrive := at_ }
  | _, none, _ => s.modSlot r fun sl => if a.ended then sl.dropAcc a.id else sl.setAcc b

/-- R274, R279: an access that has been admitted meets its entry: only one that is detached or write-protected refuses
it, not a give or detach that waits for it (R311). -/
def admittedRefuses (w : Word) (write : Bool) : Option Bool :=
  if !bmV w then some false else if write && bmWp w then some true else none

/-- R20, R279: a local access performs at its bank, or is refused when its entry went while it was held. -/
def State.performLocal (s : State) (r : SlotRef) (a : Access) : State :=
  match admittedRefuses ((s.core r.core).bm (eaEntry a.ea)) (a.kind != .load) with
  | some wp =>
    let info := s.hintInfo r.core (eaEntry a.ea) wp false
    let s' := s.modSlot r fun sl => sl.dropAcc a.id
    if a.kind = .store ∨ a.vdest.isSome then s'.refuseAcc r a info
    else if a.ended then s'
    else s.modSlot r fun sl => sl.setAcc { a with st := .refused info }
  | none =>
    match s.performNext r.core ((s.slot r).accs.filter fun e => decide (e.id < a.id)) a with
    | (0, s, b) => s.landLocal r a b
    | (e, s, b) => (s.modSlot r fun sl => sl.setAcc b).work e (.otherHalf r.core r.slot a.id)

/-- A held access goes on. -/
def State.launchAcc (s : State) (r : SlotRef) (a : Access) : State :=
  let a := { a with needs := [] }
  if a.glob then s.routeAcc r a else s.performLocal r a

/-! ### Releases and stalls -/

/-- R127: the first held access of a slot that waits for nothing any more. -/
def Slot.freed (sl : Slot) : Option Access :=
  sl.accs.find? fun a => a.st == .held && decide (a.atTurn ≤ sl.turn) && !sl.waitsFor a.needs

/-- R289: held accesses go on as far as they can. -/
def State.launchHeld : Nat → SlotRef → State → State
  | 0, _, s => s
  | n + 1, r, s =>
    match (s.slot r).freed with
    | some a => State.launchHeld n r (s.launchAcc r a)
    | none => s

/-- The slot's next word issues on its first turn after this P-cycle (R289, R290). -/
def State.endStall (s : State) (r : SlotRef) : State := s.modSlot r fun sl => { sl with gate := .fromCycle (s.now + 1) }

/-- R290, R305: what a fence still waits for once its accesses are done. -/
def State.stallStage (s : State) (r : SlotRef) (e : StallEnd) : State :=
  let keep (e : StallEnd) : State := s.modSlot r fun sl => { sl with gate := .stalled ⟨none, [], [], e⟩ }
  match e with
  | .plain => s.endStall r
  | .place => (keep .placed).laterX 8 (.scOrderPlace r.core r.slot)
  | .device none => keep (.device (some s.now))
  | .panel none => keep (.panel (some s.now))
  | .layer t => if ((s.core r.core).done - t).toNat < 2 ^ 31 then s.endStall r else s
  | _ => s

/-- R289, R290: the slot's stall goes on as far as it can. -/
def State.settleStall (s : State) (r : SlotRef) : State :=
  let sl := s.slot r
  match sl.gate with
  | .stalled st => if sl.unseen st.vis || sl.waitsFor st.perf then s else s.stallStage r st.stage
  | _ => s

/-- R242: a message or notify joins the send queue; an idle queue offers its head in the next P-cycle. -/
def State.enqueue (s : State) (c : Nat) (m : Msg) : State :=
  let idle := (s.core c).sendq.isEmpty
  let s := { s with nextPkt := s.nextPkt + 1 }
  let s := s.modCore c fun x => { x with sendq := x.sendq ++ [{ m with id := s.nextPkt - 1 }] }
  if idle then s.later 1 (.headFlitLeaves c) else s

/-- R242: the core that a resolved name has. -/
def NameRes.dst : NameRes → Option Nat
  | .hit d | .away d => some d
  | _ => none

/-- R253: the bits of a NOTE go to their slot: 2 P-cycles later on the same core, through the send queue otherwise. One
that finds the 16-entry queue full (R242) waits among the releases of its slot. -/
def State.sendNote (s : State) (r : SlotRef) (name : BitVec 16) (dst : Option Nat) (tslot : Nat) (mask : BitVec 16)
    (scope : BitVec 3) (stamp : Word) (pc : BitVec 14) : State :=
  if mask = 0 then s
  else if dst = some r.core then s.later 2 (.notifyArrive r.core tslot mask)
  else if 16 ≤ (s.core r.core).sendq.length then
    s.modSlot r fun sl => { sl with pends := sl.pends ++ [⟨[], .note name dst tslot mask scope stamp pc⟩] }
  else s.enqueue r.core
    { id := 0, src := s.ownName r.core, isNotify := true, name := name, slot := r.slot, pc := pc, chan := 0, bytes := [],
      stamp := stamp, tslot := tslot, mask := mask, scope := scope, dst := dst }

/-- R274: a local access of a slot that was admitted to an entry has not completed yet. -/
def State.admitted (s : State) (c k : Nat) : Bool :=
  (List.range 8).any fun n => ((s.core c).slot n).accs.any fun a =>
    !a.glob && eaEntry a.ea == k && match a.st with
      | .arrived => decide (s.now < a.arrive)
      | .refused _ | .uncorrectable _ | .givenUp => false
      | _ => true

/-- R274: the last accesses admitted to an entry have completed at this P-cycle, as far as it is known. -/
def State.drainOf (s : State) (c k : Nat) : Nat :=
  maxOf s.now ((List.range 8).flatMap fun n =>
    (((s.core c).slot n).accs.filter fun a => !a.glob && eaEntry a.ea == k && a.st == .arrived).map (·.arrive))

/-- R274: an admitted give whose release is done re-points in the P-cycle after the last admitted access. -/
def State.giveReleased (s : State) (c id : Nat) : State :=
  match (s.core c).gives.find? fun g => g.id == id with
  | some g => if g.st = .releasing then s.later (s.drainOf c g.k - s.now + 1) (.giveRepoint c id) else s
  | none => s

/-- R253, R274, R311: what a release releases. -/
def State.doRelease (s : State) (r : SlotRef) (a : RelAct) : State :=
  match a with
  | .note name dst tslot mask scope stamp pc => s.sendNote r name dst tslot mask scope stamp pc
  | .give id => s.giveReleased r.core id
  | .barrier b => s.soon (.barrierArrival r.core b)

/-- R311: the releases of a slot whose accesses have all performed. -/
def State.settlePends (s : State) (r : SlotRef) : State :=
  let sl := s.slot r
  let ready := sl.pends.filter fun p => !sl.waitsFor p.needs
  let s := s.modSlot r fun sl => { sl with pends := sl.pends.filter fun p => sl.waitsFor p.needs }
  ready.foldl (fun s p => s.doRelease r p.act) s

/-- R289, R290, R311: after an access of a slot has changed, what waited for it goes on; a stall on an access whose
fault is due ends with that fault (R406). -/
def State.settle (s : State) (r : SlotRef) : State :=
  let s := (State.launchHeld (s.slot r).accs.length r s).settlePends r
  let sl := s.slot r
  match sl.stallAcc with
  | some id => if sl.due.any fun f => f.acc == some id then s else s.settleStall r
  | none => s.settleStall r

/-- R311: a release of the issuing slot: at once when nothing covered is outstanding. -/
def State.releaseThen (s : State) (scp : BitVec 3) (act : RelAct) : State :=
  let own := s.ownName s.cur.core
  let needs := s.me.unperformed fun a => a.covered scp own
  if needs.isEmpty then s.doRelease s.cur act
  else s.modMe fun sl => { sl with pends := sl.pends ++ [⟨needs, act⟩] }

/-- R15: a result becomes visible; nothing where none is due under that number. A fence that waits for it goes on
(R290). -/
def execResultWriteback (core slot id : Nat) (s : State) : Host.Outcome State Fault Refusal :=
  let r : SlotRef := ⟨core, slot⟩
  let sl := s.slot r
  onSlot core slot <|
    match sl.flights.find? fun f => f.id == id && f.due sl.turn s.now with
    | some f =>
      let s := s.modSlot r fun x => { x with flights := dropFirst (fun g => g.id == id) x.flights }
      (s.applyWrites r f.writes).settleStall r
    | none => s

/-- R299: the second half of a local `.q` access performs. -/
def State.otherHalf (s : State) (core slot id : Nat) : State :=
  let r : SlotRef := ⟨core, slot⟩
  match (s.slot r).acc? id with
  | some a => if a.st = .half then (s.performLocal r a).settle r else s
  | none => s

/-! ### LD, ST and AMO -/

/-- R285: the name fault an access shows on its issue turn. -/
def State.nameFault (s : State) (ea : Word) : Option Word := (s.resolve s.cur.core (eaName ea)).fault

/-- R285: the lowest cause of the issue checks of a scalar access, with FADDR and FINFO. -/
def State.accessFault (s : State) (ea : Word) (size : Nat) (write windowed : Bool) : Option (BitVec 8 × Word × Word) :=
  if ea.toNat % size ≠ 0 then some (0x08, ea, 0)
  else if isLocal ea then
    let w := s.myCore.bm (eaEntry ea)
    match entryRefuses w write with
    | some (pend, wp) => some (0x0A, ea, detachInfo ea pend wp 0)
    | none =>
      (s.frontConflict s.cur (bmIndex w) true).map fun p =>
        (0x0B, ea, conflictInfo (bmBank w) p.1 s.cur.slot ea p.2)
  else if isGlobal ea then
    match s.nameFault ea with
    | some info => some (0x0C, ea, info)
    | none => if windowed then none else some (0x0D, ea, 0)
  else some (0x09, ea, 0)

/-- R280: the window end: 2 × WIN P-cycles after issue, or the published latency at the bound class. -/
def windowOf (bound : Nat) (k : AccKind) (win now turn : Nat) : Nat × Nat :=
  if win ≠ 0 then (turn + 1, now + 2 * win)
  else if k = .amo then (turn + 10 + 2 * bound, 0)
  else (turn + 1, now + 6 + 2 * bound)

/-- R21, R289, R301: the earlier accesses of the slot that share bytes with a new one and must perform before it in the
core: of a local access all, but for the stores that serve a load; of a global one those still held there. -/
def Slot.sameByte (sl : Slot) (a : Access) : List Nat :=
  (sl.accs.filter fun e =>
    !e.isPerformed && e.st != .performed && e.overlaps a && (!a.glob || e.st == .held) && !(a.kind == .load && e.kind == .store)).map (·.id)

/-- R289: the accesses a new one waits for in the core: those its own release covers, and the earlier ones of the slot
that share its bytes. -/
def Slot.holdFor (sl : Slot) (a : Access) (own : BitVec 16) : List Nat :=
  let rel := match a.kind with
    | .load => a.ord == 3
    | _ => a.ord == 2 || a.ord == 3
  let covers := if rel then sl.unperformed fun e => e.covered a.scp own else []
  covers ++ sl.sameByte a

/-- R289: the stall that an ordered access starts, if any. -/
def stallOf (a : Access) : Option Stall :=
  let acq := (a.ord == 1 || a.ord == 3) && a.kind != .store
  let scw := a.ord == 3 && a.kind != .load
  if acq || scw then some ⟨some a.id, if acq then [a.id] else [], if scw then [a.id] else [], .plain⟩ else none

/-- R285 to R289: a scalar access that passed its checks issues. -/
def State.issueAccess (s : State) (a : Access) : State :=
  let r := s.cur
  let needs := s.me.holdFor a (s.ownName r.core)
  let a := { a with needs := needs }
  let s := s.modMe fun sl => { sl with accs := sl.accs ++ [a], nextId := sl.nextId + 1 }
  let s := if needs.isEmpty then s.launchAcc r a
    -- R285: a name that misses is walked from the issue on
    else if a.glob && s.resolve r.core a.name == .miss then s.startWalk r.core a.name
    else s
  let s := if a.glob || !needs.isEmpty then s else s.useFront r (bmIndex (s.myCore.bm (eaEntry a.ea)))
  let s := s.retire
  match stallOf a with
  | some st => (s.modMe fun sl => { sl with gate := .stalled st }).settleStall r
  | none => s

/-- R285: LD, ST and AMO: the checks of the issue turn, then the access. -/
def accessWord (h : Hdr) (o : FmtM) (s : State) (k : AccKind) (op : BitVec 4) (sx : Bool) :
    Host.Outcome State Fault Refusal :=
  word h s fun s =>
    let sl := s.me
    let ea := memAddr sl o (k != .amo)
    let size := sizeOf o.sz
    match s.accessFault ea size (k != .load) (o.win != 0) with
    | some (c, addr, info) => s.precise c addr info
    | none =>
      let loc := isLocal ea
      let w := windowOf (b2n s.myCore.boundCls) k o.win.toNat s.now sl.turn
      s.issueAccess
        { id := sl.nextId, kind := k, ea := ea, glob := !loc,
          name := if loc then s.ownName s.cur.core else eaName ea,
          size := size, sx := sx, atTurn := 0,
          data := if k = .amo then (sl.gr o.rb).setWidth 128 else sl.gr (o.rt + 1) ++ sl.gr o.rt,
          cmp := sl.gr o.rt, op := op, rt := o.rt, vdest := none, ord := o.ord, scp := o.scp, pc := sl.pc,
          cycle := s.now, turn := sl.turn, minTurn := w.1, minCycle := w.2, arrive := 0,
          st := .held, val := 0, ended := k == .store, needs := [] }

def execLd (h : Hdr) (o : FmtM) (s : State) : Host.Outcome State Fault Refusal :=
  accessWord h o s .load 0 (o.fnm == 1)

def execSt (h : Hdr) (o : FmtM) (s : State) : Host.Outcome State Fault Refusal := accessWord h o s .store 0 false

def execAmo (h : Hdr) (o : FmtM) (s : State) : Host.Outcome State Fault Refusal := accessWord h o s .amo o.fnm false

/-! ### Fences (R290, R305) -/

/-- R290: a fence: the earlier loads and AMOs it waits to see, the earlier accesses it waits to perform, and what
follows. -/
def fenceWord (h : Hdr) (o : FmtM) (s : State) (acq rel : Bool) (stage : State → StallEnd) :
    Host.Outcome State Fault Refusal :=
  word h s fun s =>
    let own := s.ownName s.cur.core
    let sl := s.me
    let vis := if acq then
        ((sl.accs.filter (·.unseen)).map (·.id)) ++ sl.vectorLoads
      else []
    let perf := if rel then sl.unperformed fun a => a.covered o.scp own else []
    let e := stage s
    (s.retire.modMe fun sl => { sl with gate := .stalled ⟨none, vis, perf, e⟩ }).settleStall s.cur

def execFenceAcq (h : Hdr) (o : FmtM) (s : State) : Host.Outcome State Fault Refusal :=
  fenceWord h o s true false fun _ => .plain

def execFenceRel (h : Hdr) (o : FmtM) (s : State) : Host.Outcome State Fault Refusal :=
  fenceWord h o s false true fun _ => .plain

def execFenceAr (h : Hdr) (o : FmtM) (s : State) : Host.Outcome State Fault Refusal :=
  fenceWord h o s true true fun _ => .plain

/-- R290, R305: FENCE.SC. -/
def execFenceSc (h : Hdr) (o : FmtM) (s : State) : Host.Outcome State Fault Refusal :=
  fenceWord h o s true true fun _ =>
    if o.scp.toNat < 3 then .place
    else if o.scp = 4 then .panel none
    else .device none

/-- R290: FENCE.LAYER. -/
def execFenceLayer (h : Hdr) (o : FmtM) (s : State) : Host.Outcome State Fault Refusal :=
  fenceWord h o s false false fun s => .layer s.myCore.issued

/-- R290, R304: the bank switch places a fence in its SC order, which ends the stall. -/
def execScOrderPlace (core slot : Nat) (s : State) : Host.Outcome State Fault Refusal :=
  let r : SlotRef := ⟨core, slot⟩
  onSlot core slot <|
    match (s.slot r).gate with
    | .stalled ⟨_, _, _, .placed⟩ =>
      (s.modCluster (clusterOf core) fun k => { k with scOrder := k.scOrder ++ [(s.now, core, slot)] }).endStall r
    | _ => s

/-! ### Ends of accesses (R264, R275, R279, R280, R300, R313) -/

/-- R280: the window end of a load or AMO. -/
def State.endWindow (s : State) (r : SlotRef) (a : Access) : State :=
  let missed (s : State) : State := s.deferAcc r a 0x05 0 (missInfo a) true
  match a.st with
  | .arrived =>
    if a.arrive ≤ s.now then (s.modSlot r fun sl => sl.dropAcc a.id).applyWrites r a.writes
    else (missed s).lateWrite r a a.arrive
  | .refused info => (s.modSlot r fun sl => sl.dropAcc a.id).refuseAcc r a info
  | .uncorrectable info => (s.modSlot r fun sl => sl.dropAcc a.id).deferAcc r a 0x39 a.ea info false
  | .givenUp => missed (s.modSlot r fun sl => sl.dropAcc a.id)
  | _ => missed (s.modSlot r fun sl => sl.setAcc { a with ended := true })

def execWindowEnd (core slot id : Nat) (s : State) : Host.Outcome State Fault Refusal :=
  let r : SlotRef := ⟨core, slot⟩
  let sl := s.slot r
  onSlot core slot <|
    match sl.acc? id with
    | some a =>
      if !a.ended && decide (a.minTurn ≤ sl.turn) && decide (a.minCycle ≤ s.now) then (s.endWindow r a).settle r else s
    | none => s

/-- R279, R280: an access's answer reaches its slot. -/
def State.answer (s : State) (r : SlotRef) (b : Access) : State :=
  match (s.slot r).acc? b.id with
  | none => s
  | some a =>
    let drop (s : State) : State := s.modSlot r fun sl => sl.dropAcc b.id
    let s : State := match b.st with
      | .refused info =>
        if a.kind = AccKind.store then (drop s).refuseAcc r a info
        else if a.ended then drop s
        else s.modSlot r fun sl => sl.setAcc { a with st := .refused info }
      | .uncorrectable info =>
        if a.ended then drop s else s.modSlot r fun sl => sl.setAcc { a with st := .uncorrectable info }
      | _ =>
        if a.kind = AccKind.store then drop s
        else if a.ended then s.lateWrite r { a with val := b.val } s.now
        else s.modSlot r fun sl => sl.setAcc { a with st := .arrived, arrive := s.now, val := b.val }
    s.settle r

/-- R275: a global access to an entry whose give is pending waits at the switch. -/
def State.atGive (s : State) (c k : Nat) : Bool := (s.core c).gives.any fun g => g.k == k

/-- R275: an entry is reserved as the target of a give. -/
def State.giveTarget (s : State) (c k : Nat) : Bool :=
  s.cores.any fun p => p.2.gives.any fun g => g.tgt == c && g.j == k && g.st == .releasing

/-- R274, R311: a give of a core that waits for an access of its slot to perform. -/
def State.giveNeeds (s : State) (c k : Nat) (r : SlotRef) (id : Nat) : Bool :=
  r.core == c && (s.core c).gives.any fun g =>
    g.k == k && g.node.isNone && g.slot == r.slot && (s.slot r).pends.any fun p => p.act == .give g.id && p.needs.contains id

/-- R21, R301: an earlier access of the same slot to one of its bytes that must perform first. -/
def Slot.mustFollow (sl : Slot) (a : Access) : Bool :=
  sl.accs.any fun e => decide (e.id < a.id) && !e.isPerformed && e.overlaps a && !(a.kind == .load && e.kind == .store) &&
    e.st != .performed

/-- R264, R279: a global access meets the target's bank map and performs, or is refused. -/
def State.meetTarget (s : State) (tgt : Nat) (earlier : List Access) (a : Access) : Nat × State × Access :=
  let w := (s.core tgt).bm (eaEntry a.ea)
  if !bmV w then
    -- R275: an entry reserved as the target of a give gives no hint
    (0, s, { a with st := .refused (s.hintInfo tgt (eaEntry a.ea) false (s.giveTarget tgt (eaEntry a.ea))) })
  else if a.kind != .load && bmWp w then (0, s, { a with st := .refused (s.hintInfo tgt (eaEntry a.ea) true false) })
  else s.performNext tgt earlier a

/-- R207: a write segment of an AG has not been performed at its target: the lens of the AG takes the fault. -/
def State.agRefused (s : State) (c n : Nat) (detail : BitVec 8) (a : Word) (bank : Nat) : State :=
  let g := (s.core c).ag n
  let s := s.modCore c fun x => x.modAg n fun g => { g with pending := g.pending - 1 }
  s.modLens g.lens fun l => l.raise (l.agEvent c n 0 (bits g.desc 116 4) 0x30 detail a bank)

/-- R207, R279: a write segment of an AG meets the target's bank map. -/
def State.meetSegment (s : State) (tgt : Nat) (ea : Word) (parts : List (Word × List Byte)) : State × BitVec 8 :=
  let w := (s.core tgt).bm (eaEntry ea)
  if !bmV w || bmWp w then (s, 0x0A) else (parts.foldl (fun s p => s.winPoke tgt p.1 p.2) s, 0)

/-- R346: what an AG's read comes to at its target: the bytes, or why there are none. -/
def State.meetRead (s : State) (tgt : Nat) (ea : Word) (n : Nat) : List Byte × Option AgErr :=
  let w := (s.core tgt).bm (eaEntry ea)
  let key := (s.core tgt).winKey ea
  if !bmV w then ([], some ⟨0x30, 0x0A, ea, bmBank w⟩)
  else if s.hasErr key n then ([], some ⟨0x39, 0, ea, bmBank w⟩)
  else (s.bytes key n, none)

/-- R275, R301: a request that has arrived at a bank must still wait: for the re-point of a give that does not wait for it
(R311), or for an earlier access of its slot to one of its bytes. -/
def State.requestWaits (s : State) (p : Packet) : Bool :=
  match p.cargo with
  | .access a =>
    let r : SlotRef := ⟨p.src, p.slot⟩
    let k := eaEntry a.ea
    (s.atGive p.dst k && !s.giveNeeds p.dst k r a.id) || (s.slot r).mustFollow a
  | .agWrite _ ea _ _ => s.atGive p.dst (eaEntry ea)
  | .agRead _ _ _ ea _ _ _ _ => s.atGive p.dst (eaEntry ea)
  | _ => false

/-- R376: a request that cannot begin waits on at its bank. -/
def State.retry (s : State) (p : Packet) : State := s.backPort ((s.packetBank p).getD 0) (.ev p.arrival)

/-- R264, R288: a global access of a slot at its target. -/
def State.arriveAccess (s : State) (p : Packet) (a : Access) : State :=
  let r : SlotRef := ⟨p.src, p.slot⟩
  let respond (s : State) : State := s.laterX (s.responseLeg p.src p.dst a.kind) (.globalResponseArrive p.id)
  if p.answered || decide (767 < p.dst) then s
  else if p.performed then respond s
  else
    match s.seqFate p with
    | .early => s.park p
    | .duplicate => respond s
    | .perform =>
      if s.requestWaits p then s.retry p
      else
        let (e, s, b) := s.meetTarget p.dst ((s.slot r).accs.filter fun e => decide (e.id < a.id)) a
        if e ≠ 0 then (s.modPacket p.id fun p => { p with cargo := .access b }).later e (.globalRequestArrive p.id)
        else
          let s := s.modPacket p.id fun p => { p with performed := true, cargo := .access b }
          let s := (respond s).accepted p
          match (s.slot r).acc? a.id with
          | some c =>
            if b.st = .performed then (s.modSlot r fun sl => sl.setAcc { c with st := .performed, val := b.val }).settle r
            else s
          | none => s

/-- R207, R284: a write segment of an AG at its target; a bulk vertical transfer of the AG's core is done. -/
def State.arriveSegment (s : State) (p : Packet) (ag : Nat) (ea : Word) (parts : List (Word × List Byte)) : State :=
  let respond (s : State) : State := s.laterX (s.responseLeg p.src p.dst .store) (.globalResponseArrive p.id)
  if 767 < p.dst then s
  else if p.performed then respond s
  else
    match s.seqFate p with
    | .early => s.park p
    | .duplicate => respond s
    | .perform =>
      if s.requestWaits p then s.retry p
      else
        let (s, f) := s.meetSegment p.dst ea parts
        let s := s.modPacket p.id fun p => { p with performed := true, cargo := .agWrite ag ea parts f }
        let s := (respond s).accepted p
        if p.orphan then s else s.later (s.classOf p.dst) (.bulkTransferDone p.src)

/-- R208: a read of an AG at its target. -/
def State.arriveRead (s : State) (p : Packet) (ag lane rd : Nat) (ea : Word) (n : Nat) (sc : Bool) : State :=
  let respond (s : State) : State := s.laterX (s.responseLeg p.src p.dst .load) (.globalResponseArrive p.id)
  if 767 < p.dst then s
  else if p.performed then respond s
  else if s.requestWaits p then s.retry p
  else
    let (bs, err) := s.meetRead p.dst ea n
    respond (s.modPacket p.id fun p => { p with performed := true, cargo := .agRead ag lane rd ea n sc bs err })

def execGlobalRequestArrive (pkt : Nat) (s : State) : Host.Outcome State Fault Refusal :=
  .next <|
    match s.packet? pkt with
    | none => s
    | some p =>
      match p.cargo with
      | .access a => s.arriveAccess p a
      | .agWrite ag ea parts _ => s.arriveSegment p ag ea parts
      | .agRead ag lane rd ea n sc _ _ => s.arriveRead p ag lane rd ea n sc
      | _ => s

/-- R208: an AG's read is answered. -/
def AgRead.answer (x : AgRead) (sc : Bool) (bs : List Byte) (err : Option AgErr) : AgRead :=
  let x := { x with left := x.left - 1, err := x.err.or err }
  if sc then { x with scale := bs } else { x with bytes := bs }

def execGlobalResponseArrive (pkt : Nat) (s : State) : Host.Outcome State Fault Refusal :=
  .next <|
    match s.packet? pkt with
    | none => s
    | some p =>
      if p.performed && p.orphan then s.dropPacket pkt
      else
      match p.cargo with
      | .access b => if p.performed then (s.dropPacket pkt).answer ⟨p.src, p.slot⟩ b else s
      | .agWrite ag ea _ f =>
        if !p.performed then s
        else
          let s := s.dropPacket pkt
          if f = 0 then s.modCore p.src fun x => x.modAg ag fun g => { g with pending := g.pending - 1 }
          else s.agRefused p.src ag f ea (bmBank ((s.core p.dst).bm (eaEntry ea)))
      | .agRead ag lane rd _ _ sc bs err =>
        if !p.performed then s
        else
          ((s.dropPacket pkt).modCore p.src fun x => x.modAg ag fun g =>
            { g with
              lanes := g.lanes.map fun q =>
                if q.1 = lane then
                  (q.1, { q.2 with reads := q.2.reads.map fun x => if x.id = rd then x.answer sc bs err else x })
                else q }).soon (.agFetch p.src ag 0)
      | _ => s

end Sys2Proof.Machine
end

