-- ==== Sys2Proof/Machine/Bank.lean ====
section
/-! DEFINITION. Banks that change hands: GIVE, BATT, BDET and BQRY and the bank switch's part in them (R265, R269 to
R278). -/

namespace Sys2Proof.Machine

/-- R272: a BSTAT value. -/
def bstatWord (pend : Bool) (op k status : Nat) : BitVec 16 :=
  BitVec.ofNat 16 (b2n pend * 32768 + op * 4096 + k % 16 * 256 + status)

def Slot.setB (sl : Slot) (pend : Bool) (op k status : Nat) : Slot := { sl with bstat := bstatWord pend op k status }

/-- R272: the status of a slot's latest command becomes final. -/
def Slot.finishB (sl : Slot) (op k status : Nat) : Slot :=
  if sl.bstat = bstatWord true op k 0 then sl.setB false op k status else sl

/-- R274: an entry lies in the entry set of a LOADED or active AG or of an unfinished engine operation of the core. -/
def Core.entryInUse (x : Core) (k : Nat) : Bool :=
  ((List.range 4).any fun n =>
    let a := x.ag n
    a.eset.getLsbD k && (a.st == .loaded || a.st == .run || a.st == .starve || a.st == .edgeWait)) ||
  x.nodes.any fun p =>
    p.2.eset.getLsbD k && (p.2.st == .armed || p.2.st == .running) && decide (1 ≤ p.2.kind.toNat ∧ p.2.kind.toNat ≤ 3)

/-- R274: a target that is not in the giver's cluster or not in its task's frame. -/
def State.foreign (s : State) (c tgt : Nat) : Bool :=
  clusterOf tgt != clusterOf c || (s.core tgt).task != (s.core c).task

/-- The admission of a give follows its issue or its walk by 4 P-cycles (R274); its request is a packet to the target
core (R313). -/
def State.startGive (s : State) (c : Nat) (g : Give) (res : NameRes) : State :=
  match res with
  | .hit tgt =>
    (((s.useName c g.name).modCore c fun x =>
      { x with gives := x.gives ++ [{ g with tgt := tgt, st := .admitting }] }).stage c tgt
        (match g.node with
          | some n => 16 + n
          | none => g.slot) g.pc g.name (.give g.id)).2.later 4 (.giveAdmission c g.id)
  | .miss => (s.modCore c fun x => { x with gives := x.gives ++ [g] }).startWalk c g.name
  | _ => s.modCore c fun x => { x with gives := x.gives ++ [g] }

/-- R265, R274: an entry's PEND is set for a give, and its bank is pending. -/
def State.reserveGive (s : State) (c k : Nat) : State :=
  let w := (s.core c).bm k
  (s.modCore c fun x => x.setBm k (bmSetPend w true)).modBank (bmIndex w) fun b => { b with st := .pending c k }

/-- R265, R274: a give that does not come about leaves its entry and bank attached. -/
def State.freeGive (s : State) (c : Nat) (g : Give) : State :=
  let w := (s.core c).bm g.k
  (s.modCore c fun x => x.setBm g.k (bmSetPend w false)).modBank (bmIndex w) fun b => { b with st := .attached c g.k }

/-- R273, R274: GIVE. -/
def execGive (h : Hdr) (o : FmtM) (s : State) : Host.Outcome State Fault Refusal :=
  word h s fun s =>
    let c := s.cur.core
    let sl := s.me
    let reg := sl.gr o.ra
    let name := reg.setWidth 16
    let k := bits o.off 0 4
    let j := bits o.off 4 4
    let res := if bits reg 16 48 ≠ 0 then NameRes.bad else s.resolve c name
    match res.fault with
    | some info => s.precise 0x0C reg info
    | none =>
      let w := s.myCore.bm k
      let refuse (st : Nat) : State := (s.modMe fun sl => sl.setB false 1 k st).retire
      if !bmV w then refuse 5
      else if bmPend w then refuse 1
      else if (match res with
          | .hit tgt => s.foreign c tgt
          | .away _ => true
          | _ => false) then refuse 3
      else
        let id := s.nextPkt
        let s := { s with nextPkt := id + 1 }
        let s := s.modMe fun sl => sl.setB true 1 k 0
        let s := s.reserveGive c k
        let needs := s.me.unperformed fun _ => true
        let s := if needs.isEmpty then s else s.modMe fun sl => { sl with pends := sl.pends ++ [⟨needs, .give id⟩] }
        (s.startGive c
          { id := id, slot := s.cur.slot, k := k, j := j, name := name, tgt := 768, st := .walking, node := none,
            pc := sl.pc } res).retire

def Core.give? (x : Core) (id : Nat) : Option Give := x.gives.find? fun g => g.id == id

def Core.dropGive (x : Core) (id : Nat) : Core := { x with gives := dropFirst (fun g => g.id == id) x.gives }

/-- R274, R330: a give has its final status: in its slot's BSTAT, or in its node, which then completes. -/
def State.endGive (s : State) (c : Nat) (g : Give) (status : Nat) : State :=
  let s := s.modCore c fun x => x.dropGive g.id
  match g.node with
  | none => s.modSlot ⟨c, g.slot⟩ fun sl => sl.finishB 1 g.k status
  | some n => s.nodeEnd c n (if status = 0 then 0 else 0xF4) (BitVec.ofNat 8 status)

/-- R274: Refuse. -/
def State.refuseGive (s : State) (c : Nat) (g : Give) (status : Nat) : State := (s.freeGive c g).endGive c g status

/-- R313: the request packet of a give. -/
def State.givePacket (s : State) (c id : Nat) : Option Packet :=
  s.packets.find? fun p => p.src == c && p.cargo == .give id

/-- R274: the switch admits a give or refuses it. -/
def State.admitGive (s : State) (core : Nat) (g : Give) : State :=
  let t := (s.core g.tgt).bm g.j
  if (s.core core).entryInUse g.k then s.refuseGive core g 1
  else if (s.core g.tgt).retired then s.refuseGive core g 3
  else if bmV t || bmPend t then s.refuseGive core g 2
  else
    let s := s.modCore g.tgt fun y => y.setBm g.j (bmSetPend (y.bm g.j) true)
    let s := s.modCore core fun y =>
      { y with gives := updFirst (fun x => x.id == g.id) (fun x => { x with st := .releasing }) y.gives }
    let waits := g.node.isNone && (s.slot ⟨core, g.slot⟩).pends.any fun p => p.act == .give g.id
    if waits then s else s.giveReleased core g.id

/-- R274, R313: a give's request reaches the switch. -/
def execGiveAdmission (core id : Nat) (s : State) : Host.Outcome State Fault Refusal :=
  onCore core <|
    match (s.core core).give? id with
    | none => s
    | some g =>
      if g.st ≠ .admitting then s
      else
        match s.givePacket core id with
        | none => s.admitGive core g
        | some p =>
          match s.seqFate p with
          | .early => s.park p
          | .duplicate => s.dropPacket p.id
          | .perform => ((s.admitGive core g).accepted p).dropPacket p.id

/-- R276: a new record replaces the oldest of 32; the record of an entry that is attached again goes. -/
def Cluster.addFwd (k : Cluster) (f : Fwd) : Cluster :=
  { k with fwd := (if k.fwd.length < 32 then k.fwd else k.fwd.drop 1) ++ [f] }

def Cluster.dropFwd (k : Cluster) (core e : Nat) : Cluster :=
  { k with fwd := k.fwd.filter fun f => !(f.core == core && f.k == e) }

/-- R274: the re-point. -/
def execGiveRepoint (core id : Nat) (s : State) : Host.Outcome State Fault Refusal :=
  onCore core <|
    match (s.core core).give? id with
    | none => s
    | some g =>
      if g.st ≠ .releasing then s
      else if s.admitted core g.k then s.later 1 (.giveRepoint core id)
      else
        let w := (s.core core).bm g.k
        let b := bmIndex w
        let gen := (s.bank b).gen + 1
        let s := s.modBank b fun _ => ⟨gen, .attached g.tgt g.j⟩
        let s := s.modCore core fun x => x.setBm g.k (bmSetPend (bmSetV (x.bm g.k) false) false)
        let s := s.modCore g.tgt fun x => x.setBm g.j (bmMake true false false (bmCl w) (bmBank w) gen.toNat)
        let s := s.modCluster (clusterOf core) fun k =>
          (k.dropFwd g.tgt g.j).addFwd ⟨core, g.k, g.name, g.j, b, gen⟩
        let s := s.later 2 (.notifyArrive core g.slot 0x4000)
        let s := s.later 2 (.notifyArrive g.tgt (s.core g.tgt).bnslot.toNat 0x8000)
        s.endGive core g 0

/-- R277: the lowest-numbered pooled bank of a cluster. -/
def State.pooled (s : State) (cl : Nat) : Option Nat :=
  ((List.range 128).map fun i => cl * 128 + i).find? fun b => (s.bank b).st == .pooled

/-- R270: the banks that a task holds in a cluster. -/
def State.holding (s : State) (cl : Nat) (t : Option Nat) : Nat :=
  ((List.range 128).filter fun i =>
    match (s.bank (cl * 128 + i)).st with
    | .attached c _ | .pending c _ => (s.core c).task == t
    | _ => false).length

/-- R277: BATT. -/
def execBatt (h : Hdr) (o : FmtM) (s : State) : Host.Outcome State Fault Refusal :=
  word h s fun s =>
    let c := s.cur.core
    let cl := clusterOf c
    let k := bits o.off 0 4
    let w := s.myCore.bm k
    let refuse (st : Nat) : State := (s.modMe fun sl => sl.setB false 2 k st).retire
    if bmV w || bmPend w then refuse 2
    else
      match s.pooled cl with
      | none => refuse 4
      | some b =>
        if (s.recOf c).quota ≤ s.holding cl s.myCore.task then refuse 4
        else
          let s := s.modMe fun sl => sl.setB true 2 k 0
          let s := s.modMyCore fun x => x.setBm k (bmSetPend w true)
          let s := s.modBank b fun y => { y with st := .pending c k }
          (s.laterWithin 1 (if (s.cluster cl).cls then 8256 else 4160) (.battComplete c k)).retire

/-- The bank that an attach in progress of a core's entry has taken. -/
def State.pendingBank (s : State) (c k : Nat) : Option Nat :=
  if bmV ((s.core c).bm k) then none
  else ((List.range 128).map fun i => clusterOf c * 128 + i).find? fun b => (s.bank b).st == .pending c k

/-- R277: the slots of a core learn the end of a BATT or BDET. -/
def Core.finishB (x : Core) (op k status : Nat) : Core :=
  { x with slots := x.slots.map fun p => (p.1, p.2.finishB op k status) }

def execBattComplete (core k : Nat) (s : State) : Host.Outcome State Fault Refusal :=
  onCore core <|
    match s.pendingBank core k with
    | none => s
    | some b =>
      let gen := (s.bank b).gen + 1
      let s := (s.zeroBank b).modBank b fun _ => ⟨gen, .attached core k⟩
      let s := s.modCore core fun x =>
        (x.setBm k (bmMake true false (bmWp (x.bm k)) (b / 128) (b % 128) gen.toNat)).finishB 2 k 0
      s.modCluster (clusterOf core) fun y => y.dropFwd core k

/-- R277: BDET. -/
def execBdet (h : Hdr) (o : FmtM) (s : State) : Host.Outcome State Fault Refusal :=
  word h s fun s =>
    let c := s.cur.core
    let k := bits o.off 0 4
    let w := s.myCore.bm k
    let refuse (st : Nat) : State := (s.modMe fun sl => sl.setB false 3 k st).retire
    if !bmV w then refuse 5
    else if bmPend w || s.myCore.entryInUse k then refuse 1
    else
      let s := s.modMe fun sl => sl.setB true 3 k 0
      let s := s.modMyCore fun x => x.setBm k (bmSetPend w true)
      (s.laterWithin (s.drainOf c k - s.now + 1) 96 (.bdetComplete c k)).retire

def execBdetComplete (core k : Nat) (s : State) : Host.Outcome State Fault Refusal :=
  let x := s.core core
  let w := x.bm k
  onCore core <|
    if bmV w && bmPend w && !x.gives.any (fun g => g.k == k) then
      if s.admitted core k then s.later 1 (.bdetComplete core k)
      else
      let s := s.modBank (bmIndex w) fun b => { b with st := .pooled }
      s.modCore core fun x => (x.setBm k (bmSetPend (bmSetV (x.bm k) false) false)).finishB 3 k 0
    else s

/-! ### BQRY (R278) -/

/-- R278: what a switch answers about an entry of a core. -/
def State.queryWord (s : State) (c k : Nat) : Word :=
  let w := (s.core c).bm k
  let st := b2n (bmV w) * 2 ^ 62 + b2n (bmPend w) * 2 ^ 61
  match s.hint c k with
  | some f => w64 (2 ^ 63 + st + f.name.toNat * 2 ^ 36 + f.j % 16 * 2 ^ 32 + f.gen.toNat)
  | none => w64 (st + bmGen w)

/-- R278, R281: P-cycles until the request reaches the switch, and from then until the answer is visible. -/
def State.queryTimes (s : State) (c tgt : Nat) : Nat × Nat :=
  if clusterOf c = clusterOf tgt then (4, 4) else (s.requestLeg c tgt, s.responseLeg c tgt .load)

/-- The core whose entry a BQRY address names, as far as its name is known. -/
def State.queryTarget (s : State) (c : Nat) (ea : Word) : NameRes :=
  if isLocal ea then .hit c else s.resolve c (eaName ea)

/-- R278: the query leaves for its switch once its name is resolved. -/
def State.askQuery (s : State) (r : SlotRef) (own : Option Nat) (ea : Word) (rt : BitVec 5) (pc : BitVec 14) : State :=
  let hold (tgt : Option Nat) (s : State) : State :=
    s.modSlot r fun sl => { sl with gate := .stalled ⟨own, [], [], .bqry ea rt pc tgt⟩ }
  match s.queryTarget r.core ea with
  | .hit tgt =>
    (hold (some tgt) (if isLocal ea then s else s.useName r.core (eaName ea))).laterX (s.queryTimes r.core tgt).1
      (.bqryAnswer r.core r.slot)
  | .away dst => hold (some dst) (s.useName r.core (eaName ea))
  | .miss => (hold none s).startWalk r.core (eaName ea)
  | .unmapped ret cut => (hold (some 768) s).defer r own 0x0C (some pc) ea (nameInfo ret cut) s.now none
  | _ => hold none s

def execBqry (h : Hdr) (o : FmtM) (s : State) : Host.Outcome State Fault Refusal :=
  word h s fun s =>
    let sl := s.me
    let ea := sl.gr o.ra
    if !isLocal ea && !isGlobal ea then s.precise 0x09 ea 0
    else
      match (s.queryTarget s.cur.core ea).fault with
      | some info => s.precise 0x0C ea info
      | none =>
        let s := (s.modMe fun x => { x with nextId := x.nextId + 1 }).retire
        s.askQuery s.cur (some sl.nextId) ea o.rt sl.pc

/-- R278: the answer to a query is visible from a P-cycle on, and the next word issues after it. -/
def State.queryDone (s : State) (r : SlotRef) (rt : BitVec 5) (v : Word) (at_ : Nat) : State :=
  s.modSlot r fun sl =>
    { sl with
      flights := sl.flights ++ [⟨sl.nextId, 0, at_, [.g rt v]⟩]
      nextId := sl.nextId + 1
      gate := .fromCycle (at_ + 1) }

/-- R278: the switch samples the entry; the slot sees the answer and its stall ends. The answer of another die's switch is
an input of the outside. -/
def execBqryAnswer (core slot : Nat) (s : State) : Host.Outcome State Fault Refusal :=
  let r : SlotRef := ⟨core, slot⟩
  onSlot core slot <|
    match (s.slot r).gate with
    | .stalled ⟨_, _, _, .bqry ea rt _ (some tgt)⟩ =>
      if tgt < 768 then s.queryDone r rt (s.queryWord tgt (eaEntry ea)) (s.now + (s.queryTimes core tgt).2) else s
    | _ => s

/-- R278: the switch of another die answers a query. -/
def State.farQuery (s : State) (r : SlotRef) (v : Word) : State :=
  match (s.slot r).gate with
  | .stalled ⟨_, _, _, .bqry _ rt _ (some tgt)⟩ => if 1024 ≤ tgt then s.queryDone r rt v s.now else s
  | _ => s

end Sys2Proof.Machine
end

