-- ==== Sys2Proof/Machine/Message.lean ====
section
/-! DEFINITION. Messages, receives, notifies and the name cache (R233 to R248, R252 to R254, R313, R354). -/

namespace Sys2Proof.Machine

/-! ### SEND (R242 to R244) -/

/-- R243: the address check of a mesh instruction: 0x09 outside the window or over two entries, 0x0A for an entry that
is not attached. -/
def rangeFault (x : Core) (a : Word) (len : Nat) : Option (BitVec 8 × Word × Word) :=
  if !isLocal a || eaEntry a != eaEntry (a + w64 (len - 1)) || !isLocal (a + w64 (len - 1)) then some (0x09, a, 0)
  else (entryRefuses (x.bm (eaEntry a)) false).map fun p => (0x0A, a, detachInfo a p.1 p.2 0)

/-- R244: the length and alignment rules. -/
def lengthFault (a : Word) (len : Word) : Option (BitVec 8 × Word × Word) :=
  if len = 0 ∨ 256 < len.toNat then some (0x09, a, 0)
  else if a.toNat % 8 ≠ 0 ∨ len.toNat % 8 ≠ 0 then some (0x08, a, 0)
  else none

/-- R235: the name register of an instruction: the bits above its fields must be zero. -/
def State.resolveReg (s : State) (reg : Word) (used : Nat) : NameRes :=
  if bits reg used (64 - used) ≠ 0 then .bad else s.resolve s.cur.core (reg.setWidth 16)

/-- R236: a miss of a SEND or NOTE is counted. -/
def State.countMiss (s : State) (res : NameRes) : State :=
  if res = .miss then s.modMyCore fun x => { x with miss := if x.miss = 0xFFFFFFFF then x.miss else x.miss + 1 } else s

/-- R235: a name that a SEND or NOTE resolves: a hit is used, a miss is walked. -/
def State.useResolved (s : State) (n : BitVec 16) (res : NameRes) : State :=
  match res with
  | .hit _ => s.useName s.cur.core n
  | .miss => s.startWalk s.cur.core n
  | _ => s

/-- R21, R244: the source of a SEND, read as one load of the slot. -/
def State.sourceAccess (s : State) (a : Word) (len : Nat) : Access :=
  let sl := s.me
  { id := sl.nextId, kind := .load, ea := a, glob := false, name := s.ownName s.cur.core, size := len, sx := false,
    data := 0, cmp := 0, op := 0, rt := 0, vdest := none, atTurn := 0, ord := 0, scp := 0, pc := sl.pc, cycle := s.now,
    turn := sl.turn, minTurn := 0, minCycle := 0, arrive := 0, st := .held, val := 0, ended := true, needs := [] }

/-- R244: the first check of a SEND that fails. -/
def State.sendFault (s : State) (reg src len : Word) (res : NameRes) : Option (BitVec 8 × Word × Word) :=
  match lengthFault src len with
  | some f => some f
  | none =>
    match rangeFault s.myCore src len.toNat with
    | some f => some f
    | none => res.fault.map fun info => (0x0C, reg, info)

def execSendMsg (h : Hdr) (o : FmtA) (s : State) : Host.Outcome State Fault Refusal :=
  word h s fun s =>
    let sl := s.me
    let c := s.cur.core
    let reg := sl.gr o.ra
    let src := sl.gr o.rb
    let len := sl.gr o.rc
    let res := s.resolveReg reg 16
    match s.sendFault reg src len res with
    | some (cause, addr, info) => s.precise cause addr info
    | none =>
      let a := s.sourceAccess src len.toNat
      let waits := sl.accs.any fun e => e.kind == .amo && !e.isPerformed && e.overlaps a
      if 16 ≤ s.myCore.sendq.length || waits then s.modMe fun sl => { sl with gate := .offer }
      else
        if s.hasErr (s.myCore.winKey src) len.toNat then
          -- R353: the source is a load of the slot
          s.retire.defer s.cur none 0x39 (some sl.pc) src (eccInfo (bmBank (s.myCore.bm (eaEntry src))) src 0) s.now none
        else
          let fwd := sl.accs.filter fun e => e.kind == .store && !e.isPerformed && e.st != .performed && e.overlaps a
          let bs := overlayStores a fwd (s.winBytes c src len.toNat)
          (((s.countMiss res).useResolved (reg.setWidth 16) res).enqueue c
            { id := 0, src := s.ownName c, isNotify := false, name := reg.setWidth 16, slot := s.cur.slot, pc := sl.pc,
              chan := bits o.fn 0 4, bytes := bs, stamp := s.cycle c, tslot := 0, mask := 0, scope := 0, dst := res.dst }).retire

/-! ### The send queue (R235, R241, R242) -/

/-- R241: the flits of a message or notify. -/
def Msg.flits (m : Msg) : Nat := 1 + ceilDiv m.bytes.length 32

/-- R241: the nominal latency. -/
def State.latency (s : State) (src dst flits : Nat) : Nat :=
  let (h, z, x) := (s.way src dst).getD (0, 0, 0)
  8 + 3 * h + 2 * z + 33 * x + (flits - 1) + 2 * (s.classOf src + if dst < 768 then s.classOf dst else 0)

/-- R235, R330: a message whose name is found unmapped is discarded, and its slot takes 0x0C; the notify of a WAKE node
(a sender above 15) ends the node. -/
def State.discardMsg (s : State) (c : Nat) (m : Msg) (info : Word) : State :=
  if 16 ≤ m.slot then s.nodeEnd c (m.slot - 16) 0x0C (BitVec.ofNat 8 (b2n (info.getLsbD 1)))
  else s.defer ⟨c, m.slot⟩ none 0x0C (some m.pc) (w64 (m.name.toNat + if m.isNotify then m.tslot * 65536 else 0)) info s.now none

/-- R238: what a message or notify carries. -/
def Msg.cargo (m : Msg) : Cargo :=
  if m.isNotify then .notify m.tslot m.mask m.scope m.stamp m.src else .message m.chan m.bytes m.stamp m.src

/-- R242: the releases of a core's slots that wait for an entry of the send queue go on. -/
def State.settleNotes (s : State) (c : Nat) : State := (List.range 8).foldl (fun s k => s.settlePends ⟨c, k⟩) s

/-- The head of the send queue leaves for its destination. One that is cut off by now has no path (R354). -/
def State.leave (s : State) (c dst : Nat) (m : Msg) : State :=
  let s := s.modCore c fun x => { x with sendq := x.sendq.drop 1 }
  let s :=
    if m.isNotify && dst == c then
      let s := s.later 2 (.notifyArrive c m.tslot m.mask)
      if 16 ≤ m.slot then s.nodeEndIn 2 c (m.slot - 16) 0 0 else s
    else
      let (id, s) := s.stage c dst m.slot m.pc m.name m.cargo
      if dst < 768 then
        (if s.cutOff c dst then s.later 1 (.niGiveUp id) else s.laterX (s.latency c dst m.flits - 1) (.messageArrive id))
      else s
  let s := if (s.core c).sendq.isEmpty then s else s.later m.flits (.headFlitLeaves c)
  s.settleNotes c

/-- R235, R242: the head of the queue leaves with its route; one whose name was not mapped when it was issued leaves once
the name is mapped and not frozen. -/
def execHeadFlitLeaves (core : Nat) (s : State) : Host.Outcome State Fault Refusal :=
  onCore core <|
    match (s.core core).sendq with
    | [] => s
    | m :: rest =>
      let drop (info : Word) : State :=
        let s := (s.modCore core fun x => { x with sendq := rest }).discardMsg core m info
        (if rest.isEmpty then s else s.later 1 (.headFlitLeaves core)).settleNotes core
      match (match m.dst with
        | some d => NameRes.hit d
        | none => s.lookup core m.name) with
      | .hit dst => (if m.dst.isSome then s else s.useName core m.name).leave core dst m
      | .away dst => (s.useName core m.name).leave core dst m
      | .miss => s.startWalk core m.name
      | .frozen => s
      | .unmapped ret cut => drop (nameInfo ret cut)
      | .bad => drop 0

/-! ### RECV and RECVA (R245, R246) -/

/-- R247: FINFO of 0x07. -/
def info07 (src : BitVec 16) (off : Int) (kind chan : Nat) : Word :=
  let o := if off < -32767 then -32767 else if 32767 < off then 32767 else off
  w64 (src.toNat * 2 ^ 48 + (Int.emod o 65536).toNat * 2 ^ 32 + kind * 16 + chan)

/-- R245: the checks of arming a receive, the lowest cause first. -/
def armFault (s : State) (ch : RecvChan) (n : Nat) (a len : Word) (ended : Bool) : Option (BitVec 8 × Word × Word) :=
  if ch.armed.isSome then some (0x07, a, info07 0 0 4 n)
  else if ended then some (0x07, a, info07 0 0 1 n)
  else if a.toNat % 8 ≠ 0 ∨ len.toNat % 8 ≠ 0 then some (0x08, a, 0)
  else if len = 0 ∨ 256 < len.toNat then some (0x09, a, 0)
  else rangeFault s.myCore a len.toNat

def Core.recvChan (x : Core) (n : Nat) : RecvChan := Tab.at x.recv n RecvChan.reset

def Core.setRecv (x : Core) (n : Nat) (r : RecvChan) : Core := { x with recv := Tab.put x.recv n r }

def State.arm (s : State) (n : Nat) (r : Recv) : State := s.modMyCore fun x => x.setRecv n ⟨some r, s.cur.slot, false⟩

/-- R245: RECV: the window is measured from SYNCREF. -/
def execRecv (h : Hdr) (o : FmtA) (s : State) : Host.Outcome State Fault Refusal :=
  word h s fun s =>
    let sl := s.me
    let n := bits o.fn 0 4
    let a := sl.gr o.ra
    let len := sl.gr o.rb
    let first := s.myCore.syncref + w64 (bits o.imm 8 12)
    let last := first + w64 (bits o.imm 0 8)
    let t := s.cycle s.cur.core
    match armFault s (s.myCore.recvChan n) n a len (decide (last.toNat < t.toNat)) with
    | some (c, addr, info) => s.precise c addr info
    | none =>
      ((s.arm n ⟨s.cur.slot, a, len.toNat, true, first, last, 0⟩).later (last.toNat + 1 - t.toNat)
        (.recvWindowExpire s.cur.core n)).retire

/-- R246: RECVA. -/
def execRecva (h : Hdr) (o : FmtA) (s : State) : Host.Outcome State Fault Refusal :=
  word h s fun s =>
    let sl := s.me
    let n := bits o.fn 0 4
    let a := sl.gr o.ra
    let len := sl.gr o.rb
    match armFault s (s.myCore.recvChan n) n a len false with
    | some (c, addr, info) => s.precise c addr info
    | none => (s.arm n ⟨s.cur.slot, a, len.toNat, false, 0, 0, o.imm.setWidth 4⟩).retire

/-- R247: Fault07. A slot that is not bound only has its record sent. -/
def State.fault07 (s : State) (c slot : Nat) (addr info : Word) : State :=
  let r : SlotRef := ⟨c, slot⟩
  if (s.slot r).life = .unbound then s.record r ((s.slot r).pc.setWidth 64) 0x107 addr info
  else s.defer r none 0x07 none addr info s.now none

/-- R246: disarms a channel. -/
def State.disarm (s : State) (c n : Nat) (late : Bool) : State :=
  s.modCore c fun x => x.setRecv n { x.recvChan n with armed := none, late := late }

/-- R246: a placed receive whose window has ended with no arrival. -/
def State.expire (s : State) (c n : Nat) : State :=
  match ((s.core c).recvChan n).armed with
  | some r =>
    if r.placed && decide (r.last.toNat < (s.cycle c).toNat) then
      (s.disarm c n true).fault07 c r.slot r.dest (info07 0 0 1 n)
    else s
  | none => s

/-- R246: Arrive, of a message from the core named `src`. -/
def State.arrive (s : State) (p : Packet) (n : Nat) (bs : List Byte) (stamp : Word) (src : BitVec 16) : State :=
  let c := p.dst
  let s := s.expire c n
  let ch := (s.core c).recvChan n
  let t := s.cycle c
  match ch.armed with
  | none =>
    let s' := s.disarm c n false
    if ch.late then s' else s'.fault07 c ch.lastSlot 0 (info07 src 0 2 n)
  | some r =>
    let off : Int := if r.placed then (t - r.first).toInt else 0
    let bad (kind : Nat) : State := (s.disarm c n false).fault07 c r.slot r.dest (info07 src off kind n)
    if r.len < bs.length then bad 3
    else if !bmV ((s.core c).bm (eaEntry r.dest)) then bad 5
    else if r.placed && decide (t.toNat < r.first.toNat) then bad 0
    else
      let (h, z, _) := (s.way p.src c).getD (0, 0, 0)
      let lat := Nat.min (t - stamp).toNat 65535
      let s := (s.winPoke c r.dest bs).disarm c n false
      let s := s.modCore c fun x =>
        { x with lastlat := BitVec.ofNat 48 (src.toNat * 2 ^ 32 + lat * 2 ^ 16 + z * 256 + h) }
      if r.placed then s else s.notify ⟨c, r.slot⟩ ((1 : BitVec 16) <<< r.bit.toNat)

/-- R246, R313: a message (or a notify) arrives. -/
def execMessageArrive (pkt : Nat) (s : State) : Host.Outcome State Fault Refusal :=
  .next <|
    match s.packet? pkt with
    | none => s
    | some p =>
      if 767 < p.dst then s
      else
        match p.cargo, s.seqFate p with
        | .message n bs stamp src, .perform => ((s.arrive p n bs stamp src).accepted p).dropPacket pkt
        | .notify k mask _ _ _, .perform =>
          let s := ((s.soon (.notifyArrive p.dst k mask)).accepted p).dropPacket pkt
          if 16 ≤ p.slot then s.nodeEnd p.src (p.slot - 16) 0 0 else s
        | .message _ _ _ _, .early | .notify _ _ _ _ _, .early => s.park p
        | .message _ _ _ _, .duplicate | .notify _ _ _ _ _, .duplicate => s.dropPacket pkt
        | _, _ => s

/-- R246: a placed receive whose window has ended with no arrival. -/
def execRecvWindowExpire (core chan : Nat) (s : State) : Host.Outcome State Fault Refusal :=
  onCore core (s.expire core chan)

/-! ### NOTE, WAITN and notify bits (R252 to R254) -/

def execNote (h : Hdr) (o : FmtA) (s : State) : Host.Outcome State Fault Refusal :=
  word h s fun s =>
    let sl := s.me
    let reg := sl.gr o.ra
    let res := s.resolveReg reg 19
    match res.fault with
    | some info => s.precise 0x0C reg info
    | none =>
      let scp := o.imm.setWidth 3
      (((s.countMiss res).useResolved (reg.setWidth 16) res).releaseThen scp
        (.note (reg.setWidth 16) res.dst (bits reg 16 3) ((sl.gr o.rb).setWidth 16) scp (s.cycle s.cur.core) sl.pc)).retire

/-- R11: a slot enters a wait. -/
def Slot.enterWait (sl : Slot) (w : Wait) : Slot := { sl with life := .waiting, wait := some w, gate := .closed }

def execWaitn (h : Hdr) (o : FmtA) (s : State) : Host.Outcome State Fault Refusal :=
  word h s fun s =>
    let sl := s.me
    let mask := o.imm.setWidth 16
    let all := o.fn == 1
    if mask = 0 ∨ waitnPasses all mask sl.notify then
      (s.modMe fun sl => { sl with notify := sl.notify &&& ~~~mask }).result 1
        [.g o.rd ((sl.notify &&& mask).setWidth 64)]
    else s.modMe fun sl => sl.enterWait (.waitn all mask o.rd)

def execNotifyArrive (core slot : Nat) (mask : BitVec 16) (s : State) : Host.Outcome State Fault Refusal :=
  onSlot core slot <| s.notify ⟨core, slot⟩ mask

/-! ### The name cache (R234 to R236) -/

/-- R236, R262: NAME: a walk starts for a name that is in frame and not cached, be another one under way for it. -/
def execNamePre (h : Hdr) (o : FmtA) (s : State) : Host.Outcome State Fault Refusal :=
  word h s fun s =>
    let reg := s.me.gr o.ra
    (if s.resolveReg reg 16 = .miss then s.newWalk s.cur.core (reg.setWidth 16) else s).retire

/-- R235: the accesses of a slot that wait for a name look it up again. -/
def State.wakeAccs (s : State) (r : SlotRef) (n : BitVec 16) : State :=
  let as := (s.slot r).accs.filter fun a => a.st == .walking && a.name == n
  if as.isEmpty then s else (as.foldl (fun s a => s.routeAcc r a) s).settle r

/-- R278: a BQRY that waits for a name looks it up again. -/
def State.wakeQuery (s : State) (r : SlotRef) (n : BitVec 16) : State :=
  match (s.slot r).gate with
  | .stalled ⟨own, _, _, .bqry ea rt pc none⟩ => if eaName ea = n then s.askQuery r own ea rt pc else s
  | _ => s

/-- R274: a give that waits for a name looks it up again. -/
def State.wakeGive (s : State) (c : Nat) (g : Give) : State :=
  let s' := s.modCore c fun x => x.dropGive g.id
  match s.resolve c g.name with
  | .hit tgt => if s.foreign c tgt then s.refuseGive c g 3 else s'.startGive c g (.hit tgt)
  | .away _ => s.refuseGive c g 3
  | .unmapped ret cut =>
    match g.node with
    | none =>
      (s.refuseGive c g 3).defer ⟨c, g.slot⟩ none 0x0C (some g.pc) (g.name.setWidth 64) (nameInfo ret cut) s.now none
    | some n =>
      (s'.freeGive c g).nodeEnd c n 0x0C (BitVec.ofNat 8 (b2n cut))
  | .miss => s'.startGive c g .miss
  | _ => s

/-- R207: a write segment of an AG that waits for a name looks it up again. -/
def State.wakeSeg (s : State) (p : Packet) : State :=
  match p.cargo with
  | .agWrite ag _ _ _ =>
    let sent (dst : Nat) : State :=
      let (q, s) := (s.useName p.src p.name).takeSeq p.src dst
      s.modPacket p.id fun p => { p with dst := dst, seq := q }
    let bad : State := ((s.dropPacket p.id).agRefused p.src ag 0x0C 0 0).soon (.bulkTransferDone p.src)
    match s.resolve p.src p.name with
    | .hit dst => (sent dst).laterX (s.requestLeg p.src dst) (.globalRequestArrive p.id)
    | .away dst => (sent dst).sendFrame (farDie dst) p.id
    | .miss => s.startWalk p.src p.name
    | .frozen => s
    | _ => bad
  | _ => s

/-- What waits in a core for a name goes on. -/
def State.wakeName (s : State) (c : Nat) (n : BitVec 16) : State :=
  let s := (List.range 8).foldl (fun s k => (s.wakeAccs ⟨c, k⟩ n).wakeQuery ⟨c, k⟩ n) s
  let s := ((s.core c).gives.filter fun g => g.st == .walking && g.name == n).foldl (fun s g => s.wakeGive c g) s
  let s := (s.packets.filter fun p => p.src == c && p.dst == 769 && p.name == n).foldl (fun s p => s.wakeSeg p) s
  -- the messages that wait for the name have their route
  let s := match (s.lookup c n).dst with
    | some d => s.modCore c fun x => { x with sendq := x.sendq.map fun (m : Msg) => if m.name = n then { m with dst := m.dst.or (some d) } else m }
    | none => s
  match (s.core c).sendq with
  | m :: _ => if m.name = n then s.soon (.headFlitLeaves c) else s
  | [] => s

/-- R235: a walk ends; its entry enters the 64-entry cache. -/
def execNameWalkComplete (core name : Nat) (s : State) : Host.Outcome State Fault Refusal :=
  let n := BitVec.ofNat 16 name
  onCore core <|
    if (s.core core).walks.contains n then
      let e := s.walkEntry core n
      let s := s.modCore core fun x =>
        { x with
          ncache := ((n, e) :: x.ncache.filter fun p => p.1 != n).take 64
          walks := dropFirst (· == n) x.walks }
      s.wakeName core n
    else s

/-- R234: a name leaves the cache of a core. -/
def State.invalidateName (s : State) (c : Nat) (n : BitVec 16) : State :=
  (s.modCore c fun x => { x with ncache := x.ncache.filter fun p => p.1 != n }).wakeName c n

/-- R234: firmware invalidates a name of a task in every name cache of its frame. -/
def State.invalidateTask (s : State) (t : Nat) (n : BitVec 16) : State :=
  (frameCores (s.task t).rec_).foldl (fun s c =>
    if (s.core c).task = some t then s.invalidateName c n else s) s

def execNameCacheInvalidate (task name : Nat) (s : State) : Host.Outcome State Fault Refusal :=
  .next (s.invalidateTask task (BitVec.ofNat 16 name))

/-! ### Retransmission and giving up (R313, R354) -/

/-- R313: an unacknowledged packet is sent again over the route now in force; one from another die is that die's to send. -/
def execPacketRetransmit (pkt : Nat) (s : State) : Host.Outcome State Fault Refusal :=
  .next <|
    match s.packet? pkt with
    | none => s
    | some p =>
      if 1024 ≤ p.src then s.dropPacket pkt
      else if 1024 ≤ p.dst then s.sendFrame (farDie p.dst) pkt
      else if 767 < p.dst || s.cutOff p.src p.dst then s
      else
        let d := match p.cargo with
          | .access _ | .agWrite _ _ _ _ | .agRead _ _ _ _ _ _ _ _ => s.requestLeg p.src p.dst
          | .message _ bs _ _ => s.latency p.src p.dst (1 + ceilDiv bs.length 32)
          | _ => s.latency p.src p.dst 1
        s.laterX d p.arrival

/-- R313: routes were computed again: every packet that is not acknowledged is sent again, in the order of its SEQ; one
that no path is left for is given up (R354). -/
def State.resendAll (s : State) : State :=
  s.packets.foldl (fun s p =>
    if p.dst = 769 ∨ 1024 ≤ p.src then s
    else if (if p.dst < 768 then s.cutOff p.src p.dst else s.dieCut (farDie p.dst)) then s.later 1 (.niGiveUp p.id)
    else s.later 1 (.packetRetransmit p.id)) s

/-- R354: the packet kinds of FINFO. -/
def Cargo.kind : Cargo → Nat
  | .access a => match a.kind with
    | .load => 0
    | .store => 1
    | .amo => 2
  | .message _ _ _ _ => 3
  | .give _ => 5
  | _ => 4

/-- R354: the fault of a packet that the NI has given up. -/
def State.fault3A (s : State) (p : Packet) (acc : Option Nat) (addr : Word) : State :=
  s.defer ⟨p.src, p.slot⟩ acc 0x3A none addr (w64 (p.name.toNat * 2 ^ 48 + p.cargo.kind)) s.now none

/-- R346, R354: a read of an AG that the NI has given up: no path leads to its place. -/
def State.readGivenUp (s : State) (c ag lane rd : Nat) (sc : Bool) : State :=
  s.modCore c fun x => x.modAg ag fun g => { g with
    lanes := g.lanes.map fun q =>
      if q.1 = lane then
        (q.1, { q.2 with reads := q.2.reads.map fun x =>
          if x.id = rd then x.answer sc [] (some ⟨0x30, 0x3A, 0, 0⟩) else x })
      else q }

/-- R274, R354: a give request that the NI has given up: the give is refused as FOREIGN, and its slot takes 0x3A, or its
node ends with that status. -/
def State.giveGivenUp (s : State) (p : Packet) (id : Nat) : State :=
  match (s.core p.src).give? id with
  | none => s
  | some g =>
    match g.node with
    | none => (s.refuseGive p.src g 3).fault3A p none 0
    | some n => ((s.modCore p.src fun x => x.dropGive id).freeGive p.src g).nodeEnd p.src n 0x3A 0

/-- R354: no path to the destination remains: the packet's agent learns it. -/
def execNiGiveUp (pkt : Nat) (s : State) : Host.Outcome State Fault Refusal :=
  .next <|
    match s.packet? pkt with
    | none => s
    | some p =>
      if (if p.dst < 768 then !s.cutOff p.src p.dst else decide (p.dst = 769) || !s.dieCut (farDie p.dst)) then s
      else
        let r : SlotRef := ⟨p.src, p.slot⟩
        let s := s.dropPacket pkt
        if p.orphan then s
        else
        match p.cargo with
        | .access b =>
          match (s.slot r).acc? b.id with
          | some a =>
            let s := s.modSlot r fun sl =>
              if a.kind = .store || a.ended then sl.dropAcc a.id else sl.setAcc { a with st := .givenUp }
            (s.fault3A p (some a.id) a.ea).settle r
          | none => s
        | .release _ src _ => s.nodeEnd p.src src 0x3A 0
        | .agWrite ag _ _ _ => (s.agRefused p.src ag 0x3A 0 0).soon (.bulkTransferDone p.src)
        | .agRead ag lane rd _ _ sc _ _ => s.readGivenUp p.src ag lane rd sc
        | .give id => s.giveGivenUp p id
        | _ => if 16 ≤ p.slot then s.nodeEnd p.src (p.slot - 16) 0x3A 0 else s.fault3A p none 0

end Sys2Proof.Machine
end

