-- ==== Sys2Proof/Machine/Barrier.lean ====
section
/-! DEFINITION. Barriers (R249 to R251, R311, R385) and the two heartbeats (R232, R305, R386). -/

namespace Sys2Proof.Machine

/-! ### Groups (R249) -/

/-- R228, R249: byte k of BARGRP. -/
def groupByte (r : BindRec) (k : Nat) : Nat := bits r.bargrp (8 * k) 8

/-- R227, R249: the cores of the group of an id that holds a core: the whole frame, or an aligned subgroup of it. -/
def groupCores (r : BindRec) (k c : Nat) : List Nat :=
  let g := groupByte r k
  let all := frameCores r
  if g = 0xFF then all
  else
    let w := 2 ^ (g % 16)
    let h := 2 ^ (g / 16)
    let (fx, fy) := frameXY r c
    all.filter fun d =>
      let (x, y) := frameXY r d
      x / w == fx / w && y / h == fy / h

/-- R385: the group spans the frames of several dies. -/
def State.manyDies (s : State) (c k : Nat) : Bool :=
  match (s.core c).task with
  | some t => groupByte (s.task t).rec_ k == 0xFF &&
      decide (1 < popCount (Tab.at s.fe.spaces (s.task t).asid Space.reset).dieset 64)
  | none => false

/-- R3: the field of a core: 8 columns by 16 rows. -/
def fieldOf (c : Nat) : Nat × Nat := (coreX c / 8, coreY c / 16)

def sameAs [BEq β] (f : Nat → β) (l : List Nat) : Bool :=
  match l with
  | [] => true
  | c :: r => r.all fun d => f d == f c

/-- R249: the window after the last arrival, and the greatest skew. -/
def releaseBand (group : List Nat) : Nat × Nat × Nat :=
  if sameAs clusterOf group then (4, 6, 2) else if sameAs fieldOf group then (10, 16, 6) else (22, 36, 14)

/-- R250, R302: the smallest scope that contains a group. -/
def groupScope (many : Bool) (group : List Nat) : BitVec 3 :=
  if many then 4 else if group.length ≤ 1 then 1 else if sameAs clusterOf group then 2 else 3

/-! ### Arrivals -/

/-- R251: the excuse bit of a core for an id. -/
def excuseBit (c k : Nat) : Nat := 16 * k + 4 * (coreY c % 4) + coreX c % 4

def State.excused (s : State) (c k : Nat) : Bool := (s.cluster (clusterOf c)).excuse.getLsbD (excuseBit c k)

/-- R250, R311: the core has arrived: its latch is set and no slot's covered accesses hold the arrival back. -/
def Core.arrived (x : Core) (k : Nat) : Bool :=
  x.latch.getLsbD k && !x.slots.any fun p => p.2.pends.any fun q => q.act == .barrier k

/-- A release that is on its way to a core. -/
def State.releasing (s : State) (c k : Nat) : Bool := s.coming.any fun e => e.2 == .barrierRelease c k

/-- R249: whether the group's last arrival has come. -/
def State.groupDone (s : State) (k : Nat) (group : List Nat) : Bool :=
  (group.any fun c => (s.core c).arrived k) && (group.all fun c => (s.core c).arrived k || s.excused c k) &&
    !(group.any fun c => s.releasing c k)

/-- R249: the cores of a group see the release, within the window and skew of the group's span. -/
def State.releaseGroup (s : State) (k : Nat) (group : List Nat) : State :=
  let (lo, hi, sk) := releaseBand group
  let (e, s) := s.takeExtra
  let base := Nat.min (lo + e) (hi - sk)
  (group.filter fun c => (s.core c).task.isSome && !(s.core c).retired).foldl (fun s c =>
    let (d, s) := s.takeExtra
    s.later (base + Nat.min d sk) (.barrierRelease c k)) s

/-! ### Groups of several dies (R385) -/

/-- A barrier of a panel group that no release has been announced for. -/
def PanelBar.open_ (b : PanelBar) (asid : Nat) (image : Word) (bar : Nat) : Bool :=
  b.asid == asid && b.image == image && b.bar == bar && b.tick.isNone

/-- R385: a release of the group has been announced and its tick has not come. -/
def State.announced (s : State) (asid : Nat) (image : Word) (bar : Nat) : Bool :=
  s.fe.bars.any fun b => b.asid == asid && b.image == image && b.bar == bar && b.tick.isSome

/-- R385: the number of the first panel heartbeat tick that die 0 emits at least 1,000 P-cycles from now. -/
def State.releaseTick (s : State) : Nat := (s.now + 2999) / 2000

/-- R385: a die of the group has arrived; when die 0's root has seen the last one, it announces the release tick. -/
def State.dieArrives (s : State) (asid : Nat) (image : Word) (bar die : Nat) : State :=
  let old := (s.fe.bars.find? fun b => b.open_ asid image bar).getD ⟨asid, image, bar, [], none⟩
  let dies := if old.dies.contains die then old.dies else old.dies ++ [die]
  let set := (Tab.at s.fe.spaces asid Space.reset).dieset
  let all := (List.range 64).all fun d => !set.getLsbD d || dies.contains d
  let b := { old with dies := dies, tick := if s.fw.die = 0 ∧ all then some s.releaseTick else none }
  s.modFe fun e => { e with bars := (e.bars.filter fun b => !b.open_ asid image bar) ++ [b] }

/-- R385: a task's panel group: its address space and the IMAGE VA. -/
def State.groupOf (s : State) (t : Nat) : Nat × Word := ((s.task t).asid, (s.task t).packet.extractLsb' 64 64)

/-- R249, R385: a core's group is looked at again: its cores see the release in their time, or, where it spans several dies,
its die's arrival goes to the root on die 0. -/
def State.checkBarrier (s : State) (c k : Nat) : State :=
  match (s.core c).task with
  | none => s
  | some t =>
    let group := groupCores (s.recOf c) k c
    if !s.groupDone k group then s
    else if s.manyDies c k then
      let (asid, image) := s.groupOf t
      if s.announced asid image k then s else s.dieArrives asid image k s.fw.die
    else s.releaseGroup k group

/-- R385: the release tick reaches the cores of a task. -/
def State.releaseCores (s : State) (t bar : Nat) : State :=
  (frameCores (s.task t).rec_).foldl (fun s c =>
    if (s.core c).task = some t ∧ !(s.core c).retired then s.later (1 + (s.core c).skew) (.barrierRelease c bar) else s) s

/-- R385: the announced releases whose tick has come; the one of a task that is suspended waits for its gates. -/
def State.releaseBars (s : State) : State :=
  let due := s.fe.bars.filter fun b => b.tick.any fun k => decide (k ≤ s.pbeat)
  due.foldl (fun s b =>
    let mine := s.fe.tasks.filter fun p => s.groupOf p.1 == (b.asid, b.image)
    if mine.any fun p => p.2.st == .suspended || p.2.st == .placed || p.2.st == .bound then s
    else
      mine.foldl (fun s p => s.releaseCores p.1 b.bar) (s.modFe fun e => { e with bars := e.bars.filter (· != b) })) s

/-- R251: excuses of a core were written: its groups are looked at again. -/
def State.checkBarriers (s : State) (c : Nat) : State := (List.range 4).foldl (fun s k => s.checkBarrier c k) s

def execBarrierArrival (core bar : Nat) (s : State) : Host.Outcome State Fault Refusal :=
  onCore core <| if bar < 4 && (s.core core).arrived bar then s.checkBarrier core bar else s

/-! ### BAR (R250) -/

/-- R250, R311: BAR.a: a clear latch is set; the core arrives once the covered accesses have performed. -/
def State.arriveAt (s : State) (k : Nat) : State :=
  let c := s.cur.core
  if s.myCore.latch.getLsbD k then s
  else
    let s := s.modMyCore fun x => { x with latch := x.latch ||| ((1 : BitVec 4) <<< k) }
    s.releaseThen (groupScope (s.manyDies c k) (groupCores (s.recOf c) k c)) (.barrier k)

/-- R250: BAR.w. -/
def State.waitAt (s : State) (k : Nat) : State :=
  if s.myCore.latch.getLsbD k then s.modMe fun sl => sl.enterWait (.bar k) else s.retire

def execBarAw (h : Hdr) (o : FmtA) (s : State) : Host.Outcome State Fault Refusal :=
  word h s fun s => (s.arriveAt (bits o.imm 0 2)).waitAt (bits o.imm 0 2)

def execBarA (h : Hdr) (o : FmtA) (s : State) : Host.Outcome State Fault Refusal :=
  word h s fun s => (s.arriveAt (bits o.imm 0 2)).retire

def execBarW (h : Hdr) (o : FmtA) (s : State) : Host.Outcome State Fault Refusal :=
  word h s fun s => s.waitAt (bits o.imm 0 2)

/-- R11, R250: a slot that waits on an id leaves with its core's release. -/
def Slot.leaveBar (sl : Slot) (k now : Nat) : Slot :=
  if sl.life = .waiting ∧ sl.wait = some (.bar k) then sl.leaveWait (now + 1) else sl

/-- R249: a core sees the release. -/
def execBarrierRelease (core bar : Nat) (s : State) : Host.Outcome State Fault Refusal :=
  onCore core <|
    let t := s.cycle core
    (s.modCore core fun x =>
      { x with
        syncref := t
        latch := x.latch &&& ~~~((1 : BitVec 4) <<< bar)
        gens := Tab.put x.gens bar (Tab.at x.gens bar 0 + 1)
        slots := x.slots.map fun p => (p.1, p.2.leaveBar bar s.now) }).checkBarrier core bar

/-! ### Heartbeats -/

/-- R232, R386: the emission of the tick of a period that reaches a core in this P-cycle (log entry 2). -/
def State.emission (s : State) (c period : Nat) : Nat := (s.now - 1 - (s.core c).skew) / period * period

/-- R305: a tick emitted after the drain ended ends a fence. -/
def Slot.tickDevice (sl : Slot) (emitted now : Nat) : Slot :=
  match sl.gate with
  | .stalled ⟨_, _, _, .device (some d)⟩ => if d < emitted then { sl with gate := .fromCycle (now + 1) } else sl
  | _ => sl

def Slot.tickPanel (sl : Slot) (emitted now : Nat) : Slot :=
  match sl.gate with
  | .stalled ⟨_, _, _, .panel (some d)⟩ => if d < emitted then { sl with gate := .fromCycle (now + 1) } else sl
  | _ => sl

/-- R232, R305: a device heartbeat tick reaches a core. -/
def execDeviceHeartbeat (core : Nat) (s : State) : Host.Outcome State Fault Refusal :=
  onCore core <|
    let e := s.emission core 64
    s.modCore core fun x =>
      { x with hbeat := x.hbeat + 1, slots := x.slots.map fun p => (p.1, p.2.tickDevice e s.now) }

/-- R386: the emission of the panel tick that reaches a core in this P-cycle: die 0 emits it; another die advances it by the
delay of the links. -/
def State.panelEmission (s : State) (c : Nat) : Nat :=
  if s.fw.die = 0 then s.emission c 2000 else s.now - 1 - (s.core c).skew

/-- R386: a panel heartbeat tick comes to the die: a new interval of R381 begins, and the releases of that tick go out. -/
def State.panelTick (s : State) : State :=
  ({ s with pbeat := s.pbeat + 1, links := s.links.map fun p => (p.1, { p.2 with recent := 0 }) } : State).releaseBars

/-- R305, R386: a panel heartbeat tick reaches a core. -/
def execPanelHeartbeat (core : Nat) (s : State) : Host.Outcome State Fault Refusal :=
  onCore core <|
    let e := s.panelEmission core
    s.modCore core fun x => { x with slots := x.slots.map fun p => (p.1, p.2.tickPanel e s.now) }

end Sys2Proof.Machine
end

