-- ==== Sys2Proof/Machine/Place.lean ====
section
/-! DEFINITION. The places that an address of the local window, of global SRAM or of virtual memory names for an address
generator or an engine (R205, R208, R209, R291, R295, R323, R324), and reading and writing them byte by byte. -/

namespace Sys2Proof.Machine

/-- R205, R323: the spaces. -/
inductive Space3 where
  | loc | glob | va | none
  deriving DecidableEq, Repr

def spaceOf (n : Nat) : Space3 :=
  match n % 4 with
  | 0 => .loc
  | 1 => .glob
  | 2 => .va
  | _ => .none

/-- Where a byte lies: its memory key with the bank behind it, a failure with its cause code and bank, a name whose walk
or FRZ must be waited for, a give in progress at the target, an address of another die, or an address with no
translation yet. -/
inductive Place where
  | at_ (key : Nat) (bank : Option Nat)
  | bad (cause : BitVec 8) (bank : Nat)
  | name (n : BitVec 16) (miss : Bool)
  | giving
  | away
  | miss (a : Word)
  deriving DecidableEq, Repr

/-- R279: a byte of the local window. -/
def State.placeLocal (s : State) (c : Nat) (write : Bool) (a : Word) : Place :=
  if !isLocal a then .bad 0x09 0
  else
    let w := (s.core c).bm (eaEntry a)
    match entryRefuses w write with
    | some _ => .bad 0x0A (bmBank w)
    | none => .at_ ((s.core c).winKey a) (some (bmIndex w))

/-- R264, R279: a byte of global SRAM. -/
def State.placeGlobal (s : State) (c : Nat) (write : Bool) (a : Word) : Place :=
  if !isGlobal a then .bad 0x09 0
  else
    match s.resolve c (eaName a) with
    | .bad => .bad 0x0C 0
    | .unmapped _ _ => .bad 0x0C 0
    | .miss => .name (eaName a) true
    | .frozen => .name (eaName a) false
    | .away _ => .away
    | .hit tgt =>
      let w := (s.core tgt).bm (eaEntry a)
      if !bmV w || (write && bmWp w) then .bad 0x0A (bmBank w)
      else if bmPend w && s.atGive tgt (eaEntry a) then .giving
      else .at_ ((s.core tgt).winKey a) (some (bmIndex w))

/-- The window entries that meet the window bytes lo to hi. -/
def entriesFrom (lo hi : Int) : BitVec 16 :=
  (List.range 16).foldl (fun m k =>
    if lo < (262144 * (k + 1) : Nat) ∧ ((262144 * k : Nat) : Int) ≤ hi then m ||| ((1 : BitVec 16) <<< k) else m) 0

/-- R274, R330: the entries of a core's own window that the addresses lo to hi of a space can touch. -/
def State.spanEntries (s : State) (c : Nat) (sp : Space3) (lo hi : Int) : BitVec 16 :=
  match sp with
  | .loc => entriesFrom lo hi
  | .glob =>
    let b : Int := (globalAddr (s.ownName c) 0).toNat
    entriesFrom (lo - b) (hi - b)
  | _ => 0

/-! ### Extents (R209, R295) -/

def extVa (e : BitVec 128) : Nat := bits e 0 52
def extPages (e : BitVec 128) : Nat := bits e 52 12
def extValid (e : BitVec 128) : Bool := e.getLsbD 127
def extPa (e : BitVec 128) : Nat := bits e 64 63

/-- The extent of an address. -/
def extentOf (ext : List (BitVec 128)) (a : Word) : Option (BitVec 128) :=
  ext.find? fun e => extValid e && decide (extVa e ≤ a.toNat) && decide (a.toNat < extVa e + 65536 * extPages e)

/-- R291: a device physical address that an agent of this die can reach in principle: a TIER of HBM or host, an offset
in range. -/
def dpaOk (d : Nat) : Bool :=
  let tier := d / 2 ^ 44 % 4
  d / 2 ^ 52 == 0 && (tier == 2 || (tier == 0 && decide (d % 2 ^ 44 < 384 * 2 ^ 30)))

/-- R291, R382: a logical die of the panel set, or this die. -/
def State.dieKnown (s : State) (d : Nat) : Bool := d == s.fw.die || s.fw.members.any fun m => m.2 == d

/-- R387: the die by whose host interface a host-tier request for a die leaves: that die's own, or its host proxy, the
nearest by west-first hops with a live host link, the lower logical id of two as near. -/
def State.hostVia (s : State) (die : Nat) : Option Nat :=
  if s.fw.hosts.contains die then some die
  else
    let hops (a b : Nat) : Nat := dist (a % 8) (b % 8) + dist (a / 8) (b / 8)
    (s.dieAt die).bind fun p =>
      argMin (fun d => hops p ((s.dieAt d).getD 0) * 64 + d)
        (s.fw.hosts.filter fun d => (s.dieAt d).isSome && (d == s.fw.die || !s.dieCut d))

/-- R291, R354, R387: a request of this die finds the die of a device physical address, and a way on to host memory. -/
def State.dpaWay (s : State) (d : Nat) : Bool :=
  let die := d / 2 ^ 46 % 64
  (die == s.fw.die || !s.dieCut die) && (d / 2 ^ 44 % 4 != 2 || (s.hostVia die).isSome)

/-- R240, R291, R383: a device physical address as a place, for a requester at a core. The HBM of every member of the panel
set and the hosts' memories are part of memory under their addresses (log entry 18). -/
def State.placeDpa (s : State) (c : Nat) (d : Nat) : Place :=
  let die := d / 2 ^ 46 % 64
  if !dpaOk d || !s.dieKnown die then .bad 0x32 0
  else
    let via := if d / 2 ^ 44 % 4 = 2 then (s.hostVia die).getD die else die
    let reach := if via = s.fw.die then s.tileReach c (w64 d)
      else (s.portTo via).any fun p => [false, true].any fun odd => !s.cutOff c (linkRouter p odd)
    if s.dpaWay d && reach then .at_ (dpaKey d) none else .bad 0x3A 0

/-- R295: a byte of virtual memory through the extents of an AG. -/
def State.placeExtent (s : State) (c : Nat) (ext : List (BitVec 128)) (a : Word) : Place :=
  if bits a 52 12 ≠ 0 then .bad 0x09 0
  else
    match extentOf ext a with
    | some e => s.placeDpa c (extPa e + (a.toNat - extVa e))
    | none => .miss a

/-! ### Runs of bytes -/

/-- The keys of n bytes, or the first place that is not there. -/
def placesFrom (f : Word → Place) (a : Word) : Nat → List Nat × Option Place
  | 0 => ([], none)
  | n + 1 =>
    match f a with
    | .at_ k _ => let (ks, e) := placesFrom f (a + 1) n; (k :: ks, e)
    | p => ([], some p)

/-- The bytes at keys. -/
def State.bytesAt (s : State) (ks : List Nat) : List Byte := ks.map s.byte

/-- R353: an uncorrectable error among bytes. -/
def State.errAt (s : State) (ks : List Nat) : Bool := ks.any fun k => s.hasErr k 1

def State.pokeAt (s : State) (ks : List Nat) (bs : List Byte) : State :=
  (ks.zip bs).foldl (fun s p => { s with mem := memWrite s.mem p.1 p.2 }) s

/-- R353: an aligned 64-bit unit whose eight bytes are all written loses its error. -/
def State.healAt (s : State) (ks : List Nat) : State :=
  { s with memErr := s.memErr.filter fun e => !((List.range 8).all fun i => ks.contains (e + i)) }

/-- Bytes are written at keys. -/
def State.writeAt (s : State) (ks : List Nat) (bs : List Byte) : State := (s.pokeAt ks bs).healAt ks

end Sys2Proof.Machine
end

