-- ==== Sys2Proof/Machine/Edge.lean ====
section
/-! DEFINITION. The edges of a lens: lanes and input converters (R193 to R203), address generators (R204 to R209, R267), the
presentation of tokens, and the taking of output tokens (R201, R207). -/

namespace Sys2Proof.Machine

/-! ### AG descriptors (R204, R205) -/

abbrev AgDesc := BitVec 512

def AgDesc.dw (d : AgDesc) (k : Nat) : Word := d.extractLsb' (64 * k) 64
def AgDesc.flag (d : AgDesc) (i : Nat) : Bool := (d.dw 1).getLsbD (56 + i)
def AgDesc.skew (d : AgDesc) : Bool := d.flag 0
def AgDesc.hdr (d : AgDesc) : Bool := d.flag 1
def AgDesc.space (d : AgDesc) : Space3 := spaceOf (bits (d.dw 1) 58 2)
def AgDesc.stallok (d : AgDesc) : Bool := d.flag 4
def AgDesc.edge (d : AgDesc) : Nat := bits (d.dw 1) 52 4
def AgDesc.isOut (d : AgDesc) : Bool := decide (2 ≤ d.edge)
def AgDesc.ft (d : AgDesc) : BitVec 4 := (d.dw 1).extractLsb' 48 4
def AgDesc.cnt2 (d : AgDesc) : Nat := bits (d.dw 1) 32 16
def AgDesc.cnt1 (d : AgDesc) : Nat := bits (d.dw 1) 16 16
def AgDesc.cnt0 (d : AgDesc) : Nat := bits (d.dw 1) 0 16
def AgDesc.str1 (d : AgDesc) : Int := sextNat 32 (bits (d.dw 2) 32 32)
def AgDesc.str0 (d : AgDesc) : Int := sextNat 32 (bits (d.dw 2) 0 32)
def AgDesc.nlanes (d : AgDesc) : Nat := bits (d.dw 3) 48 16
def AgDesc.lane0 (d : AgDesc) : Nat := bits (d.dw 3) 32 16
def AgDesc.str2 (d : AgDesc) : Int := sextNat 32 (bits (d.dw 3) 0 32)
def AgDesc.hdrt (d : AgDesc) : BitVec 32 := (d.dw 5).extractLsb' 32 32
def AgDesc.hdrint (d : AgDesc) : Nat := bits (d.dw 5) 0 32
def AgDesc.progi (d : AgDesc) : Nat := bits (d.dw 7) 32 32
def AgDesc.proge (d : AgDesc) : Nat := bits (d.dw 7) 0 32

/-- R191: the container an AG reads or writes. -/
def AgDesc.size (d : AgDesc) : Nat :=
  match d.ft.toNat with
  | 5 => 20
  | 9 => 4
  | 11 => 8
  | 1 | 2 => 2
  | 3 | 4 | 6 | 7 => if d.isOut then 1 else 2
  | _ => 4

/-- R205: the alignment of the bases and strides. -/
def AgDesc.align (d : AgDesc) : Nat := if d.ft = 5 ∨ d.ft = 9 ∨ d.ft = 11 then 4 else d.size

/-- R206, R207: the formats accepted. -/
def AgDesc.ftOk (d : AgDesc) : Bool :=
  d.ft != 12 && d.ft != 13 && d.ft != 14 && !(d.isOut && (d.ft == 5 || d.ft == 9))

/-- R205: the AG accepts the descriptor. -/
def AgDesc.ok (d : AgDesc) : Bool :=
  let al : Int := d.align
  let mult (z : Int) : Bool := z % al == 0
  let nine := d.ft == 9
  decide (d.edge ≤ 3) && d.ftOk && d.space != .none && !d.flag 6 && !d.flag 7 &&
    decide (1 ≤ d.cnt2) && decide (1 ≤ d.cnt1) && decide (1 ≤ d.cnt0) && decide (d.cnt0 ≤ 64) &&
    decide (1 ≤ d.nlanes) && decide (d.lane0 + d.nlanes ≤ 64) &&
    (if nine then d.nlanes == 8 * d.cnt0 && d.lane0 % 8 == 0 else decide (d.cnt0 ≤ d.nlanes)) &&
    mult (d.dw 0).toNat && mult d.str0 && mult d.str1 && mult d.str2 &&
    (if nine then mult (d.dw 4).toNat else d.dw 4 == 0) && (d.space == .va || d.dw 6 == 0) &&
    (if d.isOut then !d.flag 0 && !d.flag 5 && bits d.hdrt 5 27 == 0 && d.hdrint == 0
     else d.flag 5 == nine && bits d.hdrt 0 12 == 0 && d.hdrt.extractLsb' 28 4 == d.ft && (d.hdr == (d.hdrint != 0)))

/-- R206, R207: an address. -/
def AgDesc.addr (d : AgDesc) (i0 i1 i2 : Nat) : Word :=
  d.dw 0 + BitVec.ofInt 64 ((i0 : Int) * d.str0 + (i1 : Int) * d.str1 + (i2 : Int) * d.str2)

/-- R206: for FT 9, the number p of the point at an address, and the address of its scale byte. -/
def AgDesc.point (d : AgDesc) (a : Word) : Int := (a - d.dw 0).toInt / 2
def AgDesc.scaleAddr (d : AgDesc) (a : Word) : Word := d.dw 4 + BitVec.ofInt 64 (d.point a / 4)

/-- The segment lane of data lane i0. -/
def AgDesc.laneOf (d : AgDesc) (i0 : Nat) : Nat := d.lane0 + (if d.ft = 9 then 8 * i0 else i0)

/-- The data lane that a segment lane is, if it is one. -/
def AgDesc.dataLane (d : AgDesc) (l : Nat) : Option Nat :=
  let k := l - d.lane0
  if l < d.lane0 then none
  else if d.ft = 9 then (if k % 8 = 0 ∧ k / 8 < d.cnt0 then some (k / 8) else none)
  else if k < d.cnt0 then some k else none

/-- The segment lanes that carry data. -/
def AgDesc.dataLanes (d : AgDesc) : List Nat := (List.range d.cnt0).map d.laneOf

/-- R219: an AG in RUN, STARVE or EDGEWAIT. -/
def AG.active (g : AG) : Bool := g.st == .run || g.st == .starve || g.st == .edgeWait

def AG.lane (g : AG) (l : Nat) : AgLane := Tab.at g.lanes l AgLane.reset

def AG.modLane (g : AG) (l : Nat) (f : AgLane → AgLane) : AG := { g with lanes := Tab.put g.lanes l (f (g.lane l)) }

/-- R206: a header precedes the token at some counters. -/
def AgPos.header (p : AgPos) (d : AgDesc) (i0 : Nat) : Bool :=
  match d.ft.toNat with
  | 5 => p.sub == 0
  | 9 => p.n == 0 || d.point (d.addr i0 p.i1 p.i2) % 4 == 0
  | _ => d.hdr && p.n % d.hdrint == 0

/-- R206, R207: the counters after one token; `tokens` is how many an address gives. -/
def AgPos.next (p : AgPos) (d : AgDesc) : AgPos :=
  let k := if d.ft = 5 then 8 else if d.ft = 11 then 2 else 1
  if p.sub + 1 < k then { p with sub := p.sub + 1, n := p.n + 1 } else { p with sub := 0, i1 := p.i1 + 1, n := p.n + 1 }

/-- R208: the interval ends that have come are taken. -/
def takeJumps : List (Nat × Nat) → AgPos → List (Nat × Nat) × AgPos
  | (0, i2) :: r, p => takeJumps r { p with i2 := i2, i1 := 0, sub := 0 }
  | l, p => (l, p)

/-- R208: an interval end that has come is taken; without AGADV, i2 advances when i1 passes CNT1 - 1. -/
def AgLane.settle (a : AgLane) (d : AgDesc) (named : Bool) : AgLane :=
  let (j, p) := takeJumps a.jumps a.pos
  let p := if j.isEmpty && !named && decide (d.cnt1 ≤ p.i1) then { p with i2 := p.i2 + 1, i1 := 0 } else p
  { a with pos := p, jumps := j }

/-- A token is fetched: the counters go on. -/
def AgLane.step (a : AgLane) (d : AgDesc) : AgLane :=
  { a with
    pos := a.pos.next d
    jumps := match a.jumps with
      | (k, i2) :: r => (k - 1, i2) :: r
      | [] => [] }

/-- The counters after k more tokens. -/
def AgLane.ahead (d : AgDesc) (named : Bool) : Nat → AgLane → AgPos
  | 0, a => (a.settle d named).pos
  | k + 1, a => AgLane.ahead d named k ((a.settle d named).step d)

/-- R208: the counters of the tokens that a lane of an input AG has produced: in its buffer, and asked for. -/
def AgLane.own (a : AgLane) : List AgPos := a.marks ++ a.reads.map (·.pos)

/-- R208, R219: the counters of the next token a lane presents or stores. -/
def AgLane.where_ (a : AgLane) : AgPos := (a.own.head?).getD a.pos

/-- R219: the counters that AGSTAT and a write-back give: the least among the data lanes. -/
def AG.progress (g : AG) : Nat × Nat :=
  let ps := (AgDesc.dataLanes g.desc).filterMap fun l => (Tab.find g.lanes l).map fun a => a.where_
  match argMin (fun (p : AgPos) => p.i2 * 2 ^ 32 + p.i1) ps with
  | some p => (p.i2, p.i1)
  | none => (AgDesc.progi g.desc, AgDesc.proge g.desc)

/-- R208: the row progress is written back to the descriptor, unless its entry is detached or pending. -/
def State.agWriteBack (s : State) (c n : Nat) : State :=
  let g := (s.core c).ag n
  let (i2, i1) := g.progress
  let a := g.daddr + 56
  let v := w64 (i2 % 2 ^ 32 * 2 ^ 32 + i1 % 2 ^ 32)
  let s := s.modCore c fun x => x.modAg n fun g => { g with desc := setBits g.desc 448 64 v.toNat }
  match entryRefuses ((s.core c).bm (eaEntry a)) true with
  | some _ => s
  | none => s.winPoke c a (leBytes 8 v.toNat)

/-! ### Lanes (R195, R197, R198) -/

/-- A logical lane of an edge. -/
def State.edgeLane (s : State) (l : Lens) (edge i : Nat) : Lane :=
  let (c, k) := l.laneAt edge i
  (s.core c).lane edge k

def State.modEdgeLane (s : State) (l : Lens) (edge i : Nat) (f : Lane → Lane) : State :=
  let (c, k) := l.laneAt edge i
  s.modCore c fun x => x.modLane edge k f

/-- The data tokens of a buffer. -/
def dataCount (f : List Token) : Nat := (f.filter fun t => !t.hdr).length

/-- R193, R194: a header opens a packet. -/
def Conv.open_ (d : BitVec 32) : Conv :=
  let ft := d.extractLsb' 28 4
  let scale := d.extractLsb' 20 8
  let spx := d.extractLsb' 12 8
  let bad := match ft.toNat with
    | 8 => scale != 0 || bits spx 6 2 == 3 || spx.getLsbD 5
    | 9 => !(spx == 1 || spx == 3 || spx == 4)
    | 13 | 14 => true
    | _ => false
  ⟨ft, scale, spx, d.extractLsb' 0 12, bad⟩

/-- R195: at most one header is taken, and the data token behind it. -/
def Lane.take (a : Lane) : Lane × Option Token :=
  match a.fifo with
  | [] => (a, none)
  | t :: r =>
    if t.hdr then
      let a := { a with conv := Conv.open_ t.data, half := false }
      match r with
      | d :: r' => if d.hdr then ({ a with fifo := r }, none) else ({ a with fifo := r' }, some d)
      | [] => ({ a with fifo := [] }, none)
    else ({ a with fifo := r }, some t)

/-- The next data token that the lane would present, past at most one header. -/
def Lane.peek (a : Lane) : Option Token := a.take.2

/-- R195: the converter state after the first k data tokens of a buffer. -/
def convAfter (k : Nat) (c : Conv) : List Token → Conv
  | [] => c
  | t :: r => match k with
    | 0 => c
    | j + 1 => if t.hdr then convAfter (j + 1) (Conv.open_ t.data) r else convAfter j c r

/-- R195: what the port makes of a data token that is not FT 9. -/
def portToken (c : Conv) (d : Token) : Token × Flags :=
  if c.bad then (Token.idle, fNV)
  else if d.ft = 5 then
    let mk (e sv code : Nat) : Token := ⟨false, 5, BitVec.ofNat 32 (e * 2 ^ 24 + sv * 2 ^ 16 + code)⟩
    let code := bits d.data 0 16
    let dk := bits d.data 16 2
    if c.cft ≠ 5 then (mk 0xFF 0 code, fNV)
    else if c.scale = 0xFF then (mk 0xFF c.spx.toNat code, 0)
    else if c.scale.toNat < dk then (mk 0 c.spx.toNat 0, flagIf (code != 0) (fUF ||| fNX))
    else (mk (c.scale.toNat - dk) c.spx.toNat code, 0)
  else if d.ft = 8 ∧ c.cft = 8 ∧ (bits c.spx 6 2 = 1 ∨ bits c.spx 6 2 = 2) then
    let ft : BitVec 4 := if bits c.spx 6 2 = 1 then 6 else 7
    let (q, f) := requantise ft d.data.toInt (bits c.spx 0 5)
    (⟨false, ft, BitVec.ofNat 32 (Int.emod q 256).toNat⟩, f)
  else (d, 0)

/-- R196: component j of a point code under a scale, rounded to DFT. -/
def cosetElem (dft : BitVec 4) (scale code j : Nat) : Nat × Flags :=
  let (v, f) := roundFloat dft ⟨.rne, true, 0, 0⟩ (decodeE8 code scale j)
  (packF dft v, f)

/-- R196: the token of lane j of a group, on the first or second step of a FT 9 token. -/
def cosetToken (c : Conv) (second : Bool) (d : BitVec 32) (j : Nat) : Token × Flags :=
  let dft := c.spx.extractLsb' 0 4
  let p := bits d 0 16
  let q := bits d 16 16
  if dft = 1 then
    let (v, f) := cosetElem dft c.scale.toNat (if second then q else p) j
    (⟨false, 1, BitVec.ofNat 32 v⟩, f)
  else
    let (u, f) := cosetElem dft c.scale.toNat p j
    let (v, g) := cosetElem dft c.scale.toNat q j
    (⟨false, dft, BitVec.ofNat 32 (u + 256 * v)⟩, f ||| g)

/-! ### Which lanes present (R198 to R200) -/

/-- The AG of a lane, if it is attached to one. -/
def State.laneAg (s : State) (c : Nat) (a : Lane) : Option AG :=
  match a.att with
  | .ag n => some ((s.core c).ag n)
  | _ => none

/-- R200: the presentation delay of an input lane for a wave token injected in A-cycle t. -/
def State.presentDelay (s : State) (l : Lens) (edge i t : Nat) : Nat :=
  let (c, k) := l.laneAt edge i
  match s.laneAg c ((s.core c).lane edge k) with
  | some g => if AgDesc.skew g.desc then i + l.counterFrom edge i t else 0
  | none => i + l.counterFrom edge i t

/-- R199: a phase is in the consume set of an input lane. -/
def Lens.consumes (l : Lens) (edge i : Nat) (ph : BitVec 4) : Bool :=
  (if edge = 0 then l.entry i 0 ph.toNat else l.entry 0 i ph.toNat).op != 0

/-- R200: the wave token under which an input lane presents in this A-cycle. -/
def State.presents (s : State) (l : Lens) (edge i : Nat) : Option Wave :=
  l.waves.find? fun v => v.at_ + s.presentDelay l edge i v.at_ == l.acyc && l.consumes edge i v.ph

/-- The A-cycles, from this one on, in which the wave tokens injected so far have a lane present (R203, R208). -/
def State.owed (s : State) (l : Lens) (edge i : Nat) : Nat :=
  ((l.waves.filter fun v => l.consumes edge i v.ph).map fun v => v.at_ + s.presentDelay l edge i v.at_)
    |>.filter (fun t => decide (l.acyc ≤ t)) |>.eraseDups |>.length

/-- R196: the first lane of the coset group that serves a lane, if the group is fed with FT 9. -/
def State.cosetHead (s : State) (l : Lens) (edge i : Nat) : Option Nat :=
  let (c, k) := l.laneAt edge i
  let h := i - k % 8
  let a := (s.core c).lane edge (k - k % 8)
  match s.laneAg c a with
  | some g => if AgDesc.ft g.desc = 9 then some h else none
  | none => if k % 8 ≠ 0 && (a.peek.any fun t => t.ft == 9) then some h else none

/-- R206: an AG owns the lane beyond its data lanes and gives it idle-zero. -/
def State.idleSupply (s : State) (c k : Nat) (a : Lane) : Bool :=
  match s.laneAg c a with
  | some g => (AgDesc.dataLane g.desc k).isNone && AgDesc.ft g.desc != 9
  | none => false

/-- What an input lane finds when it must present. -/
inductive Supply where
  | ready | dry
  | failed (e : AgErr)
  deriving DecidableEq, Repr

def State.supply (s : State) (l : Lens) (edge i : Nat) : Supply :=
  let (c, k) := l.laneAt edge i
  let a := (s.core c).lane edge k
  if a.peek.isSome || s.idleSupply c k a then .ready
  else
    match s.laneAg c a with
    | some g =>
      match (g.lane k).err with
      | some e => .failed e
      | none => .dry
    | none => .dry

/-- R196: lanes that a coset group serves do not present of themselves. -/
def State.served (s : State) (l : Lens) (edge i : Nat) : Bool :=
  match s.cosetHead l edge i with
  | some h => h != i
  | none => false

/-- The input lanes that must present in this A-cycle, with their wave tokens. -/
def State.mustPresent (s : State) (l : Lens) : List (Nat × Nat × Wave) :=
  [0, 1].flatMap fun e => (List.range (l.lanesOn e)).filterMap fun i =>
    if !l.runs (l.laneAt e i).1 then none
    else
      match s.presents l e i with
      | some v => if s.served l e i then none else some (e, i, v)
      | none => none

/-! ### Presentation (R195, R196, R200) -/

/-- The wire on which a presented token reaches the first logical cell of its lane (R179). -/
def Lens.entryWire (l : Lens) (edge i delay : Nat) (t : Token) : Wire :=
  if edge = 0 then ⟨l.acyc + l.colTime (l.physCol 0) + delay, i, 0, true, t, 0⟩
  else ⟨l.acyc + l.rowTime (l.physRow 0) + delay, 0, i, false, t, 0⟩

def Lens.give (l : Lens) (edge i delay : Nat) (x : Token × Flags) : Lens :=
  { l.flag x.2 with wires := l.wires ++ [l.entryWire edge i delay x.1] }

/-- R196: the tokens of a coset group for one step, when the first lane's consume set has the group present. A token of
lanes 1 to 7 enters with the presentation delay of its own lane, counted from the first lane's (log entry 33). -/
def State.giveGroup (s : State) (key edge i : Nat) (v : Wave) (a : Lane) (d : Token) (ok : Bool) : State :=
  let l := s.lens key
  let d0 := s.presentDelay l edge i v.at_
  (List.range 8).foldl (fun s j =>
    if i + j < l.lanesOn edge then
      let x := if ok then cosetToken a.conv a.half d.data j else (Token.idle, fNV)
      s.modLens key fun l => l.give edge (i + j) (s.presentDelay l edge (i + j) v.at_ - d0) x
    else s) s

/-- R208: a data token of an AG has been presented. -/
def State.agPresented (s : State) (c edge k : Nat) (a : Lane) : State :=
  match a.att with
  | .ag n =>
    s.modCore c fun x => x.modAg n fun g =>
      let m := (g.lane k).marks
      if dataCount (x.lane edge k).fifo < m.length then g.modLane k fun b => { b with marks := m.drop 1 } else g
  | _ => s

/-- R195: an input lane presents. -/
def State.presentLane (s : State) (key edge i : Nat) (v : Wave) : State :=
  let l := s.lens key
  let (c, k) := l.laneAt edge i
  let a := (s.core c).lane edge k
  let (b, t) := a.take
  match t with
  | none =>
    (s.modCore c fun x => x.modLane edge k fun _ => b).modLens key fun l => l.give edge i 0 (Token.idle, 0)
  | some d =>
    if d.ft = 9 ∧ !b.conv.bad then
      let ok := decide (k % 8 = 0) && b.conv.cft == 9
      let s' := s.giveGroup key edge i v b d ok
      -- with DFT 1 the token stays for its second step
      if ok && b.conv.spx.extractLsb' 0 4 == 1 && !b.half then
        s'.modCore c fun x => x.modLane edge k fun _ => { b with fifo := d :: b.fifo, half := true }
      else (s'.modCore c fun x => x.modLane edge k fun _ => { b with half := false }).agPresented c edge k a
    else
      let x := portToken b.conv d
      ((s.modCore c fun x => x.modLane edge k fun _ => b).modLens key fun l => l.give edge i 0 x).agPresented c edge k a

/-- R200: the event of a presentation; nothing where the lane does not present in this A-cycle. -/
def execInputPresent (lens edge lane : Nat) (s : State) : Host.Outcome State Fault Refusal :=
  let l := s.lens lens
  .next <|
    if decide (2 ≤ edge) || decide (l.lanesOn edge ≤ lane) then s
    else
      match s.presents l edge lane with
      | some v => s.presentLane lens edge lane v
      | none => s

/-! ### Fetching (R206, R208, R266, R267) -/

/-- R208: the STEP row that runs, or ran last, names an AG in AGADV; or no list runs. -/
def Lens.names (l : Lens) (n : Nat) : Bool := !l.seq.active || l.seq.named.getLsbD n

/-- R209: the place of a byte for an AG. -/
def State.agPlace (s : State) (c : Nat) (g : AG) (write : Bool) (a : Word) : Place :=
  match AgDesc.space g.desc with
  | .loc => s.placeLocal c write a
  | .glob => s.placeGlobal c write a
  | .va => s.placeExtent c g.ext a
  | .none => .bad 0x09 0

/-- R295: an extent that is hit moves to the front. -/
def AG.hit (g : AG) (a : Word) : AG :=
  match extentOf g.ext a with
  | some e => { g with ext := e :: g.ext.filter (· != e) }
  | none => g

/-- The address space of a core's task. -/
def State.asidOf (s : State) (c : Nat) : Nat :=
  match (s.core c).task with
  | some t => (s.task t).asid
  | none => 0

/-- R293: a walk is requested: the four walk engines take the requests in turn (log entry 36). -/
def State.requestWalk (s : State) (asid : Nat) (va : Word) (write : Bool) (who : Walker) : State :=
  let id := s.nextPkt
  (({ s with nextPkt := id + 1 } : State).modFe fun e => { e with walks := e.walks ++ [⟨id, id % 4, asid, va, write, who⟩] }).laterX 1
    (.walkComplete id)

/-- R293, R295: a walk is requested for an AG, one at a time. -/
def State.agWalk (s : State) (c n : Nat) (a : Word) (write : Bool) : State :=
  let g := (s.core c).ag n
  if g.walk.isSome || g.lost.isSome then s
  else
    (s.modCore c fun x => x.modAg n fun g =>
      { g with walk := some a, st := if g.st = .run && !AgDesc.isOut g.desc then .starve else g.st }).requestWalk
        (s.asidOf c) a write (.ag c n)

/-- R267, R346: two timed AGs meet on a bank: the lens of the later-started one takes the fault. -/
def State.agConflict (s : State) (c n m bank : Nat) : State :=
  let x := s.core c
  let (late, early) := if (x.ag m).started ≤ (x.ag n).started then (n, m) else (m, n)
  s.modLens (x.ag late).lens fun l => l.raise { l.agEvent c late 0 0 0x30 2 0 bank with agb := early }

/-- R266, R267: an AG uses a bank's front port in this P-cycle, unless it must wait; `used` are the blocks it has read.
A timed AG is served and raises the conflict with another timed one. -/
def State.agPort (s : State) (c n : Nat) (timed : Bool) (used : List (Nat × Nat)) (bank blk : Nat) : Option State :=
  if used.contains (bank, blk) then some s
  else if used.any fun u => u.1 == bank then none
  else
    let busy := (s.core c).frontBusy.find? fun p => p.1 == bank
    match busy, timed with
    | some _, false => none
    | some p, true => if 8 ≤ p.2 ∧ p.2 ≠ 8 + n then some (s.agConflict c n (p.2 - 8) bank) else some s
    | none, _ => some (s.modCore c fun x => { x with frontBusy := x.frontBusy ++ [(bank, 8 + n)] })

/-- R206: a header token. -/
def headerToken (ft : BitVec 4) (d : BitVec 32) : Token := ⟨true, ft, d⟩

/-- R206: the tokens that some counters give, from the container's bytes and (FT 9) the scale byte. -/
def agTokens (d : AgDesc) (i0 : Nat) (p : AgPos) (bs : List Byte) (scale : Byte) : List Token :=
  let w := leNat bs
  let data := match d.ft.toNat with
    | 5 => w / 2 ^ (16 * p.sub) % 65536 + (w / 2 ^ (128 + 2 * p.sub) % 4) * 65536
    | 11 => w / 2 ^ (32 * p.sub) % 2 ^ 32
    | _ => w
  let h : BitVec 32 := match d.ft.toNat with
    | 5 => BitVec.ofNat 32 (5 * 2 ^ 28 + (w / 2 ^ 144 % 256) * 2 ^ 20 + (w / 2 ^ 152 % 256) * 2 ^ 12)
    | 9 => BitVec.ofNat 32 (9 * 2 ^ 28 + scale.toNat * 2 ^ 20 + bits d.hdrt 12 8 * 2 ^ 12)
    | _ => d.hdrt ||| BitVec.ofNat 32 (p.n / d.hdrint % 4096)
  (if p.header d i0 then [headerToken d.ft h] else []) ++ [⟨false, d.ft, BitVec.ofNat 32 data⟩]

/-- Why a place ends an AG's read, for the region fault that follows (R346). -/
def agErrOf (cause : BitVec 8) (a : Word) (bank : Nat) : AgErr :=
  if cause = 0x39 then ⟨0x39, 0, a, bank % 128⟩
  else if cause = 0x32 then ⟨0x32, 0, a, 0⟩
  else ⟨0x30, cause, if cause = 0x0A then a else 0, bank % 128⟩

/-- R208: the tokens that some counters give a lane: a data token, and a header before it where one precedes it. -/
def AgPos.tokens (p : AgPos) (d : AgDesc) (i0 : Nat) : Nat := if p.header d i0 then 2 else 1

/-- The entries that a lane's buffer and its reads in flight take. -/
def AgLane.filled (al : AgLane) (d : AgDesc) (i0 : Nat) (a : Lane) : Nat :=
  a.fifo.length + a.inFlight + al.reads.foldl (fun n x => n + x.pos.tokens d i0) 0

/-- A lane of an AG meets a token that it cannot read. -/
def State.laneErr (s : State) (c n k : Nat) (e : AgErr) : State :=
  s.modCore c fun x => x.modAg n fun g => g.modLane k fun b => { b with err := some e }

/-- R264, R208: where a read of global SRAM goes: a core, a name to walk, a wait, or a failure. -/
def State.readDst (s : State) (c : Nat) (a : Word) : Except Place Nat :=
  if !isGlobal a then .error (.bad 0x09 0)
  else
    match s.resolve c (eaName a) with
    | .hit d => .ok d
    | .away d => .ok d
    | .miss => .error (.name (eaName a) true)
    | .frozen => .error (.name (eaName a) false)
    | _ => .error (.bad 0x0C 0)

/-- R208, R281: one request of an AG's read leaves for its target. -/
def State.sendRead (s : State) (c n k rd : Nat) (ea : Word) (size : Nat) (sc : Bool) (dst : Nat) : State :=
  let nm := eaName ea
  let (id, s) := (s.useName c nm).stage c dst (8 + n) 0 nm (.agRead n k rd ea size sc [] none)
  if dst < 768 then s.laterX (s.requestLeg c dst) (.globalRequestArrive id) else s

/-- R208: a token of global SRAM is asked for: its container in one request, with its scale byte in another for FT 9; the
tokens of one container share its request. -/
def State.askRead (s : State) (c n k : Nat) (al : AgLane) (p : AgPos) (addr : Word) (used : List (Nat × Nat)) :
    Option (State × List (Nat × Nat)) :=
  let d : AgDesc := ((s.core c).ag n).desc
  let join (x : AgRead) : State := s.modCore c fun y => y.modAg n fun g =>
    g.modLane k fun _ => { al.step d with reads := al.reads ++ [{ x with pos := p }] }
  let last := al.reads.getLast?
  match (if p.sub = 0 then none else last.filter fun x => x.pos.i1 == p.i1 && x.pos.i2 == p.i2) with
  | some x => some (join x, used)
  | none =>
    let stop (q : Place) : Option (State × List (Nat × Nat)) :=
      match q with
      | .bad cause _ => some (s.laneErr c n k (agErrOf cause addr 0), used)
      | .name nm true => some (s.startWalk c nm, (1000000, 0) :: used)
      | _ => none
    let sc := d.scaleAddr addr
    match s.readDst c addr, (if d.ft = 9 then s.readDst c sc else .ok 0) with
    | .ok dst, .ok sdst =>
      let rd := s.nextPkt
      let s := ({ s with nextPkt := rd + 1 } : State).sendRead c n k rd addr d.size false dst
      let s := if d.ft = 9 then s.sendRead c n k rd sc 1 true sdst else s
      some (s.modCore c fun y => y.modAg n fun g => g.modLane k fun _ =>
        { al.step d with reads := al.reads ++ [⟨rd, p, if d.ft = 9 then 2 else 1, [], [], none⟩] }, used)
    | .error q, _ => stop q
    | _, .error q => stop q

/-- R206, R208: the reads of a lane that have been answered enter its buffer in order. -/
def State.landReads (c n k : Nat) : Nat → State → State
  | 0, s => s
  | m + 1, s =>
    let g := (s.core c).ag n
    let d : AgDesc := g.desc
    match (g.lane k).reads with
    | x :: rest =>
      if x.left ≠ 0 then s
      else
        match x.err with
        | some e => s.laneErr c n k e
        | none =>
          let ts := agTokens d ((d.dataLane k).getD 0) x.pos x.bytes (x.scale.headD 0)
          State.landReads c n k m (s.modCore c fun y =>
            (y.modLane d.edge k fun a => { a with fifo := a.fifo ++ ts }).modAg n fun g =>
              g.modLane k fun b => { b with marks := b.marks ++ [x.pos], reads := rest })
    | [] => s

/-- R266, R267: the front ports of the banks that a local read uses: its container's, and its scale byte's. -/
def State.agPorts (s : State) (c n : Nat) (timed : Bool) (used : List (Nat × Nat)) : List Word → Option (State × List (Nat × Nat))
  | [] => some (s, used)
  | a :: r =>
    let bank := bmIndex ((s.core c).bm (eaEntry a))
    let blk := bits a 6 12
    match s.agPort c n timed used bank blk with
    | some s => s.agPorts c n timed ((bank, blk) :: used) r
    | none => none

/-- R203, R295: an AG meets a token that no walk resolves. -/
def State.loseToken (s : State) (c n : Nat) (a : Word) : State :=
  s.modCore c fun x => x.modAg n fun g => { g with lost := g.lost.or (some a) }

/-- One token of one lane: the new state with the blocks read, or none where the lane cannot go on in this P-cycle. -/
def State.fetchToken (s : State) (c n k : Nat) (used : List (Nat × Nat)) : Option (State × List (Nat × Nat)) :=
  let x := s.core c
  let g := x.ag n
  let d : AgDesc := g.desc
  let l := s.lens g.lens
  let al := (g.lane k).settle d (l.names n)
  let i0 := (d.dataLane k).getD 0
  let p := al.pos
  let room := al.filled d i0 (x.lane d.edge k) + p.tokens d i0
  if al.err.isSome || g.lost.isSome || decide (d.cnt2 ≤ p.i2) || decide (d.cnt1 ≤ p.i1) || decide (32 < room) then none
  else
    let addr := d.addr i0 p.i1 p.i2
    if d.space = .glob then s.askRead c n k al p addr used
    else
    let (keys, stop) := placesFrom (s.agPlace c g false) addr d.size
    let (skey, sstop) := if d.ft = 9 then placesFrom (s.agPlace c g false) (d.scaleAddr addr) 1 else ([], none)
    match stop.or sstop with
    | some (.bad cause bank) =>
      if cause = 0x32 then some (s.loseToken c n addr, used) else some (s.laneErr c n k (agErrOf cause addr bank), used)
    | some (.miss va) => some (s.agWalk c n va false, (1000000, 0) :: used)
    | some _ => none
    | none =>
      let port := if d.space = .loc then
          s.agPorts c n (!d.stallok) used (addr :: if d.ft = 9 then [d.scaleAddr addr] else [])
        else some (s, used)
      match port with
      | none => none
      | some (s, used) =>
        if s.errAt (keys ++ skey) then some (s.laneErr c n k (agErrOf 0x39 addr (bmBank (x.bm (eaEntry addr)))), used)
        else
          let ts := agTokens d i0 p (s.bytesAt keys) ((s.bytesAt skey).headD 0)
          some (s.modCore c fun x =>
            (x.modLane d.edge k fun a => { a with fifo := a.fifo ++ ts }).modAg n fun g =>
              (g.hit addr).modLane k fun _ => { al.step d with marks := al.marks ++ [p] }, used)

/-- The tokens of one lane, as many as this P-cycle gives. A walk that has been asked for ends the P-cycle's reads. -/
def State.fetchLane (c n k : Nat) : Nat → State × List (Nat × Nat) → State × List (Nat × Nat)
  | 0, r => r
  | m + 1, (s, used) =>
    if used.any fun u => u.1 == 1000000 then (s, used)
    else
      match s.fetchToken c n k used with
      | some r => State.fetchLane c n k m r
      | none => (s, used)

/-- R198, R208: an input AG whose i2 has reached CNT2 and whose tokens have all been presented is done. -/
def State.agInDone (s : State) (c n : Nat) : State :=
  let g := (s.core c).ag n
  let d : AgDesc := g.desc
  let l := s.lens g.lens
  let spent (k : Nat) : Bool :=
    let a := (g.lane k).settle d (l.names n)
    decide (d.cnt2 ≤ a.pos.i2) && a.own.isEmpty && a.jumps.isEmpty
  if g.active && !d.isOut && d.dataLanes.all spent then
    (s.modCore c fun x => x.modAg n fun g =>
      d.dataLanes.foldl (fun g k => g.modLane k fun a => a.settle d (l.names n)) { g with st := .done }).agWriteBack c n
  else s

/-- R206: an input AG reads in this P-cycle: its data lanes from a given one on. -/
def State.agFetchAll (s : State) (c n lane : Nat) : State :=
  let g := (s.core c).ag n
  let d : AgDesc := g.desc
  let l := s.lens g.lens
  let gateShut := (s.core c).gates.getLsbD d.edge
  if !g.active || d.isOut || gateShut || decide (s.now < g.since) || !l.fused || l.freezing || l.st == .frozen then s
  else
    let ks := d.dataLanes.filter fun k => decide (k < (l.segment d.edge
      (if d.edge = 0 then coreY c - l.oy else coreX c - l.ox)).2)
    let order := (ks.filter fun k => decide (lane ≤ k)) ++ ks.filter fun k => decide (k < lane)
    let s := ks.foldl (fun s k => State.landReads c n k 33 s) s
    (order.foldl (fun r k => State.fetchLane c n k 40 r) (s, [])).1.agInDone c n

def execAgFetch (core ag lane : Nat) (s : State) : Host.Outcome State Fault Refusal :=
  onCore core (if ag < 4 then s.agFetchAll core ag lane else s)

/-! ### Read-ahead that is discarded (R208, R308, R347) -/

/-- The last tokens of a buffer are taken back: for each of the marks, the data token and its header. -/
def cutOwn (d : AgDesc) (i0 : Nat) (fifo : List Token) (marks : List AgPos) : List Token :=
  marks.foldr (fun p f => let f := f.dropLast; if p.header d i0 then f.dropLast else f) fifo

/-- The lane keeps its first m own tokens; the counters go back to the first one discarded. -/
def Core.cutLane (x : Core) (n k m : Nat) : Core :=
  let g := x.ag n
  let d : AgDesc := g.desc
  let al := g.lane k
  match al.own.drop m with
  | [] => x
  | p :: _ =>
    (x.modLane d.edge k fun a => { a with fifo := cutOwn d ((d.dataLane k).getD 0) a.fifo (al.marks.drop m) }).modAg n fun g =>
      g.modLane k fun a => { a with marks := a.marks.take m, reads := a.reads.take (m - a.marks.length), pos := p }

/-- R308: a FENCE row has an AG fetch again what it had fetched ahead. -/
def Core.refetch (x : Core) (n : Nat) : Core :=
  (AgDesc.dataLanes (x.ag n).desc).foldl (fun x k =>
    let had := ((x.ag n).lane k).own.length
    (x.cutLane n k 0).modAg n fun g => g.modLane k fun a => { a with again := had }) x

/-! ### Storing (R201, R207) -/

/-- R42, R207: what a token becomes in the AG's format: its bytes and the conditions met; RAW takes the container's bits. -/
def agStore (d : AgDesc) (sub : Nat) (t : Token) : List Byte × Flags :=
  if d.ft = 11 then
    if t.ft = 11 ∨ t.ft = 15 then (leBytes 4 t.data.toNat, 0)
    else (leBytes 4 (if sub = 0 then 0x7FC00000 else 0xFFFFFFFF), fNV)
  else if t.ft = 11 ∧ d.ft ≠ 15 then
    (leBytes d.size (if isFloatFt d.ft then canonNan d.ft else 0), fNV)
  else if d.ft = 15 then (leBytes 4 (t.data.toNat % 2 ^ (8 * Nat.min 4 (contSize t.ft))), 0)
  else
    let n := contNum t.ft (t.data.toNat % 2 ^ (8 * contSize t.ft))
    let (v, f) := if t.ft = 0 ∧ d.ft = 0 then copyNum n
      else convert d.ft ⟨.rne, d.hdr, 0, 0⟩ (if t.ft = 8 ∧ (d.ft = 6 ∨ d.ft = 7) then bits d.hdrt 0 5 else 0) n
    (leBytes d.size (v.cont d.ft), f)

def Lens.modOpen (l : Lens) (inv : Nat) (f : Invocation → Invocation) : Lens :=
  { l with open_ := updFirst (fun v => v.first == inv) f l.open_ }

/-- R284: one bulk vertical transfer of a core starts. -/
def State.bulkStart (s : State) (c : Nat) : State := s.modCore c fun x => { x with issued := x.issued + 1 }

/-- R282, R284: one bulk vertical transfer of the copy engine of a core: its data reach the write buffer in the next P-cycle
at the earliest, a P-cycle later at class 1. -/
def State.bulk (s : State) (c : Nat) : State := (s.bulkStart c).laterX (1 + s.classOf c) (.bulkTransferDone c)

def Space3.num : Space3 → BitVec 2
  | .loc => 0
  | .glob => 1
  | .va => 2
  | .none => 3

/-- R284: a 64-byte write segment of an AG on its way: one more write of the AG to perform. -/
def State.segmentStart (s : State) (c n : Nat) : State :=
  (s.bulkStart c).modCore c fun x => x.modAg n fun a => { a with pending := a.pending + 1 }

/-- R207: a write segment that cannot be sent: the lens takes the fault. -/
def State.segmentBad (s : State) (c n : Nat) (detail : BitVec 8) : State :=
  s.modLens ((s.core c).ag n).lens fun l => l.raise (l.agEvent c n 0 0 0x30 detail 0 0)

/-- R208: a write segment to global SRAM leaves as a posted write, or waits in the NI for its name (769). -/
def State.sendSegment (s : State) (c n : Nat) (ea : Word) (parts : List (Word × List Byte)) : State :=
  let g : Cargo := .agWrite n ea parts 0
  let send (dst : Nat) : Nat × State := (s.segmentStart c n).stage c dst (8 + n) 0 (eaName ea) g
  if !isGlobal ea then s.segmentBad c n 0x09
  else
    match s.resolve c (eaName ea) with
    | .hit dst => let (id, s) := send dst; s.laterX (s.requestLeg c dst) (.globalRequestArrive id)
    | .away d => (send d).2
    | .miss => (send 769).2.startWalk c (eaName ea)
    | .frozen => (send 769).2
    | _ => s.segmentBad c n 0x0C

/-- R266, R284: the held writes of one 64-byte block perform: those to the own window at the back port of their bank, those
to global SRAM at their target, those to device memory at once, at the places that their AG has translated. -/
def State.commitBlock (s : State) (l : List Seg) : State :=
  match l with
  | [] => s
  | g :: _ =>
    let parts := l.map fun x => (x.addr, x.bytes)
    match spaceOf g.space.toNat with
    | .glob => s.sendSegment g.core g.ag g.addr parts
    | .va => l.foldl (fun s x => s.writeAt x.keys x.bytes) s
    | _ =>
      (s.segmentStart g.core g.ag).backPort (bmIndex ((s.core g.core).bm (eaEntry g.addr)))
        (.segment g.core g.ag parts (s.classOf g.core))

/-- R282, R284: the segments of an output AG at its bank: at class 1 the transfer takes another P-cycle of the port. -/
def State.performSegment (s : State) (c n : Nat) (parts : List (Word × List Byte)) (left : Nat) : State :=
  match parts, left with
  | p :: _, k + 1 => { s with back := (bmIndex ((s.core c).bm (eaEntry p.1)), .segment c n parts k) :: s.back }
  | _, _ =>
    ((parts.foldl (fun s p => s.winPoke c p.1 p.2) s).modCore c fun x => x.modAg n fun g =>
      { g with pending := g.pending - 1 }).soon (.bulkTransferDone c)

/-- R284: the held writes by AG and 64-byte block, in stream order. -/
def segBlocks (l : List Seg) : List (List Seg) :=
  let same (a b : Seg) : Bool := a.core == b.core && a.ag == b.ag && a.space == b.space && a.addr.toNat / 64 == b.addr.toNat / 64
  l.foldl (fun r g =>
    match r.findIdx? fun b => b.head?.any (same g) with
    | some i => r.modify i (· ++ [g])
    | none => r ++ [[g]]) []

def State.commitAll (s : State) (l : List Seg) : State := (segBlocks l).foldl (fun s b => s.commitBlock b) s

/-- R207, R346: the event of an output AG's token that cannot be stored. -/
def Lens.agFault (l : Lens) (c n lane edge : Nat) (detail : BitVec 8) (a : Word) (bank : Nat) : Lens :=
  l.raise (l.agEvent c n lane edge 0x30 detail (if detail = 0x0A then a else 0) bank)

/-- R207: the device-memory places of a token's bytes, or why an output AG cannot take it yet, or must not. -/
def State.storePlace (s : State) (c : Nat) (g : AG) (a : Word) (n : Nat) : List Nat × Option Place :=
  match AgDesc.space g.desc with
  | .loc => placesFrom (s.placeLocal c true) a n
  | .va => placesFrom (s.placeExtent c g.ext) a n
  | _ => ([], none)

/-- R207: the counters at which the next token of an invocation is stored. -/
def AG.storePos (g : AG) (k inv : Nat) : AgLane :=
  let a := g.lane k
  if a.tag = inv then a
  else
    match g.intervals.find? fun p => p.1 == inv with
    | some p => if a.pos.i2 = p.2 then { a with tag := inv } else { a with tag := inv, pos := ⟨p.2, 0, 0, 0⟩ }
    | none => { a with tag := inv }

/-- R201, R207: the head token of a drained lane moves into the edge store buffers; none where the AG holds the lane. A
token past the CNT1 addresses of its interval, or past CNT2, is taken and discarded (log entry 35). -/
def State.storeToken (s : State) (key c n k : Nat) : Option State :=
  let x := s.core c
  let g := x.ag n
  let d : AgDesc := g.desc
  let l := s.lens key
  match (x.lane d.edge k).fifo, (x.lane d.edge k).tags with
  | t :: _, (inv, _) :: _ =>
    let pop (s : State) : State := s.modCore c fun x => x.modLane d.edge k fun a =>
      { a with fifo := a.fifo.drop 1, tags := a.tags.drop 1 }
    match d.dataLane k with
    | none => some (pop s)
    | some i0 =>
      let al := g.storePos k inv
      let named := (g.intervals.any fun p => p.1 == inv)
      let al := al.settle d named
      if d.cnt2 ≤ al.pos.i2 ∨ d.cnt1 ≤ al.pos.i1 then (if g.st = .done then none else some (pop s))
      else
        let a := d.addr i0 al.pos.i1 al.pos.i2 + w64 (if d.ft = 11 then 4 * al.pos.sub else 0)
        let (bs, f) := agStore d al.pos.sub t
        match s.storePlace c g a bs.length with
        | (_, some (.bad cause bank)) =>
          -- R291: a translation fault of the AG
          if cause = 0x32 then (if g.lost.isSome then none else some (s.loseToken c n a))
          else some ((pop s).modLens key fun l => (l.flag f).agFault c n k d.edge cause a bank)
        | (_, some (.miss va)) => some (s.agWalk c n va true)
        | (_, some _) => none
        | (keys, none) =>
          let seg : Seg := ⟨c, n, d.space.num, a, bs, if d.space = .va then keys else []⟩
          let s := (pop s).modCore c fun x => x.modAg n fun g =>
            (g.hit a).modLane k fun _ => { al with pos := al.pos.next d }
          if l.open_.any fun v => v.first == inv then
            some (s.modLens key fun l => (l.flag f).modOpen inv fun v =>
              { v with
                segs := v.segs ++ [seg]
                rewind := if v.rewind.any fun r => r.core == c && r.ag == n && r.lane == k then v.rewind
                  else v.rewind ++ [⟨c, n, k, al.pos, Conv.reset⟩] })
          else some ((s.modLens key fun l => l.flag f).commitAll [seg])
  | _, _ => none

/-- R301: the lane of an output AG whose head token came first. -/
def Core.nextStore (x : Core) (d : AgDesc) : Option Nat :=
  let first (k : Nat) : Nat := ((x.lane d.edge k).tags.head?.map (·.2)).getD 0
  argMin first ((List.range d.nlanes).filterMap fun i =>
    let k := d.lane0 + i
    if (x.lane d.edge k).fifo.isEmpty || (x.lane d.edge k).tags.isEmpty then none else some k)

/-- R301: an output AG takes tokens in the order in which they came, as far as it can. -/
def State.storeAll (key c n : Nat) : Nat → State → State
  | 0, s => s
  | m + 1, s =>
    match (s.core c).nextStore ((s.core c).ag n).desc with
    | none => s
    | some k =>
      match s.storeToken key c n k with
      | some t => if ((t.core c).ag n).walk.isSome || ((t.core c).ag n).lost.isSome then t else State.storeAll key c n m t
      | none => s

/-- R207, R208: an output AG whose i2 has reached CNT2 and whose segments have all performed is done. -/
def State.agOutDone (s : State) (c n : Nat) : State :=
  let g := (s.core c).ag n
  let d : AgDesc := g.desc
  let l := s.lens g.lens
  let spent (k : Nat) : Bool :=
    decide (d.cnt2 ≤ ((g.lane k).settle d (!g.intervals.isEmpty)).pos.i2)
  let held := l.open_.any fun v => v.segs.any fun q => q.core == c && q.ag == n
  if g.active && d.isOut && d.dataLanes.all spent && g.pending == 0 && !held then
    (s.modCore c fun x => x.modAg n fun g =>
      d.dataLanes.foldl (fun g k => g.modLane k fun a => a.settle d (!g.intervals.isEmpty)) { g with st := .done }).agWriteBack c n
  else s

/-- R201: the output AGs of a lens take what its lanes hold. -/
def State.drainAgs (s : State) (key : Nat) : State :=
  let l := s.lens key
  l.cores.foldl (fun s c => (List.range 4).foldl (fun s n =>
    let g := (s.core c).ag n
    let d : AgDesc := g.desc
    if g.active && d.isOut && g.lens == key && !(s.core c).gates.getLsbD d.edge && decide (g.since ≤ s.now) then
      (State.storeAll key c n 2100 s).agOutDone c n
    else s) s) s

end Sys2Proof.Machine
end

