-- ==== Sys2Proof/Machine/Channel.lean ====
section
/-! DEFINITION. Stream channels: routes, latencies, credits, and the tokens they carry (R210 to R212). -/

namespace Sys2Proof.Machine

/-- R210: the route that a task's image declares under a channel number. -/
def State.routeOf (s : State) (task n : Nat) : Option Route := (s.task task).kernel.routes[n]?

def LaneRange.size (r : LaneRange) : Nat := r.last + 1 - r.first

/-- R210: the lanes of a route. -/
def Route.lanes (r : Route) : Nat :=
  match r.src, r.dst with
  | some a, _ => a.size
  | none, b :: _ => b.size
  | none, [] => 0

/-- The core, edge and segment lane of lane k of a range. -/
def State.rangeLane (s : State) (task : Nat) (r : LaneRange) (k : Nat) : Nat × Nat × Nat :=
  let (c, i) := (s.lens (lensKey task r.lens)).laneAt r.edge (r.first + k)
  (c, r.edge, i)

/-- R211: the delay of one lane: 1 A-cycle per facet entered, 2 more per seam. -/
def laneDelay (a b : Nat) : Nat :=
  dist (coreX a) (coreX b) + dist (coreY a) (coreY b) + 2 * (seamsX (coreX a) (coreX b) + seamsY (coreY a) (coreY b))

/-- R211: the latency of a destination range. -/
def State.rangeLatency (s : State) (task : Nat) (src dst : LaneRange) : Nat :=
  maxOf 0 ((List.range src.size).map fun k => laneDelay (s.rangeLane task src k).1 (s.rangeLane task dst k).1)

/-- R211, R212: a consuming lane holds a credit: a free entry, and its gate is open. -/
def State.hasCredit (s : State) (task chan i : Nat) (r : LaneRange) (k : Nat) : Bool :=
  let (c, e, l) := s.rangeLane task r k
  let a := (s.core c).lane e l
  let fly := ((s.chan (chanKey task chan)).fly.filter fun t => t.range == i && t.lane == k).length
  (s.lens (lensKey task r.lens)).fused && !(s.core c).gates.getLsbD e && decide (a.fifo.length + a.inFlight + fly < 32)

/-- R211: every consumer of lane k holds a credit. -/
def State.allCredits (s : State) (task chan : Nat) (r : Route) (k : Nat) : Bool :=
  r.dst.zipIdx.all fun p => s.hasCredit task chan p.2 p.1 k

/-- R211: a producing lane may forward its head token. -/
def State.mayForward (s : State) (task chan k : Nat) : Bool :=
  match s.routeOf task chan with
  | some r =>
    match r.src with
    | some a =>
      let l := s.lens (lensKey task a.lens)
      let (c, e, i) := s.rangeLane task a k
      (s.chan (chanKey task chan)).st == .bound && decide (k < a.size) && l.fused && !l.freezing &&
        !(s.core c).gates.getLsbD e && !((s.core c).lane e i).fifo.isEmpty && s.allCredits task chan r k
    | none => false
  | none => false

/-- R225: a header that the slot of this P-cycle's turn pushes enters a lane before a channel's token. -/
def State.earlyPush (s : State) (c : Nat) : State :=
  match s.phase, wheelSlot (s.core c).wheel (s.now + (s.core c).skew) with
  | .events, some k =>
    let r : SlotRef := ⟨c, k⟩
    let sl := s.slot r
    let pushes (f : Flight) : Bool := f.due (sl.turn + 1) s.now && f.writes.any fun w => match w with
      | .push _ _ => true
      | _ => false
    (sl.flights.filter pushes).foldl (fun s f => s.applyWrites r f.writes)
      (s.modSlot r fun x => { x with flights := x.flights.filter fun f => !pushes f })
  | _, _ => s

/-- R211, R212: the tokens of a channel that have arrived enter their lanes, those in flight when a gate closed among them
(log entry 34). -/
def State.deliverChan (s : State) (task chan : Nat) (r : Route) (now : Nat) : State :=
  let key := chanKey task chan
  let (due, rest) := (s.chan key).fly.partition fun t => decide (t.due ≤ now)
  due.foldl (fun s t =>
    match r.dst[t.range]? with
    | some d =>
      let (c, e, i) := s.rangeLane task d t.lane
      (s.earlyPush c).modCore c fun x => x.modLane e i fun a => { a with fifo := a.fifo ++ [t.tok] }
    | none => s) (s.modChan key fun x => { x with fly := rest })

/-- R211: a producing lane forwards its head token to every consumer. -/
def State.forward (s : State) (task chan k : Nat) (r : Route) (a : LaneRange) : State :=
  let l := s.lens (lensKey task a.lens)
  let (c, e, i) := s.rangeLane task a k
  match ((s.core c).lane e i).fifo with
  | [] => s
  | t :: rest =>
    let toks := r.dst.zipIdx.map fun p => (⟨l.region + s.rangeLatency task a p.1, p.2, k, t⟩ : ChanTok)
    let s := s.modCore c fun x => x.modLane e i fun b => { b with fifo := rest, tags := b.tags.drop 1 }
    (s.modChan (chanKey task chan) fun x => { x with fly := x.fly ++ toks }).deliverChan task chan r l.region

def execChannelForward (task chan lane : Nat) (s : State) : Host.Outcome State Fault Refusal :=
  .next <|
    match s.routeOf task chan with
    | some r =>
      match r.src with
      | some a => if s.mayForward task chan lane then s.forward task chan lane r a else s
      | none => s
    | none => s

/-- R211: in an A-cycle of a producing lens its channels deliver what has arrived and forward from every lane that may. -/
def State.channelsOf (s : State) (key : Nat) : State :=
  let l := s.lens key
  let rs := ((s.task l.task).kernel.routes.zipIdx.filter fun p =>
    (p.1.src.any fun a => a.lens == l.num) && (s.chan (chanKey l.task p.2)).st != .unbound)
  let s := rs.foldl (fun s p => s.deliverChan l.task p.2 p.1 l.region) s
  s.first (rs.flatMap fun p => ((List.range p.1.lanes).filter fun k => s.mayForward l.task p.2 k).map fun k =>
    Due.ev (.channelForward l.task p.2 k))

end Sys2Proof.Machine
end

