-- ==== Sys2Proof/Machine/Graph.lean ====
section
/-! DEFINITION. The graph unit of a core: nodes, their descriptors, arming, launch, completion and the graph instructions
(R315 to R338). -/

namespace Sys2Proof.Machine

/-! ### Descriptors (R316 to R318, R323, R324) -/

abbrev NodeDesc := BitVec 256

def NodeDesc.dw (d : NodeDesc) (k : Nat) : Word := d.extractLsb' (64 * k) 64
def NodeDesc.kind (d : NodeDesc) : Nat := bits (d.dw 0) 0 8
def NodeDesc.comp (d : NodeDesc) : Word := d.dw 1

/-- R316: successor byte i. -/
def NodeDesc.succByte (d : NodeDesc) (i : Nat) : BitVec 8 := (d.dw 0).extractLsb' (32 + 8 * i) 8

/-- R316: the ids of the valid successors. -/
def NodeDesc.succs (d : NodeDesc) : List Nat :=
  (List.range 4).filterMap fun i => if (d.succByte i).getLsbD 7 then some (bits (d.succByte i) 0 6) else none

/-- R317: the kinds that the copy engine runs. -/
def engineKind (k : Nat) : Bool := decide (1 ≤ k ∧ k ≤ 3)

/-- R318: dword 0 breaks a rule. -/
def NodeDesc.bad0 (d : NodeDesc) (x : Core) : Bool :=
  bits (d.dw 0) 19 5 != 0 || ((d.dw 0).getLsbD 18 && !engineKind d.kind) ||
    ((List.range 4).any fun i => (d.succByte i).getLsbD 6) || !([1, 2, 3, 5, 6, 7].contains d.kind) ||
    (d.succs.any fun n => (x.node n).st != .armed) || decide (d.succs.eraseDups.length < d.succs.length)

/-- R318: the completion object is misaligned, outside the window or in a detached entry. -/
def compBad (x : Core) (a : Word) : Bool :=
  a != 0 && (a.toNat % 8 != 0 || !isLocal a || !bmV (x.bm (eaEntry a)) || bmPend (x.bm (eaEntry a)))

/-- R317, R318: ARG0 breaks a rule. -/
def NodeDesc.bad2 (d : NodeDesc) : Bool :=
  let a := d.dw 2
  match d.kind with
  | 5 => bits a 8 8 != 0 || bits a 32 32 != 0
  | 6 => bits a 19 5 != 0 || bits a 27 5 != 0 || bits a 48 16 != 0 || decide (4 < bits a 24 3)
  | 7 => bits a 22 42 != 0
  | _ => bits a 0 6 != 0

/-- R318: the index of the first offending dword. -/
def NodeDesc.defect (d : NodeDesc) (x : Core) : Option Nat :=
  if d.bad0 x then some 0
  else if compBad x d.comp then some 1
  else if d.bad2 then some 2
  else if d.kind ≠ 3 ∧ d.dw 3 ≠ 0 then some 3
  else none

/-- R323: a transfer descriptor. -/
abbrev Transfer := BitVec 512

def Transfer.dw (t : Transfer) (k : Nat) : Word := t.extractLsb' (64 * k) 64
def Transfer.cnt2 (t : Transfer) : Nat := bits (t.dw 2) 48 16
def Transfer.cnt1 (t : Transfer) : Nat := bits (t.dw 2) 32 16
def Transfer.cnt0 (t : Transfer) : Nat := bits (t.dw 2) 0 32
def Transfer.dstr1 (t : Transfer) : Int := sextNat 32 (bits (t.dw 3) 32 32)
def Transfer.sstr1 (t : Transfer) : Int := sextNat 32 (bits (t.dw 3) 0 32)
def Transfer.dstr2 (t : Transfer) : Int := sextNat 32 (bits (t.dw 4) 32 32)
def Transfer.sstr2 (t : Transfer) : Int := sextNat 32 (bits (t.dw 4) 0 32)
def Transfer.shift (t : Transfer) : Nat := bits (t.dw 5) 16 5
def Transfer.sat (t : Transfer) : Bool := (t.dw 5).getLsbD 15
def Transfer.dsp (t : Transfer) : Space3 := spaceOf (bits (t.dw 5) 10 2)
def Transfer.ssp (t : Transfer) : Space3 := spaceOf (bits (t.dw 5) 8 2)
def Transfer.dft (t : Transfer) : BitVec 4 := (t.dw 5).extractLsb' 4 4
def Transfer.sft (t : Transfer) : BitVec 4 := (t.dw 5).extractLsb' 0 4

/-- R324: the alignment of the bases and strides of a side. -/
def sideAlign (ft : BitVec 4) : Nat := if ft = 5 ∨ ft = 11 then 4 else contSize ft

def multOf (al : Nat) (z : Int) : Bool := z % (al : Int) == 0

/-- R42: the conversions that are not marked as missing. -/
def convPair (sft dft : BitVec 4) : Bool :=
  let float (f : BitVec 4) : Bool := isFloatFt f
  let int (f : BitVec 4) : Bool := isIntFt f
  if float sft then float dft || int dft || dft == 5 || dft == 9 || dft == 15
  else if int sft then float dft || int dft || dft == 15
  else match sft.toNat with
    | 11 => dft == 11 || dft == 15
    | 5 => float dft || int dft || dft == 5
    | 9 => float dft || int dft || dft == 9 || dft == 15
    | _ => dft != 5 && dft != 9

/-- R325 to R327: the pair of formats is allowed for the kind. -/
def Transfer.pairOk (t : Transfer) (kind : Nat) : Bool :=
  let blk := t.dft == 5 || t.dft == 9
  match kind with
  | 1 => convPair t.sft t.dft && (!blk || t.sft == t.dft)
  | 2 => decide (t.sft.toNat ≤ 4) && blk
  | _ => t.sft == t.dft && !blk

def Transfer.bad5 (t : Transfer) (kind : Nat) : Bool :=
  let res (f : BitVec 4) : Bool := f == 13 || f == 14
  bits (t.dw 5) 25 39 != 0 || bits (t.dw 5) 21 3 != 0 || decide (4 < bits (t.dw 5) 12 3) || t.dsp == .none || t.ssp == .none ||
    (t.shift != 0 && !(t.sft == 8 && (t.dft == 6 || t.dft == 7))) || res t.sft || res t.dft || !t.pairOk kind

/-- R324: the index of the first dword that breaks a rule. -/
def Transfer.defect (t : Transfer) (kind : Nat) : Option Nat :=
  let sa := sideAlign t.sft
  let da := sideAlign t.dft
  let group := (t.dft == 5 || t.sft == 5) && t.cnt0 % 32 != 0
  let points := (t.dft == 9 || t.sft == 9) && (t.cnt1 != 1 || t.cnt2 != 1)
  let ok := !(t.sft == 13 || t.sft == 14 || t.dft == 13 || t.dft == 14)
  if ok && kind != 3 && !multOf sa (t.dw 0).toNat then some 0
  else if ok && !multOf da (t.dw 1).toNat then some 1
  else if t.cnt2 = 0 ∨ t.cnt1 = 0 ∨ t.cnt0 = 0 || group || points then some 2
  else if ok && (!multOf da t.dstr1 || !multOf sa t.sstr1) then some 3
  else if ok && (!multOf da t.dstr2 || !multOf sa t.sstr2) then some 4
  else if t.bad5 kind then some 5
  else if t.sft ≠ 9 ∧ t.dw 6 ≠ 0 then some 6
  else if t.dft ≠ 9 ∧ t.dw 7 ≠ 0 then some 7
  else none

/-! ### Entry sets (R330) -/

/-- R324: the bytes of a row of n elements. -/
def rowBytes (ft : BitVec 4) (n : Nat) : Nat :=
  match ft.toNat with
  | 5 => 20 * ceilDiv n 32
  | 9 => 2 * ceilDiv n 8
  | _ => n * contSize ft

/-- The least and the greatest of z, z + a and so on over counts. -/
def reachOf (base : Int) (steps : List (Nat × Int)) : Int × Int :=
  steps.foldl (fun r p =>
    let d : Int := (p.1 - 1 : Nat) * p.2
    (r.1 + min d 0, r.2 + max d 0)) (base, base)

/-- R324, R330: the addresses of the source (or destination) elements of a transfer. -/
def Transfer.span (t : Transfer) (dst : Bool) : Int × Int :=
  let ft := if dst then t.dft else t.sft
  let (lo, hi) := reachOf (if dst then (t.dw 1).toNat else (t.dw 0).toNat)
    [(t.cnt1, if dst then t.dstr1 else t.sstr1), (t.cnt2, if dst then t.dstr2 else t.sstr2)]
  let n := if ft = 9 ∨ ft = 5 then (t.cnt0 + 31) / 32 * 32 else t.cnt0
  (lo, hi + (rowBytes ft n : Int) - 1)

/-- R330: the entries of a core that the ranges of a transfer can touch. -/
def State.transferSet (s : State) (c kind : Nat) (t : Transfer) : BitVec 16 :=
  let dst := t.span true
  let src := t.span false
  let plane (sp : Space3) (b : Word) : BitVec 16 := s.spanEntries c sp b.toNat (b.toNat + t.cnt0 / 32)
  s.spanEntries c t.dsp dst.1 dst.2 ||| (if kind = 3 then 0 else s.spanEntries c t.ssp src.1 src.2) |||
    (if t.sft = 9 then plane t.ssp (t.dw 6) else 0) ||| (if t.dft = 9 then plane t.dsp (t.dw 7) else 0)

/-- The entries of bytes of the local window. -/
def localSet (a : Word) (n : Nat) : BitVec 16 := entriesFrom a.toNat (a.toNat + n - 1)

/-- R330: the entries of a node's completion object and, where it has one, of its transfer descriptor. -/
def nodeSet (comp arg0 : Word) (eng : Bool) : BitVec 16 :=
  (if comp = 0 then 0 else localSet comp 8) ||| (if eng then localSet arg0 64 else 0)

/-! ### Launch (R319, R323, R331) -/

/-- R331: accesses of its owner that a node follows have not performed yet. -/
def State.nodeWaits (s : State) (c : Nat) (nd : Node) : Bool := (s.slot ⟨c, nd.owner⟩).waitsFor nd.needs

/-- R323: the engine reads the transfer descriptor of a node, which fails or is rejected here. -/
def State.readTransfer (s : State) (c n : Nat) : State :=
  let nd := (s.core c).node n
  let a := nd.arg0
  if !isLocal a then s.nodeEnd c n 0x09 0
  else
    match entryRefuses ((s.core c).bm (eaEntry a)) false with
    | some _ => s.nodeEnd c n 0x0A 0
    | none =>
      if s.hasErr ((s.core c).winKey a) 64 then s.nodeEnd c n 0x39 0
      else
        let t : Transfer := BitVec.ofNat 512 (leNat (s.winBytes c a 64))
        match t.defect nd.kind.toNat with
        | some k => s.nodeEnd c n 0xF6 (BitVec.ofNat 8 (0x80 + k))
        | none =>
          s.modCore c fun x => x.modNode n fun d =>
            { d with td := some t, eset := nodeSet d.comp d.arg0 true ||| s.transferSet c nd.kind.toNat t }

/-- The nodes of a copy-engine channel. -/
def Core.engine (x : Core) (ch : Nat) : List Nat := if ch = 0 then x.eng0 else x.eng1

def Core.setEngine (x : Core) (ch : Nat) (l : List Nat) : Core := if ch = 0 then { x with eng0 := l } else { x with eng1 := l }

/-- R319: a node launches: it joins its channel, or the graph unit's own work; a LENS node waits at its lens. -/
def State.launchNode (s : State) (c n : Nat) : State :=
  let nd := (s.core c).node n
  let s := s.modCore c fun x => x.modNode n fun d => { d with st := .running }
  match nd.kind.toNat with
  | 1 | 2 | 3 =>
    let idle := ((s.core c).engine nd.chan).isEmpty
    let s := s.modCore c fun x => x.setEngine nd.chan (x.engine nd.chan ++ [n])
    let s := if nd.td.isNone && !s.nodeWaits c nd then s.readTransfer c n else s
    if idle then s.later 1 (.copySegment c nd.chan) else s
  | 4 => s
  | _ =>
    let idle := (s.core c).guq.isEmpty
    let s := s.modCore c fun x => { x with guq := x.guq ++ [n] }
    if idle then s.soon (.graphUnitRun c) else s

/-! ### Arming (R315, R318, R334) -/

/-- R315: the lowest-numbered FREE node slot. -/
def Core.freeNode (x : Core) : Option Nat := (List.range 64).find? fun n => (x.node n).st == .free

/-- R318: a node is armed; with no predecessor it launches at once; with a descriptor that is rejected it completes. -/
def State.armNode (s : State) (c n : Nat) (nd : Node) (bad : Option (BitVec 8)) : State :=
  let s := s.modCore c fun x => x.modNode n fun _ => nd
  match bad with
  | some d => s.nodeEnd c n 0xF6 d
  | none => if nd.pred = 0 then s.launchNode c n else s

/-- R21, R316, R323: the bytes of a descriptor as a load of the slot; none while an earlier AMO of the slot to one of
them has not performed. -/
def State.descriptor (s : State) (a : Word) (len : Nat) : Option (List Byte) :=
  let q := s.sourceAccess a len
  let accs := s.me.accs
  if accs.any fun e => e.kind == .amo && !e.isPerformed && e.overlaps q then none
  else
    let fwd := accs.filter fun e => e.kind == .store && !e.isPerformed && e.st != .performed && e.overlaps q
    some (overlayStores q fwd (s.winBytes s.cur.core a len))

/-- R330: the entries that the transfer ranges of a node of the engine can touch, by its descriptor as it stands when the
node is armed. -/
def State.armedSet (s : State) (kind : Nat) (a : Word) : BitVec 16 :=
  if !engineKind kind || !isLocal a || (entryRefuses (s.myCore.bm (eaEntry a)) false).isSome then 0
  else s.transferSet s.cur.core kind
    (BitVec.ofNat 512 (leNat ((s.descriptor a 64).getD (s.winBytes s.cur.core a 64))))

/-- R316, R318: the node of a descriptor. -/
def State.nodeOf (s : State) (d : NodeDesc) : Node :=
  let sl := s.me
  let w := d.dw 0
  let eng := engineKind d.kind
  { Node.reset with
    st := .armed
    owner := s.cur.slot
    kind := BitVec.ofNat 8 d.kind
    succ := d.succs
    ntv := if w.getLsbD 31 then some (bits w 28 3, bits w 24 4) else none
    chan := b2n (w.getLsbD 18)
    autofree := w.getLsbD 17
    deliver := w.getLsbD 16
    pred := bits w 8 8
    comp := d.comp
    arg0 := d.dw 2
    arg1 := d.dw 3
    key := sl.rngkey
    eset := nodeSet d.comp (d.dw 2) eng ||| s.armedSet d.kind (d.dw 2)
    needs := sl.unperformed fun _ => true }

/-- R333: FINFO of 0x0F. -/
def info0F (kind : Nat) (detail status : BitVec 8) (id : Nat) : Word :=
  w64 (kind * 2 ^ 24 + detail.toNat * 65536 + status.toNat * 256 + id % 64)

/-- R334: the first check of an arming instruction that fails. -/
def armNodeFault (x : Core) (a : Word) (al len : Nat) : Option (BitVec 8 × Word × Word) :=
  if a.toNat % al ≠ 0 then some (0x08, a, 0)
  else
    match rangeFault x a len with
    | some f => some f
    | none => if x.freeNode.isNone then some (0x0F, 0, info0F 2 0 0 0) else none

/-- R334: an arming instruction. -/
def armWord (h : Hdr) (o : FmtA) (s : State) (al len : Nat) (body : List Byte → Nat → State → State) :
    Host.Outcome State Fault Refusal :=
  word h s fun s =>
    let a := s.me.gr o.ra
    match armNodeFault s.myCore a al len with
    | some (cause, addr, info) => s.precise cause addr info
    | none =>
      match s.descriptor a (if len = 32 then 32 else 64), s.myCore.freeNode with
      | some bs, some n =>
        if s.hasErr (s.myCore.winKey a) bs.length then
          s.retire.defer s.cur none 0x39 (some s.me.pc) a (eccInfo (bmBank (s.myCore.bm (eaEntry a))) a 0) s.now none
        else (body bs n (s.emit 4 [.g o.rd (w64 n)])).retire
      | _, _ => s.modMe fun sl => { sl with gate := .offer }

/-- R334: GNODE. -/
def execGnode (h : Hdr) (o : FmtA) (s : State) : Host.Outcome State Fault Refusal :=
  armWord h o s 32 32 fun bs n s =>
    let d : NodeDesc := BitVec.ofNat 256 (leNat bs)
    s.armNode s.cur.core n (s.nodeOf d) ((d.defect s.myCore).map (BitVec.ofNat 8 ·))

/-- R334: a node of CPY or QNT. -/
def State.engineNode (s : State) (a : Word) (kind ch : Nat) (t : Transfer) : Node :=
  let sl := s.me
  { Node.reset with
    st := .armed
    owner := s.cur.slot
    kind := BitVec.ofNat 8 kind
    chan := ch
    deliver := (t.dw 5).getLsbD 24
    comp := a + 64
    arg0 := a
    td := some t
    key := sl.rngkey
    eset := localSet a 72 ||| s.transferSet s.cur.core kind t
    needs := sl.unperformed fun _ => true }

/-- R334: CPY, by its channel. -/
def execCpy (h : Hdr) (o : FmtA) (s : State) : Host.Outcome State Fault Refusal :=
  let a := s.me.gr o.ra
  armWord h o s 64 72 fun bs n s =>
    let t : Transfer := BitVec.ofNat 512 (leNat bs)
    s.armNode s.cur.core n (s.engineNode a 1 (b2n (o.fn == 1)) t) ((t.defect 1).map fun k => BitVec.ofNat 8 (0x80 + k))

/-- R334: QNT: a descriptor of another destination format is rejected. -/
def qntWord (h : Hdr) (o : FmtA) (s : State) (dft : BitVec 4) : Host.Outcome State Fault Refusal :=
  let a := s.me.gr o.ra
  armWord h o s 64 72 fun bs n s =>
    let t : Transfer := BitVec.ofNat 512 (leNat bs)
    let bad := match t.defect 2 with
      | some k => if t.dft ≠ dft ∧ 5 ≤ k then some 0x85 else some (BitVec.ofNat 8 (0x80 + k))
      | none => if t.dft = dft then none else some 0x85
    s.armNode s.cur.core n (s.engineNode a 2 1 t) bad

def execQntE8l (h : Hdr) (o : FmtA) (s : State) : Host.Outcome State Fault Refusal := qntWord h o s 9

def execQntFq4 (h : Hdr) (o : FmtA) (s : State) : Host.Outcome State Fault Refusal := qntWord h o s 5

/-! ### Completion (R319 to R322) -/

/-- R320: the completion object. -/
def compWord (n : Nat) (nd : Node) (seq : BitVec 32) : Word :=
  w64 (seq.toNat * 2 ^ 32 + n % 64 * 2 ^ 24 + nd.flags.toNat * 65536 + nd.detail.toNat * 256 + nd.status.toNat)

/-- R319 step 2: the completion object is written, unless arming has rejected its address, and the node is DONE, or FREE
under AUTOFREE. -/
def State.finishNode (s : State) (c n : Nat) : State :=
  let x := s.core c
  let nd := x.node n
  let seq := x.cseq
  let s := if nd.comp = 0 || !isLocal nd.comp || nd.comp.toNat % 8 != 0 || (entryRefuses (x.bm (eaEntry nd.comp)) true).isSome then s
    else s.winPoke c nd.comp (leBytes 8 (compWord n nd seq).toNat)
  let fin : NodeFin :=
    { node := n, due := s.now + 1, status := nd.status, detail := nd.detail, ntv := nd.ntv, succ := nd.succ,
      deliver := if nd.deliver && (nd.status == 0x18 || nd.status == 0x19) then some (nd.owner, nd.vaFail) else none }
  (s.modCore c fun x =>
    { x.modNode n (fun d =>
        { d with
          st := if d.autofree then .free else .done
          ending := false
          seq := seq
          eset := 0
          freedBy := if d.autofree then some d.status else none }) with
      cseq := if seq + 1 = 0 then 1 else seq + 1
      eng0 := x.eng0.filter (· != n)
      eng1 := x.eng1.filter (· != n)
      guq := x.guq.filter (· != n)
      fins := x.fins ++ [fin] }).later 1 (.nodeComplete c n)

/-- R322: a node that is ARMED is cancelled. -/
def State.cancelNode (s : State) (c n by_ : Nat) : State :=
  if ((s.core c).node n).st = .armed && !((s.core c).node n).ending then s.nodeEnd c n 0xF5 (BitVec.ofNat 8 by_) else s

/-- R319, R335: a predecessor of an ARMED node is done. -/
def State.releaseNode (s : State) (c n : Nat) : State :=
  let nd := (s.core c).node n
  if nd.st = .armed && !nd.ending then
    let s := s.modCore c fun x => x.modNode n fun d => { d with pred := d.pred - 1 }
    if nd.pred ≤ 1 then s.launchNode c n else s
  else s

/-- The nodes of a GWAIT that has ended are observed: they become FREE (R315, R336). -/
def Core.observe (x : Core) (l : List Nat) : Core :=
  l.foldl (fun x n => if (x.node n).st = .done then x.modNode n fun d => { d with st := .free, freedBy := none } else x) x

/-- R336: the lower of two failed nodes. -/
def lowerFail (a b : Option (Nat × BitVec 8 × BitVec 8)) : Option (Nat × BitVec 8 × BitVec 8) :=
  match a, b with
  | some x, some y => if y.1 < x.1 then some y else some x
  | some x, none => some x
  | none, y => y

/-- R336: a GWAIT whose nodes are all done ends: they are observed, and a failure is taken where the next word would
issue. -/
def State.endGwait (s : State) (r : SlotRef) (seen : List Nat) (fail : Option (Nat × BitVec 8 × BitVec 8)) : State :=
  (s.modCore r.core fun x => x.observe seen).modSlot r fun sl =>
    match fail with
    | none => sl.leaveWait (s.now + 1)
    | some (n, st, dt) =>
      { sl with life := .running, wait := none, gate := .fromCycle (s.now + 1), gfail := some (sl.pc, sl.h, info0F 0 dt st n) }

/-- R336: a GWAIT learns that a node has completed; a slot that is not WAITING yet (R11) leaves its wait later. -/
def State.tellWaiter (s : State) (c k : Nat) (f : NodeFin) : State :=
  let r : SlotRef := ⟨c, k⟩
  match (s.slot r).wait with
  | some (.gwait left seen fail) =>
    if left.contains f.node then
      let left := left.filter (· != f.node)
      let seen := seen ++ [f.node]
      let fail := lowerFail fail (if f.status = 0 then none else some (f.node, f.status, f.detail))
      if left.isEmpty && (s.slot r).life == .waiting then s.endGwait r seen fail
      else s.modSlot r fun sl => { sl with wait := some (.gwait left seen fail) }
    else s
  | _ => s

/-- R329, R343: the owner takes the failure of a node that delivers it. -/
def State.deliverFail (s : State) (c : Nat) (f : NodeFin) : State :=
  match f.deliver with
  | none => s
  | some (k, va) => s.defer ⟨c, k⟩ none f.status none va (w64 (f.status.toNat * 256 + f.node)) s.now none

/-- R319 step 3. -/
def State.serveFin (s : State) (c : Nat) (f : NodeFin) : State :=
  let s := s.modCore c fun x => { x with fins := dropFirst (· == f) x.fins }
  let s := match f.ntv with
    | some (k, b) => s.notify ⟨c, k⟩ ((1 : BitVec 16) <<< b)
    | none => s
  let s := f.succ.foldl (fun s n => if f.status = 0 then s.releaseNode c n else s.cancelNode c n f.node) s
  let s := (List.range 8).foldl (fun s k => s.tellWaiter c k f) s
  s.deliverFail c f

/-- R319: a completion whose third step is due is served; a node whose work has ended completes. -/
def execNodeComplete (core node : Nat) (s : State) : Host.Outcome State Fault Refusal :=
  onCore core <|
    let ready := (s.core core).fins.filter fun f => f.node == node && decide (f.due ≤ s.now)
    let s := ready.foldl (fun s f => s.serveFin core f) s
    let nd := (s.core core).node node
    if nd.ending && decide (nd.endAt ≤ s.now) && (nd.st == .armed || nd.st == .running) then s.finishNode core node else s

/-! ### The graph unit's own work (R330) -/

/-- R240, R330: why a name cannot be reached from a node, or its core. -/
inductive NodeDst where
  | fail (cut : Bool) | wait | walk | core (dst : Nat)
  deriving DecidableEq, Repr

def State.nodeDst (s : State) (c : Nat) (n : BitVec 16) : NodeDst :=
  match s.resolve c n with
  | .bad => .fail false
  | .unmapped _ cut => .fail cut
  | .miss => .walk
  | .frozen => .wait
  | .away d => .core d
  | .hit d => .core d

/-- The graph unit is done with the head of its queue. -/
def State.popGuq (s : State) (c : Nat) : State := s.modCore c fun x => { x with guq := x.guq.drop 1 }

/-- R274, R330: a GIVE node. -/
def State.runGive (s : State) (c n : Nat) (nd : Node) : State :=
  let k := bits nd.arg0 0 4
  let name : BitVec 16 := nd.arg0.extractLsb' 16 16
  let w := (s.core c).bm k
  let s := s.popGuq c
  let res := s.resolve c name
  let cut := match res with
    | .unmapped _ cut => cut
    | _ => false
  if res.fault.isSome then s.nodeEnd c n 0x0C (BitVec.ofNat 8 (b2n cut))
  else if !bmV w then s.nodeEnd c n 0xF4 5
  else if bmPend w then s.nodeEnd c n 0xF4 1
  else if (match res with
      | .hit tgt => s.foreign c tgt
      | .away _ => true
      | _ => false) then s.nodeEnd c n 0xF4 3
  else
    let id := s.nextPkt
    let s := ({ s with nextPkt := id + 1 } : State).reserveGive c k
    s.startGive c
      { id := id, slot := nd.owner, k := k, j := bits nd.arg0 4 4, name := name, tgt := 768, st := .walking, node := some n,
        pc := 0 } res

/-- R253, R330: a WAKE node: its bits go as a NOTE's do. -/
def State.runWake (s : State) (c n : Nat) (nd : Node) : State :=
  let name := nd.arg0.setWidth 16
  let k := bits nd.arg0 16 3
  let mask : BitVec 16 := nd.arg0.extractLsb' 32 16
  match s.nodeDst c name with
  | .fail cut => (s.popGuq c).nodeEnd c n 0x0C (BitVec.ofNat 8 (b2n cut))
  | .walk => s.startWalk c name
  | .wait => s
  | .core dst =>
    if mask = 0 then (s.popGuq c).nodeEnd c n 0 0
    else if dst = c then ((s.popGuq c).later 2 (.notifyArrive c k mask)).nodeEndIn 2 c n 0 0
    else if 16 ≤ (s.core c).sendq.length then s
    else
      (s.popGuq c).enqueue c
        { id := 0, src := s.ownName c, isNotify := true, name := name, slot := 16 + n, pc := 0, chan := 0, bytes := [],
          stamp := s.cycle c, tslot := k, mask := mask, scope := (nd.arg0.extractLsb' 24 3),
          dst := some dst }

/-- R330: a REMOTE node: a release travels to the node of another graph unit. -/
def State.runRemote (s : State) (c n : Nat) (nd : Node) : State :=
  let name := nd.arg0.setWidth 16
  match s.nodeDst c name with
  | .fail cut => (s.popGuq c).nodeEnd c n 0x0C (BitVec.ofNat 8 (b2n cut))
  | .walk => s.startWalk c name
  | .wait => s
  | .core dst =>
    let (id, s) := ((s.popGuq c).useName c name).stage c dst (16 + n) 0 name (.release (bits nd.arg0 16 6) n false)
    if dst < 768 then s.laterX (s.latency c dst 1) (.remoteRelease id) else s

/-- R330: the graph unit takes its next node, once the accesses it follows have performed. -/
def State.runHead (s : State) (c : Nat) : State :=
  match (s.core c).guq with
  | [] => s
  | n :: _ =>
    let nd := (s.core c).node n
    if nd.st ≠ .running || nd.ending then s.popGuq c
    else if s.nodeWaits c nd then s
    else
      match nd.kind.toNat with
      | 5 => if nd.killed then (s.popGuq c).nodeEnd c n 0xF1 0 else s.runGive c n nd
      | 6 => s.runWake c n nd
      | _ => s.runRemote c n nd

def execGraphUnitRun (core : Nat) (s : State) : Host.Outcome State Fault Refusal :=
  onCore core <|
    let s := s.runHead core
    if (s.core core).guq.isEmpty then s else s.later 1 (.graphUnitRun core)

/-- R330: a release arrives at its node, and its acknowledgement at the sender. -/
def execRemoteRelease (pkt : Nat) (s : State) : Host.Outcome State Fault Refusal :=
  .next <|
    match s.packet? pkt with
    | none => s
    | some p =>
      match p.cargo with
      | .release node src ok =>
        let ack (s : State) : State := s.laterX (s.latency p.dst p.src 1) (.remoteRelease pkt)
        if 767 < p.dst then s
        else if p.performed && p.orphan then s.dropPacket pkt
        else if p.performed then
          (s.dropPacket pkt).nodeEnd p.src src (if ok then 0 else 0xF4) (if ok then 0 else 1)
        else
          match s.seqFate p with
          | .early => s.park p
          | .duplicate => ack s
          | .perform =>
            let hit := ((s.core p.dst).node node).st == .armed && !((s.core p.dst).node node).ending
            let s := s.releaseNode p.dst node
            let s := s.modPacket pkt fun p => { p with performed := true, cargo := .release node src hit }
            (ack s).accepted p
      | _ => s

/-! ### GDEP, GWAIT, GPOLL, GSTAT, GKILL (R333, R335 to R338) -/

/-- R333: a node id operand. -/
def nodeId (v : Word) : Option Nat := if v.toNat < 64 then some v.toNat else none

/-- R335: GDEP. -/
def execGdep (h : Hdr) (o : FmtA) (s : State) : Host.Outcome State Fault Refusal :=
  word h s fun s =>
    let c := s.cur.core
    let x := s.myCore
    match nodeId (s.me.gr o.ra), nodeId (s.me.gr o.rb) with
    | some a, some b =>
      let na := x.node a
      let live := na.st == .armed || na.st == .running
      if na.st = .free ∧ na.freedBy = none then s.precise 0x0F 0 (info0F 1 0 0 a)
      else if a = b then s.precise 0x0F 0 (info0F 3 0 0 a)
      else if live && decide (4 ≤ na.succ.length) then s.precise 0x0F 0 (info0F 3 0 0 a)
      else if (x.node b).st ≠ .armed then s.precise 0x0F 0 (info0F 3 0 0 b)
      else if live then (s.modMyCore fun x => x.modNode a fun d => { d with succ := d.succ ++ [b] }).retire
      else
        let st : BitVec 8 := match na.st with
          | .free => na.freedBy.getD 0
          | _ => na.status
        (if st = 0 then s.releaseNode c b else s.cancelNode c b a).retire
    | _, _ => s.precise 0x0F 0 (info0F 1 0 0 0)

/-- R336: the nodes that are not yet DONE. -/
def Core.unfinished (x : Core) (l : List Nat) : List Nat := l.filter fun n => (x.node n).st != .done

/-- R336: the lowest node that has failed, with its STATUS and DETAIL. -/
def Core.failedOf (x : Core) (l : List Nat) : Option (Nat × BitVec 8 × BitVec 8) :=
  l.foldl (fun f n =>
    let d := x.node n
    if d.st = .done ∧ d.status ≠ 0 then lowerFail f (some (n, d.status, d.detail)) else f) none

/-- R336: the wait for nodes. -/
def State.waitNodes (s : State) (l : List Nat) : State :=
  let x := s.myCore
  let left := x.unfinished l
  let seen := l.filter fun n => !left.contains n
  let fail := x.failedOf l
  if left.isEmpty then
    let s := s.modMyCore fun x => x.observe l
    match fail with
    | some (n, st, dt) => s.precise 0x0F 0 (info0F 0 dt st n)
    | none => s.retire
  else s.modMe fun sl => sl.enterWait (.gwait left seen fail)

def execGwait (h : Hdr) (o : FmtA) (s : State) : Host.Outcome State Fault Refusal :=
  word h s fun s =>
    match nodeId (s.me.gr o.ra) with
    | some n =>
      if (s.myCore.node n).st = .free then s.precise 0x0F 0 (info0F 1 0 0 n) else s.waitNodes [n]
    | none => s.precise 0x0F 0 (info0F 1 0 0 0)

def execGwaitAll (h : Hdr) (_ : FmtA) (s : State) : Host.Outcome State Fault Refusal :=
  word h s fun s =>
    s.waitNodes ((List.range 64).filter fun n =>
      let d := s.myCore.node n
      d.st != .free && d.owner == s.cur.slot)

/-- R315: the code of a node state. -/
def NodeSt.num : NodeSt → Nat
  | .free => 0
  | .armed => 1
  | .running => 2
  | .done => 3

/-- R337: GPOLL's value. -/
def pollWord (d : Node) : Word :=
  if d.st = .done then
    w64 (d.seq.toNat * 2 ^ 32 + 3 * 2 ^ 30 + d.flags.toNat * 65536 + d.detail.toNat * 256 + d.status.toNat)
  else w64 ((if d.st = .armed then d.pred else 0) * 2 ^ 32 + d.st.num * 2 ^ 30)

def execGpoll (h : Hdr) (o : FmtA) (s : State) : Host.Outcome State Fault Refusal :=
  word h s fun s =>
    match nodeId (s.me.gr o.ra) with
    | some n =>
      let d := s.myCore.node n
      (s.modMyCore fun x => x.observe [n]).result 4 [.g o.rd (pollWord d)]
    | none => s.precise 0x0F 0 (info0F 1 0 0 0)

/-- R337: the number of nodes in a state. -/
def Core.countNodes (x : Core) (st : NodeSt) : Nat := ((List.range 64).filter fun n => (x.node n).st == st).length

def execGstatFree (h : Hdr) (o : FmtA) (s : State) : Host.Outcome State Fault Refusal :=
  word h s fun s => s.result 4 [.g o.rd (w64 (s.myCore.countNodes .free))]

def execGstatDone (h : Hdr) (o : FmtA) (s : State) : Host.Outcome State Fault Refusal :=
  word h s fun s => s.result 4 [.g o.rd (w64 (s.myCore.countNodes .done))]

/-- R338: a running GIVE is stopped before its admission. -/
def State.killGive (s : State) (c n : Nat) : State :=
  match (s.core c).gives.find? fun g => g.node == some n with
  | some g =>
    if g.st = .releasing then s
    else
      ((s.modCore c fun x => x.dropGive g.id).freeGive c g).nodeEnd c n 0xF1 0
  | none => s.modCore c fun x => x.modNode n fun d => { d with killed := true }

/-- R217, R338: a lens list that is running stops as LSTOP.q stops it; one that has not started never runs. -/
def State.killLens (s : State) (c n : Nat) : State :=
  match s.lenses.find? fun p => p.2.origin == c && (p.2.queue.any (fun j => j.node == n) || (p.2.seq.active && p.2.seq.node == n)) with
  | some (key, l) =>
    if l.seq.active && l.seq.node == n then
      (s.modCore c fun x => x.modNode n fun d => { d with killed := true }).modLens key fun l =>
        { l with seq := { l.seq with stop := .now } }
    else (s.modLens key fun l => { l with queue := l.queue.filter fun j => j.node != n }).nodeEnd c n 0xF1 0
  | none => s

/-- R338: GKILL. -/
def State.killNode (s : State) (c n : Nat) : State :=
  let nd := (s.core c).node n
  if nd.ending then s
  else
    match nd.st, nd.kind.toNat with
    | .armed, _ => s.nodeEnd c n 0xF1 0
    | .running, 4 => s.killLens c n
    | .running, 5 => s.killGive c n
    | .running, 6 | .running, 7 => s
    | .running, _ =>
      if ((s.core c).engine nd.chan).head? = some n then
        s.modCore c fun x => x.modNode n fun d => { d with killed := true }
      else s.nodeEnd c n 0xF1 0
    | _, _ => s

def execGkill (h : Hdr) (o : FmtA) (s : State) : Host.Outcome State Fault Refusal :=
  word h s fun s =>
    match nodeId (s.me.gr o.ra) with
    | some n => (s.killNode s.cur.core n).retire
    | none => s.precise 0x0F 0 (info0F 1 0 0 0)

end Sys2Proof.Machine
end

