-- ==== Sys2Proof/Machine/Translate.lean ====
section
/-! DEFINITION. Virtual memory: page tables and walks, TLBs, extents, invalidation and the migration engine (R291 to
R296). -/

namespace Sys2Proof.Machine

/-! ### Page-table entries (R292) -/

abbrev Pte := Word

def Pte.die (w : Pte) : Nat := bits w 58 6
def Pte.tier (w : Pte) : Nat := bits w 56 2
def Pte.ppn (w : Pte) : Nat := bits w 16 36
def Pte.mig (w : Pte) : Bool := w.getLsbD 7
def Pte.leaf (w : Pte) : Bool := w.getLsbD 6
def Pte.w (w : Pte) : Bool := w.getLsbD 3
def Pte.r (w : Pte) : Bool := w.getLsbD 2
def Pte.mv (w : Pte) : Bool := w.getLsbD 1

/-- R292: the entry is valid and breaks no field rule. -/
def Pte.sound (w : Pte) : Bool := w.getLsbD 0 && bits w 52 4 == 0 && bits w 8 8 == 0 && Pte.tier w != 3

/-- R292: OFFSET of the page or next table. -/
def Pte.offset (w : Pte) : Nat := bits w 16 28 * 65536

/-- A device physical address of a die's HBM. -/
def hbmDpa (die off : Nat) : Nat := die * 2 ^ 46 + off

/-- R291: an HBM offset in range. -/
def hbmOk (off : Nat) : Bool := decide (off < 384 * 2 ^ 30)

/-- R292: a leaf as a walk finds it: the DPA of its entry, the entry and log2 of the page size. -/
structure Leaf where
  place : Nat
  pte : Pte
  log2 : Nat
  deriving DecidableEq, Repr

def State.pteAt (s : State) (dpa : Nat) : Pte := w64 (s.word (dpaKey dpa) 8)

/-- R292: the table that a pointer names. -/
def State.nextTable (s : State) (w : Pte) : Option Nat :=
  if Pte.sound w && !Pte.leaf w && Pte.tier w == 0 && hbmOk (Pte.offset w) then some (hbmDpa s.fw.die (Pte.offset w)) else none

/-- R292: the walk from a root. -/
def State.findLeaf (s : State) (root : Nat) (va : Word) : Option Leaf :=
  if bits va 52 12 ≠ 0 then none
  else
    match s.nextTable (s.pteAt (root + 8 * bits va 40 12)) with
    | none => none
    | some t2 =>
      let p2 := t2 + 8 * bits va 28 12
      let w2 := s.pteAt p2
      if Pte.leaf w2 then (if Pte.sound w2 && Pte.ppn w2 % 4096 == 0 then some ⟨p2, w2, 28⟩ else none)
      else
        match s.nextTable w2 with
        | none => none
        | some t3 =>
          let p3 := t3 + 8 * bits va 16 12
          let w3 := s.pteAt p3
          if Pte.sound w3 then some ⟨p3, w3, 16⟩ else none

/-- R291, R292: the DPA of a leaf's page. Whether it names anything is for the access to find (R291, R329). -/
def State.pageDpa (s : State) (w : Pte) : Nat :=
  match Pte.tier w with
  | 0 => hbmDpa s.fw.die (Pte.offset w)
  | 2 => Pte.die w * 2 ^ 46 + 2 * 2 ^ 44 + Pte.offset w
  | _ => hbmDpa (Pte.die w) (Pte.offset w)

/-! ### Walks (R293) -/

/-- R293: what a walk answers: mapped with page base, log2 of its size, R and W; not mapped; no permission; wait. -/
inductive WalkOut where
  | mapped (base log2 : Nat) (r w : Bool)
  | unmapped
  | denied
  | wait
  deriving DecidableEq, Repr

/-- R292: A, and D on a write, are set in a leaf. -/
def State.touchLeaf (s : State) (l : Leaf) (write : Bool) : State :=
  s.poke (dpaKey l.place) (leBytes 8 (l.pte ||| (if write then 0x30 else 0x10)).toNat)

/-- R292, R293, R296: routine 0. -/
def State.walk0 (s : State) (root : Nat) (va : Word) (write : Bool) : WalkOut × State :=
  match s.findLeaf root va with
  | none => (.unmapped, s)
  | some l =>
    if write && Pte.mv l.pte then (.wait, s)
    else if (if write then Pte.w l.pte else Pte.r l.pte) then
      (.mapped (s.pageDpa l.pte) l.log2 (Pte.r l.pte) (Pte.w l.pte), s.touchLeaf l write)
    else (.denied, s)

def State.space (s : State) (a : Nat) : Space := Tab.at s.fe.spaces a Space.reset

def State.modSpace (s : State) (a : Nat) (f : Space → Space) : State :=
  s.modFe fun e => { e with spaces := Tab.put e.spaces a (f (s.space a)) }

/-- R293: a walk with the routine of its space. -/
def State.walkVa (s : State) (asid : Nat) (va : Word) (write : Bool) : WalkOut × State :=
  let sp := s.space asid
  if sp.routine = 0 then s.walk0 sp.root.toNat va write
  else
    let (k, s) := s.draw
    let (st, base, n, r, w) := Config.walkRoutine k s.fw.routineDigest sp.root asid sp.routine va write
    match st.toNat with
    | 0 => (.mapped base.toNat n r w, s)
    | 1 => (.unmapped, s)
    | 2 => (.denied, s)
    | _ => (.wait, s)

/-- R209, R295: the extent that a mapped page gives for an address. -/
def extentFor (va : Word) (base log2 : Nat) : BitVec 128 :=
  let size := 2 ^ log2
  let va0 := va.toNat / size * size
  let pages := Nat.min (size / 65536) 4095
  let (v, p) := if va.toNat < va0 + pages * 65536 then (va0, base) else (va.toNat / 65536 * 65536, base + (va.toNat - va0) / 65536 * 65536)
  let n := if va.toNat < va0 + pages * 65536 then pages else 1
  BitVec.ofNat 128 (2 ^ 127 + p % 2 ^ 63 * 2 ^ 64 + n * 2 ^ 52 + v % 2 ^ 52)

/-! ### TLBs (R294) -/

def TlbEntry.covers (e : TlbEntry) (asid : Nat) (va : Word) : Bool :=
  e.asid == asid && va.toNat / 2 ^ e.bits == e.va.toNat / 2 ^ e.bits

/-- R294: a lookup that gives the permission asked for; a write needs an entry that a write walk made (R292). -/
def tlbFind (l : List TlbEntry) (asid : Nat) (va : Word) (write : Bool) : Option TlbEntry :=
  l.find? fun e => e.covers asid va && (if write then e.w else e.r)

/-- A new entry takes the front; the oldest goes when the TLB is full. -/
def tlbAdd (l : List TlbEntry) (cap : Nat) (e : TlbEntry) : List TlbEntry :=
  (e :: l.filter fun x => !(x.asid == e.asid && x.va == e.va && x.bits == e.bits)).take cap

/-- R294: a translation enters the core TLB and its cluster's. -/
def State.tlbInstall (s : State) (c : Nat) (e : TlbEntry) : State :=
  (s.modCore c fun x => { x with tlb := tlbAdd x.tlb 64 e }).modCluster (clusterOf c) fun k =>
    { k with tlb := tlbAdd k.tlb 2048 e }

/-- R294: the translation of an address for a core: the core TLB, then the cluster's. -/
def State.tlbLookup (s : State) (c asid : Nat) (va : Word) (write : Bool) : Option TlbEntry :=
  match tlbFind (s.core c).tlb asid va write with
  | some e => some e
  | none => tlbFind (s.cluster (clusterOf c)).tlb asid va write

/-- The DPA of an address under an entry. -/
def TlbEntry.dpa (e : TlbEntry) (va : Word) : Nat := e.pa.toNat + va.toNat % 2 ^ e.bits

/-! ### The end of a walk (R293, R295, R296) -/

def State.dropWalk (s : State) (id : Nat) : State :=
  s.modFe fun e => { e with walks := e.walks.filter fun w => w.id != id }

/-- R293: the walk engine of a request is still at an earlier one. -/
def State.engineBusy (s : State) (w : Walk) : Bool :=
  match s.fe.walks.find? fun x => x.eng == w.eng with
  | some x => x.id != w.id
  | none => false

/-- R293, R296: a walk that met MV is asked for again, behind the requests that its engine has. -/
def State.walkAgain (s : State) (w : Walk) : State :=
  ((s.dropWalk w.id).modFe fun e => { e with walks := e.walks ++ [w] }).laterX 1 (.walkComplete w.id)

/-- R295: what a walk means to an AG: an extent that a service thread installs, or a token that no walk resolves. -/
def State.agWalked (s : State) (w : Walk) (c n : Nat) (r : WalkOut) : State :=
  match r with
  | .mapped base log2 _ _ =>
    ((s.dropWalk w.id).modCore c fun x => x.modAg n fun g => { g with got := some (extentFor w.va base log2) }).laterX 1
      (.extentInstall c n)
  | .wait => s.walkAgain w
  | _ => (s.dropWalk w.id).modCore c fun x => x.modAg n fun g => { g with walk := none, lost := g.walk }

/-- R294, R329: what a walk means to a node: a translation, a failure, or a wait for a move. -/
def State.nodeWalked (s : State) (w : Walk) (c n : Nat) (r : WalkOut) : State :=
  let awake (s : State) : State := s.modCore c fun x => x.modNode n fun d => { d with walk := none }
  let fail (st : BitVec 8) : State :=
    (awake ((s.dropWalk w.id).modCore c fun x => x.modNode n fun d => { d with vaFail := w.va })).nodeEnd c n st 0
  match r with
  | .mapped base log2 pr pw =>
    awake ((s.dropWalk w.id).tlbInstall c
      ⟨w.asid, w64 (w.va.toNat / 2 ^ log2 * 2 ^ log2), log2, w64 base, pr, pw && w.write⟩)
  | .wait => s.walkAgain w
  | .unmapped => fail 0x18
  | .denied => fail 0x19

def execWalkComplete (id : Nat) (s : State) : Host.Outcome State Fault Refusal :=
  .next <|
    match s.fe.walks.find? fun w => w.id == id with
    | none => s
    | some w =>
      if s.engineBusy w then s.later 1 (.walkComplete id)
      else
      let (r, s) := s.walkVa w.asid w.va w.write
      match w.who with
      | .ag c n => if ((s.core c).ag n).walk.isSome then s.agWalked w c n r else s.dropWalk id
      | .node c n => if ((s.core c).node n).walk.isSome then s.nodeWalked w c n r else s.dropWalk id

/-- R295: an extent takes a free entry of the generator, or the one least recently hit. -/
def AG.install (g : AG) (e : BitVec 128) : AG :=
  let live := g.ext.filter extValid
  let kept := if live.length < 16 then live else live.dropLast
  { g with ext := e :: kept, walk := none, got := none, st := if g.st = .starve then .run else g.st }

/-- R295: a service thread installs an extent. -/
def execExtentInstall (core ag : Nat) (s : State) : Host.Outcome State Fault Refusal :=
  onCore core <|
    match ((s.core core).ag ag).got with
    | some e => s.modCore core fun x => x.modAg ag fun g => g.install e
    | none => s

/-! ### Invalidation (R294) -/

/-- Two ranges of bytes meet. -/
def meets (a n b m : Nat) : Bool := decide (a < b + m) && decide (b < a + n)

def dropTlb (l : List TlbEntry) (asid : Nat) (va : Word) (n : Nat) : List TlbEntry :=
  l.filter fun e => !(e.asid == asid && meets e.va.toNat (2 ^ e.bits) va.toNat n)

/-- R294: an extent that overlaps the range is marked V = 0; one that a walk has found and no thread has installed yet is
dropped, and the AG asks again. -/
def AG.dropExtents (g : AG) (va : Word) (n : Nat) : AG :=
  let hit (e : BitVec 128) : Bool := extValid e && meets (extVa e) (65536 * extPages e) va.toNat n
  let g := if g.got.any hit then { g with got := none, walk := none } else g
  { g with ext := g.ext.map fun e => if extValid e && meets (extVa e) (65536 * extPages e) va.toNat n then setBits e 127 1 0 else e }

/-- R294: an invalidation of an address space and a range of addresses. -/
def State.invalidate (s : State) (asid : Nat) (va : Word) (n : Nat) : State :=
  let mine (x : Core) : Bool := match x.task with
    | some t => (s.task t).asid == asid
    | none => false
  { s with
    cores := s.cores.map fun p =>
      let x := { p.2 with tlb := dropTlb p.2.tlb asid va n }
      (p.1, if mine x then { x with ags := x.ags.map fun q => (q.1, q.2.dropExtents va n) } else x)
    clusters := s.clusters.map fun p => (p.1, { p.2 with tlb := dropTlb p.2.tlb asid va n }) }

/-- R294, R307: the held writes of AGs to a range of an address space. -/
def State.heldSegs (s : State) (asid : Nat) (va : Word) (n : Nat) : List Seg :=
  s.lenses.flatMap fun p => p.2.open_.flatMap fun v => v.segs.filter fun g =>
    g.space == 2 && s.asidOf g.core == asid && meets g.addr.toNat g.bytes.length va.toNat n

/-- R294: a held write still goes by a translation that the page table no longer gives. -/
def State.oldWrites (s : State) (asid : Nat) (va : Word) (n : Nat) : Bool :=
  (s.heldSegs asid va n).any fun g =>
    match s.findLeaf (s.space asid).root.toNat g.addr with
    | some l => g.keys.head? != some (dpaKey (s.pageDpa l.pte + g.addr.toNat % 2 ^ l.log2))
    | none => true

def execTlbInvalidation (asid : Nat) (va : Word) (bytes : Nat) (s : State) : Host.Outcome State Fault Refusal :=
  .next (s.invalidate asid va bytes)

/-! ### Migration (R296) -/

/-- R296: the move of a page begins: MV set, W clear; nothing happens where the space has no HBM page left. -/
def State.startMigration (s : State) (asid : Nat) (va : Word) : State :=
  let sp := s.space asid
  let va := w64 (va.toNat / 65536 * 65536)
  match s.findLeaf sp.root.toNat va, sp.freePages with
  | some l, page :: rest =>
    if l.log2 = 16 && Pte.mig l.pte && !Pte.mv l.pte && Pte.tier l.pte == 2 && sp.quota != 0 then
      let pte := (l.pte ||| 2) &&& ~~~(8 : Word)
      let s := s.poke (dpaKey l.place) (leBytes 8 pte.toNat)
      let s := s.modSpace asid fun sp =>
        { sp with freePages := rest, quota := sp.quota - 1, moving := sp.moving ++ [(va, page ||| w64 (b2n (Pte.w l.pte)))] }
      (s.invalidate asid va 65536).laterX 1 (.migrationCommit asid va)
    else s
  | _, _ => s

def execMigrationStart (asid : Nat) (va : Word) (s : State) : Host.Outcome State Fault Refusal :=
  .next (s.startMigration asid va)

/-- R296: held writes to a page follow it to its new place. -/
def State.moveSegs (s : State) (old new : Nat) : State :=
  let move (k : Nat) : Nat := if old ≤ k ∧ k < old + 65536 then k - old + new else k
  { s with
    lenses := s.lenses.map fun p =>
      (p.1, { p.2 with
        open_ := p.2.open_.map fun v => { v with segs := v.segs.map fun g => { g with keys := g.keys.map move } } }) }

/-- R296: the copy is done: the entry names the HBM page, W restored and MV clear. -/
def State.commitMigration (s : State) (asid : Nat) (va : Word) : State :=
  let sp := s.space asid
  match sp.moving.find? fun m => m.1 == va, s.findLeaf sp.root.toNat va with
  | some m, some l =>
      let old := s.pageDpa l.pte
      let page := m.2.toNat / 65536 * 65536
      let s := (s.poke (dpaKey page) (s.bytes (dpaKey old) 65536)).moveSegs (dpaKey old) (dpaKey page)
      let pte := w64 (page / 65536 % 2 ^ 28 * 65536 + l.pte.toNat % 65536) &&& ~~~(2 : Word) ||| (if m.2.getLsbD 0 then 8 else 0)
      let s := s.poke (dpaKey l.place) (leBytes 8 pte.toNat)
      (s.modSpace asid fun sp => { sp with moving := sp.moving.filter fun x => x.1 != va }).invalidate asid va 65536
  | _, _ => s

/-- R294, R296: the copy begins once the writes that went by the old translation have performed. -/
def execMigrationCommit (asid : Nat) (va : Word) (s : State) : Host.Outcome State Fault Refusal :=
  .next (if (s.heldSegs asid va 65536).isEmpty then s.commitMigration asid va else s.later 1 (.migrationCommit asid va))

/-- R296: the cluster TLB counts an access to a host-tier page; at the threshold the engine moves it. -/
def State.countHost (s : State) (c asid : Nat) (va : Word) (dpa : Nat) : State :=
  if dpa / 2 ^ 44 % 4 ≠ 2 then s
  else
    let key := asid * 2 ^ 36 + va.toNat / 65536
    let n := Tab.at (s.cluster (clusterOf c)).hostPages key 0 + 1
    let s := s.modCluster (clusterOf c) fun k => { k with hostPages := Tab.put k.hostPages key n }
    if n = Config.migrationThreshold then s.startMigration asid va else s

end Sys2Proof.Machine
end

