-- ==== Sys2Proof/Machine/Engine.lean ====
section
/-! DEFINITION. The copy engine: COPY, QUANT and FILL nodes, segment by segment (R323 to R330). -/

namespace Sys2Proof.Machine

/-! ### Units of work (R324 to R328) -/

/-- The elements that one unit takes: a group of 32, a point of eight, or one element. -/
def Transfer.unit (t : Transfer) (kind : Nat) : Nat :=
  if kind = 2 then 32
  else if kind = 1 ∧ t.sft = 5 ∧ t.dft = 5 then 32
  else if kind = 1 ∧ t.sft = 9 ∧ t.dft = 9 then 8
  else 1

def Transfer.perRow (t : Transfer) (kind : Nat) : Nat := ceilDiv t.cnt0 (t.unit kind)

def Transfer.total (t : Transfer) (kind : Nat) : Nat := t.perRow kind * t.cnt1 * t.cnt2

/-- R328: the first element of unit u, its row and its plane. -/
def Transfer.at_ (t : Transfer) (kind u : Nat) : Nat × Nat × Nat :=
  let r := t.perRow kind
  (u % r * t.unit kind, u / r % t.cnt1, u / (r * t.cnt1))

/-- R324: the base of a row. -/
def Transfer.row (t : Transfer) (dst : Bool) (i1 i2 : Nat) : Word :=
  if dst then t.dw 1 + BitVec.ofInt 64 (i1 * t.dstr1 + i2 * t.dstr2) else t.dw 0 + BitVec.ofInt 64 (i1 * t.sstr1 + i2 * t.sstr2)

/-- R324: the byte runs (address, length) of n elements from element i0 of a side. -/
def Transfer.runs (t : Transfer) (dst : Bool) (n i0 i1 i2 : Nat) : List (Word × Nat) :=
  let ft := if dst then t.dft else t.sft
  let b := t.row dst i1 i2
  match ft.toNat with
  | 5 => [(b + w64 (20 * (i0 / 32)), 20)]
  | 9 =>
    let sc := if dst then t.dw 7 else t.dw 6
    (b + w64 (2 * (i0 / 8)), 2 * ceilDiv n 8) :: (if !dst || n != 8 || i0 % 32 == 0 then [(sc + w64 (i0 / 32), 1)] else [])
  | _ => [(b + w64 (i0 * contSize ft), n * contSize ft)]

/-- The byte runs that a unit reads. -/
def Transfer.reads (t : Transfer) (kind u : Nat) : List (Word × Nat) :=
  let (i0, i1, i2) := t.at_ kind u
  match kind with
  | 3 => []
  | 2 => t.runs false (Nat.min 32 (t.cnt0 - i0)) i0 i1 i2
  | _ => t.runs false (t.unit kind) i0 i1 i2

/-- The byte runs that a unit writes: a quantised group is written whole (R326). -/
def Transfer.writes (t : Transfer) (kind u : Nat) : List (Word × Nat) :=
  let (i0, i1, i2) := t.at_ kind u
  t.runs true (t.unit kind) i0 i1 i2

/-! ### Values (R325 to R327) -/

/-- R325: the value of a source element from its bytes, and the conditions met. -/
def Transfer.source (t : Transfer) (i0 : Nat) (bs : List Byte) : Num × Flags :=
  match t.sft.toNat with
  | 5 =>
    let (v, f) := decodeFq4 t.sat (fq4CodeOf bs (i0 % 32)) (fq4ParamsOf bs) (i0 % 32)
    (.flt v, f)
  | 9 => (.flt (decodeE8 (leNat (bs.take 2)) ((bs.getD 2 0).toNat) (i0 % 8)), 0)
  | _ => (contNum t.sft (leNat bs), 0)

/-- R325: one element of a COPY. -/
def Transfer.copyElem (t : Transfer) (key : Word) (i0 i1 i2 : Nat) (bs : List Byte) : List Byte × Flags :=
  let size := contSize t.dft
  if t.dft = 15 ∨ t.sft = 15 ∨ t.dft = 11 then (leBytes size (leNat (if t.sft = 9 then bs.take 2 else bs)), 0)
  else
    let idx := i0 + t.cnt0 * (i1 + t.cnt1 * i2)
    let (v, f) := t.source i0 bs
    let (u, g) := if t.sft = 0 ∧ t.dft = 0 then copyNum v
      else if t.sft = 5 ∧ t.dft = 0 then (v, 0)
      else convert t.dft ⟨rmOf (bits (t.dw 5) 12 3), t.sat, key, w64 idx⟩ t.shift v
    (leBytes size (u.cont t.dft), f ||| g)

/-- R326: the values of a group, padded with +0.0. -/
def Transfer.groupVals (t : Transfer) (bs : List Byte) : List FVal :=
  let n := contSize t.sft
  (List.range 32).map fun i =>
    if i * n < bs.length then unpackF t.sft (leNat ((bs.drop (i * n)).take n)) else .zero false

/-- R326: one group of a QUANT: its bytes in the order of its runs. -/
def Transfer.quantGroup (t : Transfer) (bs : List Byte) : List Byte × Flags :=
  let xs := t.groupVals bs
  if t.dft = 5 then quantFq4 xs
  else
    let (sc, f) := scaleE8L xs
    let ps := (List.range 4).map fun p => nearestE8 ((xs.drop (8 * p)).take 8) sc
    (ps.flatMap (fun p => leBytes 2 p.1) ++ [BitVec.ofNat 8 sc],
      ps.foldl (fun a p => a ||| flagIf p.2.1 fNV ||| flagIf (!p.2.2.isEmpty) fLOVF) f)

/-- The bytes that a unit writes, from those it has read. -/
def Transfer.result (t : Transfer) (kind : Nat) (key arg1 : Word) (u : Nat) (bs : List Byte) : List Byte × Flags :=
  let (i0, i1, i2) := t.at_ kind u
  match kind with
  | 3 => (leBytes (contSize t.dft) arg1.toNat, 0)
  | 2 => t.quantGroup bs
  | _ => if t.unit 1 = 1 then t.copyElem key i0 i1 i2 bs else (bs, 0)

/-! ### Places (R323, R324, R329) -/

/-- R240, R329: where a byte lies for an engine node: nowhere (a translation fault at an address), its memory key with the
bank behind it, a status that ends the node,
a name or an address to walk, or something to wait for. -/
inductive EnginePlace where
  | nowhere (va : Word)
  | key (k : Nat) (bank : Bool)
  | fail (status detail : BitVec 8)
  | name (n : BitVec 16)
  | walk (va : Word)
  | wait
  deriving DecidableEq, Repr

/-- R291, R294, R329: a byte of virtual memory. -/
def State.engineVa (s : State) (c : Nat) (write : Bool) (a : Word) : EnginePlace :=
  if bits a 52 12 ≠ 0 then .fail 0x09 0
  else
    match s.tlbLookup c (s.asidOf c) a write with
    | none => .walk a
    | some e =>
      let d := e.dpa a
      if d / 2 ^ 44 % 4 = 0 ∧ 384 * 2 ^ 30 ≤ d % 2 ^ 44 then .fail 0x09 0
      else
        match s.placeDpa c d with
        | .at_ k _ => .key k false
        | .bad f _ => if f = 0x3A then .fail 0x3A 0 else .nowhere a
        | _ => .wait

def State.enginePlace (s : State) (c : Nat) (sp : Space3) (write : Bool) (a : Word) : EnginePlace :=
  match sp with
  | .loc =>
    match s.placeLocal c write a with
    | .at_ k _ => .key k true
    | .bad f _ => .fail f 0
    | _ => .wait
  | .glob =>
    match s.placeGlobal c write a with
    | .at_ k _ => .key k true
    | .bad f _ => .fail f (if f = 0x0C ∧ s.resolve c (eaName a) = .unmapped false true then 1 else 0)
    | .name n miss => if miss then .name n else .wait
    | _ => .wait
  | .va => s.engineVa c write a
  | .none => .fail 0x09 0

/-- The keys of a run of bytes, or the first place that is not there. -/
def keysFrom (f : Word → EnginePlace) (a : Word) : Nat → List (Nat × Bool) × Option EnginePlace
  | 0 => ([], none)
  | n + 1 =>
    match f a with
    | .key k b => let (ks, e) := keysFrom f (a + 1) n; ((k, b) :: ks, e)
    | p => ([], some p)

def keysOf (f : Word → EnginePlace) (l : List (Word × Nat)) : List (Nat × Bool) × Option EnginePlace :=
  l.foldl (fun r p =>
    match r.2 with
    | some _ => r
    | none => let (ks, e) := keysFrom f p.1 p.2; (r.1 ++ ks, e)) ([], none)

/-! ### Overlap (R328) -/

/-- The core whose window a side of a transfer lies in, with its least and greatest offset; none for virtual memory. -/
def State.sideWindow (s : State) (c : Nat) (sp : Space3) (r : Int × Int) : Option (Option Nat × Int × Int) :=
  match sp with
  | .loc => some (some c, r.1, r.2)
  | .glob =>
    let a := BitVec.ofInt 64 r.1
    let b := BitVec.ofInt 64 r.2
    let base : Int := (a.toNat / 4194304 * 4194304 : Nat)
    match (if a.toNat / 4194304 = b.toNat / 4194304 then s.resolve c (eaName a) else .miss) with
    | .hit d => some (some d, r.1 - base, r.2 - base)
    | _ => some (none, r.1 - base, r.2 - base)
  | _ => none

/-- R53, R324: the ranges of a side: its elements or codes, and for FT 9 its scale plane. -/
def Transfer.planes (t : Transfer) (dst : Bool) : List (Int × Int) :=
  t.span dst :: (if (if dst then t.dft else t.sft) = 9 then
      let b : Int := (if dst then t.dw 7 else t.dw 6).toNat
      [(b, b + (t.cnt0 / 32 : Nat))]
    else [])

/-- R328: a range read and a range written may overlap, judged on places. -/
def State.rangesMeet (s : State) (c : Nat) (ssp dsp : Space3) (a b : Int × Int) : Bool :=
  match s.sideWindow c ssp a, s.sideWindow c dsp b with
  | some (a, lo, hi), some (b, lo', hi') =>
    if a.isSome && b.isSome then a == b && decide (lo ≤ hi') && decide (lo' ≤ hi) else true
  | none, none => true
  | _, _ => false

/-- R328: the bytes read and written may overlap. -/
def State.mayOverlap (s : State) (c : Nat) (t : Transfer) : Bool :=
  (t.planes false).any fun a => (t.planes true).any fun b => s.rangesMeet c t.ssp t.dsp a b

/-! ### Segments (R328 to R330) -/

/-- What one unit comes to in a P-cycle. -/
inductive UnitOut where
  | done (s : State) (blocks : List Nat)
  | ended (s : State)
  | wait (s : State)

/-- A unit cannot go on: the node ends, a walk starts, or it waits. -/
def State.engineStop (s : State) (c n : Nat) (write : Bool) (p : EnginePlace) : UnitOut :=
  match p with
  | .fail st dt => .ended (s.nodeEnd c n st dt)
  | .nowhere va => .ended ((s.modCore c fun x => x.modNode n fun d => { d with vaFail := va }).nodeEnd c n 0x18 0)
  | .name nm => .wait (s.startWalk c nm)
  | .walk va =>
    .wait ((s.modCore c fun x => x.modNode n fun d => { d with walk := some va }).requestWalk (s.asidOf c) va write (.node c n))
  | _ => .wait s

/-- R296: accesses to host-tier pages are counted. -/
def State.countRuns (s : State) (c : Nat) (sp : Space3) (l : List (Word × Nat)) (write : Bool) : State :=
  if sp ≠ .va then s
  else
    l.foldl (fun s p =>
      match s.tlbLookup c (s.asidOf c) p.1 write with
      | some e => s.countHost c (s.asidOf c) p.1 (e.dpa p.1)
      | none => s) s

/-- A unit is read: its bytes, or why it is not. -/
def State.readUnit (s : State) (c n : Nat) (t : Transfer) (kind u : Nat) : Except UnitOut (State × List Byte) :=
  let l := t.reads kind u
  match keysOf (s.enginePlace c t.ssp false) l with
  | (_, some p) => .error (s.engineStop c n false p)
  | (ks, none) =>
    if s.errAt (ks.map (·.1)) then .error (.ended (s.nodeEnd c n 0x39 0))
    else .ok (s.countRuns c t.ssp l false, s.bytesAt (ks.map (·.1)))

/-- A unit is written. -/
def State.writeUnit (s : State) (c n : Nat) (t : Transfer) (kind u : Nat) (bs : List Byte) (f : Flags) : UnitOut :=
  let l := t.writes kind u
  match keysOf (s.enginePlace c t.dsp true) l with
  | (_, some p) => s.engineStop c n true p
  | (ks, none) =>
    let s := (s.countRuns c t.dsp l true).writeAt (ks.map (·.1)) bs
    let s := s.modCore c fun x => x.modNode n fun d => { d with pos := d.pos + 1, flags := d.flags ||| f }
    .done s ((ks.filter (·.2)).map fun k => k.1 / 64).eraseDups

/-- R328: one unit of a node. -/
def State.unitStep (s : State) (c n : Nat) (nd : Node) (t : Transfer) : UnitOut :=
  let kind := nd.kind.toNat
  let total := t.total kind
  if nd.keepAll then
    if nd.pos < total then
      match s.readUnit c n t kind nd.pos with
      | .error r => r
      | .ok (s, bs) =>
        .done (s.modCore c fun x => x.modNode n fun d => { d with pos := d.pos + 1, staged := d.staged ++ [bs] }) []
    else
      let u := nd.pos - total
      let (bs, f) := t.result kind nd.key nd.arg1 u (nd.staged.getD u [])
      s.writeUnit c n t kind u bs f
  else
    match s.readUnit c n t kind nd.pos with
    | .error r => r
    | .ok (s, src) =>
      let (bs, f) := t.result kind nd.key nd.arg1 nd.pos src
      s.writeUnit c n t kind nd.pos bs f

/-- The units that a node still has. -/
def Node.unitsLeft (nd : Node) (t : Transfer) : Nat :=
  (if nd.keepAll then 2 else 1) * t.total nd.kind.toNat - nd.pos

/-- R330: the 64-byte blocks in which the next unit reads and writes first. -/
def Node.blocks (nd : Node) (t : Transfer) : Nat × Nat :=
  let kind := nd.kind.toNat
  let total := t.total kind
  let u := nd.pos % Nat.max total 1
  let first (l : List (Word × Nat)) : Nat := match l with
    | p :: _ => p.1.toNat / 64 + 1
    | [] => 0
  (if nd.keepAll && decide (total ≤ nd.pos) then 0 else first (t.reads kind u),
    if nd.keepAll && decide (nd.pos < total) then 0 else first (t.writes kind u))

/-- R330: one segment: the units that begin in one block of the source and one of the destination. -/
def State.segment (c n : Nat) (t : Transfer) : Nat → Option (Nat × Nat) → List Nat → State → State × List Nat
  | 0, _, bl, s => (s, bl)
  | m + 1, at_, bl, s =>
    let nd := (s.core c).node n
    if nd.unitsLeft t = 0 then (s.nodeEnd c n 0 0, bl)
    else if at_.isSome && at_ != some (nd.blocks t) then (s, bl)
    else
      match s.unitStep c n nd t with
      | .done s' b => State.segment c n t m (some (nd.blocks t)) (bl ++ b).eraseDups s'
      | .ended s' => (s', bl)
      | .wait s' => (s', bl)

/-- R266: the bank whose back port a channel's next segment needs: the one it writes, or else the one it reads (log entry
38). -/
def State.segmentBank (s : State) (c ch : Nat) : Option Nat :=
  match (s.core c).engine ch with
  | [] => none
  | n :: _ =>
    let nd := (s.core c).node n
    match nd.td with
    | none => none
    | some (t : Transfer) =>
      let kind := nd.kind.toNat
      let u := nd.pos % Nat.max (t.total kind) 1
      let bank (sp : Space3) (write : Bool) (l : List (Word × Nat)) : Option Nat :=
        match l with
        | p :: _ =>
          match s.enginePlace c sp write p.1 with
          | .key k true => some (k / 262144)
          | _ => none
        | [] => none
      (bank t.dsp true (t.writes kind u)).or (bank t.ssp false (t.reads kind u))

/-- R330: the head node of a channel goes on by one segment, a QUANT by one group. -/
def State.runEngine (s : State) (c n : Nat) (nd : Node) : State :=
  if nd.killed then s.nodeEnd c n 0xF1 0
  else if s.nodeWaits c nd || nd.walk.isSome then s
  else
    match nd.td with
    | none => s.readTransfer c n
    | some t =>
      let s := if nd.pos = 0 && nd.kind == 1 && s.mayOverlap c t then
          s.modCore c fun x => x.modNode n fun d => { d with keepAll := true }
        else s
      let (s, bl) := State.segment c n t (if nd.kind = 2 then 1 else 65) none [] s
      bl.foldl (fun s _ => s.bulk c) s

/-- R323: nodes that wait in a channel have their descriptors read once the accesses they follow have performed. -/
def State.readWaiting (s : State) (c ch : Nat) : State :=
  ((s.core c).engine ch).foldl (fun s n =>
    let nd := (s.core c).node n
    if nd.td.isNone && !nd.ending && !s.nodeWaits c nd then s.readTransfer c n else s) s

def execCopySegment (core chan : Nat) (s : State) : Host.Outcome State Fault Refusal :=
  onCore core <|
    let s := s.readWaiting core chan
    match (s.core core).engine chan with
    | [] => s
    | n :: rest =>
      let nd := (s.core core).node n
      let s := if nd.st ≠ .running || nd.ending then s.modCore core fun x => x.setEngine chan rest else s.runEngine core n nd
      if ((s.core core).engine chan).isEmpty then s
      else s.later ((if nd.kind = 2 then 4 else 1) * (1 + s.classOf core)) (.copySegment core chan)

/-! ### Bulk vertical transfers (R284) -/

/-- R284, R290: the data of one transfer have reached the write buffer. -/
def execBulkTransferDone (core : Nat) (s : State) : Host.Outcome State Fault Refusal :=
  onCore core <|
    let x := s.core core
    if x.done = x.issued then s
    else
      (List.range 8).foldl (fun s k => s.settleStall ⟨core, k⟩) (s.modCore core fun x => { x with done := x.done + 1 })

end Sys2Proof.Machine
end

