-- ==== Sys2Proof/Machine/Operands.lean ====
section
/-! DEFINITION. The operands, masks, beats and results common to the vector instructions (R124 to R137). -/

namespace Sys2Proof.Machine

/-- R125: the vector length of a FOLD value. -/
def vlOf (fold : BitVec 2) : Nat := 8 * 2 ^ fold.toNat

/-- R127: the beats of a FOLD value. -/
def beatsOf (fold : BitVec 2) : Nat := 2 ^ fold.toNat

/-- R125: the even bits of a mask, each spread over its pair. -/
def pairMask (m : Word) : Word :=
  let e := m &&& 0x5555555555555555#64
  e ||| (e <<< 1)

/-- R125: the active lanes of a vector word, as a mask. -/
def activeMask (sl : Slot) (o : FmtV) : Word :=
  let m := if o.ft = 11 then pairMask (sl.mr o.msk) else sl.mr o.msk
  m &&& lanesOf (List.range (vlOf o.fold))

/-- The active lanes, rising. -/
def activeLanes (sl : Slot) (o : FmtV) : List Nat := bitList (activeMask sl o) 64

/-- R125: the lanes a result writes: the active ones, and under Z all the others as zero. -/
def writtenLanes (sl : Slot) (o : FmtV) : Word := if o.z = 1 then BitVec.allOnes 64 else activeMask sl o

/-- R403: the lowest of some lanes that holds an uncorrectable error in one of some registers. -/
def badLane (sl : Slot) (regs : List (BitVec 4)) (lanes : Nat → Bool) : Option Nat :=
  let l := (sl.vbad.filter fun x => regs.any (fun r => r.toNat == x.1) && lanes x.2).map (·.2)
  if l.isEmpty then none else some (minOf 63 l)

/-- R30, R138: lane i of operand B: of a vector register, or the low half of a g register. -/
def operandB (sl : Slot) (o : FmtV) (scalar : Bool) (i : Nat) : BitVec 32 :=
  if scalar then (sl.gr o.rs).setWidth 32 else vlane (sl.vr o.vb) i

/-- R71, R105, R135: the rounding of lane i of an instruction whose FN holds an RMF and SAT. -/
def laneRnd (sl : Slot) (o : FmtV) (i : Nat) : Rnd := ⟨sl.rm (bits o.fn 5 3), o.fn.getLsbD 4, sl.rngkey, i⟩

/-- R150: the rounding of lane i of a store or a pack. -/
def storeRnd (sl : Slot) (i : Nat) : Rnd := ⟨sl.rm 7, false, sl.rngkey, i⟩

/-- What a vector instruction comes to: its writes, the conditions of its lanes, and the memory fault it takes, if any
(cause, FADDR, FINFO). -/
structure VOut where
  writes : List Write
  flags : List (Nat × Flags)
  fault : Option (BitVec 8 × Word × Word)

/-- R125: a result in active lanes of VD. -/
def vresult (sl : Slot) (o : FmtV) (vs : List (Nat × BitVec 32)) : Write := .v o.vd (writtenLanes sl o) (packLanes vs)

/-- A result computed lane by lane. -/
def vmap (sl : Slot) (o : FmtV) (f : Nat → BitVec 32 × Flags) : VOut :=
  let rs := (activeLanes sl o).map fun i => (i, f i)
  ⟨[vresult sl o (rs.map fun p => (p.1, p.2.1))], rs.map fun p => (p.1, p.2.2), none⟩

/-- A result with no condition. -/
def vmapPure (sl : Slot) (o : FmtV) (f : Nat → BitVec 32) : VOut :=
  ⟨[vresult sl o ((activeLanes sl o).map fun i => (i, f i))], [], none⟩

/-- A mask result (R125, R141). -/
def vmask (sl : Slot) (o : FmtV) (bits : List Nat) (flags : List (Nat × Flags)) : VOut :=
  ⟨[.m (o.vd.setWidth 3) (writtenLanes sl o) (lanesOf bits)], flags, none⟩

/-- R127: the datapath is busy with a vector instruction for its beats. -/
def State.occupyV (s : State) (beats : Nat) : State :=
  s.modMe fun sl => { sl with vecFree := Nat.max sl.vecFree (sl.turn + beats) }

/-- All the flags of an instruction. -/
def allFlags (fs : List (Nat × Flags)) : Flags := fs.foldl (fun a p => a ||| p.2) 0

/-- R41, R135, R403: the fault of a vector instruction: the lowest cause among its memory fault, its traps and the
uncorrectable lanes it reads. -/
def VOut.cause (v : VOut) (sl : Slot) (bad : Option Nat) : Option (BitVec 8 × Word × Word) :=
  match v.fault with
  | some f => some f
  | none =>
    match laneTrap sl.fpctl v.flags with
    | some (c, lane) => some (c, 0, w64 lane)
    | none => bad.map fun lane => (0x39, 0, w64 lane)

/-- R15, R136: the writes and flags of an instruction `lat` turns after its issue. -/
def State.vemit (s : State) (lat : Nat) (v : VOut) : State :=
  let f := allFlags v.flags
  let ws := if f = 0 then v.writes else v.writes ++ [.vstat f]
  if ws.isEmpty then s else if lat = 0 then s.applyWrites s.cur ws else s.emit lat ws

/-- R127, R129, R135: a vector word of `beats` beats whose result is visible `lat` turns after issue. `srcs` are the
vector registers it reads, in its active lanes or (`whole`) in any lane; `after` is what it does besides its writes. -/
def vectorWord (h : Hdr) (o : FmtV) (s : State) (beats lat : Nat) (srcs : List (BitVec 4)) (whole : Bool)
    (body : State → VOut) (after : State → State) : Host.Outcome State Fault Refusal :=
  .next <|
    if s.me.guard h then
      let sl := s.me
      if sl.turn < sl.vecFree then s.precise 0x04 0 1
      else
        let v := body s
        match v.cause sl (badLane sl srcs fun i => whole || (activeMask sl o).getLsbD i) with
        | some (c, addr, info) =>
          (if c = 0x39 then s.prismError s.cur.core (unitVector s.cur.core) else s).precise c addr info
        | none => ((after s).occupyV beats |>.vemit lat v).retire
    else (s.occupyV beats).retire

/-- R137: an elementwise instruction. -/
def velem (h : Hdr) (o : FmtV) (s : State) (srcs : List (BitVec 4)) (body : Slot → VOut) :
    Host.Outcome State Fault Refusal :=
  vectorWord h o s (beatsOf o.fold) (beatsOf o.fold + 3) srcs false (fun s => body s.me) id

/-- R130: a value cut to the width of an integer or code format and extended (R28). -/
def cutLane (ft : BitVec 4) (b : BitVec 32) : BitVec 32 :=
  match ft.toNat with
  | 6 => (b.setWidth 8).signExtend 32
  | 7 => (b.setWidth 8).setWidth 32
  | 12 => (b.setWidth 16).signExtend 32
  | 9 => (b.setWidth 16).setWidth 32
  | _ => b

/-- R28: the width in which VSH works. -/
def laneWidth (ft : BitVec 4) : Nat :=
  match ft.toNat with
  | 6 | 7 => 8
  | 12 => 16
  | _ => 32

/-- R109, R147: Place: the scalar placement of a format, widened to its lane image. -/
def placeLane (ft : BitVec 4) (g : Word) : BitVec 32 :=
  if ft = 15 ∨ ft = 11 ∨ ft = 0 then g.setWidth 32 else (contNum ft (g.toNat % 2 ^ (8 * contSize ft))).lane

/-- R28: a pair of a vector register (R125). -/
def pairOf (v : VReg) (j : Nat) : Pair := ⟨vlane v (2 * j), vlane v (2 * j + 1)⟩

end Sys2Proof.Machine
end

