-- ==== Sys2Proof/Machine/Sequencer.lean ====
section
/-! DEFINITION. The sequencer of a lens: tile-step rows (R181 to R188), the A-cycle (R178, R200 to R203), invocations and lists
(R184, R186, R216, R217), and the freeze (R346 to R350). -/

namespace Sys2Proof.Machine

/-! ### Rows (R181, R182, R184) -/

abbrev Row := BitVec 128

def Row.kind (r : Row) : Nat := bits r 124 4
def Row.p0 (r : Row) : Nat := bits r 120 4
def Row.np (r : Row) : Nat := bits r 116 4 + 1
def Row.len (r : Row) : Nat := bits r 100 16 + 1
def Row.rep (r : Row) : Nat := bits r 84 16 + 1
def Row.agadv (r : Row) : BitVec 4 := r.extractLsb' 80 4
def Row.snap (r : Row) : Bool := r.getLsbD 79
def Row.fence (r : Row) : Bool := r.getLsbD 78
def Row.budget (r : Row) : Nat := bits r 32 32
def Row.tgt (r : Row) : Nat := bits r 100 16
def Row.cnt (r : Row) : Nat := bits r 84 16 + 1

/-- R181: the KIND exists and every must-be-zero bit is zero. -/
def Row.ok (r : Row) : Bool :=
  match Row.kind r with
  | 0 => bits r 64 14 == 0 && bits r 0 32 == 0
  | 1 => bits r 116 8 == 0 && bits r 0 84 == 0
  | 2 => bits r 64 60 == 0 && bits r 6 26 == 0
  | 3 => bits r 79 45 == 0 && bits r 19 59 == 0
  | 4 => bits r 0 124 == 0
  | 5 => bits r 32 92 == 0
  | _ => false

/-- R183: the phase of injection c of an interval. -/
def Row.phase (r : Row) (c : Nat) : BitVec 4 := BitVec.ofNat 4 (Row.p0 r + c % Row.np r)

/-- R187: the phases that an interval injects. -/
def Row.phases (r : Row) : BitVec 16 :=
  (List.range (Nat.min (Row.np r) (Row.len r))).foldl (fun m c => m ||| ((1 : BitVec 16) <<< (Row.phase r c).toNat)) 0

/-- R185, R346: row n as it can be read now: its index, why it cannot be read, its bits. -/
def State.readRow (s : State) (l : Lens) (n : Nat) : Nat × BitVec 8 × BitVec 128 :=
  let a := l.seq.base + w64 (16 * n)
  let c := l.origin
  if !isLocal a || 65535 < n then (n, 0x09, 0)
  else
    match entryRefuses ((s.core c).bm (eaEntry a)) false with
    | some _ => (n, 0x0A, 0)
    | none =>
      if s.hasErr ((s.core c).winKey a) 16 then (n, 0x39, 0) else (n, 0, BitVec.ofNat 128 (leNat (s.winBytes c a 16)))

/-- R185: the sequencer comes to row n, as read ahead or as read now. -/
def State.enterRow (s : State) (key n : Nat) : State :=
  let l := s.lens key
  let r := match l.seq.ahead with
    | some (m, d, w) => if m = n then (m, d, w) else s.readRow l n
    | none => s.readRow l n
  s.setLens key
    { l with
      seq := { l.seq with
        row := n, cur := r.2.2, bad := r.2.1, ahead := none, fresh := true, rep := 0, ofs := 0, budget := 0, fenceDone := false
        rowDone := false } }

/-- R185: a row starts; the row after it is read. -/
def State.startRow (s : State) (key : Nat) : State :=
  let l := s.lens key
  if l.seq.fresh then
    s.setLens key
      { l with
        seq := { l.seq with
          fresh := false
          ahead := some (s.readRow l (l.seq.row + 1))
          named := if Row.kind l.seq.cur = 0 then Row.agadv l.seq.cur else l.seq.named } }
  else s

/-- The sequencer acts in this A-cycle. -/
def Lens.ready (l : Lens) : Bool := l.seq.active && !l.seq.ended && !l.seq.paused && !l.freezing && !l.mid

/-- The row is one that the sequencer cannot run (R181, R184, R346). -/
def Lens.badRow (l : Lens) : Bool := decide (65535 < l.seq.row) || l.seq.bad != 0 || !Row.ok l.seq.cur

/-- The event by which the present row runs. -/
def Lens.rowEvent (l : Lens) (key : Nat) : Instr :=
  if l.badRow then .stepRow key
  else
    match Row.kind l.seq.cur with
    | 1 => .tileLoopRow key
    | 2 => .waitgRow key
    | 3 => .signalRow key
    | 4 => .endRow key
    | 5 => .syncRow key
    | _ => .stepRow key

/-- R183: rows follow one another with no A-cycle between them. -/
def State.nextRow (s : State) (key n : Nat) : State :=
  let s := s.enterRow key n
  s.next1 ((s.lens key).rowEvent key)

/-- R183: nothing more is injected in this A-cycle. -/
def Lens.halt (l : Lens) : Lens := { l with mid := true }

/-- R346: an event of the sequencer. -/
def Lens.seqEvent (l : Lens) (cause detail : BitVec 8) (a : Word) (bank : Nat) : RegionEvent :=
  { cause := cause, detail := detail, fcyc := l.acyc, vec := l.pos, agent := none,
    core := l.origin, row := 0xFFFF, col := 0xFFFF, lane := 0, edge := 0, aga := 0, agb := 0, bank := bank % 128, addr := a }

/-- R181, R184, R346: the event of a row that the sequencer cannot run. -/
def State.rowFault (s : State) (key : Nat) : State :=
  s.modLens key fun l =>
    let a := l.seq.base + w64 (16 * l.seq.row)
    let e := if 65535 < l.seq.row then l.seqEvent 0x0E 0 0 0
      else if l.seq.bad ≠ 0 then
        l.seqEvent 0x30 l.seq.bad (if l.seq.bad = 0x09 then 0 else a) (bmBank ((s.core l.origin).bm (eaEntry a)))
      else l.seqEvent 0x0E 0 0 0
    (l.raise e).halt

/-- R188: one more A-cycle of the row is counted; the count that reaches BUDGET before the row ends is a deadline. -/
def State.countRow (s : State) (key : Nat) : State :=
  s.modLens key fun l => { l with seq := { l.seq with budget := l.seq.budget + 1 } }

def Lens.overBudget (l : Lens) : Bool :=
  l.seq.active && !l.seq.fresh && !l.seq.ended && !l.badRow && (Row.kind l.seq.cur == 0 || Row.kind l.seq.cur == 2) &&
    Row.budget l.seq.cur != 0 && decide (Row.budget l.seq.cur ≤ l.seq.budget)

def State.checkBudget (s : State) (key : Nat) : State :=
  if (s.lens key).overBudget then s.next1 (.rowBudgetDeadline key) else s

/-- R188, R202: the iteration vector of the next token; a token whose A-cycle the region holds has still to come. -/
def Lens.nextVec (l : Lens) : Nat × Nat × Nat :=
  match l.st, l.waves.getLast? with
  | .edgeWait, some v => if v.at_ = l.acyc then (v.row, v.rep, v.ofs) else l.pos
  | _, _ => l.pos

/-- R188: BUDGET is exhausted. -/
def execRowBudgetDeadline (lens : Nat) (s : State) : Host.Outcome State Fault Refusal :=
  .next <| s.modLens lens fun l =>
    if l.overBudget && !l.freezing then l.raise { l.seqEvent 0x06 0 0 0 with vec := l.nextVec } else l

/-! ### The AGs of a lens -/

/-- The AGs started on a lens: core and number. -/
def State.lensAgs (s : State) (key : Nat) : List (Nat × Nat) :=
  (s.lens key).cores.flatMap fun c =>
    ((List.range 4).filter fun n => ((s.core c).ag n).active && ((s.core c).ag n).lens == key).map fun n => (c, n)

def State.inAgs (s : State) (key : Nat) : List (Nat × Nat) :=
  (s.lensAgs key).filter fun p => !AgDesc.isOut ((s.core p.1).ag p.2).desc

def State.outAgs (s : State) (key : Nat) : List (Nat × Nat) :=
  (s.lensAgs key).filter fun p => AgDesc.isOut ((s.core p.1).ag p.2).desc

/-- The logical lane of a segment lane of a core's facet. -/
def Lens.logical (l : Lens) (edge c k : Nat) : Nat :=
  (l.segment edge (if edge = 0 ∨ edge = 3 then coreY c - l.oy else coreX c - l.ox)).1 + k

/-- R198: the data tokens that a lane's buffer held before its AG's own. -/
def AgLane.before (a : AgLane) (b : Lane) : Nat := dataCount b.fifo - a.marks.length

/-- R196: the tokens that a number of presentations takes wholly from a lane, and those it uses. -/
def tokensOf (d : AgDesc) (a : Lane) (n : Nat) : Nat × Nat :=
  if d.ft = 9 ∧ bits d.hdrt 12 4 = 1 then ((n + b2n a.half) / 2, (n + b2n a.half + 1) / 2) else (n, n)

/-- The data tokens that the waves injected so far still take from a lane of an AG, and those they use. -/
def State.owedTokens (s : State) (l : Lens) (c : Nat) (d : AgDesc) (k : Nat) : Nat × Nat :=
  tokensOf d ((s.core c).lane d.edge k) (s.owed l d.edge (l.logical d.edge c k))

/-- R197: the data lanes of an AG that are live. -/
def Lens.dataLanes (l : Lens) (c : Nat) (d : AgDesc) : List Nat :=
  let n := (l.segment d.edge (if d.edge = 0 ∨ d.edge = 3 then coreY c - l.oy else coreX c - l.ox)).2
  d.dataLanes.filter fun k => decide (k < n)

/-! ### FENCE and starve stalls (R203, R308) -/

/-- R201, R207: an output AG has taken every token of its data lanes. -/
def Core.taken (x : Core) (n : Nat) : Bool :=
  let d : AgDesc := (x.ag n).desc
  d.dataLanes.all fun k => (x.lane d.edge k).tags.isEmpty

/-- R307, R308, R310: every store of earlier invocations has committed. -/
def State.committed (s : State) (key : Nat) : Bool :=
  (s.lens key).open_.isEmpty && (s.outAgs key).all fun p => ((s.core p.1).ag p.2).pending == 0 && (s.core p.1).taken p.2

/-- R308: what the input AGs had fetched ahead has been fetched again. -/
def State.refetched (s : State) (key : Nat) : Bool :=
  let l := s.lens key
  (s.inAgs key).all fun p =>
    let g := (s.core p.1).ag p.2
    let d : AgDesc := g.desc
    (s.core p.1).gates.getLsbD d.edge || (l.dataLanes p.1 d).all fun k =>
      let a := (g.lane k).settle d (l.names p.2)
      decide (a.again ≤ a.own.length) || a.err.isSome || decide (d.cnt2 ≤ a.pos.i2) || decide (d.cnt1 ≤ a.pos.i1)

/-- R203: the first address that a lane of an AG needs and no extent holds. -/
def laneMiss (g : AG) (named : Bool) (k got need : Nat) : Option Word :=
  let d : AgDesc := g.desc
  let i0 := (d.dataLane k).getD 0
  (List.range (need - got)).findSome? fun j =>
    let p := AgLane.ahead d named j (g.lane k)
    if d.cnt2 ≤ p.i2 ∨ d.cnt1 ≤ p.i1 then none
    else
      let a := d.addr i0 p.i1 p.i2
      let bad (x : Word) : Bool := bits x 52 12 == 0 && (extentOf g.ext x).isNone
      ((List.range d.size).map fun i => a + w64 i).find? bad |>.or
        (if d.ft = 9 ∧ bad (d.scaleAddr a) then some (d.scaleAddr a) else none)

/-- R203: the first of a lens's VA lanes that would meet an address outside the extents: its AG and the address. -/
def State.starved (s : State) (key : Nat) (ph : BitVec 4) : Option (Nat × Nat × Word) :=
  let l := s.lens key
  (s.inAgs key).findSome? fun p =>
    let g := (s.core p.1).ag p.2
    let d : AgDesc := g.desc
    if d.space ≠ .va || !d.stallok then none
    else
      (l.dataLanes p.1 d).findSome? fun k =>
        let i := l.logical d.edge p.1 k
        let n := s.owed l d.edge i + b2n (l.consumes d.edge i ph)
        let b := (s.core p.1).lane d.edge k
        let need := (tokensOf d b n).2 - (g.lane k).before b
        (laneMiss g (l.names p.2) k (g.lane k).own.length need).map fun a => (p.1, p.2, a)

/-! ### STEP rows (R183, R186, R347) -/

/-- R347: where an AG lane stood when an invocation started: past the tokens that earlier waves still take. -/
def State.rewindOf (s : State) (key : Nat) (p : Nat × Nat) : List Rewind :=
  let l := s.lens key
  let g := (s.core p.1).ag p.2
  let d : AgDesc := g.desc
  (l.dataLanes p.1 d).map fun k =>
    let a := g.lane k
    let b := (s.core p.1).lane d.edge k
    let n := (s.owedTokens l p.1 d k).1
    let m := n - a.before b
    ⟨p.1, p.2, k, if m < a.own.length then a.own.getD m a.pos else AgLane.ahead d (l.names p.2) (m - a.own.length) a,
      convAfter n b.conv b.fifo⟩

/-- R186: an interval of a STEP row opens a tile invocation. -/
def State.openInvocation (s : State) (key : Nat) : State :=
  let l := s.lens key
  let r : Row := l.seq.cur
  let inv : Invocation :=
    { row := l.seq.row, rep := l.seq.rep, first := l.acyc, last := none, phases := Row.phases r, snap := Row.snap r,
      segs := [], loops := l.seq.loops, rewind := (s.inAgs key).flatMap fun p => s.rewindOf key p }
  let s := (s.outAgs key).foldl (fun s p =>
    if (Row.agadv r).getLsbD p.2 then
      s.modCore p.1 fun x => x.modAg p.2 fun g => { g with intervals := g.intervals ++ [(l.acyc, g.i2)] }
    else s) s
  s.modLens key fun l => { l with open_ := l.open_ ++ [inv] }

/-- R183: one wave token is injected. -/
def State.inject (s : State) (key : Nat) : State :=
  let s := if (s.lens key).seq.ofs = 0 then s.openInvocation key else s
  let l := s.lens key
  let r : Row := l.seq.cur
  let q := l.seq
  let first := q.ofs == 0
  let inv := match l.open_.getLast? with
    | some v => v.first
    | none => l.acyc
  let v : Wave := ⟨l.acyc, inv, Row.phase r q.ofs, first, first && Row.snap r, q.row, q.rep, q.ofs⟩
  let l := { l with waves := l.waves ++ [v], mid := true, st := .run }
  let q := { q with firstA := some (q.firstA.getD l.acyc), lastA := some l.acyc }
  if q.ofs + 1 < Row.len r then
    s.setLens key { l with seq := { q with ofs := q.ofs + 1 } } |>.checkBudget key
  else
    let l := l.modOpen inv fun x => { x with last := some l.acyc }
    let q := { q with adv := Row.agadv r }
    if q.rep + 1 < Row.rep r then
      s.setLens key { l with seq := { q with rep := q.rep + 1, ofs := 0 } } |>.checkBudget key
    else s.setLens key { l with seq := { q with rowDone := true } }

/-- R183: nothing is injected in this A-cycle. -/
def State.noInject (s : State) (key : Nat) : State := (s.modLens key Lens.halt).checkBudget key

/-- R203: the wave pauses, and the walk of the missing address is requested. -/
def State.starve (s : State) (key : Nat) (m : Nat × Nat × Word) : State :=
  (s.agWalk m.1 m.2.1 m.2.2 false).modLens key (fun l => { l with st := .starve }) |>.noInject key

/-- R183: one A-cycle of a STEP row. -/
def State.runStep (s : State) (key : Nat) : State :=
  let s := (s.startRow key).countRow key
  let l := s.lens key
  let r : Row := l.seq.cur
  let fenced := Row.fence r && l.seq.rep == 0 && l.seq.ofs == 0
  if fenced && !l.seq.fenceDone && !s.committed key then s.noInject key
  else
    let s := if fenced && !l.seq.fenceDone then
        ((s.inAgs key).foldl (fun s p => s.modCore p.1 fun x => x.refetch p.2) s).modLens key fun l =>
          { l with seq := { l.seq with fenceDone := true } }
      else s
    if fenced && !s.refetched key then s.noInject key
    else
      match s.starved key (Row.phase r l.seq.ofs) with
      | some m => s.starve key m
      | none => s.inject key

def execStepRow (lens : Nat) (s : State) : Host.Outcome State Fault Refusal :=
  .next <|
    let l := s.lens lens
    if !l.ready then s
    else if l.badRow then s.rowFault lens
    else if Row.kind l.seq.cur = 0 then s.runStep lens
    else s

/-! ### LOOP, WAITG, SIGNAL, END, SYNC (R184) -/

/-- R184: the LOOP rows whose bodies hold row r, from row n on, innermost first, with their targets. -/
def State.loopsAround (s : State) (l : Lens) (r : Nat) : Nat → Nat → List (Nat × Nat)
  | 0, _ => []
  | m + 1, n =>
    let (_, bad, w) := s.readRow l n
    if bad ≠ 0 ∨ Row.kind w = 4 then []
    else (if Row.kind w = 1 ∧ Row.tgt w ≤ r then [(n, Row.tgt w)] else []) ++ s.loopsAround l r m (n + 1)

/-- R184: the tags of the loop counters, rebuilt from the list: a counter keeps the LOOP row that loaded it while that row's
body still holds the restart row; where one no longer does, the bottom counter takes the outermost such row, and so on
inwards (log entry 37). -/
def retag (st : List (Nat × Nat × Nat)) (around : List (Nat × Nat)) : List (Nat × Nat × Nat) :=
  match st.mapM fun c => (around.find? fun p => p.1 == c.1).map fun p => (c.1, p.2, c.2.2) with
  | some l => l
  | none =>
    let rows := around.drop (around.length - st.length)
    (st.zip rows).map fun p => (p.2.1, p.2.2, p.1.2.2)

/-- R184: the stack after a LOOP row at index n and the row that follows, or an error. -/
def loopStep (st : List (Nat × Nat × Nat)) (n tgt cnt : Nat) : Option (List (Nat × Nat × Nat) × Nat) :=
  let use (c : Nat) (first : Nat) (below : List (Nat × Nat × Nat)) : List (Nat × Nat × Nat) × Nat :=
    if c = 0 then (below, n + 1) else ((n, first, c - 1) :: below, tgt)
  if n ≤ tgt then none
  else
    match st with
    | (m, first, c) :: r =>
      if m = n then some (use c first r)
      else if 4 ≤ st.length ∨ tgt < first ∨ m ≤ n then none
      else some (use (cnt - 1) tgt st)
    | [] => some (use (cnt - 1) tgt [])

def execTileLoopRow (lens : Nat) (s : State) : Host.Outcome State Fault Refusal :=
  .next <|
    let l := s.lens lens
    if !l.ready || l.badRow || Row.kind l.seq.cur ≠ 1 then s
    else
      let s := s.startRow lens
      let l := s.lens lens
      match loopStep l.seq.loops l.seq.row (Row.tgt l.seq.cur) (Row.cnt l.seq.cur) with
      | some (st, n) => (s.setLens lens { l with seq := { l.seq with loops := st } }).nextRow lens n
      | none => s.setLens lens (l.raise (l.seqEvent 0x0E 0 0 0)).halt

/-- R184: WAITG: injection pauses until the node completes. -/
def execWaitgRow (lens : Nat) (s : State) : Host.Outcome State Fault Refusal :=
  .next <|
    let l := s.lens lens
    if !l.ready || l.badRow || Row.kind l.seq.cur ≠ 2 then s
    else
      let s := s.startRow lens
      let nd := (s.core l.origin).node (bits l.seq.cur 0 6)
      if nd.st = .armed ∨ nd.st = .running then (s.countRow lens).noInject lens else s.nextRow lens (l.seq.row + 1)

/-- R184, R310: SIGNAL. -/
def execSignalRow (lens : Nat) (s : State) : Host.Outcome State Fault Refusal :=
  .next <|
    let l := s.lens lens
    if !l.ready || l.badRow || Row.kind l.seq.cur ≠ 3 then s
    else
      let s := s.startRow lens
      if Row.fence l.seq.cur && !s.committed lens then s.modLens lens Lens.halt
      else
        (s.nextRow lens (l.seq.row + 1)).next1
          (.notifyArrive l.origin (bits l.seq.cur 16 3) (l.seq.cur.setWidth 16))

/-- R184: END: injection stops. -/
def execEndRow (lens : Nat) (s : State) : Host.Outcome State Fault Refusal :=
  .next <|
    let l := s.lens lens
    if !l.ready || l.badRow || Row.kind l.seq.cur ≠ 4 then s
    else s.setLens lens { l with seq := { l.seq with ended := true, fresh := false }, mid := true }

/-- R184: the condition of a SYNC row. -/
def State.synced (s : State) (l : Lens) : Bool :=
  decide (((s.core l.origin).syncref + w64 (bits l.seq.cur 0 32)).toNat ≤ (s.cycle l.origin).toNat)

def execSyncRow (lens : Nat) (s : State) : Host.Outcome State Fault Refusal :=
  .next <|
    let l := s.lens lens
    if !l.ready || l.badRow || Row.kind l.seq.cur ≠ 5 then s
    else
      let s := s.startRow lens
      if s.synced l then s.nextRow lens (l.seq.row + 1)
      else s.modLens lens fun l => { l with seq := { l.seq with paused := true }, mid := true }

/-- R184: the P-cycle that a SYNC row waits for has come. -/
def execSyncResume (lens : Nat) (s : State) : Host.Outcome State Fault Refusal :=
  .next <|
    let l := s.lens lens
    if l.seq.active && l.seq.paused && !l.seq.ended && !l.freezing && s.synced l then
      (s.setLens lens { l with seq := { l.seq with paused := false } }).nextRow lens (l.seq.row + 1)
    else s

/-! ### The A-cycle -/

/-- R217: a requested stop takes effect: at once, or between two intervals. -/
def Lens.stops (l : Lens) : Bool :=
  l.seq.active && !l.seq.ended && !l.mid && match l.seq.stop with
    | .none => false
    | .now => true
    | .intervalEnd => l.seq.ofs == 0 || Row.kind l.seq.cur != 0

/-- R217: injection has stopped: the invocation under way ends with its last injected wave token. -/
def Lens.stopNow (l : Lens) : Lens :=
  let close (v : Invocation) : Invocation :=
    match v.last with
    | some _ => v
    | none => { v with last := some (maxOf v.first ((l.waves.filter fun w => w.inv == v.first).map (·.at_))) }
  { l with seq := { l.seq with ended := true, paused := false }, open_ := l.open_.map close }

/-- R217: the sequencer stops at the first wave token that it has not injected: rows that inject nothing are passed over. -/
def State.toToken (key : Nat) : Nat → State → State
  | 0, s => s
  | m + 1, s =>
    let l := s.lens key
    if l.badRow then s
    else
      match Row.kind l.seq.cur with
      | 1 =>
        match loopStep l.seq.loops l.seq.row (Row.tgt l.seq.cur) (Row.cnt l.seq.cur) with
        | some (st, n) => State.toToken key m ((s.setLens key { l with seq := { l.seq with loops := st } }).enterRow key n)
        | none => s
      | 2 | 3 | 5 => State.toToken key m (s.enterRow key (l.seq.row + 1))
      | _ => s

/-- R188: an A-cycle of the region in which the lens still stands in its last one counts for the row too. -/
def State.countHeld (s : State) (key : Nat) : State := if (s.lens key).mid then s.countRow key else s

/-- The A-cycles of a lens go on: a list runs, the lens freezes, or an event is to be served. -/
def Lens.moving (l : Lens) : Bool := l.seq.active || l.freezing || !l.raised.isEmpty

/-- An A-cycle of a lens's clock region begins: channels (R211), AGs that have finished, then the row, unless the lens
stands at an interval end of a task that is drained for a checkpoint (R369), and the ports. -/
def State.openA (s : State) (key : Nat) : State :=
  let l := s.lens key
  if !l.fused then s
  else
    let l := { l with region := l.region + 1 }
    let s := if l.stops then State.toToken key 65536 (s.setLens key l.stopNow) else (s.setLens key l).countHeld key
    let l := s.lens key
    let more :=
      if l.st = .frozen || !l.moving then []
      else
        (if s.drains (some l.task) && l.seq.ofs == 0 then []
          else if l.ready then [Due.ev (l.rowEvent key)]
          else if l.seq.active && l.seq.paused && !l.seq.ended && !l.freezing && s.synced l then [Due.ev (.syncResume key)]
          else []) ++ [.presentA key]
    ((s.drainAgs key).first more).channelsOf key

/-- R201: the tokens that reach an output port in this A-cycle, with the edge and lane. -/
def Lens.portWires (l : Lens) : List (Wire × Nat × Nat) :=
  l.wires.filterMap fun w =>
    if w.due ≠ l.acyc then none
    else if w.west && w.col == l.cols then some (w, 3, w.row)
    else if !w.west && w.row == l.rows then some (w, 2, w.col)
    else none

/-- R202: a lane's AG may stall; channels and prisms may. -/
def State.laneStalls (s : State) (l : Lens) (edge i : Nat) : Bool :=
  match s.laneAg (l.laneAt edge i).1 (s.edgeLane l edge i) with
  | some g => AgDesc.stallok g.desc
  | none => true

/-- The AG of a lane as an agent: its core and number. -/
def State.laneAgent (s : State) (l : Lens) (edge i : Nat) : Option (Nat × Nat) :=
  match (s.edgeLane l edge i).att with
  | .ag n => some ((l.laneAt edge i).1, n)
  | _ => none

/-- R202, R346: the event of a lane. -/
def State.laneEvent (s : State) (l : Lens) (edge i : Nat) (v : Nat × Nat × Nat) (cause detail : BitVec 8) (a : Word)
    (bank : Nat) : RegionEvent :=
  let (c, k) := l.laneAt edge i
  let ag := s.laneAgent l edge i
  { cause := cause, detail := detail, fcyc := l.acyc, vec := v, agent := ag, core := c, row := 0xFFFF, col := 0xFFFF,
    lane := k, edge := edge, aga := (ag.map (·.2)).getD 0, agb := 0, bank := bank % 128, addr := a }

def Wave.vec (v : Wave) : Nat × Nat × Nat := (v.row, v.rep, v.ofs)

/-- The iteration vector under which a token left its cell: that of its invocation's latest wave. -/
def Lens.wireVec (l : Lens) (w : Wire) : Nat × Nat × Nat :=
  let t := if w.west then l.rowTime (l.physRow w.row) + l.colTime (64 * l.w - 1) else l.rowTime (64 * l.h - 1) + l.colTime (l.physCol w.col)
  match l.waves.find? fun v => v.at_ + t + 1 == w.due with
  | some v => v.vec
  | none => l.pos

/-- R202, R346: the events of this A-cycle's ports: schedule misses, tokens that cannot be read. -/
def State.portEvents (s : State) (l : Lens) (dry : List (Nat × Nat × Wave)) (full : List (Wire × Nat × Nat)) :
    List RegionEvent :=
  (dry.filterMap fun p =>
    match s.supply l p.1 p.2.1 with
    | .failed e => some (s.laneEvent l p.1 p.2.1 p.2.2.vec e.cause e.detail e.addr e.bank)
    | _ => if s.laneStalls l p.1 p.2.1 then none else some (s.laneEvent l p.1 p.2.1 p.2.2.vec 0x31 0 0 0)) ++
  full.filterMap fun p =>
    if s.laneStalls l p.2.1 p.2.2 then none else some (s.laneEvent l p.2.1 p.2.2 (l.wireVec p.1) 0x31 0 0 0)

/-- R195, R202: a header with nothing behind it is taken, and the lane is dry. -/
def State.popLone (s : State) (l : Lens) (edge i : Nat) : State :=
  s.modEdgeLane l edge i fun a =>
    match a.fifo with
    | t :: r => if t.hdr then { a with fifo := r, conv := Conv.open_ t.data, half := false } else a
    | [] => a

def State.setAgent (s : State) (l : Lens) (edge i : Nat) (f : AG → AG) : State :=
  match s.laneAgent l edge i with
  | some (c, n) => s.modCore c fun x => x.modAg n f
  | none => s

/-- R202: the clock region holds for this A-cycle. -/
def State.hold (s : State) (key : Nat) (lanes : List (Nat × Nat)) : State :=
  let l := s.lens key
  let wait (g : AG) : AG := if g.st = .run then { g with st := .edgeWait } else g
  let s := lanes.foldl (fun s p => (if p.1 < 2 then s.popLone l p.1 p.2 else s).setAgent l p.1 p.2 wait) s
  let s := s.modLens key fun l => { l with st := .edgeWait }
  if l.seq.fresh || l.seq.ended then s else s.checkBudget key

/-- R203, R295: an AG of the lens has a token that no walk resolves. -/
def State.lostAg (s : State) (key : Nat) : Option (Nat × Nat × Word) :=
  (s.lensAgs key).findSome? fun p => ((s.core p.1).ag p.2).lost.map fun a => (p.1, p.2, a)

/-- R203: the last of the injected wave tokens has left. -/
def Lens.quiescent (l : Lens) : Bool := l.waves.all fun v => decide (v.at_ + l.seTime < l.acyc)

/-- R346: the A-cycle in which the lens became quiescent; the present one while it is not, or when nothing was injected. -/
def Lens.quietA (l : Lens) : Nat :=
  match l.seq.lastA with
  | some a => if l.quiescent then a + l.seTime + 1 else l.acyc
  | none => l.acyc

/-- R203, R295, R346: the fault of a token that no walk resolves, at the quiescent point or while the lens holds. -/
def State.lostEvent (s : State) (key : Nat) (held : Bool) : State :=
  let l := s.lens key
  match s.lostAg key with
  | some (c, n, a) =>
    if (held || l.quiescent) && l.raised.isEmpty && !l.freezing then
      s.setLens key (l.raise { l.seqEvent 0x32 0 a 0 with agent := some (c, n), aga := n, fcyc := l.quietA })
    else s
  | none => s

/-- R164, R178: the cells that hold a wave token in this A-cycle, with their operations; a HOLD that changes nothing is
left out. -/
def Lens.cellsNow (l : Lens) (key : Nat) : List Due :=
  let rt := (l.liveRows.map l.rowTime).zipIdx
  let ct := (l.liveCols.map l.colTime).zipIdx
  (l.waves.filter fun v => decide (l.acyc ≤ v.at_ + l.seTime)).flatMap fun v =>
    rt.flatMap fun r => ct.filterMap fun c =>
      if v.at_ + r.1 + c.1 = l.acyc then
        let op := (l.entry r.2 c.2 v.ph.toNat).op
        if op = 0 && (Tab.find l.cells (cellKey r.2 c.2)).isNone then none else some (.cell (cellOpOf op) key r.2 c.2)
      else none

/-- R195, R200 to R203: the ports of an A-cycle. Either the region holds, or every due lane presents, the cells run and
the A-cycle ends. -/
def State.presentA (s : State) (key : Nat) : State :=
  let s := s.drainAgs key
  let l := s.lens key
  let must := s.mustPresent l
  let dry := must.filter fun p => s.supply l p.1 p.2.1 != .ready
  let full := l.portWires.filter fun p => decide (32 ≤ (s.edgeLane l p.2.1 p.2.2).fifo.length) && l.runs (l.laneAt p.2.1 p.2.2).1
  let run (s : State) : State :=
    s.first ((if l.st = .edgeWait then [Due.ev (.edgeWaitEnd key)] else []) ++
      must.map (fun p => Due.ev (.inputPresent key p.1 p.2.1)) ++ l.cellsNow key ++ [.closeA key])
  if l.freezing then run s
  else
    let evs := s.portEvents l dry full
    if !evs.isEmpty then run (s.modLens key fun l => evs.foldl Lens.raise l)
    else if dry.isEmpty && full.isEmpty then run (s.lostEvent key false)
    else
      let s := (s.hold key (dry.map (fun p => (p.1, p.2.1)) ++ full.map fun p => p.2)).lostEvent key true
      -- an event ends the hold: the A-cycle runs, and the freeze begins at its end
      if (s.lens key).raised.isEmpty then s else run s

/-- R202: the hold ends: every lane that was dry or full can go on. -/
def execEdgeWaitEnd (lens : Nat) (s : State) : Host.Outcome State Fault Refusal :=
  .next <|
    let l := s.lens lens
    if l.st = .edgeWait then
      let s := s.setLens lens { l with st := .run }
      (s.lensAgs lens).foldl (fun s p => s.modCore p.1 fun x => x.modAg p.2 fun g =>
        if g.st = .edgeWait then { g with st := .run } else g) s
    else s

/-- R201: the tokens that have reached the ports enter their lanes; during a freeze one for a full lane is dropped. -/
def State.portsIn (s : State) (key : Nat) : State :=
  let l := s.lens key
  l.portWires.foldl (fun s p =>
    if !l.runs (l.laneAt p.2.1 p.2.2).1 then s
    else
      s.modEdgeLane l p.2.1 p.2.2 fun a =>
        if 32 ≤ a.fifo.length then a else { a with fifo := a.fifo ++ [p.1.tok], tags := a.tags ++ [(p.1.tag, l.acyc)] }) s

/-- R208: at an interval end the AGs that AGADV names advance; what injected waves still take is kept. -/
def State.advanceAg (s : State) (key : Nat) (p : Nat × Nat) : State :=
  let l := { s.lens key with acyc := (s.lens key).acyc + 1 }
  let g := (s.core p.1).ag p.2
  let d : AgDesc := g.desc
  let s := if d.isOut then s
    else
      d.dataLanes.foldl (fun s k =>
        let a := ((s.core p.1).ag p.2).lane k
        let own := if (l.dataLanes p.1 d).contains k then
            (s.owedTokens l p.1 d k).2 - a.before ((s.core p.1).lane d.edge k)
          else 0
        let s := if own < a.own.length then
            s.modCore p.1 fun x => (x.cutLane p.2 k own).modAg p.2 fun g => g.modLane k fun a => { a with jumps := [] }
          else s
        s.modCore p.1 fun x => x.modAg p.2 fun g => g.modLane k fun a =>
          let pend := a.jumps.foldl (fun n j => n + j.1) 0
          { a with jumps := a.jumps ++ [(own - a.own.length - pend, g.i2 + 1)], err := none }) s
  s.modCore p.1 fun x => x.modAg p.2 fun g => { g with i2 := g.i2 + 1 }

def State.advanceAgs (s : State) (key : Nat) : State :=
  let adv := (s.lens key).seq.adv
  if adv = 0 then s
  else
    ((s.lensAgs key).filter fun p => adv.getLsbD p.2).foldl (fun s p => s.advanceAg key p)
      (s.modLens key fun l => { l with seq := { l.seq with adv := 0 } })

/-- R165: a cell without a wave token drives idle-zero. -/
def Lens.restCells (l : Lens) : Lens :=
  { l with
    cells := l.cells.filterMap fun p =>
      let a := p.1 / 1536
      let b := p.1 % 1536
      if (l.waveAt a b).isSome || !l.runs (l.cellCore a b) then some p
      else
        let c := { p.2 with eOut := Token.idle, sOut := Token.idle }
        if c = Cell.reset then none else some (p.1, c) }

/-- R186: an invocation has ended by an A-cycle. -/
def Lens.endedBy (l : Lens) (v : Invocation) (t : Nat) : Bool :=
  match v.last with
  | some a => decide (a + l.seTime + 1 ≤ t)
  | none => false

/-- The A-cycle up to which invocations end: not past the fault cycle (R347). -/
def Lens.endLimit (l : Lens) : Nat :=
  match l.kept with
  | some e => if l.freezing then Nat.min e.fcyc (l.acyc - 1) else l.acyc - 1
  | none => l.acyc - 1

/-- R347: the largest K of the lens for an event. -/
def Lens.skMax (l : Lens) (e : RegionEvent) : Nat := maxOf 0 (l.cores.map fun c => l.skidOf c e)

/-- R184: the list has run out. -/
def State.listOver (s : State) (key : Nat) : Bool :=
  let l := s.lens key
  l.seq.active && l.seq.ended && !l.freezing && l.raised.isEmpty && s.committed key && l.quiescent

/-- What follows an A-cycle: invocations that end, a list that finishes, a freeze that starts or is complete. -/
def State.afterA (s : State) (key : Nat) : List Due :=
  let l := s.lens key
  let n := (l.open_.filter fun v => l.endedBy v l.endLimit).length
  (List.replicate n (Due.ev (.invocationEnd key))) ++
    (if !l.raised.isEmpty && !l.freezing then [Due.ev (.freezeLine key)] else []) ++
    (match l.kept with
      | some e => if l.freezing && decide (e.fcyc + l.skMax e < l.acyc) then [Due.ev (.freezeComplete key)] else []
      | none => []) ++
    (if l.seq.active && l.seq.ended && l.raised.isEmpty && !l.freezing then [Due.ev (.listFinish key)] else [])

/-- The end of an A-cycle. -/
def State.closeA (s : State) (key : Nat) : State :=
  let s := ((s.portsIn key).drainAgs key).advanceAgs key
  let s := s.modLens key fun l =>
    let l := l.restCells
    let l := { l with wires := l.wires.filter fun w => decide (l.acyc < w.due) }
    { l with
      waves := l.waves.filter fun v => decide (l.acyc < v.at_ + l.seTime + 65)
      acyc := l.acyc + 1
      mid := false }
  let s := if (s.lens key).seq.rowDone then s.enterRow key ((s.lens key).seq.row + 1) else s
  let s := (s.inAgs key).foldl (fun s p => s.agInDone p.1 p.2) s
  s.first (s.afterA key)

/-! ### The ends of invocations and lists (R184, R186, R216, R217, R307) -/

/-- R207, R208: the interval of an ended invocation is over for an output AG. -/
def AG.dropInterval (g : AG) (inv : Nat) : AG :=
  match g.intervals.find? fun p => p.1 == inv with
  | some p =>
    { g with
      intervals := g.intervals.filter fun q => q.1 != inv
      lanes := g.lanes.map fun q => (q.1, if q.2.pos.i2 = p.2 then { q.2 with pos := ⟨p.2 + 1, 0, 0, 0⟩ } else q.2) }
  | none => g

/-- R186, R307: the oldest ended invocation is over, and its held stores perform. -/
def execInvocationEnd (lens : Nat) (s : State) : Host.Outcome State Fault Refusal :=
  .next <|
    let l := s.lens lens
    match l.open_.find? fun v => l.endedBy v l.endLimit with
    | none => s
    | some v =>
      let s := s.setLens lens { l with open_ := dropFirst (fun w => w.first == v.first) l.open_ }
      let s := s.commitAll v.segs
      let s := (s.outAgs lens).foldl (fun s p => s.modCore p.1 fun x => x.modAg p.2 fun g => g.dropInterval v.first) s
      (s.outAgs lens).foldl (fun s p => s.agOutDone p.1 p.2) s

/-- R348: the loop counts in stack order, the bottom one in [15:0]. -/
def loopsWord (st : List (Nat × Nat × Nat)) : Nat := (st.reverse.zipIdx).foldl (fun w p => w + p.1.2.2 % 65536 * 2 ^ (16 * p.2)) 0

/-- Dwords as a 64-byte record. -/
def recordOf (l : List Nat) : BitVec 512 := BitVec.ofNat 512 ((l.zipIdx).foldl (fun w p => w + p.1 % 2 ^ 64 * 2 ^ (64 * p.2)) 0)

/-- R217, R348: a record is written below the list's first row, if its bytes lie in one attached entry. -/
def State.writeRecord (s : State) (l : Lens) (r : BitVec 512) : State :=
  let a := l.seq.base - 64
  let b := a + 63
  if isLocal a && isLocal b && eaEntry a == eaEntry b && (entryRefuses ((s.core l.origin).bm (eaEntry a)) true).isNone then
    s.winPoke l.origin a (leBytes 64 r.toNat)
  else s

/-- R217: the stop record. -/
def stopRecord (l : Lens) : BitVec 512 :=
  recordOf [0xF2 * 2 ^ 48 + l.task % 256 * 2 ^ 40 + l.num % 64 * 2 ^ 34 + 0xFFFFFFFF,
    l.seq.row % 65536 * 2 ^ 48 + l.seq.rep % 65536 * 2 ^ 32 + l.seq.ofs % 65536 * 65536, 0, loopsWord l.seq.loops]

/-- R198: a lane goes back to its prism. -/
def Lane.toPrism (a : Lane) (n : Nat) : Lane := if a.att = .ag n then { a with att := .prism } else a

def Core.freeLanes (x : Core) (n : Nat) : Core := { x with lanes := x.lanes.map fun p => (p.1, p.2.toPrism n) }

/-- R198: the lanes that done AGs of a lens still hold go back to the prisms. -/
def State.freeDone (s : State) (key : Nat) : State :=
  (s.lens key).cores.foldl (fun s c => s.modCore c fun x => (List.range 4).foldl (fun x n =>
    if (x.ag n).st = .done && (x.ag n).lens == key then x.freeLanes n else x) x) s

/-- R184, R216, R217: the list is finished; its node completes, and the next job of the lens may start. -/
def execListFinish (lens : Nat) (s : State) : Host.Outcome State Fault Refusal :=
  .next <|
    if !s.listOver lens then s
    else
      let l := s.lens lens
      let killed := ((s.core l.origin).node l.seq.node).killed
      let st : BitVec 8 := if killed then 0xF1 else if l.seq.stop = .none then 0 else 0xF2
      let s := if l.seq.stop = .none then s else s.writeRecord l (stopRecord l)
      let s := (s.modLens lens fun l => { l with st := .idle, last := st, seq := { l.seq with active := false, stop := .none } }).freeDone lens
      let s := s.nodeEnd l.origin l.seq.node st 0
      if (s.lens lens).queue.isEmpty then s else s.soon (.lensNodeStart lens)

/-! ### The freeze (R346 to R349) -/

/-- R346: the event that the lens keeps of two. -/
def RegionEvent.before (a b : RegionEvent) : Bool :=
  let k (e : RegionEvent) : List Nat := [e.fcyc, e.cause.toNat, e.detail.toNat, e.row, e.col]
  decide (k a < k b)

def firstEvent : List RegionEvent → Option RegionEvent
  | [] => none
  | e :: r =>
    match firstEvent r with
    | none => some e
    | some f => if f.before e then some f else some e

/-- R346, R347: the freeze line is asserted. -/
def execFreezeLine (lens : Nat) (s : State) : Host.Outcome State Fault Refusal :=
  .next <|
    let l := s.lens lens
    match firstEvent l.raised with
    | none => s
    | some e =>
      if l.freezing || !l.fused then s
      else
        let s := if e.cause = 0x30 && (e.detail = 3 || e.detail = 4) then s.countError (unitCells e.core)
          else if e.cause = 0x39 then s.countError (unitBank (clusterOf e.core * 128 + e.bank))
          else s
        s.setLens lens { l with kept := some e, freezing := true, raised := [], mid := false }

/-- R347, R350: an AG of a lens that freezes: its rewind point among the discarded invocations, oldest first. -/
def rewindLane (open_ : List Invocation) (c n k : Nat) : Option Rewind :=
  open_.findSome? fun v => v.rewind.find? fun r => r.core == c && r.ag == n && r.lane == k

/-- R347: an AG stops at its rewind point. -/
def State.rewindAg (s : State) (open_ : List Invocation) (e : RegionEvent) (c n : Nat) : State :=
  let g := (s.core c).ag n
  let d : AgDesc := g.desc
  let at_ (k : Nat) (p : AgPos) : AgPos := match rewindLane open_ c n k with
    | some r => r.pos
    | none => p
  let firsts := open_.map (·.first)
  let old := (g.intervals.find? fun p => firsts.contains p.1).map (·.2)
  let i2 := match old with
    | some i => i
    | none => minOf g.i2 ((d.dataLanes).map fun k => (at_ k (g.lane k).where_).i2)
  let lane (k : Nat) : AgLane :=
    let a := g.lane k
    let p := if d.isOut then
        (match old with
          | some i => if a.pos.i2 < i then a.pos else at_ k ⟨i, 0, 0, 0⟩
          | none => at_ k a.pos)
      else at_ k a.where_
    { a with pos := p, marks := [], reads := [], jumps := [], again := 0, err := none, tag := 0 }
  let g' := d.dataLanes.foldl (fun g k => g.modLane k fun _ => lane k) g
  let s := s.modCore c fun x => (x.freeLanes n).modAg n fun _ =>
    { g' with
      st := if e.agent = some (c, n) then .fault else .loaded
      i2 := i2
      intervals := g.intervals.filter fun p => !firsts.contains p.1
      walk := none
      got := none
      lost := none }
  let s := if d.isOut then s
    else
      d.dataLanes.foldl (fun s k => match rewindLane open_ c n k with
        | some r => s.modCore c fun x => x.modLane d.edge k fun a => { a with conv := r.conv }
        | none => s) s
  s.agWriteBack c n

/-- R347: the AGs of a lens that stop with it. -/
def State.frozenAgs (s : State) (key : Nat) : List (Nat × Nat) :=
  (s.lens key).cores.flatMap fun c =>
    ((List.range 4).filter fun n =>
      let g := (s.core c).ag n
      g.lens == key && (g.active || (g.st == .done && (s.core c).lanes.any fun p => p.2.att == .ag n))).map fun n => (c, n)

/-- R347: input lanes are emptied, and tokens of discarded invocations leave the output lanes. -/
def State.clearLanes (s : State) (l : Lens) (firsts : List Nat) : State :=
  let empty (a : Lane) : Lane := { a with fifo := [], half := false }
  let keep (a : Lane) : Lane :=
    let l := (a.fifo.zip a.tags).filter fun p => !firsts.contains p.2.1
    { a with fifo := l.map (·.1), tags := l.map (·.2) }
  [0, 1, 2, 3].foldl (fun s e => (List.range (l.lanesOn e)).foldl (fun s i =>
    s.modEdgeLane l e i (if e < 2 then empty else keep)) s) s

/-- R199: the phase is in the push set of an output lane. -/
def Lens.pushSet (l : Lens) (edge i : Nat) (ph : Nat) : Bool :=
  if edge = 3 then pushes (l.entry i (l.cols - 1) ph) false else pushes (l.entry (l.rows - 1) i ph) true

/-- R349: a lane that the phases of an invocation use is not attached to an AG. -/
def State.looseLane (s : State) (l : Lens) (phases : BitVec 16) : Bool :=
  let phs := bitList phases 16
  let loose (e i : Nat) : Bool := match (s.edgeLane l e i).att with
    | .ag _ => false
    | _ => true
  ([0, 1].any fun e => (List.range (l.lanesOn e)).any fun i =>
    loose e i && phs.any fun ph => l.consumes e i (BitVec.ofNat 4 ph)) ||
  ([2, 3].any fun e => (List.range (l.lanesOn e)).any fun i => loose e i && phs.any fun ph => l.pushSet e i ph)

/-- R349: WHY. -/
def State.freezeWhy (s : State) (l : Lens) (e : RegionEvent) : Nat :=
  if l.open_.any fun v => v.phases &&& l.restart != 0 then 1
  else if l.open_.any fun v => !v.snap then 2
  else if l.open_.length ≠ 1 then 3
  else if l.open_.any fun v => s.looseLane l v.phases then 4
  else if e.cause = 0x0E ∨ e.cause = 0x38 then 5
  else 0

/-- R348: the freeze record. -/
def freezeRecord (l : Lens) (e : RegionEvent) (why : Nat) : BitVec 512 :=
  let (rrow, rrep, lps) := match l.open_ with
    | v :: _ => (v.row, v.rep, v.loops)
    | [] => (l.seq.row, l.seq.rep, l.seq.loops)
  recordOf
    [e.cause.toNat * 2 ^ 56 + e.detail.toNat * 2 ^ 48 + l.task % 256 * 2 ^ 40 + l.num % 64 * 2 ^ 34 + e.row % 65536 * 65536 +
        e.col % 65536,
      e.vec.1 % 65536 * 2 ^ 48 + e.vec.2.1 % 65536 * 2 ^ 32 + e.vec.2.2 % 65536 * 65536,
      rrow % 65536 * 2 ^ 48 + rrep % 65536 * 2 ^ 32,
      loopsWord lps,
      (if e.cause = 0x31 ∨ e.cause = 0x39 then e.lane % 256 else 0) * 2 ^ 56 + e.edge % 4 * 2 ^ 54 + e.aga % 4 * 2 ^ 52 +
        e.agb % 4 * 2 ^ 50 + e.bank % 128 * 2 ^ 40,
      e.addr.toNat,
      e.fcyc - l.seq.firstA.getD 0,
      why * 65536 + l.skMax e * 256 + Nat.min l.open_.length 255]

/-- R347: SKID of every live cell. -/
def Lens.setSkids (l : Lens) (e : RegionEvent) : Lens :=
  (List.range l.rows).foldl (fun l a => (List.range l.cols).foldl (fun l b =>
    let c := l.cell a b
    l.setCell a b { c with skid := BitVec.ofNat 5 (l.skidOf (l.cellCore a b) e) }) l) l

/-- R347: an output AG of the lens waits for a walk with tokens of ended invocations in its lanes. -/
def State.storesWalk (s : State) (key : Nat) (firsts : List Nat) : Bool :=
  (s.outAgs key).any fun p =>
    let x := s.core p.1
    let d : AgDesc := (x.ag p.2).desc
    (x.ag p.2).walk.isSome && d.dataLanes.any fun k => (x.lane d.edge k).tags.any fun t => !firsts.contains t.1

/-- R307, R347: the node of a frozen list completes once the writes of its ended invocations have performed. -/
def State.frozenEnd (s : State) (key n : Nat) (cause detail : BitVec 8) : State :=
  let l := s.lens key
  if l.cores.any fun c => (s.core c).ags.any fun q => q.2.lens == key && q.2.pending != 0 then
    s.work 1 (.frozenEnd key n cause detail)
  else
    let s := s.nodeEnd l.origin n cause detail
    if (s.lens key).queue.isEmpty then s else s.soon (.lensNodeStart key)

/-- R347 to R349: every facet has stopped. -/
def execFreezeComplete (lens : Nat) (s : State) : Host.Outcome State Fault Refusal :=
  .next <|
    let l := s.lens lens
    match l.kept with
    | none => s
    | some e =>
      if !l.freezing || decide (l.acyc ≤ e.fcyc + l.skMax e) || s.storesWalk lens (l.open_.map (·.first)) then s
      else
        let why := s.freezeWhy l e
        let rec_ := freezeRecord l e why
        let s := (s.frozenAgs lens).foldl (fun s p => s.rewindAg l.open_ e p.1 p.2) s
        let s := (s.clearLanes l (l.open_.map (·.first))).writeRecord l rec_
        let s := s.modFe fun f => { f with freezes := f.freezes ++ [rec_] }
        let loops := match l.open_ with
          | v :: _ => v.loops
          | [] => l.seq.loops
        let live := l.seq.active
        let s := s.setLens lens
          { l.setSkids e with
            st := .frozen
            last := e.cause
            freezing := false
            record := rec_
            raised := []
            open_ := []
            waves := []
            wires := []
            mid := false
            seq := { l.seq with active := false, ended := true, paused := false, stop := .none, loops := loops, adv := 0 } }
        if live then s.frozenEnd lens l.seq.node e.cause e.detail
        else if (s.lens lens).queue.isEmpty then s else s.soon (.lensNodeStart lens)

/-- R346: a soft error in a memory of a cell, from outside. -/
def State.cellError (s : State) (key a b : Nat) (m : CellMem) : State :=
  s.modLens key fun l => if (cellKey a b, m) ∈ l.parity then l else { l with parity := l.parity ++ [(cellKey a b, m)] }

/-! ### The start of a list (R216, R350) -/

def recDw (r : BitVec 512) (k : Nat) : Word := r.extractLsb' (64 * k) 64

/-- R350: every live cell goes back to its shadows, and an error in a shadow with it. -/
def Lens.restoreCells (l : Lens) : Lens :=
  { l with
    parity := (l.parity.filter fun p => p.2 != .acc0 && p.2 != .acc1) ++ l.parity.filterMap fun p => match p.2 with
      | .accs0 => some (p.1, .acc0)
      | .accs1 => some (p.1, .acc1)
      | _ => none
    cells := l.cells.filterMap fun p =>
      let c := { p.2 with acc0 := p.2.accs0, acc1 := p.2.accs1, skid := 0, eOut := Token.idle, sOut := Token.idle }
      if c = Cell.reset then none else some (p.1, c) }

def Lens.clearSkids (l : Lens) : Lens :=
  { l with
    cells := l.cells.filterMap fun p =>
      let c := { p.2 with skid := 0, eOut := Token.idle, sOut := Token.idle }
      if c = Cell.reset then none else some (p.1, c) }

/-- R216, R350: a list starts. -/
def Lens.started (l : Lens) (j : LensJob) : Lens :=
  { l with
    st := .run
    flags := 0
    kept := none
    raised := []
    mid := false
    seq := { Sequencer.reset with base := j.base, active := true, node := j.node } }

/-- R219: an AG takes its lanes and starts. -/
def State.attachAg (s : State) (key c n since : Nat) : State :=
  let g := (s.core c).ag n
  let d : AgDesc := g.desc
  let l := s.lens key
  let live := (l.segment d.edge (if d.edge = 0 ∨ d.edge = 3 then coreY c - l.oy else coreX c - l.ox)).2
  let s := s.modCore c fun x =>
    (List.range d.nlanes).foldl (fun x i =>
      if d.lane0 + i < live then x.modLane d.edge (d.lane0 + i) fun a => { a with att := .ag n } else x) x
  let s := s.modCore c fun x => x.modAg n fun g => { g with st := .run, lens := key, started := s.nextPkt, since := since }
  { s with nextPkt := s.nextPkt + 1 }

/-- R350: the AGs that a resume restarts: those of the lens that the freeze stopped. -/
def State.stoppedAgs (s : State) (key : Nat) : List (Nat × Nat) :=
  (s.lens key).cores.flatMap fun c =>
    ((List.range 4).filter fun n =>
      let g := (s.core c).ag n
      g.lens == key && (g.st == .loaded || g.st == .fault)).map fun n => (c, n)

/-- R350: an AG in FAULT is loaded again from its descriptor, its counters kept; false where it cannot be read. -/
def State.reloadAg (s : State) (c n : Nat) : State × Bool :=
  let g := (s.core c).ag n
  if g.st ≠ .fault then (s, true)
  else
    match entryRefuses ((s.core c).bm (eaEntry g.daddr)) false with
    | some _ => (s, false)
    | none =>
      if s.hasErr ((s.core c).winKey g.daddr) 64 then (s, false)
      else
      let d : AgDesc := BitVec.ofNat 512 (leNat (s.winBytes c g.daddr 64))
      (s.modCore c fun x => x.modAg n fun g => { g with desc := d, st := .loaded }, d.ok)

/-- R350: a resume. -/
def State.resumeLens (s : State) (key : Nat) (j : LensJob) : State :=
  let l := s.lens key
  let ags := s.stoppedAgs key
  let (s, ok) := ags.foldl (fun (r : State × Bool) p =>
    let (s, b) := r.1.reloadAg p.1 p.2
    (s, r.2 && b)) (s, true)
  if !ok then (s.modLens key fun l => { l with st := .idle, last := 0x0A }).nodeEnd l.origin j.node 0x0A 0
  else
    let row := bits (recDw l.record 2) 48 16
    let rep := bits (recDw l.record 2) 32 16
    let s := s.modLens key fun l =>
      let m := l.restoreCells.started j
      let loops := if l.seq.loops.isEmpty then [] else retag l.seq.loops (s.loopsAround m row 65536 (row + 1))
      { m with seq := { m.seq with loops := loops } }
    let s := ags.foldl (fun s p => s.attachAg key p.1 p.2 s.now) s
    (s.enterRow key row).modLens key fun l => { l with seq := { l.seq with rep := rep } }

/-- R350: a fresh start of a lens that was frozen: the AGs are LOADED. -/
def State.freshLens (s : State) (key : Nat) (j : LensJob) : State :=
  let l := s.lens key
  let s := if l.st = .frozen then
      (s.stoppedAgs key).foldl (fun s p => s.modCore p.1 fun x => x.modAg p.2 fun g => { g with st := .loaded }) s
    else s
  (s.modLens key fun l => (if l.st = .frozen then l.clearSkids else l).started j).enterRow key 0

/-- R216, R350: the next list of a lens starts, once earlier FUSE and LGO commands have completed. -/
def execLensNodeStart (lens : Nat) (s : State) : Host.Outcome State Fault Refusal :=
  .next <|
    let l := s.lens lens
    match l.queue with
    | [] => s
    | j :: rest =>
      if l.st = .fusing || l.seq.active || l.freezing then s
      else
        let s := s.modLens lens fun l => { l with queue := rest }
        if !l.fused then
          let s := (s.modLens lens fun l => { l with last := 0xF3 }).nodeEnd (coreAt l.ox l.oy) j.node 0xF3 0
          if rest.isEmpty then s else s.soon (.lensNodeStart lens)
        else if l.st = .frozen && j.base == l.seq.base && bits (recDw l.record 7) 16 8 == 0 then
          let s := s.resumeLens lens j
          if (s.lens lens).seq.active || rest.isEmpty then s else s.soon (.lensNodeStart lens)
        else s.freshLens lens j

end Sys2Proof.Machine
end

