-- ==== Sys2Proof/Machine/LensOps.lean ====
section
/-! DEFINITION. The lens and stream instructions and the ends of their commands (R175, R177, R197 to R199, R213 to R225). -/

namespace Sys2Proof.Machine

/-! ### LSTATE (R214) -/

def lstateWord (busy : Bool) (opc unit status : Nat) : BitVec 32 :=
  BitVec.ofBool busy ++ 0#3 ++ BitVec.ofNat 8 opc ++ BitVec.ofNat 12 unit ++ BitVec.ofNat 8 status

def Slot.setL (sl : Slot) (busy : Bool) (opc unit status : Nat) : Slot := { sl with lstate := lstateWord busy opc unit status }

/-- R214: the status of a slot's most recent command becomes known. -/
def Slot.finishL (sl : Slot) (opc unit status : Nat) : Slot :=
  if sl.lstate = lstateWord true opc unit 0 then sl.setL false opc unit status else sl

/-- A command whose status is known at once. -/
def State.report (s : State) (opc unit status : Nat) : State := (s.modMe fun sl => sl.setL false opc unit status).retire

/-! ### Lenses by number (R80, R174, R213) -/

/-- The lens number of an instruction. -/
def lensNum (o : FmtA) : Nat := bits o.imm 0 6

/-- The declaration of a lens: frame-relative x, y and size. -/
def State.lensDecl (s : State) (t n : Nat) : Option (Nat × Nat × Nat × Nat) := (s.task t).kernel.lenses[n]?

/-- The task of the core that issues. -/
def State.myTask (s : State) : Option Nat := s.myCore.task

/-- What an instruction finds under its lens number: its key, origin and size, unless the kernel declares none. -/
def State.namedLens (s : State) (o : FmtA) : Option (Nat × Nat × Nat × Nat × Nat) :=
  match s.myTask with
  | none => none
  | some t =>
    let r := (s.task t).rec_
    (s.lensDecl t (lensNum o)).map fun d => (lensKey t (lensNum o), r.ox + d.1, r.oy + d.2.1, d.2.2.1, d.2.2.2)

/-- R213: the lens of an instruction that only its origin may issue (or, with `within`, any core of the lens). -/
def State.lensFor (s : State) (o : FmtA) (within : Bool) : Option (Nat × Nat × Nat × Nat × Nat) :=
  match s.namedLens o with
  | some (key, ox, oy, w, h) =>
    let c := s.cur.core
    let ok := if within then
        decide (ox ≤ coreX c ∧ coreX c < ox + w ∧ oy ≤ coreY c ∧ coreY c < oy + h)
      else c == coreAt ox oy
    if ok then some (key, ox, oy, w, h) else none
  | none => none

/-- The lens's place, as its declaration gives it, in its record. -/
def State.placeLens (s : State) (key ox oy w h : Nat) : State :=
  s.modLens key fun l => { l with task := key / 64, num := key % 64, ox := ox, oy := oy, w := w, h := h }

/-! ### FUSE and UNFUSE (R174 to R177, R180, R197, R215, R309) -/

/-- R226: a hole: a core that is dead, has no prism, or is retired. -/
def State.isHole (s : State) (c : Nat) : Bool := !(s.defect c).usable || !(s.defect c).prism || (s.core c).retired

/-- R176: the bypassed physical rows and columns. -/
def State.bypassOf (s : State) (l : Lens) : List Nat × List Nat :=
  (((l.cores.flatMap fun c => (s.defect c).rows.map fun r => 64 * (coreY c - l.oy) + r).eraseDups),
    ((l.cores.flatMap fun c => (s.defect c).cols.map fun r => 64 * (coreX c - l.ox) + r).eraseDups))

/-- R174: the rectangle lies in the frame and holds no hole. -/
def State.geomOk (s : State) (l : Lens) : Bool :=
  let r := (s.task l.task).rec_
  decide (1 ≤ l.w ∧ l.w ≤ 24 ∧ 1 ≤ l.h ∧ l.h ≤ 32 ∧ r.ox ≤ l.ox ∧ l.ox + l.w ≤ r.ox + r.fw ∧ r.oy ≤ l.oy ∧
    l.oy + l.h ≤ r.oy + r.fh) && l.cores.all fun c => !s.isHole c

/-- R174: a facet belongs to another fused lens. -/
def State.facetTaken (s : State) (key : Nat) (l : Lens) : Bool :=
  s.lenses.any fun p => p.1 != key && p.2.fused && p.2.cores.any fun c => l.cores.contains c

/-- R177: the image's entries for the live logical cells. -/
def Lens.liveTable (l : Lens) (t : Tab (BitVec 40)) : Tab (BitVec 40) :=
  t.filter fun p => decide (p.1 / 16 / 1536 < l.rows) && decide (p.1 / 16 % 1536 < l.cols)

/-- R180: the computed counters of an edge. -/
def Lens.countersOf (l : Lens) (edge : Nat) : Tab Nat := (List.range (l.lanesOn edge)).map fun i => (i, l.counterFor edge i)

/-- R175: the lens as FUSE would build it, and the status. -/
def State.fuseResult (s : State) (key : Nat) : Lens × Nat :=
  let l := s.lens key
  if !s.geomOk l then (l, 1)
  else if s.facetTaken key l then (l, 2)
  else
    let (br, bc) := s.bypassOf l
    let l := { l with bypR := br, bypC := bc }
    let t := l.liveTable ((s.task l.task).kernel.cells.getD l.num [])
    let wc := l.countersOf 0
    let nc := l.countersOf 1
    if t.any fun p => !CtlWord.ok p.2 then (l, 3)
    else if (wc ++ nc).any fun p => decide (63 < p.2) then (l, 4)
    else
      ({ l with
          st := .idle, table := t, cells := [], unfusing := none, westCnt := wc, northCnt := nc, restart := restartMask t, acyc := 0, mid := false,
          oldSkew := [], waves := [], wires := [], seq := Sequencer.reset, open_ := [], ctabs := [], raised := [], kept := none,
          freezing := false, parity := [] }, 0)

/-- R195, R215: the lanes of a lens are emptied and their converters reset. -/
def State.resetLanes (s : State) (l : Lens) : State :=
  [0, 1, 2, 3].foldl (fun s e => (List.range (l.lanesOn e)).foldl (fun s i =>
    s.modEdgeLane l e i fun a => { Lane.reset with inFlight := a.inFlight }) s) s

/-- R284, R309: writes of the AGs on a lens's cores are still to perform. -/
def State.writing (s : State) (l : Lens) : Bool := l.cores.any fun c => (s.core c).ags.any fun q => q.2.pending != 0

/-- R309: an UNFUSE is complete once the writes of the configuration have performed. -/
def State.unfuseEnd (s : State) (key : Nat) : State :=
  let l := s.lens key
  match l.unfusing with
  | none => s
  | some (k, st) =>
    if s.writing l then s.work 1 (.unfuseEnd key)
    else (s.setLens key { l with unfusing := none }).modSlot ⟨l.origin, k⟩ fun sl => sl.finishL 0x81 l.num st

/-- R309: a FUSE waits for the earlier UNFUSE of its facets. -/
def State.unfuseFirst (s : State) (l : Lens) : Bool :=
  s.lenses.any fun p => p.2.unfusing.isSome && p.2.cores.any fun c => l.cores.contains c

/-- R198, R210: the lanes of a lens that the channels bound at dispatch feed are attached to them. -/
def State.attachIngress (s : State) (l : Lens) : State :=
  (s.task l.task).kernel.routes.zipIdx.foldl (fun s p =>
    let key := chanKey l.task p.2
    if p.1.src.isNone && (s.chan key).st == .bound then
      (p.1.dst.filter fun a => a.lens == l.num).foldl (fun s a => (List.range a.size).foldl (fun s k =>
        let (c, e, i) := s.rangeLane l.task a k
        s.modCore c fun x => x.modLane e i fun b => { b with att := .chan key }) s) s
    else s) s

def execFuse (h : Hdr) (o : FmtA) (s : State) : Host.Outcome State Fault Refusal :=
  word h s fun s =>
    match s.lensFor o false with
    | none => s.precise 0x0E 0 0
    | some (key, ox, oy, w, hh) =>
      let l := s.lens key
      if l.fused || l.st == .fusing then (s.modLens key fun l => { l with last := 2 }).report 0x80 (lensNum o) 2
      else
        let s := s.placeLens key ox oy w hh
        let s := s.modLens key fun l => { l with st := .fusing, fuser := s.cur.slot }
        ((s.modMe fun sl => sl.setL true 0x80 (lensNum o) 0).laterWithin 1 (1024 + 16 * w * hh) (.fuseComplete key)).retire

/-- R175, R215: every core of the lens has acknowledged, or FUSE fails and changes no facet. -/
def execFuseComplete (lens : Nat) (s : State) : Host.Outcome State Fault Refusal :=
  .next <|
    let l := s.lens lens
    if l.st ≠ .fusing then s
    else if s.unfuseFirst l then s.later 1 (.fuseComplete lens)
    else
      let (m, st) := s.fuseResult lens
      let s := if st = 0 then ((s.setLens lens { m with last := 0 }).resetLanes m).attachIngress m
        else s.setLens lens { l with st := .failed, last := BitVec.ofNat 8 st }
      let s := s.modSlot ⟨l.origin, l.fuser⟩ fun sl => sl.finishL 0x80 l.num st
      if l.queue.isEmpty then s else s.soon (.lensNodeStart lens)

/-- R215: an AG is active on the lens, or a channel is bound to it. -/
def State.lensInUse (s : State) (key : Nat) : Bool :=
  let l := s.lens key
  !(s.lensAgs key).isEmpty || (s.task l.task).kernel.routes.zipIdx.any fun p =>
    (s.chan (chanKey l.task p.2)).st != .unbound && ((p.1.src.any fun a => a.lens == l.num) || p.1.dst.any fun a => a.lens == l.num)

/-- R215: the lens returns its facets; whether tokens were discarded. -/
def State.releaseLens (s : State) (key : Nat) : State × Bool :=
  let l := s.lens key
  let held := [0, 1, 2, 3].any fun e => (List.range (l.lanesOn e)).any fun i => !(s.edgeLane l e i).fifo.isEmpty
  let s := s.resetLanes l
  (s.setLens key { l with st := .unfused, waves := [], wires := [], kept := none, raised := [] }, held)

def execUnfuse (h : Hdr) (o : FmtA) (s : State) : Host.Outcome State Fault Refusal :=
  word h s fun s =>
    match s.lensFor o false with
    | none => s.precise 0x0E 0 0
    | some (key, ox, oy, w, hh) =>
      let s := s.placeLens key ox oy w hh
      let l := s.lens key
      let done (st : Nat) (s : State) : State :=
        (s.modLens key fun l => { l with last := BitVec.ofNat 8 st }).report 0x81 (lensNum o) st
      if l.st = .fusing || l.freezing || l.seq.active || !l.queue.isEmpty then done 5 s
      else if !l.fused then done 7 s
      else if s.lensInUse key then done 2 s
      else
        let (s, held) := s.releaseLens key
        let st := if held then 9 else 0
        if s.writing l then
          let s := s.modLens key fun l => { l with unfusing := some (s.cur.slot, st), last := BitVec.ofNat 8 st }
          ((s.modMe fun sl => sl.setL true 0x81 (lensNum o) 0).work 1 (.unfuseEnd key)).retire
        else done st s

/-! ### LGO, LSTOP, LSTAT (R216 to R218) -/

/-- R216: LGO. -/
def execLgo (h : Hdr) (o : FmtA) (s : State) : Host.Outcome State Fault Refusal :=
  word h s fun s =>
    let a := s.me.gr o.ra
    let c := s.cur.core
    if a.toNat % 16 ≠ 0 then s.precise 0x08 a 0
    else
      match rangeFault s.myCore a 16, s.lensFor o false with
      | some (cause, addr, info), _ => s.precise cause addr info
      | none, none => s.precise 0x0E 0 0
      | none, some (key, ox, oy, w, hh) =>
        match s.myCore.freeNode with
        | none => s.precise 0x0F 0 (info0F 2 0 0 0)
        | some n =>
          let nd := { Node.reset with st := .running, owner := s.cur.slot, kind := 4 }
          let s := (s.placeLens key ox oy w hh).modCore c fun x => x.modNode n fun _ => nd
          let s := s.modLens key fun l => { l with queue := l.queue ++ [⟨n, s.cur.slot, a⟩] }
          (s.soon (.lensNodeStart key)).result 4 [.g o.rd (w64 n)]

/-- R217: LSTOP and LSTOP.q. -/
def stopWord (h : Hdr) (o : FmtA) (s : State) (r : StopReq) : Host.Outcome State Fault Refusal :=
  word h s fun s =>
    match s.lensFor o false with
    | none => s.precise 0x0E 0 0
    | some (key, ox, oy, w, hh) =>
      ((s.placeLens key ox oy w hh).modLens key fun l =>
        let q := l.seq
        { l with
          last := 0
          seq := if q.active && !q.ended && q.stop != .now then { q with stop := r } else q }).report 0x83 (lensNum o) 0

def execLstop (h : Hdr) (o : FmtA) (s : State) : Host.Outcome State Fault Refusal := stopWord h o s .intervalEnd

def execLstopQ (h : Hdr) (o : FmtA) (s : State) : Host.Outcome State Fault Refusal := stopWord h o s .now

/-- R218: the code of a lens state. -/
def LensSt.num : LensSt → Nat
  | .unfused => 0
  | .fusing => 1
  | .idle => 2
  | .run => 3
  | .starve => 4
  | .edgeWait => 5
  | .frozen => 6
  | .failed => 7

/-- R218: LSTAT's value. -/
def lstatWord (l : Lens) : Word :=
  let (r, c) := if l.fused then (l.rows, l.cols) else (0, 0)
  w64 (r % 4096 * 2 ^ 52 + c % 4096 * 2 ^ 40 + l.st.num * 2 ^ 36 + l.last.toNat * 2 ^ 24 + l.flags.toNat * 65536 +
    l.seq.row % 65536)

def execLstat (h : Hdr) (o : FmtA) (s : State) : Host.Outcome State Fault Refusal :=
  word h s fun s =>
    match s.lensFor o true with
    | none => s.precise 0x0E 0 0
    | some (key, _) => s.result 4 [.g o.rd (lstatWord (s.lens key))]

/-! ### AGSET, AGGO, AGSTAT, GATE (R219, R220, R274) -/

/-- R209: the extent table as it lies in the window; none where it cannot be read: AGSET then reports BADDESC (log entry 34). -/
def State.readExtents (s : State) (c : Nat) (a : Word) : Nat → Option (List (BitVec 128))
  | 0 => some []
  | n + 1 =>
    if !isLocal a || !isLocal (a + 15) || (entryRefuses ((s.core c).bm (eaEntry a)) false).isSome ||
        (entryRefuses ((s.core c).bm (eaEntry (a + 15))) false).isSome then none
    else
      let e : BitVec 128 := BitVec.ofNat 128 (leNat (s.winBytes c a 8 ++ s.winBytes c (a + 8) 8))
      if extVa e = 0 then some [] else (s.readExtents c (a + 16) n).map fun l => e :: l

/-- R274: the least and greatest address of an AG's range. -/
def AgDesc.span (d : AgDesc) : Int × Int :=
  let (lo, hi) := reachOf (d.dw 0).toNat [(d.cnt0, d.str0), (d.cnt1, d.str1), (d.cnt2, d.str2)]
  (lo, hi + d.size - 1)

/-- R274: the entry set of an AG. -/
def State.agSet (s : State) (c : Nat) (d : AgDesc) : BitVec 16 :=
  let (lo, hi) := d.span
  let plane : BitVec 16 :=
    if d.ft = 9 then
      let b : Int := (d.dw 4).toNat
      let off (z : Int) : Int := b + (z - (d.dw 0).toNat) / 8
      match d.space with
      | .va => if isLocal (d.dw 4) then entriesFrom b b else 0
      | sp => s.spanEntries c sp (off lo) (off hi)
    else 0
  s.spanEntries c d.space lo hi ||| plane ||| (if d.space = .va then localSet (d.dw 6) 256 else 0)

/-- R208, R219: an AG as AGSET loads it; its writes that have not performed are still to (R309). -/
def loadedAg (d : AgDesc) (a : Word) (ext : List (BitVec 128)) (eset : BitVec 16) : AG :=
  let start : AgLane := { AgLane.reset with pos := ⟨d.progi, d.proge, 0, 0⟩ }
  { AG.reset with
    st := .loaded, desc := d, daddr := a, i2 := d.progi, lanes := d.dataLanes.map fun k => (k, start), ext := ext,
    eset := eset, lens := 2 ^ 40 }

/-- R219: AGSET. An AG that is done gives the lanes it still holds back to the prism (log entry 34). -/
def execAgset (h : Hdr) (o : FmtA) (s : State) : Host.Outcome State Fault Refusal :=
  word h s fun s =>
    let a := s.me.gr o.ra
    let c := s.cur.core
    let n := bits o.imm 0 2
    if a.toNat % 64 ≠ 0 then s.precise 0x08 a 0
    else
      match rangeFault s.myCore a 64 with
      | some (cause, addr, info) => s.precise cause addr info
      | none =>
        if (s.myCore.ag n).active then s.report 0x85 n 5
        else
          match s.descriptor a 64 with
          | none => s.modMe fun sl => { sl with gate := .offer }
          | some bs =>
            if s.hasErr (s.myCore.winKey a) 64 then
              s.retire.defer s.cur none 0x39 (some s.me.pc) a (eccInfo (bmBank (s.myCore.bm (eaEntry a))) a 0) s.now none
            else
              let d : AgDesc := BitVec.ofNat 512 (leNat bs)
              let ext := if d.space = .va then s.readExtents c (d.dw 6) 16 else some []
              let s := s.modMyCore fun x => x.freeLanes n
              match d.ok, ext with
              | true, some l =>
                (s.modMyCore fun x => x.modAg n fun g => { loadedAg d a l (s.agSet c d) with pending := g.pending }).report 0x85 n 0
              | _, _ =>
                (s.modMyCore fun x => x.modAg n fun g =>
                  { AG.reset with st := .bad, daddr := a, pending := g.pending }).report 0x85 n 6

/-- R174, R197: the fused lens that holds a core's facet. -/
def State.lensAt (s : State) (c : Nat) : Option (Nat × Lens) :=
  s.lenses.find? fun p => p.2.fused && p.2.cores.contains c

/-- The facet of a core lies on a side of the lens. -/
def Lens.onSide (l : Lens) (edge c : Nat) : Bool :=
  match edge with
  | 0 => coreX c == l.ox
  | 1 => coreY c == l.oy
  | 2 => coreY c + 1 == l.oy + l.h
  | _ => coreX c + 1 == l.ox + l.w

/-- R197: the fused lens that uses an edge set of a core, and the length of the core's segment. -/
def State.sideLens (s : State) (c edge : Nat) : Option (Nat × Nat) :=
  match s.lensAt c with
  | some (key, l) =>
    if l.onSide edge c then
      some (key, (l.segment edge (if edge = 0 ∨ edge = 3 then coreY c - l.oy else coreX c - l.ox)).2)
    else none
  | none => none

/-- R219: the segment lanes that an AG owns and that are live. -/
def AgDesc.owned (d : AgDesc) (live : Nat) : List Nat :=
  ((List.range d.nlanes).map fun i => d.lane0 + i).filter fun k => decide (k < live)

/-- R219: the number of segment lanes up to the last data lane. -/
def AgDesc.reachLane (d : AgDesc) : Nat := d.lane0 + (if d.ft = 9 then 8 * d.cnt0 else d.cnt0)

/-- R198, R219: a lane is attached to another agent that keeps it. -/
def Core.laneTaken (x : Core) (edge k : Nat) (named : List Nat) : Bool :=
  match (x.lane edge k).att with
  | .prism => false
  | .chan _ => true
  | .ag m => (x.ag m).st != .done && !named.contains m

/-- R219: AGGO's status. -/
def State.aggoStatus (s : State) (c : Nat) (named : List Nat) : Nat :=
  let x := s.core c
  let g (n : Nat) : AG := x.ag n
  let d (n : Nat) : AgDesc := (g n).desc
  let live (n : Nat) : Nat := ((s.sideLens c (d n).edge).map (·.2)).getD 0
  let clash (n : Nat) : Bool :=
    ((d n).owned (live n)).any fun k => x.laneTaken (d n).edge k [] || named.any fun m =>
      m != n && (d m).edge == (d n).edge && ((d m).owned (live m)).contains k
  if named.any fun n => (g n).st == .bad || (g n).st == .empty || (g n).st == .fault then 6
  else if named.any fun n => (g n).active then 5
  else if named.any fun n => (s.sideLens c (d n).edge).isNone then 7
  else if named.any fun n => decide (live n < (d n).reachLane) then 1
  else if named.any clash then 2
  else 0

/-- R27: P-cycles until an AG's first data arrive, where its reads do not bring them of themselves. -/
def State.agDelay (s : State) (c : Nat) (d : AgDesc) : Nat :=
  if d.isOut then 0
  else
    match d.space with
    | .loc => 6 + 2 * s.classOf c
    | _ => 1

def State.startAg (s : State) (c n : Nat) : State :=
  let d : AgDesc := ((s.core c).ag n).desc
  match s.sideLens c d.edge with
  | some (key, _) => (s.attachAg key c n (s.now + s.agDelay c d))
  | none => s

def execAggo (h : Hdr) (o : FmtA) (s : State) : Host.Outcome State Fault Refusal :=
  word h s fun s =>
    let c := s.cur.core
    let mask := bits o.imm 0 4
    let named := (List.range 4).filter fun n => nbit mask n
    let st := s.aggoStatus c named
    (if st = 0 then named.foldl (fun s n => s.startAg c n) s else s).report 0x86 mask st

/-- R219: the code of an AG state. -/
def AgSt.num : AgSt → Nat
  | .empty => 0
  | .loaded => 1
  | .run => 2
  | .starve => 3
  | .edgeWait => 4
  | .done => 5
  | .bad => 6
  | .fault => 7

/-- R219: AGSTAT's value. -/
def agstatWord (g : AG) : Word :=
  let (i2, i1) := g.progress
  w64 (i2 % 2 ^ 32 * 2 ^ 32 + i1 % 2 ^ 24 * 256 + g.st.num)

def execAgstat (h : Hdr) (o : FmtA) (s : State) : Host.Outcome State Fault Refusal :=
  word h s fun s => s.result 4 [.g o.rd (agstatWord (s.myCore.ag (bits o.imm 0 2)))]

/-- R220: GATE.close. -/
def execGateClose (h : Hdr) (o : FmtA) (s : State) : Host.Outcome State Fault Refusal :=
  word h s fun s =>
    (s.modMyCore fun x => { x with gates := x.gates ||| o.imm.setWidth 4 }).report 0x88 (bits o.imm 0 4) 0

def execGateOpen (h : Hdr) (o : FmtA) (s : State) : Host.Outcome State Fault Refusal :=
  word h s fun s =>
    (s.modMyCore fun x => { x with gates := x.gates &&& ~~~(o.imm.setWidth 4) }).report 0x88 (bits o.imm 0 4) 0

/-! ### Channels (R221) -/

/-- The lanes of a route's ranges: core, edge and segment lane. -/
def State.routeLanes (s : State) (task : Nat) (r : Route) : List (Nat × Nat × Nat) :=
  ((r.src.toList) ++ r.dst).flatMap fun a => (List.range a.size).map fun k => s.rangeLane task a k

/-- R221: every endpoint lens is fused. -/
def State.routeFused (s : State) (task : Nat) (r : Route) : Bool :=
  (r.src.toList ++ r.dst).all fun a => (s.lens (lensKey task a.lens)).fused

/-- R221: a core that holds an endpoint of a route, by the lenses' declared places. -/
def State.holdsEnd (s : State) (task c : Nat) (r : Route) : Bool :=
  let f := (s.task task).rec_
  let place (a : LaneRange) : Bool :=
    match s.lensDecl task a.lens with
    | none => false
    | some (x, y, w, h) =>
      let key := lensKey task a.lens
      if (s.lens key).fused then ((List.range a.size).any fun k => (s.rangeLane task a k).1 == c)
      else
        let l := { Lens.reset with ox := f.ox + x, oy := f.oy + y, w := w, h := h }
        (List.range a.size).any fun k => (l.laneAt a.edge (a.first + k)).1 == c
  (r.src.toList ++ r.dst).any place

/-- R221: BIND's status. -/
def State.bindStatus (s : State) (task c chan : Nat) : Nat :=
  match s.routeOf task chan with
  | none => 8
  | some r =>
    let mine := chanKey task chan
    if !s.holdsEnd task c r then 1
    else if !s.routeFused task r then 7
    else if (s.routeLanes task r).any fun p =>
        match ((s.core p.1).lane p.2.1 p.2.2).att with
        | .prism => false
        | .chan k => k != mine
        | .ag m => ((s.core p.1).ag m).st != .done then 2
    else 0

/-- R221: every lane of a route is attached to its channel. -/
def State.attachRoute (s : State) (task n : Nat) (r : Route) : State :=
  (s.routeLanes task r).foldl (fun s p =>
    s.modCore p.1 fun x => x.modLane p.2.1 p.2.2 fun a => { a with att := .chan (chanKey task n) }) s

/-- R221: every lane of a channel returns to its prism. -/
def State.detachRoute (s : State) (task n : Nat) (r : Route) : State :=
  (s.routeLanes task r).foldl (fun s p => s.modCore p.1 fun x => x.modLane p.2.1 p.2.2 fun a =>
    if a.att = .chan (chanKey task n) then { a with att := .prism } else a) s

/-- R221: the next command of a channel begins. -/
def State.chanNext (s : State) (task n : Nat) : State :=
  let key := chanKey task n
  match (s.chan key).cmds, (s.chan key).st with
  | ⟨_, _, true, _⟩ :: _, .bound => (s.modChan key fun x => { x with st := .unbinding }).later 1 (.unbindComplete task n)
  | ⟨_, _, false, _⟩ :: _, .unbound =>
    let s := match s.routeOf task n with
      | some r => s.attachRoute task n r
      | none => s
    (s.modChan key fun x => { x with st := .binding }).laterWithin 1 256 (.bindComplete task n)
  | _, _ => s

/-- R214, R221: the commands that a channel's new state completes report, in the order of their issue, and the next begins. -/
def State.chanDone (s : State) (task n : Nat) (st : ChanSt) (un : Bool) : State :=
  let key := chanKey task n
  let cs := (s.chan key).cmds
  let s := s.modChan key fun x => { x with st := st, cmds := cs.dropWhile (·.un == un) }
  ((cs.takeWhile (·.un == un)).foldl (fun s c =>
    if c.told then s else s.modSlot ⟨c.core, c.slot⟩ fun sl => sl.finishL 0x89 n 0) s).chanNext task n

/-- R214, R221: a BIND or BIND.un waits for its turn at the channel; an earlier one of the same slot reports nowhere. -/
def State.chanCommand (s : State) (task n : Nat) (un : Bool) : State :=
  let key := chanKey task n
  let mine (c : ChanCmd) : ChanCmd := if c.core = s.cur.core ∧ c.slot = s.cur.slot then { c with told := true } else c
  let first := (s.chan key).cmds.isEmpty
  let s := s.modChan key fun x => { x with cmds := x.cmds.map mine ++ [⟨s.cur.core, s.cur.slot, un, false⟩] }
  let s := s.modMe fun sl => sl.setL true 0x89 n 0
  (if first then s.chanNext task n else s).retire

def execBindCh (h : Hdr) (o : FmtA) (s : State) : Host.Outcome State Fault Refusal :=
  word h s fun s =>
    let c := s.cur.core
    let n := bits o.imm 0 12
    let t := s.myTask.getD 0
    let st := if s.myTask.isNone then 8 else s.bindStatus t c n
    if st ≠ 0 then s.report 0x89 n st
    else if (s.chan (chanKey t n)).st = .bound ∧ (s.chan (chanKey t n)).cmds.isEmpty then s.report 0x89 n 0
    else s.chanCommand t n false

/-- R221: the binding is complete. -/
def execBindComplete (task chan : Nat) (s : State) : Host.Outcome State Fault Refusal :=
  .next (if (s.chan (chanKey task chan)).st = .binding then s.chanDone task chan .bound false else s)

/-- R221: BIND.un: credits stop; the tokens in flight still arrive. -/
def execBindUn (h : Hdr) (o : FmtA) (s : State) : Host.Outcome State Fault Refusal :=
  word h s fun s =>
    let c := s.cur.core
    let n := bits o.imm 0 12
    let t := s.myTask.getD 0
    match (if s.myTask.isNone then none else s.routeOf t n) with
    | none => s.report 0x89 n 8
    | some r =>
      if !s.holdsEnd t c r then s.report 0x89 n 1
      else if (s.chan (chanKey t n)).st = .unbound ∧ (s.chan (chanKey t n)).cmds.isEmpty then s.report 0x89 n 0
      else s.chanCommand t n true

/-- R221: once no token is in flight, every lane returns to its prism. -/
def execUnbindComplete (task chan : Nat) (s : State) : Host.Outcome State Fault Refusal :=
  .next <|
    let x := s.chan (chanKey task chan)
    if x.st ≠ .unbinding then s
    else if !x.fly.isEmpty then s.later 1 (.unbindComplete task chan)
    else
      let s := match s.routeOf task chan with
        | some r => s.detachRoute task chan r
        | none => s
      s.chanDone task chan .unbound true

/-! ### SKEW, CTAB, DMAP (R222 to R224) -/

/-- The edge of a SKEW instruction. -/
def skewEdge (o : FmtA) : Nat := bits o.imm 6 1

def execSkewRd (h : Hdr) (o : FmtA) (s : State) : Host.Outcome State Fault Refusal :=
  word h s fun s =>
    match s.lensFor o false with
    | none => s.precise 0x0E 0 0
    | some (key, _) =>
      let l := s.lens key
      let i := (s.me.gr o.rb).toNat
      let v : Word := if l.fused && decide (i < l.lanesOn (skewEdge o)) then w64 (l.counter (skewEdge o) i) else BitVec.allOnes 64
      s.result 4 [.g o.rd v]

/-- R222: a counter changes; wave tokens injected before keep the old delay. -/
def Lens.setCounter (l : Lens) (edge i v : Nat) : Lens :=
  let first := if l.mid then l.acyc + 1 else l.acyc
  let l := { l with oldSkew := l.oldSkew ++ [(edge, i, first, l.counter edge i)] }
  if edge = 0 then { l with westCnt := Tab.put l.westCnt i v } else { l with northCnt := Tab.put l.northCnt i v }

def execSkewWr (h : Hdr) (o : FmtA) (s : State) : Host.Outcome State Fault Refusal :=
  word h s fun s =>
    match s.lensFor o false with
    | none => s.precise 0x0E 0 0
    | some (key, _) =>
      let l := s.lens key
      let e := skewEdge o
      let i := (s.me.gr o.rb).toNat
      let v := (s.me.gr o.ra).toNat
      let n := lensNum o
      if !l.fused then s.report 0x8A n 7
      else if l.lanesOn e ≤ i then s.report 0x8A n 1
      else if 63 < v then s.report 0x8A n 4
      else (s.setLens key (l.setCounter e i v)).report 0x8A n 0

def execCtab (h : Hdr) (o : FmtA) (s : State) : Host.Outcome State Fault Refusal :=
  word h s fun s =>
    match s.lensFor o true with
    | none => s.precise 0x0E 0 0
    | some (key, _) =>
      let l := s.lens key
      let w : CtlWord := (s.me.gr o.rb).setWidth 40
      let row := bits (s.me.gr o.ra) 16 16
      let col := bits (s.me.gr o.ra) 0 16
      let n := lensNum o
      if !l.fused || decide (l.rows ≤ row) || decide (l.cols ≤ col) then s.report 0x8D n 1
      else if !w.ok then s.report 0x8D n 3
      else
        let id := s.nextPkt
        let s := ({ s with nextPkt := id + 1 } : State).setLens key
          { l with
            ctabs := (l.ctabs.map fun j => if j.core = s.cur.core ∧ j.slot = s.cur.slot then { j with told := true } else j) ++
              [⟨id, false, s.cur.core, s.cur.slot, row, col, bits o.imm 6 4, w⟩] }
        ((s.modMe fun sl => sl.setL true 0x8D n 0).laterWithin 1 64 (.ctabLand key id)).retire

/-- R223: a written entry lands between two A-cycles. -/
def execCtabLand (lens id : Nat) (s : State) : Host.Outcome State Fault Refusal :=
  .next <|
    let l := s.lens lens
    match l.ctabs.find? fun j => j.id == id with
    | none => s
    | some j =>
      let w : CtlWord := j.word
      let l := { l with
        ctabs := l.ctabs.filter fun k => k.id != id
        parity := l.parity.filter fun p => p != (cellKey j.row j.col, .entry j.entry)
        table := Tab.put l.table (entryKey j.row j.col j.entry) j.word
        restart := if restartOp w.op then l.restart ||| ((1 : BitVec 16) <<< j.entry) else l.restart }
      let s := s.setLens lens l
      if j.told then s else s.modSlot ⟨j.core, j.slot⟩ fun sl => sl.finishL 0x8D (lens % 64) 0

/-- R224: the core that a DMAP names. -/
def dmapCore (v : Word) : Option Nat :=
  let x := bits v 0 8
  let y := bits v 8 8
  if x ≤ 23 ∧ y ≤ 31 ∧ bits v 16 48 = 0 then some (coreAt x y) else none

/-- R224: a valid bit and a bypassed row or column. -/
def bypassField (l : List Nat) (i : Nat) : Nat := match l[i]? with
  | some r => 64 + r % 64
  | none => 0

def dmapFacetWord (d : Defect) : Word :=
  w64 (bypassField d.cols 1 * 2 ^ 40 + bypassField d.cols 0 * 2 ^ 32 + bypassField d.rows 1 * 2 ^ 24 +
    bypassField d.rows 0 * 2 ^ 16 + d.colsLive * 256 + d.rowsLive)

def execDmapFacet (h : Hdr) (o : FmtA) (s : State) : Host.Outcome State Fault Refusal :=
  word h s fun s =>
    s.result 4 [.g o.rd (match dmapCore (s.me.gr o.ra) with
      | some c => dmapFacetWord (s.defect c)
      | none => 0)]

def execDmapCore (h : Hdr) (o : FmtA) (s : State) : Host.Outcome State Fault Refusal :=
  word h s fun s =>
    s.result 4 [.g o.rd (match dmapCore (s.me.gr o.ra) with
      | some c =>
        let d := s.defect c
        w64 (b2n d.usable + 2 * b2n d.router + 4 * b2n d.prism + 8 * b2n (s.core c).retired)
      | none => 0)]

/-! ### EPOP and EPUSH (R225) -/

/-- R225: a lane that is attached to another agent than the prism. -/
def Core.notPrism (x : Core) (edge k : Nat) (chanOk : Bool) : Bool :=
  match (x.lane edge k).att with
  | .prism => false
  | .ag _ => true
  | .chan _ => !chanOk

/-- R225: the value of a popped token in a lane. -/
def popValue (sl : Slot) (ft : BitVec 4) (i : Nat) (t : Token) : BitVec 32 × Flags :=
  let among (f : BitVec 4) : Bool := f == 0 || f == 1 || f == 2 || f == 8 || f == 10
  if ft = 11 ∨ ft = 15 ∨ t.ft = 11 ∨ t.ft = 15 then (t.data, 0)
  else if t.ft = ft then ((contNum ft (t.data.toNat % 2 ^ (8 * contSize ft))).lane, 0)
  else if among ft && among t.ft then
    let (v, f) := convert ft (storeRnd sl i) 0 (contNum t.ft (t.data.toNat % 2 ^ (8 * contSize t.ft)))
    (v.lane, f)
  else (if isFloatFt ft then nanImage else 0, fNV)

/-- R225: the side of a core that an instruction names is usable: the lens and the number of live lanes. -/
def State.prismSide (s : State) (edge : Nat) (chanOk : Bool) : Option (Nat × Nat) :=
  let c := s.cur.core
  match s.sideLens c edge with
  | some (key, n) => if (List.range n).any fun k => s.myCore.notPrism edge k chanOk then none else some (key, n)
  | none => none

/-- R225: the fault of an EPOP: 0x0E, or 0x05 for the lowest lane that should hold a token and does not. -/
def State.popFault (s : State) (edge : Nat) : Option (BitVec 8 × Word × Word) :=
  let c := s.cur.core
  match s.prismSide edge false with
  | none => some (0x0E, 0, 0)
  | some (key, n) =>
    let l := s.lens key
    let dry (k : Nat) : Bool :=
      (s.myCore.lane edge k).fifo.isEmpty && (List.range 16).any fun ph => l.pushSet edge (l.logical edge c k) ph
    ((List.range n).find? dry).map fun k => (0x05, 0, w64 k)

/-- R225: the head token of every live lane leaves. -/
def Core.popLanes (x : Core) (edge n : Nat) : Core :=
  (List.range n).foldl (fun x k => x.modLane edge k fun a => { a with fifo := a.fifo.drop 1, tags := a.tags.drop 1 }) x

def execEpop (h : Hdr) (o : FmtV) (s : State) : Host.Outcome State Fault Refusal :=
  let edge := bits o.fn 0 2
  let n := ((s.prismSide edge false).map (·.2)).getD 0
  vectorWord h o s 8 11 [] false (fun s =>
    let v := vmap s.me o fun i =>
      match (if i < n then (s.myCore.lane edge i).fifo else []) with
      | t :: _ => popValue s.me o.ft i t
      | [] => (0, 0)
    { v with fault := s.popFault edge }) fun s => s.modMyCore fun x => x.popLanes edge n

/-- R225: the fault of an EPUSH: 0x0E, or 0x05 for the lowest full lane that would receive an entry. -/
def State.pushFault (s : State) (edge : Nat) (hdr : Bool) (gets : Nat → Bool) : Option (BitVec 8 × Word × Word) :=
  match s.prismSide edge hdr with
  | none => some (0x0E, 0, 0)
  | some (_, n) =>
    let full (k : Nat) : Bool :=
      let a := s.myCore.lane edge k
      gets k && decide (32 ≤ a.fifo.length + a.inFlight)
    ((List.range n).find? full).map fun k => (0x05, 0, w64 k)

/-- R225: pushes are counted in their lanes until they enter. -/
def Core.flying (x : Core) (edge : Nat) (ks : List Nat) : Core :=
  ks.foldl (fun x k => x.modLane edge k fun a => { a with inFlight := a.inFlight + 1 }) x

def State.edgeLive (s : State) (edge : Nat) (hdr : Bool) : List Nat :=
  List.range (((s.prismSide edge hdr).map (·.2)).getD 0)

/-- R225: the token that an active lane pushes, and the conditions met. -/
def pushToken (sl : Slot) (o : FmtV) (i : Nat) : Token × Flags :=
  let (a, f) := storeNarrow o.ft (storeRnd sl i) (vlane (sl.vr o.va) i)
  if o.fn.getLsbD 2 then
    let (b, g) := storeNarrow o.ft (storeRnd sl i) (vlane (sl.vr o.vb) i)
    (⟨false, o.ft, BitVec.ofNat 32 (a % 256 + 256 * (b % 256))⟩, f ||| g)
  else (⟨false, o.ft, BitVec.ofNat 32 a⟩, f)

def execEpush (h : Hdr) (o : FmtV) (s : State) : Host.Outcome State Fault Refusal :=
  let edge := bits o.fn 0 2
  let live := s.edgeLive edge false
  let pr := o.fn.getLsbD 2
  vectorWord h o s 8 11 (if pr then [o.va, o.vb] else [o.va]) false (fun s =>
    let act := activeMask s.me o
    let ts := live.map fun i => (i, if act.getLsbD i then pushToken s.me o i else (Token.idle, 0))
    ⟨[.push edge (ts.map fun p => (p.1, p.2.1))], ts.map fun p => (p.1, p.2.2), s.pushFault edge false fun _ => true⟩)
    fun s => s.modMyCore fun x => x.flying edge live

/-- R225: the HDR form: each active live lane receives the header. -/
def execEpushHdr (h : Hdr) (o : FmtV) (s : State) : Host.Outcome State Fault Refusal :=
  let edge := bits o.fn 0 2
  let d : BitVec 32 := (s.me.gr o.rs).setWidth 32
  let act := activeMask s.me o
  let live := (s.edgeLive edge true).filter fun i => act.getLsbD i
  vectorWord h o s 8 11 [] false (fun s =>
    ⟨[.push edge (live.map fun i => (i, headerToken (d.extractLsb' 28 4) d))], [],
      s.pushFault edge true fun k => act.getLsbD k⟩) fun s => s.modMyCore fun x => x.flying edge live

end Sys2Proof.Machine
end

