-- ==== Sys2Proof/Machine/Queue.lean ====
section
/-! DEFINITION. The front end's queues: configuration, doorbells, queue threads, packets, completions, the PIFO and the
rank program, and the packets that a queue or management thread carries out by itself (R358 to R363). -/

namespace Sys2Proof.Machine

/-! ### Packets (R228, R360) -/

abbrev FePacket := BitVec 512

def FePacket.dw (p : FePacket) (k : Nat) : Word := p.extractLsb' (64 * k) 64
def FePacket.type (p : FePacket) : Nat := bits (FePacket.dw p 0) 0 8
def FePacket.done (p : FePacket) : Word := FePacket.dw p 5
def FePacket.fh (p : FePacket) : Nat := bits (FePacket.dw p 0) 40 8
def FePacket.fw (p : FePacket) : Nat := bits (FePacket.dw p 0) 32 8
def FePacket.restart (p : FePacket) : Nat := bits (FePacket.dw p 0) 24 2
def FePacket.tokens (p : FePacket) : Nat := bits (FePacket.dw p 0) 16 8
def FePacket.cls (p : FePacket) : Nat := bits (FePacket.dw p 0) 8 2
def FePacket.bargrp (p : FePacket) : BitVec 32 := (FePacket.dw p 3).extractLsb' 32 32
def FePacket.remain (p : FePacket) : BitVec 32 := (FePacket.dw p 3).extractLsb' 0 32
def FePacket.pin (p : FePacket) : Bool := (FePacket.dw p 4).getLsbD 0
def FePacket.ox (p : FePacket) : Nat := bits (FePacket.dw p 4) 8 8
def FePacket.oy (p : FePacket) : Nat := bits (FePacket.dw p 4) 16 8
def FePacket.die (p : FePacket) : Nat := bits (FePacket.dw p 4) 24 6

/-- R228: the fields of a LAUNCH are in range and its must-be-zero bits are zero. -/
def FePacket.launchOk (p : FePacket) : Bool :=
  let d := FePacket.dw p 0
  let e := FePacket.dw p 4
  bits d 48 16 == 0 && decide (FePacket.fh p ≤ 32) && decide (FePacket.fw p ≤ 24) && bits d 26 6 == 0 &&
    FePacket.restart p != 3 && bits d 10 6 == 0 && bits (FePacket.dw p 1) 0 6 == 0 && bits e 30 34 == 0 && bits e 1 7 == 0 &&
    FePacket.dw p 6 == 0 && FePacket.dw p 7 == 0

/-- R360: the packet's TYPE is one of the table's, its fields are in range and every other field is zero. -/
def FePacket.ok (p : FePacket) : Bool :=
  let d (k : Nat) : Word := FePacket.dw p k
  let zero (l : List Nat) : Bool := l.all fun k => d k == 0
  match FePacket.type p with
  | 0 => FePacket.launchOk p
  | 1 => bits (d 0) 10 54 == 0 && bits (d 0) 8 2 != 3 && zero [3, 4, 6, 7]
  | 2 => bits (d 0) 9 55 == 0 && zero [3, 4, 6, 7]
  | 3 => bits (d 0) 8 56 == 0 && zero [2, 3, 4, 6, 7]
  | 4 => bits (d 0) 8 56 == 0 && decide (1 ≤ (d 3).toNat ∧ (d 3).toNat ≤ 2 ^ 40) && zero [4, 6, 7]
  | 5 => bits (d 0) 9 55 == 0 && bits (d 1) 12 52 == 0 && bits (d 2) 0 16 == 0 &&
      decide (1 ≤ (d 3).toNat ∧ (d 3).toNat ≤ 2 ^ 20) && zero [6, 7]
  | 6 => bits (d 0) 8 56 == 0 && zero [1, 2, 3, 4, 6, 7]
  | 7 => bits (d 0) 8 56 == 0 && bits (d 1) 8 56 == 0 && zero [2, 3, 4, 6, 7]
  | _ => false

/-! ### Virtual memory as the front end sees it -/

/-- A walk for the front end. A write that meets a page being moved waits for the move (R296): the move, whose time the
spec does not give, ends here (log entry 11). -/
def State.feWalk (s : State) (asid : Nat) (va : Word) (write : Bool) : WalkOut × State :=
  match s.walkVa asid va write with
  | (.wait, s) => (s.commitMigration asid (w64 (va.toNat / 65536 * 65536))).walkVa asid va write
  | r => r

/-- The keys of n bytes of a space, page by page, or the cause of the first page that cannot be reached (R329). -/
def State.feKeys (asid : Nat) (write : Bool) : Nat → Word → Nat → State → Except (BitVec 8) (List Nat) × State
  | 0, _, _, s => (.ok [], s)
  | fuel + 1, va, n, s =>
    if n = 0 then (.ok [], s)
    else
      let m := Nat.min n (65536 - va.toNat % 65536)
      match s.feWalk asid va write with
      | (.mapped base log2 _ _, s) =>
        let d := base + va.toNat % 2 ^ log2
        if !dpaOk d || !s.dieKnown (d / 2 ^ 46 % 64) then (.error 0x18, s)
        else if !s.dpaWay d then (.error 0x3A, s)
        else
        let ks := (List.range m).map fun i => dpaKey (base + va.toNat % 2 ^ log2 + i)
        match State.feKeys asid write fuel (va + w64 m) (n - m) s with
        | (.ok r, s) => (.ok (ks ++ r), s)
        | e => e
      | (.denied, s) => (.error 0x19, s)
      | (_, s) => (.error 0x18, s)

def State.feRead (s : State) (asid : Nat) (va : Word) (n : Nat) : Except (BitVec 8) (List Byte) × State :=
  match State.feKeys asid false (n / 65536 + 2) va n s with
  | (.ok ks, s) => (.ok (s.bytesAt ks), s)
  | (.error e, s) => (.error e, s)

/-- Bytes are written if all of their pages can be reached. -/
def State.feWrite (s : State) (asid : Nat) (va : Word) (bs : List Byte) : Option (BitVec 8) × State :=
  match State.feKeys asid true (bs.length / 65536 + 2) va bs.length s with
  | (.ok ks, s) => (none, s.writeAt ks bs)
  | (.error e, s) => (some e, s)

/-! ### Queues (R359) -/

def State.queue (s : State) (q : Nat) : Queue := Tab.at s.fe.queues q Queue.reset

def State.modQueue (s : State) (q : Nat) (f : Queue → Queue) : State :=
  s.modFe fun e => { e with queues := Tab.put e.queues q (f (s.queue q)) }

/-- R359: packets that the ring holds. -/
def Queue.size (x : Queue) : Nat := 2 ^ Nat.min (Nat.max x.log2.toNat 4) 16

/-- R359: the queue is served. -/
def Queue.served (x : Queue) : Bool := x.en && decide (x.loc.toNat ≤ 1) && !x.broken

/-- R358: the queue holds unprocessed packets. -/
def Queue.hasWork (x : Queue) : Bool := x.waiting.isSome || x.tail != x.head

/-- The address space of a queue (R293). -/
def State.queueSpace (s : State) (q : Nat) : Nat :=
  match s.fe.spaces.find? fun p => p.2.queues.contains q with
  | some p => p.1
  | none => 0

/-- R359: an address where LOC puts the ring: a bus address of the host, or an HBM DPA. -/
def State.ringKey (s : State) (x : Queue) (a : Nat) : Nat :=
  if x.loc = 0 then dpaKey (s.fw.die * 2 ^ 46 + 2 * 2 ^ 44 + a % 2 ^ 44) else dpaKey (a % 2 ^ 52)

def onQueue (q : Nat) (s : State) : Host.Outcome State Fault Refusal :=
  if q < 1024 then .next s else .fault .noSuchAgent

/-! ### Completion (R361) -/

def State.raiseMsix (s : State) (v : Nat) : State := s.modFe fun e => { e with msix := e.msix ++ [v] }

def doneWord (index detail status : Nat) : Word := w64 (index % 2 ^ 32 * 2 ^ 32 + detail % 65536 * 65536 + status % 256)

/-- R361: the completion object is written, then the vector is raised. -/
def State.complete (s : State) (q index status detail : Nat) (done : Word) : State :=
  let x := s.queue q
  let s := if done = 0 then s
    else (s.feWrite (s.queueSpace q) done (leBytes 8 (doneWord (index % x.size) detail status).toNat)).2
  (s.modQueue q fun x => { x with outstanding := dropFirst (· == index) x.outstanding }).raiseMsix x.msix.toNat

/-- R360: every earlier packet of the queue has completed. -/
def Queue.earlierDone (x : Queue) (index : Nat) : Bool := (x.outstanding.takeWhile (· != index)).isEmpty

/-! ### Queue threads (R358) -/

def State.threadOf (s : State) (q : Nat) : Option Nat :=
  (List.range 32).find? fun t => (Tab.at s.fe.threads t (0, 0)).1 == q + 1

/-- R358: the queue thread that has been idle longest. -/
def State.idleThread (s : State) : Option Nat :=
  argMin (fun t => (Tab.at s.fe.threads t (0, 0)).2)
    ((List.range 32).filter fun t => (Tab.at s.fe.threads t (0, 0)).1 == 0)

def State.setThread (s : State) (t : Nat) (v : Nat × Nat) : State :=
  s.modFe fun e => { e with threads := Tab.put e.threads t v }

/-- R358: queues with unprocessed packets and no thread. -/
def State.unmapped (s : State) : List Nat :=
  (s.fe.queues.filter fun p => p.2.served && p.2.hasWork && (s.threadOf p.1).isNone).map (·.1)

/-- R358: a thread releases its queue; the queues that have none are mapped again. -/
def State.releaseQueue (s : State) (q : Nat) : State :=
  match s.threadOf q with
  | none => s
  | some t =>
    let s := s.setThread t (0, s.now)
    s.unmapped.foldl (fun s p => s.laterX 1 (.queueMap p)) s

/-- R358: a queue is mapped to the thread that has been idle longest. -/
def State.mapQueue (s : State) (q : Nat) : State :=
  let x := s.queue q
  if x.served && x.hasWork && (s.threadOf q).isNone then
    match s.idleThread with
    | none => s
    | some t =>
      let s := s.setThread t (q + 1, s.now)
      if x.waiting.isSome then (s.modQueue q fun x => { x with waitSince := s.now }).soon (.waitPacket q)
      else s.soon (.pifoPush q)
  else s

def execQueueMap (q : Nat) (s : State) : Host.Outcome State Fault Refusal := onQueue q (s.mapQueue q)

/-- R359: a doorbell. TAIL and HEAD are running indices. -/
def execQueueDoorbell (q : Nat) (tail : BitVec 32) (s : State) : Host.Outcome State Fault Refusal :=
  onQueue q <|
    let x := s.queue q
    if !(x.en && decide (x.loc.toNat ≤ 1)) || x.broken then s
    else if x.size < (tail - x.head).toNat then s.modQueue q fun x => { x with broken := true }
    else
      let s := s.modQueue q fun x => { x with tail := tail }
      if (s.queue q).hasWork then s.soon (.queueMap q) else s

/-- R395, R397: queues can be enabled once the boot has succeeded and the information block is published. -/
def State.mayEnable (s : State) : Bool := s.fw.booted && s.fw.infoUp && s.fw.owner.isSome

/-- R359: EN is written; 0 and then 1 mends a broken queue, which then starts at its next doorbell. -/
def State.writeEn (s : State) (q : Nat) (on : Bool) : State :=
  s.modQueue q fun x =>
    if on && !x.en then (if x.broken then { x with en := true, broken := false, tail := x.head } else { x with en := true })
    else { x with en := on }

/-- R359: a write of a configuration dword. -/
def State.writeConfig (s : State) (q dword : Nat) (d : Word) : State :=
  let off := !(s.queue q).en
  match dword with
  | 0 => if off then s.modQueue q fun x => { x with ring := w64 (d.toNat / 64 * 64) } else s
  | 1 =>
    let s := if off then s.modQueue q fun x =>
        { x with msix := d.extractLsb' 32 16, weight := d.extractLsb' 24 8, log2 := d.extractLsb' 19 5, loc := d.extractLsb' 16 3 }
      else s
    if s.mayEnable then s.writeEn q (d.getLsbD 0) else s
  | 3 => if off then s.modQueue q fun x => { x with notice := w64 (d.toNat / 32 * 32) } else s
  | _ => s

/-- R359: a configuration dword as the host reads it. -/
def Queue.configWord (x : Queue) (dword : Nat) : Word :=
  match dword with
  | 0 => x.ring
  | 1 => w64 (x.msix.toNat * 2 ^ 32 + x.weight.toNat * 2 ^ 24 + x.log2.toNat * 2 ^ 19 + x.loc.toNat * 2 ^ 16 + b2n x.en)
  | 2 => x.head.setWidth 64
  | 3 => x.notice
  | _ => 0

def execQueueConfigWrite (q dword : Nat) (data : Word) (s : State) : Host.Outcome State Fault Refusal :=
  onQueue q (if dword < 4 then s.writeConfig q dword data else s)

/-! ### The rank program (R363) -/

/-- R363: arithmetic saturates at 2^32 - 1; at 0 the subtraction of natural numbers does. -/
def rankSat (n : Nat) : Nat := Nat.min n 4294967295

def rankStep (f : RankField → Nat) (r : Tab Nat) (o : RankOp) : Tab Nat :=
  let g (k : Fin 8) : Nat := Tab.at r k.val 0
  let set (d : Fin 8) (v : Nat) : Tab Nat := Tab.put r d.val (rankSat v)
  match o with
  | .ldf d x => set d (f x)
  | .ldi d n => set d n
  | .add d a b => set d (g a + g b)
  | .sub d a b => set d (g a - g b)
  | .mul d a b => set d (g a * g b)
  | .min d a b => set d (Nat.min (g a) (g b))
  | .max d a b => set d (Nat.max (g a) (g b))
  | .shl d a n => set d (g a * 2 ^ n)
  | .shr d a n => set d (g a / 2 ^ n)

def rankRun (prog : List RankOp) (f : RankField → Nat) : Nat := Tab.at (prog.foldl (rankStep f) []) 0 0

/-- R363: the fields of a packet of a queue; CLASS, TOKENS, REMAIN and CORES are a LAUNCH's. -/
def rankField (p : FePacket) (q weight age : Nat) : RankField → Nat
  | .cls => if FePacket.type p = 0 then FePacket.cls p else 0
  | .tokens => if FePacket.type p = 0 then FePacket.tokens p else 0
  | .remain => if FePacket.type p = 0 then (FePacket.remain p).toNat / 1024 else 0
  | .cores => if FePacket.type p = 0 then FePacket.fw p * FePacket.fh p else 0
  | .queue => q
  | .weight => weight
  | .type => FePacket.type p
  | .age => age

def State.rankOf (s : State) (e : PifoEntry) : Nat :=
  rankRun s.fe.rank (rankField e.packet e.queue (s.queue e.queue).weight.toNat e.age)

/-! ### The PIFO (R362) -/

/-- The entries that have not left. -/
def FrontEnd.inside (f : FrontEnd) : List PifoEntry := f.pifo.filter fun e => !e.leaving

/-- R362: the effective rank of each entry, in the order of the pushes, given those of the queues so far. -/
def effective : List PifoEntry → Tab Nat → List (Nat × PifoEntry)
  | [], _ => []
  | e :: r, t =>
    let k := Nat.max e.rank (Tab.at t e.queue 0)
    (k, e) :: effective r (Tab.put t e.queue k)

/-- R362: the entries, head first. -/
def FrontEnd.order (f : FrontEnd) : List PifoEntry := (sortBy (fun p => p.1) (effective f.inside [])).map (·.2)

def State.entry? (s : State) (id : Nat) : Option PifoEntry := s.fe.pifo.find? fun e => e.id == id

def State.dropEntry (s : State) (id : Nat) : State := s.modFe fun f => { f with pifo := f.pifo.filter fun e => e.id != id }

def State.modEntry (s : State) (id : Nat) (g : PifoEntry → PifoEntry) : State :=
  s.modFe fun f => { f with pifo := updFirst (fun e => e.id == id) g f.pifo }

/-- The management threads look at the PIFO, unless they are about to. -/
def State.wakeManager (s : State) : State :=
  if (s.agenda.any fun d => d == .ev .placement) || s.coming.any fun e => e.2 == .placement then s else s.laterX 1 .placement

/-- R362: a packet, or a suspended task's entry, enters the PIFO. -/
def State.enter (s : State) (q index : Nat) (p : FePacket) (resume : Option Nat) : State :=
  let id := s.fe.nextEntry
  let e : PifoEntry :=
    { id := id, queue := q, index := index, packet := p, rank := 0, pushed := s.now, age := 0, leaving := false, resume := resume }
  let e := { e with rank := s.rankOf e }
  ((s.modFe fun f => { f with pifo := f.pifo ++ [e], nextEntry := id + 1 }).later 4096 (.rankUpdate id)).wakeManager

def pifoSize : Nat := 4096

def State.pifoFull (s : State) : Bool := decide (pifoSize ≤ s.fe.inside.length)

/-- R362: what is pushed waits while the PIFO is full; nothing is lost. -/
def State.push (s : State) (q index : Nat) (p : FePacket) (resume : Option Nat) : State :=
  if s.pifoFull then s.modFe fun f => { f with pushes := f.pushes ++ [(q, index, p, resume)] } else s.enter q index p resume

/-- R362: what waits enters as there is room. -/
def State.enterPushes : Nat → State → State
  | 0, s => s
  | n + 1, s =>
    match s.fe.pushes with
    | [] => s
    | (q, i, p, r) :: rest =>
      if s.pifoFull then s else State.enterPushes n ((s.modFe fun f => { f with pushes := rest }).enter q i p r)

/-- R363: an entry's AGE advances, and its rank is computed again. -/
def execRankUpdate (entry : Nat) (s : State) : Host.Outcome State Fault Refusal :=
  .next <|
    match s.entry? entry with
    | none => s
    | some e =>
      let e := { e with age := (s.now - e.pushed) / 4096 }
      (s.modEntry entry fun _ => { e with rank := s.rankOf e }).later (4096 - (s.now - e.pushed) % 4096) (.rankUpdate entry)

/-- R359: the packet at HEAD of a ring. -/
def State.headPacket (s : State) (x : Queue) : FePacket :=
  BitVec.ofNat 512 (leNat (s.bytes (s.ringKey x (x.ring.toNat + 64 * (x.head.toNat % x.size))) 64))

/-- R360, R362: a queue thread reads the packet at HEAD: it refuses it, waits on it, or pushes it. -/
def State.servePacket (s : State) (q : Nat) : State :=
  let x := s.queue q
  if (s.threadOf q).isNone || x.waiting.isSome then s
  else if !x.served || x.tail == x.head then s.releaseQueue q
  else if s.pifoFull || !s.fe.pushes.isEmpty then s.laterX 1 (.pifoPush q)
  else
    let p := s.headPacket x
    let pos := x.head.toNat
    let s := s.modQueue q fun x => { x with head := x.head + 1, outstanding := x.outstanding ++ [pos] }
    if !FePacket.ok p then (s.complete q pos 1 0 (FePacket.done p)).laterX 1 (.pifoPush q)
    else if FePacket.type p = 1 then
      (s.modQueue q fun x => { x with waiting := some p, waitSince := s.now }).soon (.waitPacket q)
    else (s.push q pos p none).laterX 1 (.pifoPush q)

def execPifoPush (q : Nat) (s : State) : Host.Outcome State Fault Refusal := onQueue q (s.servePacket q)

/-! ### WAIT (R360) -/

/-- R360: the condition of a WAIT packet. -/
def waitHolds (p : FePacket) (v : Word) : Bool :=
  match bits (FePacket.dw p 0) 8 2 with
  | 0 => decide ((FePacket.dw p 2).toNat ≤ v.toNat)
  | 1 => v == FePacket.dw p 2
  | _ => v != FePacket.dw p 2

/-- A WAIT packet is over, and its thread goes on. -/
def State.endWait (s : State) (q status detail : Nat) (p : FePacket) : State :=
  let s := s.modQueue q fun x => { x with waiting := none }
  (s.complete q ((s.queue q).head - 1).toNat status detail (FePacket.done p)).laterX 1 (.pifoPush q)

/-- R358, R360: a queue thread blocked on a WAIT packet looks at the word. -/
def State.lookWait (s : State) (q : Nat) : State :=
  match (s.queue q).waiting with
  | none => s
  | some p =>
    if (s.threadOf q).isNone then s
    else
      match s.feRead (s.queueSpace q) (FePacket.dw p 1) 8 with
      | (.error c, s) => s.endWait q 7 c.toNat p
      | (.ok bs, s) =>
        if waitHolds p (w64 (leNat bs)) then s.soon (.waitSatisfied q)
        else if 4096 ≤ s.now - (s.queue q).waitSince then s.releaseQueue q
        else s.laterX 1 (.waitPacket q)

def execWaitPacket (q : Nat) (s : State) : Host.Outcome State Fault Refusal := onQueue q (s.lookWait q)

/-- R360: the awaited word satisfies the condition. -/
def execWaitSatisfied (q : Nat) (s : State) : Host.Outcome State Fault Refusal :=
  onQueue q <|
    match (s.queue q).waiting with
    | none => s
    | some p =>
      match s.feRead (s.queueSpace q) (FePacket.dw p 1) 8 with
      | (.ok bs, s) => if waitHolds p (w64 (leNat bs)) then s.endWait q 0 0 p else s.lookWait q
      | (.error _, s) => s.lookWait q

/-! ### Packets carried out by a management thread (R360) -/

/-- A packet that has left the PIFO completes. -/
def State.finishEntry (s : State) (e : PifoEntry) (status detail : Nat) : State :=
  ((s.dropEntry e.id).complete e.queue e.index status detail (FePacket.done e.packet)).wakeManager

/-- Carries out an entry that has left the PIFO. -/
def State.carry (s : State) (entry : Nat) (f : PifoEntry → State → State) : State :=
  match s.entry? entry with
  | some e => if e.leaving then f e s else s
  | none => s

/-- R360: SIGNAL: once every earlier packet of the queue has completed, the write or add performs. -/
def State.signal (s : State) (e : PifoEntry) : State :=
  if !(s.queue e.queue).earlierDone e.index then s.laterX 1 (.signalPacket e.id)
  else
    let p := e.packet
    let a := s.queueSpace e.queue
    let add := (FePacket.dw p 0).getLsbD 8
    match if add then s.feRead a (FePacket.dw p 1) 8 else (.ok [], s) with
    | (.error c, s) => s.finishEntry e 7 c.toNat
    | (.ok bs, s) =>
      match s.feWrite a (FePacket.dw p 1) (leBytes 8 (FePacket.dw p 2 + w64 (leNat bs)).toNat) with
      | (none, s) => s.finishEntry e 0 0
      | (some c, s) => s.finishEntry e 7 c.toNat

def execSignalPacket (entry : Nat) (s : State) : Host.Outcome State Fault Refusal :=
  .next (s.carry entry fun e s => s.signal e)

/-- R328, R360: COPY: every byte is read before any is written. -/
def State.copyBytes (s : State) (e : PifoEntry) : State :=
  let p := e.packet
  let a := s.queueSpace e.queue
  match s.feRead a (FePacket.dw p 1) (FePacket.dw p 3).toNat with
  | (.error c, s) => s.finishEntry e 7 c.toNat
  | (.ok bs, s) =>
    match s.feWrite a (FePacket.dw p 2) bs with
    | (none, s) => s.finishEntry e 0 0
    | (some c, s) => s.finishEntry e 7 c.toNat

def execCopyPacket (entry : Nat) (s : State) : Host.Outcome State Fault Refusal :=
  .next (s.carry entry fun e s => s.copyBytes e)

/-- R292: the place of the level-3 entry of an address; none where no table leads to it. -/
def State.leafPlace (s : State) (root : Nat) (va : Word) : Option Nat :=
  if bits va 52 12 ≠ 0 then none
  else
    match s.nextTable (s.pteAt (root + 8 * bits va 40 12)) with
    | none => none
    | some t2 => (s.nextTable (s.pteAt (t2 + 8 * bits va 28 12))).map fun t3 => t3 + 8 * bits va 16 12

/-- The places of the level-3 entries of n pages. -/
def State.leafPlaces (s : State) (root : Nat) (va : Word) (n : Nat) : List (Option Nat) :=
  (List.range n).map fun i => s.leafPlace root (va + w64 (65536 * i))

/-- R393: a page reserved by a load in progress. -/
def reservedPte (w : Pte) : Bool := !w.getLsbD 0 && Pte.mv w

/-- PTEs are written at their places. -/
def State.writePtes (s : State) (l : List (Nat × Word)) : State :=
  l.foldl (fun s p => s.poke (dpaKey p.1) (leBytes 8 p.2.toNat)) s

/-- R294, R360: a MAP completes once every access that went by an old translation has performed; until then it is carried
out again in the next P-cycle. -/
def State.mapDone (s : State) (e : PifoEntry) (asid : Nat) (va : Word) (n : Nat) : State :=
  if s.oldWrites asid va (65536 * n) then s.later 1 (.mapPacket e.id) else s.finishEntry e 0 0

/-- R360, R393: MAP. A page that a load holds refuses it; an address that no table leads to fails it. -/
def State.mapPages (s : State) (e : PifoEntry) : State :=
  let p := e.packet
  let asid := bits (FePacket.dw p 1) 0 12
  let va := FePacket.dw p 2
  let n := (FePacket.dw p 3).toNat
  let places := s.leafPlaces (s.space asid).root.toNat va n
  let known := places.filterMap id
  if known.any fun a => reservedPte (s.pteAt a) then s.finishEntry e 1 0
  else if known.length < n then s.finishEntry e 7 0x18
  else if (FePacket.dw p 0).getLsbD 8 then
    ((s.writePtes (known.map fun a => (a, 0))).invalidate asid va (65536 * n)).mapDone e asid va n
  else
    match s.feRead (s.queueSpace e.queue) (FePacket.dw p 4) (8 * n) with
    | (.error c, s) => s.finishEntry e 7 c.toNat
    | (.ok bs, s) =>
      let vs := (List.range n).map fun i => w64 (leNat ((bs.drop (8 * i)).take 8))
      ((s.writePtes (known.zip vs)).invalidate asid va (65536 * n)).mapDone e asid va n

def execMapPacket (entry : Nat) (s : State) : Host.Outcome State Fault Refusal :=
  .next (s.carry entry fun e s => s.mapPages e)

/-- R360: FENCE. An invalidation is complete in the step that makes it. -/
def execFencePacket (entry : Nat) (s : State) : Host.Outcome State Fault Refusal :=
  .next (s.carry entry fun e s =>
    if (s.queue e.queue).earlierDone e.index then s.finishEntry e 0 0 else s.laterX 1 (.fencePacket e.id))

end Sys2Proof.Machine
end

