-- ==== Sys2Proof/Machine/Bind.lean ====
section
/-! DEFINITION. Binding a task: what dchld computes from an image, and what dispatch does with a bind record (R79, R82 to
R84, R120, R210, R211, R226 to R230, R234, R249, R251, R270, R295, R365, R366, R370, R377). -/

namespace Sys2Proof.Machine

/-- A choice that the spec leaves to the front end: the outside's next delay picks an element. -/
def State.choose (s : State) (l : List α) : Option α × State :=
  match l with
  | [] => (none, s)
  | l => let (e, s) := s.takeExtra; (l[e % l.length]?, s)

/-! ### Statuses of a refused LAUNCH (R361) -/

def stFormat : Nat := 1
def stGeom : Nat := 2
def stRoute : Nat := 3
def stTiming : Nat := 4

/-! ### Frames (R226, R229) -/

/-- R226: the cores of a frame that are not holes. -/
def State.liveCores (s : State) (r : BindRec) : List Nat := (frameCores r).filter fun c => !s.isHole c

/-- Whether a core lies in a frame. -/
def inFrame (r : BindRec) (c : Nat) : Bool :=
  decide (r.ox ≤ coreX c ∧ coreX c < r.ox + r.fw ∧ r.oy ≤ coreY c ∧ coreY c < r.oy + r.fh)

/-- The task, if any, whose frame holds a core; a suspended task holds none (R369). -/
def State.holder (s : State) (c : Nat) : Option Nat :=
  (s.fe.tasks.find? fun p => p.2.st != .suspended && inFrame p.2.rec_ c).map (·.1)

/-- The cores that items of an image name, as frame-relative positions (R226). -/
def Kernel.itemCores (k : Kernel) : List (Nat × Nat) :=
  (k.lenses.flatMap fun l => (List.range l.2.2.2).flatMap fun y => (List.range l.2.2.1).map fun x => (l.1 + x, l.2.1 + y)) ++
    k.coreData.map (fun d => (d.1, d.2.1)) ++ k.streams.map (fun d => (d.1, d.2.1))

/-- R226: no item of the image falls on a hole or outside the frame. -/
def State.itemsOk (s : State) (k : Kernel) (r : BindRec) : Bool :=
  k.itemCores.all fun p => decide (p.1 < r.fw) && decide (p.2 < r.fh) && !s.isHole (frameCore r p.1 p.2)

/-- R229: the lenses fit a frame. -/
def Kernel.lensesFit (k : Kernel) (w h : Nat) : Bool :=
  k.lenses.all fun l => decide (1 ≤ l.2.2.1 ∧ 1 ≤ l.2.2.2 ∧ l.1 + l.2.2.1 ≤ w ∧ l.2.1 + l.2.2.2 ≤ h)

/-- R249: byte k of BARGRP fits the frame. -/
def groupFits (g w h : Nat) : Bool := g == 0xFF || (decide (2 ^ (g % 16) ≤ w) && decide (2 ^ (g / 16) ≤ h))

/-! ### The bind record (R365) -/

/-- R365: the dwords of a bind record. -/
def BindRec.dwords (r : BindRec) (t : Nat) : List Nat :=
  [2 ^ 63 + t * 2 ^ 48 + r.die * 2 ^ 42 + r.oy * 2 ^ 37 + r.ox * 2 ^ 32 + r.fh * 2 ^ 26 + r.fw * 2 ^ 21 + r.bankn * 2 ^ 16 +
      r.tokens * 2 ^ 8 + r.cls * 8 + r.restart * 2 + b2n r.res,
    r.wheel.toNat, r.image.toNat, r.arg.toNat, r.namebase.toNat, r.bargrp.toNat * 2 ^ 32 + r.remain.toNat,
    r.budget.toNat * 2 ^ 32 + r.quota * 2 ^ 24 + r.text.toNat * 2 ^ 16,
    leNat ((List.range 4).flatMap fun k => leBytes 2 (Tab.at r.entry k 0).toNat),
    leNat ((List.range 4).flatMap fun k => leBytes 2 (Tab.at r.entry (k + 4) 0).toNat),
    r.done.toNat, r.tls.toNat * 2 ^ 32 + r.sp.toNat, r.tlsStride.toNat * 2 ^ 32 + r.spStride.toNat, r.save.toNat]

/-- R365: the 128 bytes of a bind record, the first dword lowest. -/
def BindRec.word (r : BindRec) (t : Nat) : BitVec 1024 :=
  BitVec.ofNat 1024 (leNat ((r.dwords t).flatMap (leBytes 8)))

/-- R365: a bind record as dispatch reads it. -/
def bindOf (w : BitVec 1024) : BindRec :=
  let d (i : Nat) : Word := w64 (bits w (64 * i) 64)
  { die := bits w 42 6, oy := bits w 37 5, ox := bits w 32 5, fh := bits w 26 6, fw := bits w 21 5, bankn := bits w 16 5,
    tokens := bits w 8 8, cls := bits w 3 2, restart := bits w 1 2, res := w.getLsbD 0, wheel := d 1, image := d 2, arg := d 3,
    namebase := d 4, bargrp := w.extractLsb' 352 32, remain := w.extractLsb' 320 32, budget := w.extractLsb' 416 32,
    quota := bits w 408 8, text := w.extractLsb' 400 8,
    entry := (List.range 8).map fun k => (k, w.extractLsb' (448 + 16 * k) 14),
    done := d 9, tls := w.extractLsb' 672 32, sp := w.extractLsb' 640 32, tlsStride := w.extractLsb' 736 32,
    spStride := w.extractLsb' 704 32, save := d 12 }

/-- R365: the bits of a bind record that must be zero. -/
def bindZeros (w : BitVec 1024) : Bool :=
  bits w 56 7 == 0 && bits w 5 3 == 0 && bits w 384 16 == 0 &&
    ((List.range 8).all fun k => bits w (462 + 16 * k) 2 == 0) && bits w 832 192 == 0

/-- R228, R229, R234, R249, R365: dispatch may obey a record for a task on this die. -/
def State.bindOk (s : State) (t : Nat) (k : Kernel) (w : BitVec 1024) : Bool :=
  let r := bindOf w
  w.getLsbD 63 && bindZeros w && bits w 48 8 == t && r.die == s.fw.die && decide (1 ≤ r.fw ∧ 1 ≤ r.fh) &&
    decide (r.ox + r.fw ≤ 24 ∧ r.oy + r.fh ≤ 32 ∧ 1 ≤ r.bankn ∧ r.bankn ≤ 16) && r.restart != 3 &&
    r.namebase.toNat % 65536 == 0 && k.lensesFit r.fw r.fh &&
    ([0, 1, 2, 3].all fun i => groupFits (bits r.bargrp (8 * i) 8) r.fw r.fh) &&
    !(s.fe.tasks.any fun p => p.1 != t && p.2.st != .suspended && (frameCores r).any (inFrame p.2.rec_))

/-! ### Banks (R270, R371) -/

/-- R270: one more than the highest preset entry of any core. -/
def Kernel.presetTop (k : Kernel) : Nat :=
  maxOf 1 (k.presets.map (fun p => p.1 + 1) ++ k.coreData.flatMap fun d => d.2.2.map fun b => b.1 / 262144 + 1)

def State.countBanks (s : State) (cl : Nat) (f : BankSt → Bool) : Nat :=
  ((List.range 128).filter fun i => f (s.bank (cl * 128 + i)).st).length

def BankSt.isParked : BankSt → Bool
  | .parked _ _ _ => true
  | _ => false

/-- R270, R371: the entries that a cluster can give each of n cores: from the pool, or, where the presets need more, from
the parked banks too; none when it cannot give enough. -/
def State.bankShare (s : State) (k : Kernel) (cl n : Nat) : Option Nat :=
  let p := s.countBanks cl (· == .pooled)
  let share := Nat.min 16 (p / n)
  let need := k.presetTop
  if need ≤ share then some share
  else if need ≤ (p + s.countBanks cl BankSt.isParked) / n then some need
  else none

/-- The clusters of a frame's live cores with the number of those cores. -/
def State.clusterLoads (s : State) (r : BindRec) : List (Nat × Nat) :=
  let cs := (s.liveCores r).map clusterOf
  cs.eraseDups.map fun cl => (cl, (cs.filter (· == cl)).length)

/-- R364: the bank demand of a frame is available in every cluster. -/
def State.banksOk (s : State) (k : Kernel) (r : BindRec) : Bool :=
  (s.clusterLoads r).all fun p => (s.bankShare k p.1 p.2).isSome

/-! ### The image (R79, R82, R83) -/

/-- R82: the header of an image with a number of sections: the four letters, version 1, the count, zeros elsewhere. -/
def imageHeader (sections : Nat) : List Byte :=
  [0x45, 0x41, 0x36, 0x49] ++ leBytes 4 1 ++ leBytes 4 sections ++ leBytes 52 0

/-! R83: the fields of a relocation record. -/

def relKind (w : BitVec 128) : Nat := bits w 120 8
def relPatch (w : BitVec 128) : Nat := bits w 112 8
def relSect (w : BitVec 128) : Nat := bits w 96 16
def relOffset (w : BitVec 128) : Nat := bits w 64 32
def relSym (w : BitVec 128) : Nat := bits w 32 32
def relAdd (w : BitVec 128) : Nat := bits w 0 32

/-- R83: a record of a known kind, which names a section and, unless it is a timing record, a symbol. -/
def Kernel.relocOk (k : Kernel) (w : BitVec 128) : Bool :=
  decide (relKind w < 4) && (k.sections[relSect w]?).isSome &&
    if relKind w = 2 then bits w 25 7 == 0 else (k.symbols[relSym w]?).isSome

/-- R79, R82, R83: what dchld checks of an image before anything else. -/
def Kernel.formatOk (k : Kernel) : Bool :=
  k.header == imageHeader k.sections.length && k.sections.all (fun x => decide (1 ≤ x.kind ∧ x.kind ≤ 10)) &&
    !k.symbols.contains .unresolved && k.relocs.all k.relocOk && k.text.all (fun p => decide (p.1 < 16384)) &&
    decide (((k.sections.filter fun x => x.kind == 1).map (·.size)).foldl (· + ·) 0 ≤ 131072)

def Kernel.section_ (k : Kernel) (n : Nat) : Section := (k.sections[n]?).getD ⟨0, 0, 0, 0, 0, 0⟩

/-- The word index of a byte offset of a text section. -/
def Section.word (x : Section) (off : Nat) : Nat := x.place + off / 8

/-- R83: the timing records: the reader is the word patched, the producer a byte offset of the same section. -/
def Kernel.timing (k : Kernel) : List TimingReloc :=
  (k.relocs.filter fun w => relKind w == 2).map fun w =>
    let x := k.section_ (relSect w)
    { producer := x.word (relSym w), reader := x.word (relOffset w), dist := bits w 0 16, kind := bits w 16 8,
      early := w.getLsbD 24, slot := x.owner }

/-- R83: a word with a value in the field that PATCH names. -/
def patchField (patch v : Nat) (w : Word) : Word :=
  match patch with
  | 0 | 1 | 4 => setBits w 0 32 v
  | 2 => setBits w 0 32 (v / 2 ^ 32)
  | 3 => setBits w 0 20 v
  | 5 => setBits w 0 13 v
  | 6 => setBits w 53 3 v
  | 7 => w64 v
  | 8 => setBits w 8 12 v
  | _ => w

/-- A dword of listed bytes is changed; a byte that is not listed is zero. -/
def patchBytes (l : List (Nat × Byte)) (a : Nat) (f : Word → Word) : List (Nat × Byte) :=
  let old := leNat ((List.range 8).map fun i => Tab.at l (a + i) 0)
  (l.filter fun p => decide (p.1 < a ∨ a + 8 ≤ p.1)) ++ (leBytes 8 (f (w64 old)).toNat).zipIdx.map fun p => (a + p.2, p.1)

/-- R82, R83: the word or dword that a record patches, in the text, in a data section of the kernel or in one of a core's. -/
def Kernel.patch (k : Kernel) (sect off : Nat) (f : Word → Word) : Kernel :=
  let x := k.section_ sect
  let a := x.place + off
  match x.kind with
  | 1 => { k with text := Tab.store k.text 0 (x.word off) (f (Tab.at k.text (x.word off) 0)) }
  | 2 =>
    let old := Tab.at k.presets (a / 262144) []
    { k with presets := Tab.put k.presets (a / 262144) (patchBytes old (a % 262144) f) }
  | 5 | 6 | 7 =>
    { k with coreData := k.coreData.map fun d =>
        if d.1 = x.owner % 32 ∧ d.2.1 = x.owner / 32 then (d.1, d.2.1, patchBytes d.2.2 a f) else d }
  | _ => k

/-- The value of a record's symbol with its addend. -/
def Kernel.relValue (k : Kernel) (w : BitVec 128) : Nat :=
  match k.symbols[relSym w]? with
  | some (.value v) => (v.toNat + relAdd w) % 2 ^ 64
  | _ => relAdd w

/-- The records of a kind, in their order. -/
def Kernel.relocate (k : Kernel) (kind : Nat) (value : BitVec 128 → Nat) : Kernel :=
  (k.relocs.filter fun w => relKind w == kind).foldl
    (fun k w => k.patch (relSect w) (relOffset w) (patchField (relPatch w) (value w))) k

/-- R84 steps 1 and 2: addresses, and names, which take the launch's logical die. -/
def Kernel.linked (k : Kernel) (die : Nat) : Kernel :=
  (k.relocate 0 k.relValue).relocate 3 fun w => (setBits (w64 (k.relValue w)) 10 6 die).toNat

/-! ### Timing relocations (R83, R84, R120) -/

/-- The P-cycle of a slot's i-th turn, counted in the positions it owns. -/
def turnCycle (ps : List Nat) (i : Nat) : Nat := 16 * (i / ps.length) + ps.getD (i % ps.length) 0

/-- The least number of turns, not below `lo`, after the i-th turn until a P-cycle. -/
def turnsTo (ps : List Nat) (i lo goal : Nat) : Nat :=
  (((List.range (goal + 17)).map fun d => lo + d).find? fun k => decide (goal ≤ turnCycle ps (i + k))).getD lo

/-- R120, R137, R153, R280: the turns from a producer's issue on a slot's i-th position to its visibility turn. -/
def producerTurns (ps : List Nat) (cls kind : Nat) (w : Word) (i : Nat) : Nat :=
  let arrive (f : Nat) : Nat := turnsTo ps i (f + 6) (turnCycle ps (i + f - 1) + 6 + 2 * cls)
  match decodeWord w with
  | .ok (.vld _ o) | .ok (.vgath _ o) => arrive (2 ^ o.fold.toNat)
  | .ok (.ld _ o) | .ok (.amo _ o) =>
    if kind = 1 then 10 + 2 * cls
    else if kind = 2 then turnsTo ps i 1 (turnCycle ps i + 2 * o.win.toNat)
    else turnsTo ps i 1 (turnCycle ps i + 6 + 2 * cls)
  | _ => if kind = 1 then 10 + 2 * cls else turnsTo ps i 1 (turnCycle ps i + 6 + 2 * cls)

/-- The positions of a slot on a wheel. -/
def positionsOf (wheel : Word) (slot : Nat) : List Nat := (List.range 16).filter fun k => wheelSlot wheel k == some slot

/-- R89, R93: the body that a LOOP opens or that a backward branch closes. -/
def bodyAt (t : Tab Word) (i : Nat) : Option (Nat × Nat) :=
  match decodeWord (Tab.at t i 0) with
  | .ok (.loop _ o) | .ok (.loopImm _ o) => some (i + 1, i + o.off.toNat)
  | .ok (.br _ o) => if o.off.toInt ≤ 0 then some ((i + o.off.toInt).toNat, i) else none
  | _ => none

/-- The smallest body that holds a reader and a later producer. -/
def bodyOf (t : Tab Word) (q p : Nat) : Option (Nat × Nat) :=
  argMin (fun b => b.2 - b.1) ((t.filterMap fun e => bodyAt t e.1).filter fun b => decide (b.1 ≤ q ∧ p ≤ b.2))

/-- The DLY added to the words after a producer, up to its reader: where the reader comes first, round the loop that holds
both. -/
def addedBetween (t : Tab Word) (added : Tab Nat) (p q : Nat) : Nat :=
  let sum (f : Nat → Bool) : Nat := ((added.filter fun e => f e.1).map (·.2)).foldl (· + ·) 0
  if p < q then sum fun i => decide (p < i ∧ i ≤ q)
  else
    match bodyOf t q p with
    | some b => sum fun i => decide (p < i ∧ i ≤ b.2) || decide (b.1 ≤ i ∧ i ≤ q)
    | none => 0

/-- R84: an ordinary record raises its reader's DLY to the distance that the producer needs. -/
def raiseFor (k : Kernel) (cls : Nat) (added : Tab Nat) (r : TimingReloc) : Tab Nat :=
  if r.early then added
  else
    let ps := positionsOf k.wheel r.slot
    let need := maxOf 0 ((List.range ps.length).map fun i => producerTurns ps cls r.kind (Tab.at k.text r.producer 0) i)
    let have_ := r.dist + addedBetween k.text added r.producer r.reader
    if have_ < need then Tab.put added r.reader (Tab.at added r.reader 0 + (need - have_)) else added

/-- R84: the read of an early record still comes before the result, from every position. -/
def earlyHolds (k : Kernel) (cls : Nat) (added : Tab Nat) (r : TimingReloc) : Bool :=
  let ps := positionsOf k.wheel r.slot
  !r.early || (List.range ps.length).all fun i =>
    decide (r.dist + addedBetween k.text added r.producer r.reader < producerTurns ps cls r.kind (Tab.at k.text r.producer 0) i)

def dlySum (k : Kernel) (added : Tab Nat) (pc : Nat) : Nat := dlyOf (Tab.at k.text pc 0) + Tab.at added pc 0

/-- R84: the text for a vertical timing class; none means TIMING. -/
def timedText (k : Kernel) (cls : Nat) : Option (Tab Word) :=
  let added := k.timing.foldl (raiseFor k cls) []
  if (added.any fun p => decide (7 < dlySum k added p.1)) || !(k.timing.all (earlyHolds k cls added)) then none
  else some (added.foldl (fun t p => Tab.store t 0 p.1 (setBits (Tab.at t p.1 0) 53 3 (dlySum k added p.1))) k.text)

/-! ### Route relocations (R79, R84) -/

/-- The core that a name of another die stands for: one of the member of the task's panel group bound there (R384). -/
def State.farOf (s : State) (asid : Nat) (image : Word) (die : Nat) (n : BitVec 16) : Option Nat :=
  (s.fe.group.find? fun m => m.asid == asid && m.image == image && m.die == die && !m.ended).bind fun m =>
    if bits n 0 5 < m.fw ∧ bits n 5 5 < m.fh then some (1024 * (die + 1) + coreAt (m.ox + bits n 0 5) (m.oy + bits n 5 5))
    else none

/-- R79, R380: the latency of a route at bind, for a message of a length. `group` is the address space and the image of the
task. -/
def State.routeTime (s : State) (group : Nat × Word) (r : BindRec) (src dst : BitVec 16) (far : Option (BitVec 6)) (len : Nat) :
    Option Nat :=
  let own (n : BitVec 16) : Option Nat :=
    if bits n 0 5 < r.fw ∧ bits n 5 5 < r.fh then some (frameCore r (bits n 0 5) (bits n 5 5)) else none
  let from_ := match far with
    | some d => s.farOf group.1 group.2 d.toNat src
    | none => own src
  match from_, own dst with
  | some a, some b => (s.way a b).map fun _ => s.latency a b (1 + ceilDiv len 32)
  | _, _ => none

/-- R79, R84: what a route record patches in: for a route, the addend and its latency; for another symbol, a channel number.
None where the path or its ends do not exist or the window does not fit. -/
def State.routeValue (s : State) (group : Nat × Word) (k : Kernel) (r : BindRec) (w : BitVec 128) : Option Nat :=
  match k.symbols[relSym w]? with
  | some (.route src dst far len) =>
    (s.routeTime group r src dst far len).bind fun v => if relAdd w + v < 4096 then some (relAdd w + v) else none
  | _ => some (k.relValue w)

/-- R84 step 3: the routes; none means ROUTE. -/
def State.patchRoutes (s : State) (group : Nat × Word) (k : Kernel) (r : BindRec) : Option Kernel :=
  if (k.relocs.filter fun w => relKind w == 1).all fun w => (s.routeValue group k r w).isSome then
    some (k.relocate 1 fun w => (s.routeValue group k r w).getD 0)
  else none

/-- R84: the image as dchld binds it for a launch, but for its timing. -/
def State.bindImage (s : State) (group : Nat × Word) (k : Kernel) (r : BindRec) : Option Kernel :=
  s.patchRoutes group (k.linked r.die) r

/-! ### Channels (R210, R211) -/

/-- R211: the cores of the facets on the path of a lane, the producer's first: the fewest, y before x. -/
def facetPath (a b : Nat) : List Nat :=
  let walk (p q i : Nat) : Nat := if p ≤ q then p + i else p - i
  ((List.range (dist (coreY a) (coreY b) + 1)).map fun i => coreAt (coreX a) (walk (coreY a) (coreY b) i)) ++
    (List.range (dist (coreX a) (coreX b))).map fun i => coreAt (walk (coreX a) (coreX b) (i + 1)) (coreY b)

/-- R210: a range lies on an edge of the kind given, of a lens that the kernel declares. -/
def State.rangeOk (s : State) (t : Nat) (k : Kernel) (source : Bool) (r : LaneRange) : Bool :=
  decide (r.lens < k.lenses.length) && decide (r.first ≤ r.last) && decide (r.last < (s.lens (lensKey t r.lens)).lanesOn r.edge) &&
    (if source then r.edge == 2 || r.edge == 3 else r.edge == 0 || r.edge == 1)

/-- R210: the geometry of a route. -/
def State.routeOk (s : State) (t : Nat) (k : Kernel) (x : Route) : Bool :=
  match x.src with
  | some a =>
    s.rangeOk t k true a && decide (1 ≤ x.dst.length ∧ x.dst.length ≤ 4) &&
      x.dst.all fun b => s.rangeOk t k false b && b.size == a.size
  | none => decide (x.dst.length = 1) && x.dst.all fun b => s.rangeOk t k false b && decide (b.size ≤ 64)

/-- R211: the cores that hold a circuit for lane i of a route; of a lane from the ingress only the consuming core (log
entry 39). -/
def State.laneCircuits (s : State) (t : Nat) (x : Route) (i : Nat) : List Nat :=
  match x.src with
  | some a =>
    let p := (s.rangeLane t a i).1
    (p :: x.dst.flatMap fun b => facetPath p (s.rangeLane t b i).1).eraseDups
  | none => (x.dst.map fun b => (s.rangeLane t b i).1).eraseDups

/-- R210: no core's switch table overflows. -/
def State.circuitsOk (s : State) (t : Nat) (k : Kernel) : Bool :=
  let all := k.routes.flatMap fun x => (List.range x.lanes).flatMap fun i => s.laneCircuits t x i
  all.eraseDups.all fun c => decide ((all.filter (· == c)).length ≤ 256)

/-- R174: the lenses of a kernel as their declarations and the defect map place them, before any FUSE. -/
def State.layLenses (s : State) (t : Nat) (k : Kernel) (r : BindRec) : State :=
  k.lenses.zipIdx.foldl (fun s p =>
    let ((x, y, w, h), n) := p
    let l := { Lens.reset with task := t, num := n, ox := r.ox + x, oy := r.oy + y, w := w, h := h }
    let (br, bc) := s.bypassOf l
    s.setLens (lensKey t n) { l with bypR := br, bypC := bc }) s

/-! ### The name table and EXCUSE (R226, R234, R251, R377) -/

/-- R234, R377: the entry of a core of the frame. -/
def State.nameEntry (s : State) (c : Nat) : Word :=
  w64 (b2n (!s.isHole c) * 2 ^ 63 + s.fw.die % 64 * 65536 + coreY c * 256 + coreX c)

/-- R384: the entry of a name of another die: its member's core, unmapped for a hole and outside the frame. -/
def farEntry (m : FarMember) (fx fy : Nat) : Word :=
  if m.ended || decide (m.fw ≤ fx) || decide (m.fh ≤ fy) || m.holes.contains (fx, fy) then 0
  else w64 (2 ^ 63 + m.die % 64 * 65536 + (m.oy + fy) % 256 * 256 + (m.ox + fx) % 256)

/-- R384: the entry that makes senders wait for a member that has not bound yet. -/
def awaitedEntry (die : Nat) : Word := w64 (2 ^ 63 + 2 ^ 62 + die % 64 * 65536)

/-- The DPA of an entry of a task's name table. -/
def namePlace (r : BindRec) (c : Nat) : Nat :=
  let (fx, fy) := frameXY r c
  r.namebase.toNat + 8 * (nameOf r.die fx fy).toNat

/-- A range of device memory is zeroed. -/
def State.clear (s : State) (a n : Nat) : State :=
  let in_ (k : Nat) : Bool := decide (dpaKey a ≤ k) && decide (k < dpaKey (a + n))
  { s with mem := s.mem.filter fun c => !in_ c.1, memErr := s.memErr.filter fun e => !in_ e }

/-- R384: the member of a task's panel group on another die. -/
def State.farMember (s : State) (t die : Nat) : Option FarMember :=
  s.fe.group.find? fun m => m.die == die && m.asid == (s.task t).asid && m.image == FePacket.dw (s.task t).packet 1

/-- R384: the entries of the names of another die in a task's table. -/
def State.writeFarNames (s : State) (t die : Nat) : State :=
  let a := (s.task t).rec_.namebase.toNat + 8192 * die
  let s := s.clear a 8192
  if !(Tab.at s.fe.spaces (s.task t).asid Space.reset).dieset.getLsbD die then s
  else
    let entry (fx fy : Nat) : Word :=
      match s.farMember t die with
      | some m => farEntry m fx fy
      | none => awaitedEntry die
    (List.range 32).foldl (fun s fy => (List.range 32).foldl (fun s fx =>
      s.poke (dpaKey (a + 8 * (32 * fy + fx))) (leBytes 8 (entry fx fy).toNat)) s) s

/-- R234, R384: a task's name table: one entry for every name of the frame, the other names of its die unmapped, and the
names of the other dies. -/
def State.writeNames (s : State) (t : Nat) : State :=
  let r := (s.task t).rec_
  let s := s.clear (r.namebase.toNat + 8192 * s.fw.die) 8192
  let s := (frameCores r).foldl (fun s c => s.poke (dpaKey (namePlace r c)) (leBytes 8 (s.nameEntry c).toNat)) s
  ((List.range 64).filter (· != s.fw.die)).foldl (fun s d => s.writeFarNames t d) s

/-- R234, R369: FRZ of the names of a task's frame is set or cleared; the name caches of its cores forget them. -/
def State.freezeNames (s : State) (t : Nat) (on : Bool) : State :=
  let r := (s.task t).rec_
  let s := (frameCores r).foldl (fun s c =>
    let a := namePlace r c
    let w := w64 (s.word (dpaKey a) 8)
    if w.getLsbD 63 then s.poke (dpaKey a) (leBytes 8 (setBits w 62 1 (b2n on)).toNat) else s) s
  (frameCores r).foldl (fun s c =>
    if (s.core c).task = some t then
      s.modCore c fun x => { x with ncache := x.ncache.filter fun p => bits p.1 10 6 != r.die }
    else s) s

/-- R251: the EXCUSE bits of a core, for every id. -/
def State.setExcuse (s : State) (c : Nat) (on : Bool) : State :=
  s.modCluster (clusterOf c) fun k =>
    { k with excuse := [0, 1, 2, 3].foldl (fun e i => setBits e (excuseBit c i) 1 (b2n on)) k.excuse }

/-! ### Banks at bind (R270, R371, R372) -/

/-- R372: the place of the n-th copied bank in a save area of a task with a number of live cores. -/
def copyPlace (save : Word) (cores n : Nat) : Nat := save.toNat + 65536 + cores * 1048576 + n * 262144

/-- R371: a parked bank is copied into its task's save area and pooled. -/
def State.unpark (s : State) (b : Nat) : State :=
  match (s.bank b).st with
  | .parked t c k =>
    let tk := s.task t
    match tk.saved with
    | some v =>
      let s := s.poke (dpaKey (copyPlace tk.rec_.save v.cores.length v.copies.length)) (s.bytes (bankKey b 0) 262144)
      (s.modTask t fun x => { x with saved := some { v with copies := v.copies ++ [(c, k)] } }).modBank b fun y => { y with st := .pooled }
    | none => s.modBank b fun y => { y with st := .pooled }
  | _ => s

/-- Parked banks of a cluster are pooled until it pools n banks. -/
def State.poolParked (s : State) (cl n : Nat) : Nat → State
  | 0 => s
  | m + 1 =>
    if n ≤ s.countBanks cl (· == .pooled) then s
    else
      match ((List.range 128).map fun i => cl * 128 + i).find? fun b => BankSt.isParked (s.bank b).st with
      | some b => State.poolParked (s.unpark b) cl n m
      | none => s

/-- R270: a pooled bank, zeroed, is attached to an entry of a core. -/
def State.attach (s : State) (c e : Nat) : State :=
  match s.pooled (clusterOf c) with
  | none => s
  | some b =>
    let gen := (s.bank b).gen + 1
    let s := (s.zeroBank b).modBank b fun _ => ⟨gen, .attached c e⟩
    let s := s.modCore c fun x => x.setBm e (bmMake true false false (b / 128) (b % 128) gen.toNat)
    s.modCluster (clusterOf c) fun y => y.dropFwd c e

/-- R270: entries 0 to n - 1 of every core of a list. -/
def State.attachAll (s : State) (cs : List Nat) (n : Nat) : State :=
  cs.foldl (fun s c => (List.range n).foldl (fun s e => s.attach c e) s) s

/-- R270: the banks of a frame, cluster by cluster. -/
def State.bindBanks (s : State) (k : Kernel) (r : BindRec) : State :=
  (s.clusterLoads r).foldl (fun s p =>
    let n := (s.bankShare k p.1 p.2).getD 0
    let s := s.poolParked p.1 (n * p.2) 128
    s.attachAll ((s.liveCores r).filter fun c => clusterOf c == p.1) n) s

/-- R226, R258, R270: bank presets and the data of each core. -/
def State.loadPresets (s : State) (k : Kernel) (r : BindRec) : State :=
  (s.liveCores r).foldl (fun s c =>
    let put (s : State) (a : Nat) (b : Byte) : State := s.winPoke c (w64 a) [b]
    let s := k.presets.foldl (fun s p => p.2.foldl (fun s b => put s (262144 * p.1 + b.1) b.2) s) s
    (k.coreData.filter fun d => frameCore r d.1 d.2.1 == c).foldl (fun s d => d.2.2.foldl (fun s b => put s b.1 b.2) s) s) s

/-! ### Extent tables at bind (R209, R295) -/

/-- R295: consecutive pages that lie together are merged; PAGES is at most 4,095. -/
def mergeExtents : List (Nat × Nat) → List (Nat × Nat × Nat) → List (Nat × Nat × Nat)
  | [], acc => acc.reverse
  | (va, pa) :: r, acc =>
    match acc with
    | (v, p, n) :: t =>
      if va = v + 65536 * n && pa == p + 65536 * n && decide (n < 4095) then mergeExtents r ((v, p, n + 1) :: t)
      else mergeExtents r ((va, pa, 1) :: acc)
    | [] => mergeExtents r [(va, pa, 1)]

def extentWord (e : Nat × Nat × Nat) : BitVec 128 :=
  BitVec.ofNat 128 (2 ^ 127 + e.2.1 % 2 ^ 63 * 2 ^ 64 + e.2.2 * 2 ^ 52 + e.1 % 2 ^ 52)

/-- The pages of a range that a walk maps, in VA order. -/
def State.walkPages (asid : Nat) (write : Bool) : List Nat → State → List (Nat × Nat) × State
  | [], s => ([], s)
  | va :: r, s =>
    match s.feWalk asid (w64 va) write with
    | (.mapped base log2 _ _, s) =>
      let (l, s) := State.walkPages asid write r s
      ((va, base + va % 2 ^ log2) :: l, s)
    | (_, s) => State.walkPages asid write r s

/-- R295: the extent table of an AG descriptor with SPACE = VA. -/
def State.writeExtents (s : State) (asid c a : Nat) : State :=
  let d : AgDesc := BitVec.ofNat 512 (leNat (s.winBytes c (w64 a) 64))
  if d.space ≠ .va then s
  else
    let (lo, hi) := d.span
    let first := lo.toNat / 65536
    let pages := (List.range (hi.toNat / 65536 + 1 - first)).map fun i => 65536 * (first + i)
    let (l, s) := State.walkPages asid d.isOut pages s
    let ext := (mergeExtents l []).take 16
    let bs := ext.flatMap fun e => leBytes 16 (extentWord e).toNat
    s.winPoke c (d.dw 6) (if ext.length < 16 then bs ++ leBytes 16 0 else bs)

def State.bindExtents (s : State) (t : Nat) (k : Kernel) (r : BindRec) : State :=
  k.streams.foldl (fun s d => s.writeExtents (s.task t).asid (frameCore r d.1 d.2.1) d.2.2) s

/-! ### Cores and slots at bind (R12, R117, R230, R351, R365, R370) -/

/-- R12, R230, R351, R365: a slot with text enters BOUND-IDLE. -/
def slotAtBind (t : Nat) (r : BindRec) (k : Nat) : Slot :=
  let sl := { Slot.reset with
    life := .boundIdle, task := some t, pc := Tab.at r.entry k 0, reload := r.budget, left := r.budget, est := r.remain }
  ((sl.setG 1 r.arg).setG 29 (w64 ((2 ^ 64 + r.sp.toNat - k * r.spStride.toNat % 2 ^ 64) % 2 ^ 64))).setG 30
    (w64 (r.tls.toNat + k * r.tlsStride.toNat))

/-- R370: the purge wave of a core. -/
def Core.purge (x : Core) : Core :=
  match x.stale with
  | some (t, n) => { x with purged := BitVec.ofNat 40 (t % 256 * 2 ^ 32 + Nat.min n 4294967295), stale := none }
  | none => { x with purged := 0 }

/-- R12, R117, R212, R231, R236, R284, R315, R366: a core as dispatch loads it. What belongs to the part and not to the task
stays: the banks just attached, the counters of the die, the NI's sequence numbers. -/
def Core.load (x : Core) (t : Nat) (r : BindRec) (text : Tab Word) (cls : Bool) : Core :=
  let x := x.purge
  { Core.reset with
    istore := text
    slots := (bitList r.text 8).map fun k => (k, slotAtBind t r k)
    task := some t
    skew := x.skew
    wheel := r.wheel
    wheelNext := r.wheel
    hbeat := x.hbeat
    boundCls := cls
    bmap := x.bmap
    namebase := r.namebase.extractLsb' 16 48
    purged := x.purged
    seqTo := x.seqTo
    seqFrom := x.seqFrom
    reorder := x.reorder
    gates := 15
    tlb := x.tlb }

/-- R84, R226, R366: whether dchld accepts the image for a frame: 0, or the status it refuses with. `b` is the image as
bound. The lenses lie in the state as the frame places them. -/
def State.dchldStatus (s : State) (t : Nat) (k : Kernel) (b : Option Kernel) (r : BindRec) : Nat :=
  let classes := ((s.liveCores r).map s.classOf).eraseDups
  if !k.formatOk then stFormat
  else if !s.itemsOk k r then stGeom
  else
    match b with
    | none => stRoute
    | some b =>
      if !(k.routes.all (s.routeOk t k)) || !s.circuitsOk t k then stRoute
      else if classes.all fun c => (timedText b c).isSome then 0
      else stTiming

/-- R232: the ticks of the device heartbeat that have reached a core. -/
def State.ticksAt (s : State) (c : Nat) : Word := w64 ((s.now - 1 - (s.core c).skew) / 64)

def State.loadCores (s : State) (t : Nat) (k : Kernel) (r : BindRec) : State :=
  (s.liveCores r).foldl (fun s c =>
    let cls := s.classOf c
    match timedText k cls with
    | some text => s.modCore c fun x => { x.load t r text (cls == 1) with hbeat := s.ticksAt c }
    | none => s) s

/-- The lenses and channels that an earlier task of this number left. -/
def State.clearTask (s : State) (t : Nat) : State :=
  { s with
    lenses := s.lenses.filter fun p => p.1 / 64 != t
    chans := s.chans.filter fun p => p.1 / 4096 != t }

/-- R210: ingress routes are bound with their task. -/
def State.bindIngress (s : State) (t : Nat) (k : Kernel) : State :=
  k.routes.zipIdx.foldl (fun s p =>
    if p.1.src.isNone then s.modChan (chanKey t p.2) fun c => { c with st := .bound } else s) s

/-! ### Gated clusters (R402) -/

/-- P-cycles that a wake takes: 2 µs from clock gating, 40 µs from power gating. -/
def Gating.wakeTime : Gating → Nat
  | .clockGated => 4000
  | .powerGated => 80000
  | _ => 0

/-- R340, R402: a gated cluster starts to wake. -/
def State.startWake (s : State) (cl : Nat) : State :=
  let k := s.cluster cl
  match k.gating with
  | .clockGated | .powerGated =>
    (s.modCluster cl fun k => { k with gating := .waking }).later k.gating.wakeTime (.clusterWake cl)
  | _ => s

/-! ### Dispatch (R366) -/

/-- R367: the ports that streamed into a task are idle again. -/
def State.idlePorts (s : State) (t : Nat) : State :=
  s.modFe fun e =>
    let mine (c : Nat) : Bool := (Tab.at e.configs c ⟨0, 0, 0, none⟩).task == some t
    { e with
      ports := e.ports.map fun p => (p.1, if mine p.2.config then { p.2 with stat := 0, buffer := [], held := [] } else p.2)
      configs := e.configs.map fun p => (p.1, if p.2.task == some t then { p.2 with task := none } else p.2) }

/-- A LAUNCH completes, and its task is no more. -/
def State.endLaunch (s : State) (t status detail : Nat) : State :=
  let k := s.task t
  let s := s.idlePorts t
  ((s.modFe fun e => { e with tasks := Tab.drop e.tasks t }).complete k.queue k.index status detail k.rec_.done).wakeManager

/-- R366 steps 1 to 3. A refusal leaves no core touched. -/
def State.dispatch (s : State) (t : Nat) : State :=
  let tk := s.task t
  let w := Tab.at s.fe.slotTable t 0
  let r := bindOf w
  let k := tk.kernel
  let cls := ((s.liveCores r).map clusterOf).eraseDups
  if !s.bindOk t k w then (s.clearTask t).endLaunch t stFormat 0
  else if cls.any fun c => (s.cluster c).gating != .awake then
    (cls.foldl (fun s c => s.startWake c) s).laterX 1 (.dispatchBind t)
  -- R242: the NIs first send the messages of the tasks that have left (log entry 40)
  else if (s.liveCores r).any fun c => !(s.core c).sendq.isEmpty then s.later 1 (.dispatchBind t)
  else
    let s0 := ((s.modTask t fun x => { x with rec_ := r }).clearTask t).layLenses t k r
    let b := s0.bindImage (tk.asid, FePacket.dw tk.packet 1) k r
    let st := s0.dchldStatus t k b r
    if st ≠ 0 then (s.clearTask t).endLaunch t st 0
    else if !s.banksOk k r then s.laterX 1 (.dispatchBind t)
    else
      let k := b.getD k
      let s := s0.writeNames t
      let s := (frameCores r).foldl (fun s c => s.setExcuse c (s.isHole c)) s
      let s := (s.bindBanks k r).loadPresets k r
      let s := (s.bindExtents t k r).loadCores t k r
      let s := (s.bindIngress t k).modTask t fun x => { x with st := .bound }
      s.laterX 1 (.gatesOpen t)

/-! ### Opening the gates (R366, R367) -/

/-- R11: a slot starts at its entry PC, or goes on in the state it was saved in. -/
def Slot.start (sl : Slot) : Slot :=
  if sl.life = .boundIdle then { sl with life := .running, gate := .fromTurn (sl.turn + 1) } else sl

/-- R366, R367: the gates of every core of the task open and its slots run; a port that waits for it streams. -/
def State.openGates (s : State) (t : Nat) : State :=
  let s := (s.liveCores (s.task t).rec_).foldl (fun s c =>
    s.modCore c fun x => { x with gates := 0, slots := x.slots.map fun p => (p.1, p.2.start) }) s
  let s := s.modTask t fun x => { x with st := .running }
  s.modFe fun e =>
    { e with ports := e.ports.map fun p =>
        (p.1, if p.2.stat = 1 && (Tab.at e.configs p.2.config ⟨0, 0, 0, none⟩).task == some t then { p.2 with stat := 2 } else p.2) }

def onTask (t : Nat) (s u : State) : Host.Outcome State Fault Refusal :=
  .next (if (Tab.find s.fe.tasks t).isSome then u else s)

end Sys2Proof.Machine
end

