-- ==== Sys2Proof/Machine/Schedule.lean ====
section
/-! DEFINITION. Scheduling: taking the PIFO's head, placing a LAUNCH, the pre-emption decision and its three policies, the
save area, the end and the resumption of a task (R226, R228 to R230, R283, R361, R364 to R374, R384). -/

namespace Sys2Proof.Machine

/-! ### What a task leaves behind -/

/-- The core whose present task a pending event concerns; none for events that outlive the task. -/
def Due.coreOf : Due → Option Nat
  | .ev (.battComplete c _) | .ev (.bdetComplete c _) | .ev (.giveAdmission c _) | .ev (.giveRepoint c _)
  | .ev (.windowEnd c _ _) | .ev (.nodeComplete c _) | .ev (.recvWindowExpire c _) | .ev (.graphUnitRun c)
  | .ev (.copySegment c _) | .ev (.agFetch c _ _) | .ev (.bqryAnswer c _) | .ev (.scOrderPlace c _)
  | .ev (.headFlitLeaves c) | .ev (.nameWalkComplete c _) | .ev (.extentInstall c _) | .ev (.barrierArrival c _)
  | .ev (.barrierRelease c _) | .ev (.bulkTransferDone c) | .ev (.deferredFault c _ _) | .ev (.budgetDeadline c _) => some c
  | _ => none

/-- R242: the NI's own events, which go on while messages of the task are still to leave. -/
def Due.ofNi : Due → Bool
  | .ev (.headFlitLeaves _) | .ev (.nameWalkComplete _ _) => true
  | _ => false

/-- Events of tasks that have left a core no longer come; with `ni` those of its NI do. -/
def State.forget (s : State) (cs : List Nat) (ni : Bool) : State :=
  let gone (d : Due) : Bool := !(ni && d.ofNi) && match d.coreOf with
    | some c => cs.contains c
    | none => false
  { s with coming := s.coming.filter fun e => !gone (.ev e.2), agenda := s.agenda.filter fun d => !gone d }

/-- The tokens in the edge buffers of a core. -/
def Core.tokensHeld (x : Core) : Nat := (x.lanes.map fun p => p.2.fifo.length).foldl (· + ·) 0

/-- R210, R211: the tokens of a task's channels that are on their way to lanes of a core. -/
def State.tokensFlying (s : State) (t c : Nat) : Nat :=
  ((s.task t).kernel.routes.zipIdx.map fun p =>
    ((s.chan (chanKey t p.2)).fly.filter fun k =>
      match p.1.dst[k.range]? with
      | some r => (s.rangeLane t r k.lane).1 == c
      | none => false).length).foldl (· + ·) 0

/-- R370: the tokens of a task on a core. -/
def State.tokensOn (s : State) (t c : Nat) : Nat := (s.core c).tokensHeld + s.tokensFlying t c

/-- R12, R269: the window entries of a core leave it: their banks take a new state, and the entries read as after reset. -/
def State.leaveBanks (s : State) (c : Nat) (f : Nat → BankSt) : State :=
  (List.range 16).foldl (fun s e =>
    let w := (s.core c).bm e
    let s := if bmV w then s.modBank (bmIndex w) fun b => { b with st := f e } else s
    let s := match s.pendingBank c e with
      | some b => s.modBank b fun y => { y with st := .pooled }
      | none => s
    s.modCore c fun x => x.setBm e 0) s

/-- R11, R369: a core is released: nothing of the task stays but the tokens for the purge wave and, with `ni`, the messages
that its slots have issued, with the name cache they are sent by (R242). -/
def Core.release (x : Core) (t left : Nat) (ni : Bool) : Core :=
  { Core.reset with
    retired := x.retired
    retiring := x.retiring
    skew := x.skew
    hbeat := x.hbeat
    bmap := x.bmap
    purged := x.purged
    stale := some (t, left)
    namebase := if ni then x.namebase else 0
    ncache := if ni then x.ncache else []
    walks := if ni then x.walks else []
    sendq := if ni then x.sendq.map fun (m : Msg) => { m with slot := noSlot } else []
    seqTo := x.seqTo
    seqFrom := x.seqFrom
    reorder := x.reorder
    tlb := x.tlb }

/-- R402: a cluster whose cores hold no task is gated after 1 ms. -/
def State.markIdle (s : State) (cl : Nat) : State :=
  if (List.range 768).any fun c => clusterOf c == cl && (s.holder c).isSome then s
  else (s.modCluster cl fun k => { k with idleSince := s.now }).later 2000000 (.clockGate cl)

/-- A packet whose sender's task has left is still performed, and nobody hears of it; what only the task's nodes could take
turns into a notify of no bits, which keeps the order of the SEQ numbers (R313). -/
def Packet.orphaned (p : Packet) : Packet :=
  { p with
    slot := noSlot
    cargo := match p.cargo with
      | .release _ _ _ | .give _ => .notify 0 0 0 0 0
      | g => g }

/-- The cores of a task, its lenses and its channels are released. `left` says whether tokens wait for a purge wave, `ni`
whether the NIs go on with its messages. -/
def State.releaseTask (s : State) (t : Nat) (left ni : Bool) : State :=
  let cs := s.liveCores (s.task t).rec_
  let s := cs.foldl (fun s c =>
    let n := if left then s.tokensOn t c else 0
    s.modCore c fun x => x.release t n ni) s
  let s := { s with
    packets := (s.packets.filter fun (p : Packet) => !(cs.contains p.src && !p.cargo.writes)).map fun (p : Packet) =>
      if cs.contains p.src then p.orphaned else p }
  (s.forget cs ni).clearTask t

/-- R361: teardown, then the completion object. -/
def State.teardown (s : State) (t : Nat) (kill : Bool) (status detail : Nat) : State :=
  let r := (s.task t).rec_
  let cs := s.liveCores r
  let s := s.releaseTask t kill true
  let s := cs.foldl (fun s c => s.leaveBanks c fun _ => .pooled) s
  let s := s.endLaunch t status detail
  (cs.map clusterOf).eraseDups.foldl (fun s cl => s.markIdle cl) s

/-- R371: the banks still parked for a suspended task are pooled. -/
def State.dropParked (s : State) (t : Nat) : State :=
  { s with banks := s.banks.map fun p =>
      (p.1, match p.2.st with
        | .parked u _ _ => if u = t then { p.2 with st := .pooled } else p.2
        | _ => p.2) }

/-- R128: a slot that owns positions of the wheel has vector beats to run. -/
def Core.beatsLeft (x : Core) : Bool :=
  x.slots.any fun p => p.2.life != .unbound && (decide (p.2.turn < p.2.vecFree) || !p.2.beats.isEmpty) &&
    !(positionsOf x.wheel p.1).isEmpty

/-- R369: the NI of a core has nothing to deliver that is not held by the freeze of another die's name. -/
def State.niQuiet (s : State) (c : Nat) : Bool :=
  match (s.core c).sendq with
  | [] => true
  | m :: _ => m.dst.isNone && s.lookup c m.name == .frozen

/-- R128, R369: the beats of a task's slots have run, its staged messages have left and its own have arrived. -/
def State.killable (s : State) (t : Nat) : Bool :=
  let cs := s.liveCores (s.task t).rec_
  cs.all (fun c => !(s.core c).beatsLeft && s.niQuiet c) && !s.packets.any fun p =>
    cs.contains p.src && cs.contains p.dst && match p.cargo with
      | .message _ _ _ _ | .notify _ _ _ _ _ => true
      | _ => false

/-- R360, R369: a task ends under the KILL policy: its names are frozen, its slots issue nothing more, what R128 and R369
let finish finishes; then nothing is saved, and a give in progress is refused with its entries. -/
def State.killTask (s : State) (t : Nat) : State :=
  match Tab.find s.fe.tasks t with
  | none => s
  | some k =>
    match k.st with
    | .suspended =>
      let s := s.modFe fun e =>
        { e with pifo := e.pifo.filter fun p => p.resume != some t, pushes := e.pushes.filter fun p => p.2.2.2 != some t }
      (s.dropParked t).endLaunch t 6 0
    | .placed | .bound => s.teardown t true 6 0
    | .killing => if s.killable t then s.teardown t true 6 0 else s
    | _ => (s.freezeNames t true).modTask t fun x => { x with st := .killing }

/-- The task is no more. -/
def State.gone (s : State) (t : Nat) : Bool := (Tab.find s.fe.tasks t).isNone

/-! ### The end of a task (R361) -/

/-- The bound slots of a task. -/
def State.boundSlots (s : State) (t : Nat) : List Slot :=
  (s.liveCores (s.task t).rec_).flatMap fun c => ((s.core c).slots.map (·.2)).filter fun k => k.life != .unbound

/-- R128, R361: every bound slot of the task is HALTED or FAULTED, and its last vector instruction has run its beats. -/
def State.stopped (s : State) (t : Nat) : Bool :=
  let st := (s.task t).st
  (match st with
    | .running | .draining _ | .checkpointing => true
    | _ => false) &&
    ((s.boundSlots t).all fun k => k.life == .halted || k.life == .faulted) &&
    (s.liveCores (s.task t).rec_).all fun c => !(s.core c).beatsLeft

/-- R361: the lowest cause code of the task's faults. -/
def State.lowestCause (s : State) (t : Nat) : Option Nat :=
  let l := ((s.boundSlots t).filter fun k => k.life == .faulted).map (fun k => bits k.fcause 0 8) ++
    (match (s.task t).worst with
      | some c => [c.toNat]
      | none => [])
  match l with
  | [] => none
  | a :: r => some (minOf a r)

/-- R283: a restartable task stopped by late local data of a cluster whose class has risen is bound anew. -/
def State.rebinds (s : State) (t : Nat) : Bool :=
  let k := s.task t
  k.rec_.restart == 1 && s.lowestCause t == some 5 &&
    (s.liveCores k.rec_).any fun c => s.classOf c == 1 && !(s.core c).boundCls

/-- R361: the task ends. -/
def State.endTask (s : State) (t : Nat) : State :=
  if !s.stopped t then s
  else if s.rebinds t then
    let cs := s.liveCores (s.task t).rec_
    let s := cs.foldl (fun s c => s.leaveBanks c fun _ => .pooled) (s.releaseTask t false true)
    (s.modTask t fun k => { k with st := .placed, worst := none }).laterX 1 (.dispatchBind t)
  else
    match s.lowestCause t with
    | some c => s.teardown t false 7 c
    | none =>
      let n := ((s.liveCores (s.task t).rec_).map fun c => s.tokensOn t c).foldl (· + ·) 0
      s.teardown t false 0 (Nat.min n 65535)

def execTaskEnd (task : Nat) (s : State) : Host.Outcome State Fault Refusal := onTask task s (s.endTask task)

/-! ### Save cost (R368, R372) -/

/-- R372: the size of a save area. -/
def saveSize (cores copies : Nat) : Nat := 65536 + cores * 1048576 + copies * 262144

/-- R368: the save cost in tokens. -/
def saveCost (cores copies : Nat) : Nat := Nat.min 255 (ceilDiv (saveSize cores copies) 4194304)

/-- R270: the banks that a placement lacks in a cluster, against the presets of its kernel. -/
def State.lacking (s : State) (k : Kernel) (cl n : Nat) : Nat := k.presetTop * n - s.countBanks cl (· == .pooled)

/-- R368: the bank copies of a task that a newcomer's placement needs. -/
def State.copiesFor (s : State) (k : Kernel) (r : BindRec) (t : Nat) : Nat :=
  ((s.clusterLoads r).map fun p => Nat.min (s.lacking k p.1 p.2) (s.holding p.1 (some t))).foldl (· + ·) 0

def State.costFor (s : State) (k : Kernel) (r : BindRec) (t : Nat) : Nat :=
  saveCost (s.liveCores (s.task t).rec_).length (s.copiesFor k r t)

/-! ### Checking and placing a LAUNCH (R228, R229, R364, R374, R384) -/

/-- R228: the size of a frame. -/
def launchSize (p : FePacket) (k : Kernel) : Nat × Nat :=
  (if FePacket.fw p = 0 then k.fw else FePacket.fw p, if FePacket.fh p = 0 then k.fh else FePacket.fh p)

/-- The image at a packet's IMAGE address: its DPA and what it holds. -/
def State.imageOf (s : State) (asid : Nat) (p : FePacket) : Option (Word × Kernel) × State :=
  match s.feWalk asid (FePacket.dw p 1) false with
  | (.mapped base log2 _ _, s) =>
    let a := w64 (base + (FePacket.dw p 1).toNat % 2 ^ log2)
    (s.fe.images.find? (fun i => i.1 == a), s)
  | (_, s) => (none, s)

/-- R230, R365: the bind record of a LAUNCH at an origin. -/
def State.bindRecord (s : State) (p : FePacket) (img : Word) (k : Kernel) (t ox oy : Nat) : BindRec :=
  let (w, h) := launchSize p k
  let restart := if FePacket.restart p ≠ 0 then FePacket.restart p else k.restart.toNat
  let r : BindRec :=
    { BindRec.none with
      die := s.fw.die, ox := ox, oy := oy, fw := w, fh := h, tokens := FePacket.tokens p, cls := FePacket.cls p,
      restart := restart, wheel := k.wheel, image := img, arg := FePacket.dw p 2,
      namebase := w64 (s.fw.die * 2 ^ 46 + (Config.nameTable t).toNat % 6291456 * 65536), bargrp := FePacket.bargrp p,
      remain := if FePacket.remain p = 0 then k.remain else FePacket.remain p, budget := k.budget, quota := 128,
      text := k.slots, entry := k.entry, done := FePacket.done p, tls := k.tls, sp := k.sp, tlsStride := k.tlsStride,
      spStride := k.spStride,
      save := if restart = 2 then w64 (s.fw.die * 2 ^ 46 + (Config.saveArea t).toNat % 6291456 * 65536) else 0 }
  { r with
    res := (frameCores r).any fun c => s.fe.reserve.contains c
    bankn := minOf 16 ((s.clusterLoads r).map fun q => (s.bankShare k q.1 q.2).getD 16) }

/-- R384: another task bound in the space from the same IMAGE VA: a panel group has one member on a die. -/
def State.secondMember (s : State) (asid : Nat) (p : FePacket) : Bool :=
  s.fe.tasks.any fun t => t.2.asid == asid && FePacket.dw t.2.packet 1 == FePacket.dw p 1

/-- R226, R228, R229, R249, R384: why a LAUNCH is refused before any core is touched; 0 when it is not. -/
def State.launchRefusal (s : State) (asid : Nat) (p : FePacket) (k : Kernel) : Nat :=
  let (w, h) := launchSize p k
  let g (i : Nat) : Nat := bits (FePacket.bargrp p) (8 * i) 8
  let r := s.bindRecord p 0 k 0 (FePacket.ox p) (FePacket.oy p)
  let leaves := FePacket.die p != s.fw.die || decide (24 < FePacket.ox p + w) || decide (32 < FePacket.oy p + h)
  if !k.formatOk || w == 0 || h == 0 || decide (24 < w) || decide (32 < h) then stFormat
  else if !([0, 1, 2, 3].all fun i => groupFits (g i) w h) then stFormat
  else if !k.lensesFit w h || s.secondMember asid p then stGeom
  else if FePacket.pin p && (leaves || (frameCores r).any (fun c => (s.holder c).isSome) || !s.itemsOk k r) then stGeom
  else 0

/-- R374: a record may take reserved cores. -/
def State.reserveOk (s : State) (r : BindRec) : Bool :=
  !r.res || r.cls == 0 || decide (r.remain.toNat ≤ 40000) || r.restart == 1 ||
    (r.restart == 2 && decide (saveCost (s.liveCores r).length 0 ≤ 16))

/-- The origins at which a frame lies on the die. -/
def originsFor (p : FePacket) (w h : Nat) : List (Nat × Nat) :=
  if FePacket.pin p then [(FePacket.ox p, FePacket.oy p)]
  else (List.range (33 - h)).flatMap fun y => (List.range (25 - w)).map fun x => (x, y)

/-- R226: the records of a LAUNCH at every origin where no item falls on a hole. -/
def State.recordsFor (s : State) (p : FePacket) (img : Word) (k : Kernel) (t : Nat) : List BindRec :=
  let (w, h) := launchSize p k
  ((originsFor p w h).map fun o => s.bindRecord p img k t o.1 o.2).filter fun r => s.itemsOk k r

/-- R364: a record's cores are free and its banks available. -/
def State.fits (s : State) (k : Kernel) (r : BindRec) : Bool :=
  (frameCores r).all (fun c => (s.holder c).isNone) && s.banksOk k r

/-- R367: a LAUNCH whose kernel declares ingress routes enters the configuration table, one entry for each. -/
def State.fillConfigs (s : State) (q t : Nat) (p : FePacket) (k : Kernel) : State :=
  k.routes.zipIdx.foldl (fun s x =>
    if x.1.src.isSome then s
    else
      let old := s.fe.configs.find? fun c => c.2.queue == q && c.2.packet == p && c.2.chan == x.2
      let free := (List.range 256).find? fun n => (Tab.find s.fe.configs n).isNone
      match old, free with
      | some c, _ => s.modFe fun e => { e with configs := Tab.put e.configs c.1 { c.2 with task := some t } }
      | none, some n => s.modFe fun e => { e with configs := Tab.put e.configs n ⟨q, p, x.2, some t⟩ }
      | none, none => s) s

/-- R364: the task takes its frame, and dispatch gets its bind record. -/
def State.place (s : State) (e : PifoEntry) (asid t : Nat) (r : BindRec) (k : Kernel) : State :=
  let s := s.modTask t fun _ =>
    { st := .placed, rec_ := r, kernel := k, queue := e.queue, index := e.index, packet := e.packet, asid := asid, worst := none,
      discarded := 0, saved := none }
  let s := s.modFe fun e => { e with slotTable := Tab.put e.slotTable t (r.word t) }
  (((s.fillConfigs e.queue t e.packet k).dropEntry e.id).soon (.dispatchBind t)).wakeManager

/-! ### The pre-emption decision (R368) -/

/-- R351: the task's estimate. -/
def State.estimate (s : State) (t : Nat) : Nat := maxOf 0 ((s.boundSlots t).map fun k => k.est.toNat)

def TaskSt.evicting : TaskSt → Bool
  | .draining _ | .checkpointing | .killing => true
  | _ => false

/-- R368: the task runs and is not being evicted; one that has outrun its drain is decided again. -/
def TaskSt.evictable : TaskSt → Bool
  | .running | .draining 0 => true
  | _ => false

/-- R368: the tasks that hold cores of a placement, or banks of a cluster in which it lacks some. -/
def State.inTheWay (s : State) (k : Kernel) (r : BindRec) : List Nat :=
  let lack := (s.clusterLoads r).filter fun p => (s.bankShare k p.1 p.2).isNone
  (s.fe.tasks.filter fun p => p.2.st != .suspended &&
    ((frameCores r).any (inFrame p.2.rec_) || lack.any fun q => decide (0 < s.holding q.1 (some p.1)))).map (·.1)

/-- Whether a placement is free once the tasks in its way that may be evicted are gone. -/
def State.clearable (s : State) (k : Kernel) (r : BindRec) : Bool :=
  let may (t : Nat) : Bool :=
    let x := s.task t
    x.st.evicting || (x.st.evictable && decide (r.cls < x.rec_.cls))
  (frameCores r).all (fun c => match s.holder c with
    | some t => may t
    | none => true) &&
  (s.clusterLoads r).all fun p =>
    let freed := (((s.inTheWay k r).filter may).map fun t => s.holding p.1 (some t)).foldl (· + ·) 0
    decide (k.presetTop * p.2 ≤ s.countBanks p.1 (fun b => b == .pooled || b.isParked) + freed)

/-- R368: the victims of a placement. -/
def State.victims (s : State) (k : Kernel) (r : BindRec) : List Nat :=
  (s.inTheWay k r).filter fun t => (s.task t).st.evictable && decide (r.cls < (s.task t).rec_.cls)

/-- R368: the placement whose victims have the smallest sum of save costs. -/
def State.plan (s : State) (k : Kernel) (rs : List BindRec) : Option BindRec :=
  argMin (fun r => ((s.victims k r).map fun t => s.costFor k r t).foldl (· + ·) 0) (rs.filter fun r => s.reserveOk r && s.clearable k r)

inductive Policy where
  | drain | checkpoint | kill | wait
  deriving DecidableEq, Repr

/-- R368: a newcomer's policy for a victim. -/
def State.policy (s : State) (k : Kernel) (r : BindRec) (t : Nat) (row1 : Bool) : Policy :=
  if row1 && decide (s.estimate t ≤ if r.cls = 0 then 40000 else 80000) then .drain
  else if (s.task t).rec_.restart == 2 && decide (s.costFor k r t ≤ r.tokens) then .checkpoint
  else if (s.task t).rec_.restart = 1 then .kill
  else .wait

/-- R368, R369: a victim's policy is put into effect. -/
def State.evict (s : State) (r : BindRec) (t : Nat) (p : Policy) : State :=
  match p with
  | .drain => (s.modTask t fun x => { x with st := .draining (if r.cls = 0 then 40000 else 80000) }).soon (.preemptDrain t)
  | .checkpoint => s.soon (.preemptCheckpoint t)
  | .kill => s.soon (.preemptKill t)
  | .wait => s

/-- R368: if any victim falls to the last row, nothing is evicted. -/
def State.weighVictims (s : State) (k : Kernel) (rs : List BindRec) : State :=
  match s.plan k rs with
  | none => s
  | some r =>
    let ps := (s.victims k r).map fun t => (t, s.policy k r t ((s.task t).st == .running))
    if ps.any fun p => p.2 == .wait then s else ps.foldl (fun s p => s.evict r p.1 p.2) s

/-! ### PLACEMENT and LAUNCH (R364) -/

/-- The event that carries a packet out or places it. -/
def PifoEntry.event (e : PifoEntry) : Instr :=
  match FePacket.type e.packet with
  | 2 => .signalPacket e.id
  | 3 => .loadwPacket e.id
  | 4 => .copyPacket e.id
  | 5 => .mapPacket e.id
  | 6 => .fencePacket e.id
  | 7 => .killPacket e.id
  | _ => .launchPacket e.id

/-- R362, R364: the entries whose turn it is: every entry that no earlier LAUNCH of its queue holds back. -/
def leavable : List PifoEntry → List Nat → List PifoEntry
  | [], _ => []
  | e :: r, held =>
    if held.contains e.queue then leavable r held
    else e :: leavable r (if FePacket.type e.packet = 0 then e.queue :: held else held)

/-- R364: a management thread takes the head, and what may leave while it waits. -/
def execPlacement (s : State) : Host.Outcome State Fault Refusal :=
  .next <|
    let l := leavable s.fe.order []
    let s := l.foldl (fun s e =>
      (if FePacket.type e.packet = 0 then s else s.modEntry e.id fun e => { e with leaving := true }).soon e.event) s
    let s := s.enterPushes s.fe.pushes.length
    if s.fe.inside.isEmpty then s else s.laterX 1 .placement

/-- The kernel and records of an entry, as far as it has any. -/
def State.candidates (s : State) (e : PifoEntry) : List BindRec × Option Kernel :=
  match s.imageOf (s.queueSpace e.queue) e.packet with
  | (some (img, k), _) => (s.recordsFor e.packet img k 0, some k)
  | (none, _) => ([], none)

/-- R364, R375: the placement that the waiting LAUNCH at the head has chosen; where no victims give it one, the one that the
fewest tasks stand in the way of, so that no later LAUNCH takes its cores as they come free (log entry 41). -/
def State.headPlan (s : State) (e : PifoEntry) : Option BindRec :=
  match e.resume with
  | some t => some (s.task t).rec_
  | none =>
    match s.candidates e with
    | (rs, some k) => (s.plan k rs).or (argMin (fun r => (s.inTheWay k r).length) (rs.filter s.reserveOk))
    | (_, none) => none

/-- Two records share a core or a cluster. -/
def clashes (a b : BindRec) : Bool :=
  (frameCores a).any fun c => (frameCores b).any fun d => c == d || clusterOf c == clusterOf d

/-- R371: the window entries of a suspended task in a cluster that need a fresh bank. -/
def State.freshWanted (s : State) (t cl : Nat) (v : Saved) : Nat :=
  ((v.cores.filter fun p => clusterOf p.1 == cl).map fun p =>
    ((List.range 16).filter fun e =>
      bmV (p.2.bm e) && (s.bank (bmIndex (p.2.bm e))).st != .parked t p.1 e).length).foldl (· + ·) 0

/-- R371: every cluster of a suspended task can give it its banks, from the pool or by copying out those of others. -/
def State.resumable (s : State) (t : Nat) (v : Saved) : Bool :=
  ((v.cores.map fun p => clusterOf p.1).eraseDups).all fun cl =>
    decide (s.freshWanted t cl v ≤ s.countBanks cl fun b => match b with
      | .pooled => true
      | .parked u _ _ => u != t
      | _ => false)

/-- R371, R373: a suspended task's own cores are free and its banks to be had; a retired core ends it. -/
def State.tryResume (s : State) (e : PifoEntry) (t : Nat) (blocked : BindRec → Bool) : State :=
  let r := (s.task t).rec_
  match (s.task t).saved with
  | none => s.dropEntry e.id
  | some v =>
    if v.cores.any fun p => (s.core p.1).retired then ((s.dropEntry e.id).dropParked t).endLaunch t 8 0
    else if (frameCores r).all (fun c => (s.holder c).isNone) && s.resumable t v && !blocked r then
      ((s.dropEntry e.id).modTask t fun x => { x with st := .placed }).soon (.taskResume t)
    else s

/-- R228, R229, R364: a LAUNCH is checked and placed; one behind a waiting LAUNCH keeps clear of its placement. -/
def State.launch (s : State) (e : PifoEntry) : State :=
  let ahead := (s.fe.order.takeWhile fun x => x.id != e.id).filter fun x => FePacket.type x.packet == 0
  if ahead.any fun x => x.queue == e.queue then s
  else
    let blocked (r : BindRec) : Bool :=
      match ahead with
      | [] => false
      | h :: _ => match s.headPlan h with
        | some b => clashes b r
        | none => false
    match e.resume with
    | some t => s.tryResume e t blocked
    | none =>
      let asid := s.queueSpace e.queue
      match s.imageOf asid e.packet with
      | (none, s) => s.finishEntry e stFormat 0
      | (some (img, k), s) =>
        let bad := s.launchRefusal asid e.packet k
        if bad ≠ 0 then s.finishEntry e bad 0
        else
          match s.choose ((List.range 256).filter fun t => (Tab.find s.fe.tasks t).isNone) with
          | (none, s) => s
          | (some t, s) =>
            let rs := s.recordsFor e.packet img k t
            match s.choose (rs.filter fun r => s.reserveOk r && s.fits k r && !blocked r) with
            | (some r, s) => s.place e asid t r k
            | (none, s) =>
              if rs.isEmpty then s.finishEntry e stGeom 0
              else if ahead.isEmpty then s.weighVictims k rs
              else s

def execLaunchPacket (entry : Nat) (s : State) : Host.Outcome State Fault Refusal :=
  .next <|
    match s.entry? entry with
    | some e => if FePacket.type e.packet = 0 then s.launch e else s
    | none => s

/-- R360: KILL: the task ends, whatever its restart policy, and then the packet completes. -/
def execKillPacket (entry : Nat) (s : State) : Host.Outcome State Fault Refusal :=
  .next (s.carry entry fun e s =>
    let t := bits (FePacket.dw e.packet 1) 0 8
    let s := s.killTask t
    if s.gone t then s.finishEntry e 0 0 else s.later 1 (.killPacket entry))

/-! ### DRAIN and KILL (R368, R369) -/

/-- R369: the task's names are frozen; it runs on, its ports take no more data (State.portShut), and the drain limit runs. -/
def State.startDrain (s : State) (t : Nat) : State :=
  match (s.task t).st with
  | .draining n => (s.freezeNames t true).later (2 * n) (.drainLimitExpire t)
  | .running => ((s.freezeNames t true).modTask t fun x => { x with st := .draining 80000 }).later 160000 (.drainLimitExpire t)
  | _ => s

def execPreemptDrain (task : Nat) (s : State) : Host.Outcome State Fault Refusal := onTask task s (s.startDrain task)

/-- R368: a task that has outrun its drain is a victim that the LAUNCH at the head decides again, without row 1. -/
def State.expireDrain (s : State) (t : Nat) : State :=
  match (s.task t).st with
  | .draining _ => (s.modTask t fun x => { x with st := .draining 0 }).wakeManager
  | _ => s

def execDrainLimitExpire (task : Nat) (s : State) : Host.Outcome State Fault Refusal := onTask task s (s.expireDrain task)

/-- R369: KILL; until what it lets finish has finished it comes again. -/
def execPreemptKill (task : Nat) (s : State) : Host.Outcome State Fault Refusal :=
  onTask task s <|
    if (s.task task).st = .suspended then s
    else
      let s := s.killTask task
      if s.gone task then s else s.later 1 (.preemptKill task)

/-! ### CHECKPOINT (R369, R371, R372) -/

/-- R369: the task's names are frozen; lenses stop at their interval ends and slots stop issuing while the task is in this
state (State.drains, State.ceases). -/
def State.startCheckpoint (s : State) (t : Nat) : State :=
  match (s.task t).st with
  | .running | .draining _ =>
    ((s.freezeNames t true).modTask t fun x => { x with st := .checkpointing }).laterX 1 (.checkpointSave t)
  | _ => s

def execPreemptCheckpoint (task : Nat) (s : State) : Host.Outcome State Fault Refusal :=
  onTask task s (s.startCheckpoint task)

/-- R369: the slot's results are visible, its accesses over, its beats done, and it stalls on no access, query or fence. -/
def Slot.drained (sl : Slot) : Bool :=
  sl.flights.isEmpty && sl.vloads.isEmpty && sl.accs.all (fun a => a.isPerformed && a.ended) && sl.pends.isEmpty &&
    !sl.stalled

/-- R369: the core's slots, engines, NI, gives, attaches and wheel writes are at rest. -/
def Core.drained (x : Core) : Bool :=
  (x.slots.all fun p => p.2.drained) && !x.beatsLeft && x.gives.isEmpty && x.eng0.isEmpty && x.eng1.isEmpty &&
    x.guq.isEmpty && x.fins.isEmpty && x.walks.isEmpty && x.wheelDue.isEmpty &&
    !(x.nodes.any fun p => p.2.st == .running && p.2.kind != 4) &&
    !((List.range 16).any fun e => bmPend (x.bm e)) && x.ags.all fun p => p.2.pending == 0 && p.2.walk.isNone

/-- R369: the lens stands at an interval end and its wave has run out; what a list that is over leaves behind never moves. -/
def Lens.drained (l : Lens) : Bool :=
  l.st != .fusing && !l.freezing && l.open_.isEmpty && l.ctabs.isEmpty && (!l.seq.active || l.seq.ofs == 0) &&
    (!l.moving || (l.waves.isEmpty && l.wires.isEmpty))

/-- R249, R253: bits or a release that a core is still to see. -/
def Due.owes (cs : List Nat) : Due → Bool
  | .ev (.notifyArrive c _ _) | .ev (.barrierRelease c _) | .ev (.barrierArrival c _) | .ev (.wheelSwitch c) => cs.contains c
  | _ => false

/-- R369: everything of a task is at rest, and none of its packets is on its way. -/
def State.drained (s : State) (t : Nat) : Bool :=
  let cs := s.liveCores (s.task t).rec_
  (cs.all fun c => (s.core c).drained && s.niQuiet c) && (s.lenses.all fun p => p.1 / 64 != t || p.2.drained) &&
    !(s.packets.any fun p => cs.contains p.src || cs.contains p.dst) &&
    !(s.coming.any fun e => (Due.ev e.2).owes cs) && !(s.agenda.any fun d => d.owes cs)

/-! ### The save area (R372; what the rule gives no place inside its parts is placed by log entry 16) -/

/-- R191: a token as 37 bits. -/
def Token.word (t : Token) : Nat := b2n t.hdr * 2 ^ 36 + t.ft.toNat * 2 ^ 32 + t.data.toNat

/-- R372: the per-slot system registers that the save area holds. -/
def savedSrns : List Nat := [0x00, 0x10, 0x11, 0x12, 0x13, 0x14, 0x15, 0x18, 0x19, 0x1A, 0x21, 0x24, 0x25, 0x40, 0x44, 0x45, 0x50, 0x60]

/-- Bytes at an offset of a part of the save area. -/
def State.put (s : State) (base off n v : Nat) : State := s.poke (dpaKey (base + off)) (leBytes n v)

/-- A list of values, n bytes each. -/
def State.putAll (s : State) (base n : Nat) (l : List Nat) : State := s.poke (dpaKey base) (l.flatMap (leBytes n))

def lifeCode : Life → Nat
  | .unbound => 0
  | .boundIdle => 1
  | .running => 2
  | .waiting => 3
  | .halted => 4
  | .faulted => 5

/-- R11: a wait as its kind and what it waits for. -/
def Wait.code : Wait → List Nat
  | .gwait left seen _ =>
    [1, (left.map fun n => 2 ^ (n % 64)).foldl (· ||| ·) 0, (seen.map fun n => 2 ^ (n % 64)).foldl (· ||| ·) 0]
  | .waitn all mask rd => [2, mask.toNat, b2n all + 256 * rd.toNat]
  | .bar id => [3, id, 0]

def DueFault.code (f : DueFault) : List Nat :=
  [f.cause.toNat + 256 * (match f.own with
      | some p => 65536 + p.toNat
      | none => 0), f.addr.toNat, f.info.toNat, f.rank]

/-- R372: a slot's part of a core record. -/
def State.saveSlot (s : State) (base : Nat) (r : SlotRef) : State :=
  let sl := s.slot r
  let s := s.putAll base 8 ((List.range 32).map fun k => (sl.gr (BitVec.ofNat 5 k)).toNat)
  let s := s.putAll (base + 0x100) 8
    ([sl.p.toNat + 256 * sl.pc.toNat + 2 ^ 24 * lifeCode sl.life + 2 ^ 32 * b2n sl.h] ++
      [sl.loop1, sl.loop2].flatMap (fun l => [l.start.toNat + 65536 * l.stop.toNat, l.remaining.toNat]) ++
      match sl.wait with
      | some w => w.code
      | none => [])
  let s := savedSrns.foldl (fun u k => u.put base (0x200 + 8 * k) 8 (s.readSr r k).toNat) s
  let s := s.putAll (base + 0x600) 256 ((List.range 16).map fun k => (sl.vr (BitVec.ofNat 4 k)).toNat)
  let s := s.putAll (base + 0x1600) 8 ((List.range 8).map fun k => (sl.mr (BitVec.ofNat 3 k)).toNat)
  s.putAll (base + 0x1640) 8 ((sl.due.take 78).flatMap DueFault.code)

def Recv.code (r : Recv) : List Nat :=
  [1 + 256 * r.slot + 65536 * b2n r.placed + 2 ^ 24 * r.bit.toNat + 2 ^ 32 * r.len, r.dest.toNat, r.first.toNat, r.last.toNat]

def nodeCode (st : NodeSt) : Nat :=
  match st with
  | .free => 0
  | .armed => 1
  | .running => 2
  | .done => 3

/-- R315 to R322: a node slot in 128 bytes: its fields, its words, and its first 40 successors. -/
def Node.code (n : Node) : List Nat :=
  [nodeCode n.st + 256 * n.owner + 65536 * n.kind.toNat + 2 ^ 24 * n.chan + 2 ^ 32 * n.pred +
      2 ^ 40 * (b2n n.autofree + 2 * b2n n.deliver) + 2 ^ 48 * n.status.toNat + 2 ^ 56 * n.detail.toNat,
    n.comp.toNat, n.arg0.toNat, n.arg1.toNat, n.key.toNat, n.seq.toNat + 2 ^ 32 * n.flags.toNat + 2 ^ 40 * n.succ.length,
    (n.ntv.map fun p => 1 + 256 * p.1 + 65536 * p.2).getD 0, n.vaFail.toNat] ++
    (List.range 5).map fun i => leNat (((n.succ.drop (8 * i)).take 8).map (BitVec.ofNat 8))

/-- R372: core state. -/
def State.saveCoreState (s : State) (base c : Nat) : State :=
  let x := s.core c
  let s := s.putAll base 8 ((List.range 16).map fun e => (x.bm e).toNat)
  let s := s.put base 0x80 8 x.bnslot.toNat
  let s := s.putAll (base + 0x88) 2 ((List.range 8).map fun k => (x.slot k).notify.toNat)
  let s := s.put base 0x98 8 x.latch.toNat
  let s := s.putAll (base + 0xA0) 8 ((List.range 4).map fun k => Tab.at x.gens k 0)
  let s := x.recv.foldl (fun s p => s.putAll (base + 0x100 + 40 * p.1) 8
    ((match p.2.armed with
      | some r => r.code
      | none => [0, 0, 0, 0]) ++ [p.2.lastSlot + 256 * b2n p.2.late])) s
  x.nodes.foldl (fun s p => s.putAll (base + 0x1000 + 128 * p.1) 8 p.2.code) s

def AgSt.code : AgSt → Nat
  | .empty => 0
  | .loaded => 1
  | .run => 2
  | .starve => 3
  | .edgeWait => 4
  | .done => 5
  | .bad => 6
  | .fault => 7

/-- R206 to R208: a lane's progress in 8 bytes. -/
def AgPos.code (p : AgPos) : Nat := p.i2 % 65536 + p.i1 % 65536 * 2 ^ 16 + p.sub % 256 * 2 ^ 32 + p.n % 2 ^ 24 * 2 ^ 40

/-- R372: the AGs of a core, and the sequencer of a lens whose origin it is. -/
def State.saveAgs (s : State) (base t c : Nat) : State :=
  let s := (s.core c).ags.foldl (fun s p =>
    let g := p.2
    let b := base + 1024 * p.1
    let s := s.put b 0 64 g.desc.toNat
    let s := s.putAll (b + 64) 8 [g.st.code, g.daddr.toNat, g.i2, g.lens, g.started, g.eset.toNat]
    let s := g.lanes.foldl (fun s q => s.put b (0x80 + 8 * q.1) 8 q.2.pos.code) s
    s.putAll (b + 0x300) 16 ((g.ext.take 16).map (·.toNat))) s
  match s.lenses.find? fun p => p.1 / 64 == t && p.2.origin == c with
  | none => s
  | some (_, l) =>
    s.putAll (base + 0x1000) 8
      ([l.seq.base.toNat, l.seq.row, l.seq.cur.toNat % 2 ^ 64, l.seq.cur.toNat / 2 ^ 64, l.seq.rep, l.seq.ofs, l.restart.toNat,
          l.seq.loops.length] ++ l.seq.loops.flatMap fun q => [q.1, q.2.1, q.2.2])

/-- R372: the edge buffers of a core: 32 entries of a lane, head first, unused ones zero; then the converters, and the
tokens of channels on their way to the core's lanes. -/
def State.saveLanes (s : State) (base t c : Nat) : State :=
  let x := s.core c
  let s := x.lanes.foldl (fun s p =>
    let a := p.2.conv
    let s := s.putAll (base + 0x18000 + 256 * p.1) 8 ((p.2.fifo.take 32).map Token.word)
    s.put base (0x28000 + 8 * p.1) 8
      (a.cft.toNat + 256 * a.scale.toNat + 65536 * a.spx.toNat + 2 ^ 24 * a.seq.toNat + 2 ^ 40 * b2n a.bad + 2 ^ 48 * b2n p.2.half)) s
  let fly := ((s.task t).kernel.routes.zipIdx.flatMap fun p =>
    (s.chan (chanKey t p.2)).fly.filterMap fun k =>
      match p.1.dst[k.range]? with
      | some r =>
        let (d, e, i) := s.rangeLane t r k.lane
        if d = c then some [k.tok.word, 65536 * p.2 + 64 * e + i] else none
      | none => none)
  s.putAll (base + 0x28800) 8 (fly.flatMap id)

/-- R372: the cells and control tables of a lens, in the records of the cores of its facets, which lie at `rec_`. -/
def State.saveCells (s : State) (rec_ : Nat → Nat) (l : Lens) : State :=
  let at_ (a b : Nat) : Nat × Nat :=
    let (i, j) := (l.physRow a, l.physCol b)
    (rec_ (coreAt (l.ox + j / 64) (l.oy + i / 64)), 64 * (i % 64) + j % 64)
  let s := l.cells.foldl (fun s p =>
    let (base, n) := at_ (p.1 / 1536) (p.1 % 1536)
    let c := p.2
    let s := s.putAll (base + 0x30000 + 32 * n) 4
      [c.w0.toNat, c.w1.toNat, c.acc0.toNat, c.acc1.toNat, c.accs0.toNat, c.accs1.toNat, c.held.toNat % 2 ^ 32, c.held.toNat / 2 ^ 32]
    s.putAll (base + 0x50000 + 16 * n) 4 [b2n c.pq, c.pk.toNat, c.pout.toNat % 2 ^ 32, c.pout.toNat / 2 ^ 32]) s
  l.table.foldl (fun s p =>
    let (base, n) := at_ (p.1 / 16 / 1536) (p.1 / 16 % 1536)
    s.put base (0x60000 + 128 * n + 8 * (p.1 % 16)) 8 p.2.toNat) s

/-- R372: the header: the task, its frame, and the time of the save. -/
def State.saveHeader (s : State) (t : Nat) : State :=
  let r := (s.task t).rec_
  let c := ((s.liveCores r).head?).getD 0
  s.putAll r.save.toNat 8
    [t, r.ox + 256 * r.oy + 65536 * r.fw + 2 ^ 24 * r.fh, (s.cycle c).toNat, (s.core c).hbeat.toNat, 0]

/-- R372: the save area of a task, but for the banks. -/
def State.saveArea (s : State) (t : Nat) : State :=
  let r := (s.task t).rec_
  let cs := s.liveCores r
  let at_ (i : Nat) : Nat := r.save.toNat + 65536 + 1048576 * i
  let s := s.clear r.save.toNat (65536 + 1048576 * cs.length)
  let s := cs.zipIdx.foldl (fun s p =>
    let b := at_ p.2
    let s := (List.range 8).foldl (fun s k => s.saveSlot (b + 8192 * k) ⟨p.1, k⟩) s
    ((s.saveCoreState (b + 0x10000) p.1).saveAgs (b + 0x14000) t p.1).saveLanes b t p.1) (s.saveHeader t)
  (s.lenses.filter fun p => p.1 / 64 == t).foldl (fun s p => s.saveCells (fun c => at_ (cs.idxOf c)) p.2) s

/-- R369, R371, R372: the state is scanned out, banks are parked, slots become UNBOUND, and the task waits in the PIFO. -/
def State.suspend (s : State) (t : Nat) : State :=
  let k := s.task t
  let cs := s.liveCores k.rec_
  let saved : Saved :=
    { cycle := s.now, cores := cs.map fun c => (c, s.core c), lenses := s.lenses.filter fun p => p.1 / 64 == t,
      chans := s.chans.filter fun p => p.1 / 4096 == t, copies := [] }
  let s := (s.saveArea t).releaseTask t false false
  let s := cs.foldl (fun s c => s.leaveBanks c fun e => .parked t c e) s
  let s := s.modTask t fun x => { x with st := .suspended, saved := some saved }
  let s := s.push k.queue k.index k.packet (some t)
  (cs.map clusterOf).eraseDups.foldl (fun s cl => s.markIdle cl) s

def execCheckpointSave (task : Nat) (s : State) : Host.Outcome State Fault Refusal :=
  onTask task s <|
    if (s.task task).st ≠ .checkpointing then s
    else if s.drained task then s.suspend task
    else s.laterX 1 (.checkpointSave task)

/-! ### Resuming (R371, R373) -/

/-- R373: armed placed receives are advanced. -/
def RecvChan.shift (r : RecvChan) (d : Nat) : RecvChan :=
  { r with armed := r.armed.map fun a => if a.placed then { a with first := a.first + w64 d, last := a.last + w64 d } else a }

/-- R11, R373: a saved core, its slots BOUND-IDLE, its time references advanced. -/
def Core.resume (x now : Core) (d : Nat) : Core :=
  { x with
    skew := now.skew
    bmap := now.bmap
    purged := now.purged
    stale := now.stale
    seqTo := now.seqTo
    seqFrom := now.seqFrom
    reorder := now.reorder
    tlb := now.tlb
    gates := 15
    syncref := x.syncref + w64 d
    recv := x.recv.map fun p => (p.1, p.2.shift d)
    slots := x.slots.map fun p => (p.1, if p.2.life = .unbound then p.2 else { p.2 with life := .boundIdle, gate := .closed }) }

/-- R371: an entry gets its parked bank back. -/
def State.unparkOwn (s : State) (t c e : Nat) (w : Word) : State :=
  let s := s.modCore c fun x => x.setBm e w
  if bmV w && (s.bank (bmIndex w)).st == .parked t c e then s.modBank (bmIndex w) fun b => { b with st := .attached c e } else s

/-- R371: an entry that has lost its bank gets a fresh one, filled from the copy. -/
def State.refill (s : State) (t c e : Nat) (v : Saved) (w : Word) : State :=
  if !bmV w || (s.bank (bmIndex w)).st == .attached c e then s
  else
    let s := (s.poolParked (clusterOf c) 1 128).attach c e
    let s := s.modCore c fun x => x.setBm e (setBits (x.bm e) 61 1 (b2n (bmWp w)))
    match v.copies.findIdx? fun p => p == (c, e) with
    | some n =>
      s.poke (bankKey (bmIndex ((s.core c).bm e)) 0) (s.bytes (dpaKey (copyPlace (s.task t).rec_.save v.cores.length n)) 262144)
    | none => s

/-- R371: every entry of a task: first those whose banks are still reserved, then the others. -/
def State.reattach (s : State) (t : Nat) (v : Saved) : State :=
  let each (f : State → Nat → Nat → Word → State) (s : State) : State :=
    v.cores.foldl (fun s p => (List.range 16).foldl (fun s e => f s p.1 e (p.2.bm e)) s) s
  each (fun s c e w => s.refill t c e v w) (each (fun s c e w => s.unparkOwn t c e w) s)

/-- R246, R373: the windows of placed receives end again, and the messages that waited are sent. -/
def State.rearm (s : State) (c : Nat) : State :=
  let x := s.core c
  let s := x.recv.foldl (fun s p =>
    match p.2.armed with
    | some r => if r.placed then s.later ((r.last + 1 - s.cycle c).toNat) (.recvWindowExpire c p.1) else s
    | none => s) s
  if x.sendq.isEmpty then s else s.later 1 (.headFlitLeaves c)

/-- R171: the delay node is not saved. -/
def Cell.resumed (c : Cell) : Cell := { c with dn := 0 }

/-- R373: the saved state comes back, the purge wave runs again, and the gates open after it. -/
def State.resume (s : State) (t : Nat) (v : Saved) : State :=
  let r := (s.task t).rec_
  let cls := (v.cores.map fun p => clusterOf p.1).eraseDups
  if cls.any fun c => (s.cluster c).gating != .awake then
    (cls.foldl (fun s c => s.startWake c) s).laterX 1 (.taskResume t)
  -- R242: as at dispatch
  else if v.cores.any fun p => !(s.core p.1).sendq.isEmpty then s.later 1 (.taskResume t)
  else
    let d := s.now - v.cycle
    let s := v.cores.foldl (fun s p => s.setCore p.1 { (p.2.resume (s.core p.1) d).purge with hbeat := s.ticksAt p.1 }) s
    let s := (s.reattach t v).freezeNames t false
    let s := v.cores.foldl (fun s p => s.rearm p.1) s
    let s := (frameCores r).foldl (fun s c => s.setExcuse c (s.isHole c)) s
    let s := v.lenses.foldl (fun s p => s.setLens p.1 { p.2 with cells := p.2.cells.map fun c => (c.1, c.2.resumed) }) s
    let s := v.chans.foldl (fun s p => s.modChan p.1 fun _ => p.2) s
    (s.modTask t fun x => { x with st := .bound }).laterX 1 (.gatesOpen t)

def execTaskResume (task : Nat) (s : State) : Host.Outcome State Fault Refusal :=
  onTask task s <|
    match (s.task task).saved with
    | some v => if (s.task task).st = .placed then s.resume task v else s
    | none => s

/-- R13: where a resumed slot's word issues: its pre-delay is spent again, from its first turn; a WAITC stall goes on. -/
def Gate.resumed (g : Gate) (turn : Nat) : Gate :=
  match g with
  | .fromTurn t => .fromTurn (Nat.max t (turn + 1))
  | .fromCycle _ | .offer => .fromTurn (turn + 1)
  | .waitc t target => .waitc (Nat.max t (turn + 1)) target
  | g => g

/-- R11, R373: the slots of a resumed core go on as they were saved. -/
def Core.wakeSaved (x old : Core) : Core :=
  { x with
    slots := x.slots.map fun p =>
      let o := old.slot p.1
      (p.1, if p.2.life = .boundIdle then { p.2 with life := o.life, gate := o.gate.resumed p.2.turn } else p.2) }

/-- R366, R373: the gates open. -/
def execGatesOpen (task : Nat) (s : State) : Host.Outcome State Fault Refusal :=
  onTask task s <|
    if (s.task task).st ≠ .bound then s
    else
      match (s.task task).saved with
      | some v =>
        let s := v.cores.foldl (fun s p => s.modCore p.1 fun x => x.wakeSaved p.2) s
        -- R385: a release that was announced while the task was suspended
        ((s.modTask task fun x => { x with saved := none }).openGates task).releaseBars
      | none => s.openGates task

/-- R366, R370: dispatch. -/
def execDispatchBind (task : Nat) (s : State) : Host.Outcome State Fault Refusal :=
  onTask task s (if (s.task task).st = .placed && (s.task task).saved.isNone then s.dispatch task else s)

end Sys2Proof.Machine
end

