-- ==== Sys2Proof/Machine/HostPort.lean ====
section
/-! DEFINITION. The host's ports: ingress (R367), the notify aperture and the wake mailboxes (R339 to R341), the gating of
clusters (R402), the BAR4 window (R389, R391) and the device information block (R390). -/

namespace Sys2Proof.Machine

/-! ### Ingress ports (R210, R367) -/

def State.port (s : State) (p : Nat) : Ingress := Tab.at s.fe.ports p Ingress.reset

def State.modPort (s : State) (p : Nat) (f : Ingress → Ingress) : State :=
  s.modFe fun e => { e with ports := Tab.put e.ports p (f (s.port p)) }

/-- A token as DATA carries it (R191, R367). -/
def tokenOf (w : Word) : Token := ⟨w.getLsbD 36, w.extractLsb' 32 4, w.extractLsb' 0 32⟩

/-- R367: the tokens that a port buffers: 4 KiB of 8 bytes each. -/
def portRoom : Nat := 512

/-- R369: the task that a port feeds does not accept DATA while it is drained. -/
def State.portShut (s : State) (x : Ingress) : Bool :=
  match Tab.find s.fe.configs x.config with
  | some ⟨_, _, _, some t⟩ =>
    match (s.task t).st with
    | .draining _ | .checkpointing | .killing => true
    | _ => false
  | _ => false

/-- R367: DATA that the host holds enters the port's buffer as far as there is room. -/
def State.fillPort (s : State) (p : Nat) : State :=
  let x := s.port p
  if x.held.isEmpty || s.portShut x then s
  else
    let n := portRoom - x.buffer.length
    s.modPort p fun x => { x with buffer := x.buffer ++ (x.held.take n).map tokenOf, held := x.held.drop n }

/-- R366, R367: the gates of a configuration's task are open. -/
def State.gatesOpen (s : State) (k : IngressCfg) : Bool :=
  match k.task with
  | some t => (match (s.task t).st with
    | .running | .draining _ | .checkpointing | .killing => true
    | _ => false)
  | none => false

/-- R210, R367: the port's next token enters its lane of the route, if that lane holds a credit. What a port has taken before
it was refused is still delivered. -/
def State.streamPort (s : State) (p : Nat) : State :=
  let x := s.port p
  match x.buffer, Tab.find s.fe.configs x.config with
  | t :: rest, some k =>
    let n := k.chan
    let task := k.task.getD 0
    match s.routeOf task n with
    | some ⟨none, b :: _⟩ =>
      if x.stat != 0 && s.gatesOpen k && (s.chan (chanKey task n)).st == .bound && s.hasCredit task n 0 b x.next then
        let (c, e, i) := s.rangeLane task b x.next
        let s := (s.earlyPush c).modCore c fun y => y.modLane e i fun a => { a with fifo := a.fifo ++ [t] }
        s.modPort p fun y =>
          { y with buffer := rest, next := (x.next + 1) % b.size, delivered := y.delivered + 1 }
      else s
    | _ => s
  | _, _ => s

/-- R367: STAT as the host reads it. -/
def Ingress.statWord (x : Ingress) : Word := w64 (x.delivered.toNat * 65536 + x.stat.toNat)

/-- A port's work in a P-cycle. -/
def State.pumpPort (s : State) (p : Nat) : State := ((s.fillPort p).streamPort p).fillPort p

def State.pumpPorts (s : State) : State := s.fe.ports.foldl (fun s p => s.pumpPort p.1) s

/-- A LAUNCH that the service thread pushes for a configuration is told from the queue's own by this much. -/
def ingressIndex : Nat := 2 ^ 32

/-- R367: OPEN: the port takes a configuration, whose task is launched unless it is bound or about to be. -/
def State.openPort (s : State) (p : Nat) (d : Word) : State :=
  let n := d.toNat
  match Tab.find s.fe.configs n with
  | none => s.modPort p fun _ => { s.port p with stat := 3, buffer := [], held := [] }
  | some k =>
    let s := s.modPort p fun _ => { Ingress.reset with stat := if s.gatesOpen k then 2 else 1, config := n }
    let pushed := (s.fe.pifo.any fun e => e.queue == k.queue && e.packet == k.packet && e.index == ingressIndex) ||
      s.fe.pushes.any fun e => e.1 == k.queue && e.2.2.1 == k.packet && e.2.1 == ingressIndex
    if k.task.isSome || pushed then s else s.push k.queue ingressIndex k.packet none

def execIngressOpen (port : Nat) (data : Word) (s : State) : Host.Outcome State Fault Refusal :=
  if 16 ≤ port then .fault .noSuchAgent
  else .next (if s.fw.powered then s.openPort port data else s)

/-- R367: DATA: one token for the routed lanes; one that breaks the bit rule is discarded and shuts the port until its next
OPEN. -/
def State.portData (s : State) (p : Nat) (d : Word) : State :=
  let st := (s.port p).stat
  if st == 0 || st == 3 then s
  else if bits d 37 27 ≠ 0 then s.modPort p fun x => { x with stat := 3 }
  else (s.modPort p fun x => { x with held := x.held ++ [d] }).fillPort p

def execIngressData (port : Nat) (data : Word) (s : State) : Host.Outcome State Fault Refusal :=
  if 16 ≤ port then .fault .noSuchAgent
  else .next (if s.fw.powered then s.portData port data else s)

/-! ### The notify aperture (R339 to R341) -/

/-- A host write or request that the loupe counts and that does nothing else (R339, R389, R391). -/
def State.dropHost (s : State) : State := s.modFe fun e => { e with dropped := e.dropped + 1 }

/-- R339: bits arrive at a slot of a core from the host; a slot that is not bound takes none. -/
def State.hostNotify (s : State) (r : SlotRef) (mask : BitVec 16) : State :=
  if (s.slot r).bound then s.notify r mask else s.dropHost

/-- R340: a write for a gated cluster: into its entry of the mailbox, a free entry, or the overflow mask. -/
def Cluster.post (k : Cluster) (core slot : Nat) (mask : BitVec 16) : Cluster :=
  if k.mailbox.any fun m => m.1 == core && m.2.1 == slot then
    { k with mailbox := updFirst (fun m => m.1 == core && m.2.1 == slot) (fun m => (core, slot, m.2.2 ||| mask)) k.mailbox }
  else if k.mailbox.length < 8 then { k with mailbox := k.mailbox ++ [(core, slot, mask)] }
  else { k with overflow := some (k.overflow.getD 0 ||| mask) }

/-- R339, R340: a write of the notify aperture. -/
def State.aperture (s : State) (c : Nat) (d : Word) : State :=
  let slot := bits d 16 3
  let mask := d.extractLsb' 0 16
  let cl := clusterOf c
  if bits d 19 45 ≠ 0 then s.dropHost
  else if (s.cluster cl).gating = .awake then s.hostNotify ⟨c, slot⟩ mask
  else
    let first := (s.cluster cl).mailbox.isEmpty
    let s := s.modCluster cl fun k => k.post c slot mask
    if first then s.startWake cl else s

/-- R339, R389: an offset of the aperture that is no core's is not listed. -/
def execNotifyApertureWrite (offset : Nat) (data : Word) (s : State) : Host.Outcome State Fault Refusal :=
  .next <|
    if !s.fw.powered then s
    else if offset % 64 = 0 ∧ offset / 64 < 768 then s.aperture (offset / 64) data
    else s.dropHost

/-- R340: the mailbox of a cluster that runs again: its entries in order of arrival, then the overflow to every bound
slot. -/
def State.deliverMailbox (s : State) (cl : Nat) : State :=
  let k := s.cluster cl
  let s := s.modCluster cl fun k => { k with mailbox := [], overflow := none }
  let s := k.mailbox.foldl (fun s m => s.hostNotify ⟨m.1, m.2.1⟩ m.2.2) s
  match k.overflow with
  | none => s
  | some mask =>
    ((List.range 768).filter fun c => clusterOf c == cl).foldl (fun s c =>
      (List.range 8).foldl (fun s i =>
        if (s.slot ⟨c, i⟩).bound then
          (s.notify ⟨c, i⟩ mask).modSlot ⟨c, i⟩ fun sl => { sl with wovf := true }
        else s) s) s

def onCluster (cl : Nat) (s : State) : Host.Outcome State Fault Refusal :=
  if cl < 48 then .next s else .fault .noSuchAgent

def execWakeMailboxDeliver (cluster : Nat) (s : State) : Host.Outcome State Fault Refusal :=
  onCluster cluster (if (s.cluster cluster).gating = .awake then s.deliverMailbox cluster else s)

/-! ### Gating (R402) -/

/-- R340, R402: a wake ends: the cluster runs, and its mailbox comes before anything else. -/
def execClusterWake (cluster : Nat) (s : State) : Host.Outcome State Fault Refusal :=
  onCluster cluster <|
    if (s.cluster cluster).gating = .waking then
      ((s.modCluster cluster fun k => { k with gating := .awake }).markIdle cluster).next1 (.wakeMailboxDeliver cluster)
    else s

/-- R402: no core of the cluster has held a task for some time. -/
def State.idleFor (s : State) (cl d : Nat) : Bool :=
  !((List.range 768).any fun c => clusterOf c == cl && (s.holder c).isSome) &&
    decide ((s.cluster cl).idleSince + d ≤ s.now)

/-- R402: 1 ms and 100 ms in P-cycles. -/
def clockGateAfter : Nat := 2000000
def powerGateAfter : Nat := 200000000

/-- R402: firmware clock-gates a cluster that has been idle for 1 ms. -/
def execClockGate (cluster : Nat) (s : State) : Host.Outcome State Fault Refusal :=
  onCluster cluster <|
    if (s.cluster cluster).gating = .awake && s.idleFor cluster clockGateAfter then
      (s.modCluster cluster fun k => { k with gating := .clockGated }).later (powerGateAfter - clockGateAfter)
        (.powerGate cluster)
    else s

/-- R402: only a cluster whose banks are all pooled and that has no core of the class-0 reserve is power-gated. -/
def State.mayPowerGate (s : State) (cl : Nat) : Bool :=
  ((List.range 128).all fun i => (s.bank (cl * 128 + i)).st == .pooled) &&
    !(s.fe.reserve.any fun c => clusterOf c == cl)

/-- R402: power gating; the pooled banks lose their contents. -/
def execPowerGate (cluster : Nat) (s : State) : Host.Outcome State Fault Refusal :=
  onCluster cluster <|
    if (s.cluster cluster).gating = .clockGated && s.idleFor cluster powerGateAfter && s.mayPowerGate cluster then
      let s := s.modCluster cluster fun k => { k with gating := .powerGated }
      (List.range 128).foldl (fun s i => s.zeroBank (cluster * 128 + i)) s
    else s

/-! ### The BAR4 window (R391) -/

/-- R391: WIN4 keeps DIE and BASE. -/
def win4Mask : Word := 0x000FFFFFC0000000

def execWin4Write (data : Word) (s : State) : Host.Outcome State Fault Refusal :=
  .next (if s.fw.powered then s.modFe fun e => { e with win4 := data &&& win4Mask } else s)

def win4Die (w : Word) : Nat := bits w 46 6
def win4Base (w : Word) : Nat := bits w 30 16

/-- R391: the HBM offset that a window byte reaches. -/
def win4Offset (w : Word) (b : Nat) : Nat := win4Base w * 2 ^ 30 + b

/-- 384 GiB. -/
def hbmSize : Nat := 384 * 2 ^ 30

/-- R383: the die of the window is there: this one, or a member of the panel set. -/
def State.win4There (s : State) : Bool :=
  win4Die s.fe.win4 == s.fw.die || (s.dieKnown (win4Die s.fe.win4) && !s.dieCut (win4Die s.fe.win4))

/-- R383, R391: a host read through the window, of this die's HBM or a member's; none is Unsupported Request. -/
def State.bar4Read (s : State) (off len : Nat) : State :=
  let w := s.fe.win4
  let a := win4Offset w off
  if hbmSize < a + len ∨ !s.win4There then s.modFe fun e => { e with lastRead := none }
  else s.modFe fun e => { e with lastRead := some (s.bytes (dpaKey (hbmDpa (win4Die w) a)) len) }

/-- R391: a host write through the window. -/
def State.bar4Write (s : State) (off len : Nat) (v : Word) : State :=
  let w := s.fe.win4
  let a := win4Offset w off
  if hbmSize < a + len ∨ !s.win4There then s.dropHost
  else s.poke (dpaKey (hbmDpa (win4Die w) a)) (leBytes len v.toNat)

def execBar4Access (offset len : Nat) (write : Option Word) (s : State) : Host.Outcome State Fault Refusal :=
  .next <|
    if !s.fw.powered then s
    else match write with
      | none => s.bar4Read offset len
      | some v => s.bar4Write offset (Nat.min len 8) v

/-! ### The device information block (R3, R390) -/

/-- R1, R390: the live cores. -/
def State.liveCoreCount (s : State) : Nat := ((List.range 768).filter fun c => !s.isHole c).length

/-- R3: the sum over live cores of live rows times live columns. -/
def State.liveCells (s : State) : Nat :=
  (((List.range 768).filter fun c => !s.isHole c).map fun c =>
    (s.defect c).rowsLive * (s.defect c).colsLive).foldl (· + ·) 0

/-- R3: peaks in GFLOP/s or GOP/s: cells times MACs per cell times 2 at 4.0 GHz. -/
def matrixPeak (cells macs : Nat) : Nat := cells * macs * 2 * 4

/-- R3: the FP32 vector peak: 8 lanes times 2 at 2.0 GHz per core. -/
def vectorPeak (cores : Nat) : Nat := cores * 8 * 2 * 2

/-- R390: the code of a link width. -/
def widthCode (w : Nat) : Nat := if w = 4 then 1 else if w = 8 then 2 else if w = 16 then 3 else 0

/-- R390: a dword of the device information block; zero before it is published. -/
def State.infoWord (s : State) (off : Nat) : Word :=
  let link (p : Nat) : Word :=
    let l := s.link p
    w64 (l.replays.toNat * 2 ^ 32 + l.retrains.toNat * 65536 + widthCode l.width)
  if !s.fw.infoUp then 0
  else match off with
    | 0x000 => w64 (s.fw.form % 256 * 65536 + s.fw.grade % 65536)
    | 0x008 => w64 (s.liveCells % 2 ^ 32 * 2 ^ 32 + s.liveCoreCount)
    | 0x010 => w64 (matrixPeak s.liveCells 1)
    | 0x018 => w64 (matrixPeak s.liveCells 2)
    | 0x020 => w64 (matrixPeak s.liveCells 4)
    | 0x028 => w64 (vectorPeak s.liveCoreCount)
    | 0x030 => w64 ((if s.fw.member then 1 else if s.fw.stranded then 2 else 0) * 65536 + s.fw.die % 64 * 256 + s.fw.pos % 64)
    | 0x038 => w64 ((s.fw.members.map fun m => 2 ^ (m.1 % 64)).foldl (· + ·) 0)
    | 0x040 => link 0
    | 0x048 => link 1
    | 0x050 => link 2
    | 0x058 => link 3
    | 0x060 => w64 (s.fw.die % 64)
    | _ => 0

end Sys2Proof.Machine
end

