-- ==== Sys2Proof/Machine/Load.lean ====
section
/-! DEFINITION. Weight loading: the manifest, the fetches of its shards and the commit (R392 to R394). -/

namespace Sys2Proof.Machine

/-! ### The manifest (R392) -/

abbrev Shard := BitVec 256

def Shard.dw (x : Shard) (k : Nat) : Word := x.extractLsb' (64 * k) 64
def Shard.host (x : Shard) : Word := Shard.dw x 0
def Shard.dst (x : Shard) : Word := Shard.dw x 1
def Shard.crc (x : Shard) : Nat := bits (Shard.dw x 2) 32 32
def Shard.size (x : Shard) : Nat := bits (Shard.dw x 2) 0 32
def Shard.zero (x : Shard) : Bool := (Shard.dw x 3).getLsbD 1
def Shard.writable (x : Shard) : Bool := (Shard.dw x 3).getLsbD 0

/-- R393: the pages of a shard. -/
def Shard.pages (x : Shard) : Nat := ceilDiv (Shard.size x) 65536

/-- R392: a shard entry keeps its field rules. -/
def Shard.ok (x : Shard) : Bool :=
  bits (Shard.host x) 0 6 == 0 && bits (Shard.dst x) 0 16 == 0 && bits (Shard.dst x) 52 12 == 0 && decide (1 ≤ Shard.size x) &&
    bits (Shard.dw x 3) 2 62 == 0 && (!Shard.zero x || (Shard.host x == 0 && Shard.crc x == 0))

/-- R392: the header keeps its field rules: dwords 0 to 2. -/
def headerOk (h : BitVec 256) : Bool :=
  let n := bits (Shard.dw h 1) 0 32
  Shard.dw h 0 == 0x0000000157364145 && bits (Shard.dw h 1) 44 20 == 0 && decide (1 ≤ n ∧ n ≤ 65535) && Shard.dw h 2 == 0

/-- The virtual page numbers of a shard. -/
def Shard.pageNumbers (x : Shard) : List Nat := (List.range (Shard.pages x)).map fun i => (Shard.dst x).toNat / 65536 + i

/-- R393: a shard shares a page with one of a list. -/
def Shard.shares (x : Shard) (l : List Shard) : Bool :=
  let meet (y : Shard) : Bool :=
    let a := (Shard.dst x).toNat / 65536
    let b := (Shard.dst y).toNat / 65536
    decide (a < b + Shard.pages y) && decide (b < a + Shard.pages x)
  l.any meet

/-- The places of the PTEs of a shard in the tables of a space. -/
def State.shardPlaces (s : State) (asid : Nat) (x : Shard) : List (Option Nat) :=
  s.leafPlaces (s.space asid).root.toNat (Shard.dst x) (Shard.pages x)

/-- R393: a destination PTE that is valid or reserved, or that no table holds. -/
def State.shardTaken (s : State) (asid : Nat) (x : Shard) : Bool :=
  (s.shardPlaces asid x).any fun p => match p with
    | some a => (s.pteAt a).getLsbD 0 || reservedPte (s.pteAt a)
    | none => true

/-- R393: the first entry that breaks a rule, after the entries before it. -/
def State.badShard (s : State) (asid : Nat) : List Shard → List Shard → Nat → Option Nat
  | [], _, _ => none
  | x :: r, before, i =>
    if !Shard.ok x || Shard.shares x before || s.shardTaken asid x then some i else s.badShard asid r (x :: before) (i + 1)

/-! ### Completion (R394) -/

def resultWord (shard refetch pages : Nat) : Word :=
  w64 (shard % 2 ^ 32 * 2 ^ 32 + refetch % 65536 * 65536 + pages % 65536)

/-- The index that stands for no failing shard. -/
def noShard : Nat := 4294967295

/-- R361, R394: RESULT is written, then the completion object. -/
def State.endLoad (s : State) (q index : Nat) (p : FePacket) (status detail shard refetch pages : Nat) : State :=
  let s := (s.feWrite (s.queueSpace q) (FePacket.dw p 1 + 24) (leBytes 8 (resultWord shard refetch pages).toNat)).2
  (s.complete q index status detail (FePacket.done p)).wakeManager

/-! ### LOADW (R393) -/

/-- R393: pages of a space are shared out among the shards. -/
def dealPages : List Shard → List Word → List (List Word)
  | [], _ => []
  | x :: r, l => l.take (Shard.pages x) :: dealPages r (l.drop (Shard.pages x))

/-- Bytes fill the pages of a shard, and the rest of the last page is zero. -/
def State.fillPages (s : State) (pages : List Word) (bs : List Byte) : State :=
  pages.zipIdx.foldl (fun s p =>
    let part := (bs.drop (65536 * p.2)).take 65536
    s.poke (dpaKey p.1.toNat) (part ++ List.replicate (65536 - part.length) 0)) s

/-- The PTEs of a shard are written. -/
def State.putPtes (s : State) (asid : Nat) (x : Shard) (pages : List Word) (f : Word → Word) : State :=
  s.writePtes (((s.shardPlaces asid x).zip pages).filterMap fun p => p.1.map fun a => (a, f p.2))

/-- R393: a page reserved by a load: V = 0, MV = 1. -/
def reservePte (_ : Word) : Word := 2

/-- R393: a page of a load that is done. -/
def shardPte (x : Shard) (page : Word) : Word :=
  w64 (page.toNat / 65536 % 2 ^ 28 * 65536 + b2n (Shard.writable x) * 8 + 4 + 1)

/-- R393: the load begins: its pages are reserved and its fetches start; a shard of zeros needs none. -/
def State.startLoad (s : State) (e : PifoEntry) (asid : Nat) (shards : List Shard) : State :=
  let n := (shards.map Shard.pages).foldl (· + ·) 0
  let sp := s.space asid
  let pages := dealPages shards sp.freePages
  let s := s.modSpace asid fun x => { x with quota := x.quota - n, freePages := x.freePages.drop n }
  let s := (shards.zip pages).foldl (fun s p => s.putPtes asid p.1 p.2 reservePte) s
  let s := (shards.zip pages).foldl (fun s p => if Shard.zero p.1 then s.fillPages p.2 [] else s) s
  let l : Load :=
    { id := e.id, entry := e.id, queue := e.queue, index := e.index, packet := e.packet, asid := asid, shards := shards,
      pages := pages, fetched := shards.map fun x => if Shard.zero x then some [] else none, tries := shards.map fun _ => 0,
      refetch := 0 }
  let s := (s.dropEntry e.id).modFe fun f => { f with loads := f.loads ++ [l] }
  if shards.all Shard.zero then s.soon (.loadwCommit e.id) else s

/-- R392, R393: the manifest is read and checked. -/
def State.loadw (s : State) (e : PifoEntry) : State :=
  let p := e.packet
  let a := FePacket.dw p 1
  let q := s.queueSpace e.queue
  let refuse (s : State) (st dt shard : Nat) : State := (s.dropEntry e.id).endLoad e.queue e.index p st dt shard 0 0
  if a.toNat % 8 ≠ 0 then s.finishEntry e 1 0
  else
    match s.feRead q a 32 with
    | (.error c, s) => s.finishEntry e 7 c.toNat
    | (.ok bs, s) =>
      let h : BitVec 256 := BitVec.ofNat 256 (leNat bs)
      if !headerOk h then refuse s 1 0 noShard
      else
        let n := bits (Shard.dw h 1) 0 32
        let asid := bits (Shard.dw h 1) 32 12
        match s.feRead q (a + 32) (32 * n) with
        | (.error c, s) => s.finishEntry e 7 c.toNat
        | (.ok bs, s) =>
          let shards : List Shard := (List.range n).map fun i => BitVec.ofNat 256 (leNat ((bs.drop (32 * i)).take 32))
          match s.badShard asid shards [] 0 with
          | some i => refuse s 1 (i + 1) i
          | none =>
            let want := (shards.map Shard.pages).foldl (· + ·) 0
            if Nat.min (s.space asid).quota (s.space asid).freePages.length < want then refuse s 5 0 noShard
            else s.startLoad e asid shards

def execLoadwPacket (entry : Nat) (s : State) : Host.Outcome State Fault Refusal :=
  .next (s.carry entry fun e s => s.loadw e)

/-! ### Fetches (R393) -/

/-- CRC-32C of one more byte. -/
def crcByte (c : BitVec 32) (b : Byte) : BitVec 32 :=
  (List.range 8).foldl (fun c _ => if c.getLsbD 0 then (c >>> 1) ^^^ 0x82F63B78 else c >>> 1) (c ^^^ b.setWidth 32)

/-- R392: CRC-32C. -/
def crc32c (bs : List Byte) : BitVec 32 := ~~~(bs.foldl crcByte 0xFFFFFFFF)

def State.modLoad (s : State) (id : Nat) (f : Load → Load) : State :=
  s.modFe fun e => { e with loads := updFirst (fun l => l.id == id) f e.loads }

def State.dropLoad (s : State) (id : Nat) : State := s.modFe fun e => { e with loads := e.loads.filter fun l => l.id != id }

/-- R393: the load fails: its reservations are cleared and its pages free again. -/
def State.loadFails (s : State) (l : Load) (shard code : Nat) : State :=
  let s := (l.shards.zip l.pages).foldl (fun s p => s.putPtes l.asid p.1 p.2 fun _ => 0) s
  let back := l.pages.flatMap id
  let s := s.modSpace l.asid fun x => { x with quota := x.quota + back.length, freePages := x.freePages ++ back }
  (s.dropLoad l.id).endLoad l.queue l.index l.packet 7 code shard l.refetch 0

/-- R393: a shard's fetch ends; bytes whose count or CRC is wrong are fetched again, at most twice. -/
def State.shardFetched (s : State) (l : Load) (i : Nat) (x : Shard) (result : FetchResult) : State :=
  let again : State :=
    if 2 ≤ l.tries.getD i 0 then s.loadFails l i 0x39
    else s.modLoad l.id fun l => { l with tries := setNth l.tries i (l.tries.getD i 0 + 1), refetch := l.refetch + 1 }
  match result with
  | .timeout => s.loadFails l i 0x3A
  | .badCrc => again
  | .good bs =>
    if bs.length ≠ Shard.size x ∨ (crc32c bs).toNat ≠ Shard.crc x then again
    else
      let s := s.fillPages (l.pages.getD i []) bs
      let done := setNth l.fetched i (some [])
      let s := s.modLoad l.id fun l => { l with fetched := done }
      if done.all Option.isSome then s.soon (.loadwCommit l.id) else s

def execLoadwShardFetch (load shard : Nat) (result : FetchResult) (s : State) : Host.Outcome State Fault Refusal :=
  .next <|
    match s.fe.loads.find? fun l => l.id == load with
    | none => s
    | some l =>
      match l.shards[shard]?, l.fetched[shard]? with
      | some x, some none => s.shardFetched l shard x result
      | _, _ => s

/-! ### The commit (R393) -/

/-- R393: every PTE of the load becomes valid in one step, which no walk divides. -/
def State.commitLoad (s : State) (l : Load) : State :=
  let s := (l.shards.zip l.pages).foldl (fun s p => s.putPtes l.asid p.1 p.2 (shardPte p.1)) s
  (s.dropLoad l.id).endLoad l.queue l.index l.packet 0 0 noShard l.refetch (l.pages.map List.length).sum

def execLoadwCommit (load : Nat) (s : State) : Host.Outcome State Fault Refusal :=
  .next <|
    match s.fe.loads.find? fun l => l.id == load with
    | some l => if l.fetched.all Option.isSome then s.commitLoad l else s
    | none => s

end Sys2Proof.Machine
end

