-- ==== Sys2Proof/Machine/Service.lean ====
section
/-! DEFINITION. The die in its panel and its service: links (R379 to R382), power and reset (R395, R400), temperature
(R401, R189), timing classes (R282), soft errors and retirement (R352, R378, R403), the loupe (R404, R405), firmware,
ownership and measurements (R396 to R398). -/

namespace Sys2Proof.Machine

/-- What firmware does, only booted firmware does. -/
def State.firmware (s t : State) : Host.Outcome State Fault Refusal := .next (if s.fw.powered && s.fw.booted then t else s)

/-! ### The retirement of a core (R352, R378) -/

/-- R352 step 6: the retirement notice: task, place, name, whether a lens froze, and the P-cycle. -/
def State.noticeWord (s : State) (t c : Nat) (name : BitVec 16) (froze : Bool) : BitVec 256 :=
  BitVec.ofNat 256 (s.now % 2 ^ 64 * 2 ^ 64 + b2n froze * 2 ^ 48 + name.toNat * 2 ^ 32 + s.fw.die % 64 * 2 ^ 24 +
    coreY c * 65536 + coreX c * 256 + t % 256)

/-- R359, R361: a notice enters the ring of a queue, and its vector is raised. -/
def State.postNotice (s : State) (q : Nat) (n : BitVec 256) : State :=
  let x := s.queue q
  if x.notice = 0 then s
  else
    let s := s.poke (s.ringKey x (x.notice.toNat + 32 * (x.noticeIdx % 64))) (leBytes 32 n.toNat)
    (s.modQueue q fun x => { x with noticeIdx := x.noticeIdx + 1 }).raiseMsix x.msix.toNat

/-- R352: a core that is retired keeps nothing of its task but what its lenses need for their freeze. -/
def Core.retire (x : Core) : Core :=
  { x with
    slots := []
    task := none
    retired := true
    retiring := false
    wheel := 0
    wheelNext := 0
    wheelDue := []
    ncache := []
    walks := []
    sendq := []
    recv := []
    gives := []
    nodes := []
    fins := []
    eng0 := []
    eng1 := []
    guq := [] }

/-- R352 step 2: a record for each bound slot. -/
def State.retireRecords (s : State) (c : Nat) : State :=
  (s.core c).slots.foldl (fun s p => if p.2.bound then s.record ⟨c, p.1⟩ (p.2.pc.setWidth 64) 0x38 0 0 else s) s

/-- R346, R352: the event of a retirement. -/
def Lens.retireEvent (l : Lens) (c : Nat) : RegionEvent :=
  { cause := 0x38, detail := 0, fcyc := l.acyc, vec := (l.seq.row, l.seq.rep, l.seq.ofs), agent := none, core := c,
    row := 0xFFFF, col := 0xFFFF, lane := 0, edge := 0, aga := 0, agb := 0, bank := 0, addr := 0 }

/-- The fused lenses that hold a core's facet and are not frozen. -/
def State.lensesOf (s : State) (c : Nat) : List Nat :=
  (s.lenses.filter fun p => p.2.fused && p.2.st != .frozen && p.2.cores.contains c).map (·.1)

/-- R352 step 3: the freeze lines of the lenses of a core. -/
def State.freezeFor (s : State) (c : Nat) : State :=
  (s.lensesOf c).foldl (fun s key =>
    let l := s.lens key
    if l.freezing then s else s.setLens key (l.raise (l.retireEvent c))) s

/-- R352: the banks of a core are detached, zeroed and pooled. -/
def State.poolBanks (s : State) (c : Nat) : State :=
  let held := ((List.range 16).map fun e => (s.core c).bm e).filter bmV
  let s := held.foldl (fun s w => s.zeroBank (bmIndex w)) s
  s.leaveBanks c fun _ => .pooled

/-- R234, R352 step 5: V = 0 and RET = 1. -/
def retiredEntry (w : Word) : Word := setBits (setBits w 63 1 0) 61 1 1

/-- R352, R378: firmware retires a core; `router` when its router has failed too. -/
def State.retireCore (s : State) (c : Nat) (router : Bool) : State :=
  let task := (s.core c).task
  let froze := !(s.lensesOf c).isEmpty
  let s := if router then s.modFw fun f => { f with deadRouters := f.deadRouters ++ [c] } else s
  let s := s.modFw fun f => { f with loupe := { f.loupe with retirements := f.loupe.retirements ++ [(c, 0x38)] } }
  let name := s.ownName c
  let rec_ := s.recOf c
  let s := (((s.retireRecords c).freezeFor c).setExcuse c true).modCore c fun x => { x with retired := true }
  let s := (((s.checkBarriers c).forget [c] false).poolBanks c).modCore c Core.retire
  let s := if router then s.resendAll else s
  match task with
  | none => s
  | some t =>
    let place := dpaKey (namePlace rec_ c)
    let s := (s.poke place (leBytes 8 (retiredEntry (w64 (s.word place 8))).toNat)).invalidateTask t name
    let n := s.noticeWord t c name froze
    let s := (s.postNotice (s.task t).queue n).modFw fun f => { f with service := f.service ++ [.retirement n] }
    s.modTask t fun k => { k with worst := some (match k.worst with
      | some w => if w.toNat < 0x38 then w else 0x38
      | none => 0x38) }

/-- R128: the slots of a core that is to be retired issue nothing more, and first run the beats of their vector
instructions. -/
def State.startRetire (s : State) (c : Nat) (router : Bool) : State :=
  if (s.core c).beatsLeft then (s.modCore c fun x => { x with retiring := true }).work 1 (.retire c router)
  else s.retireCore c router

/-- A retirement that has waited. -/
def State.retireAgain (s : State) (c : Nat) (router : Bool) : State :=
  if s.fw.booted && !(s.core c).retired then s.startRetire c router else s

def execCoreRetire (core : Nat) (router : Bool) (s : State) : Host.Outcome State Fault Refusal :=
  onCore core (s.retireAgain core router)

/-- R403: firmware retires a core after 4 uncorrectable errors in its prism memories within one hour (in P-cycles). -/
def prismErrorWindow : Nat := 7200000000000

def State.failedPrisms (s : State) : List Nat :=
  (s.fw.memErrors.filter fun p =>
    !(s.core p.1).retired && !(s.core p.1).retiring && decide (4 ≤ (p.2.filter fun t => decide (s.now < t + prismErrorWindow)).length)).map (·.1)

def State.retireFailed (s : State) : State :=
  if s.fw.booted then s.failedPrisms.foldl (fun s c => s.startRetire c false) s else s

/-! ### Panel links (R379 to R382) -/

def onPort (p : Nat) (s : State) : Host.Outcome State Fault Refusal := if p < 4 then .next s else .fault .noSuchAgent

/-- R380: a number of lanes that a link can train at. -/
def linkWidth (w : Nat) : Bool := w == 4 || w == 8 || w == 16

/-- R389: a device event. -/
def State.deviceEvent (s : State) : State := s.raiseMsix 0

def State.trained (s : State) : Bool := [0, 1, 2, 3].all fun p => (s.link p).st != .reset

/-- The position beside another, by the port that leads there. -/
def neighbour (a p : Nat) : Option Nat :=
  match p with
  | 0 => if a / 8 = 0 then none else some (a - 8)
  | 1 => if a % 8 = 7 then none else some (a + 1)
  | 2 => if a / 8 = 7 then none else some (a + 8)
  | _ => if a % 8 = 0 then none else some (a - 1)

/-- R380, R382: a die's port: its link is up and both of its routers live, as the boot agents of the n-th boot know it. -/
def State.portUp (s : State) (n a p : Nat) : Bool :=
  let dead := if a = s.fw.pos then s.deadRouters else Config.panelDead n a
  (if a = s.fw.pos then (s.link p).st == .up else Config.panelLink n a p) &&
    !dead.contains (linkRouter p false) && !dead.contains (linkRouter p true)

/-- R382: the crossings by some ports that lead on from a list of positions. -/
def State.crossings (s : State) (n : Nat) (part ports l : List Nat) : List Nat :=
  (l ++ l.flatMap fun a => ports.filterMap fun p =>
    match neighbour a p with
    | some b => if part.contains b && s.portUp n a p && s.portUp n b ((p + 2) % 4) then some b else none
    | none => none).eraseDups

/-- R239, R382: the positions to which a west-first path leads: the crossings to the west come first (log entry 18). -/
def State.westFirst (s : State) (n : Nat) (part : List Nat) (a : Nat) : List Nat :=
  let west := (List.range 8).foldl (fun l _ => s.crossings n part [3] l) [a]
  (List.range 64).foldl (fun l _ => s.crossings n part [0, 1, 2] l) west

/-- R382: the largest set of a list in which every pair agrees; of equally large ones that with the earliest first
element. -/
def largest (agree : Nat → Nat → Bool) : Nat → List Nat → List Nat
  | 0, _ => []
  | _, [] => []
  | n + 1, a :: r =>
    let with_ := a :: largest agree n (r.filter (agree a))
    if with_.length = r.length + 1 then with_
    else
      let without := largest agree n r
      if without.length ≤ with_.length then with_ else without

/-- R382 step 1: the panel set of the n-th boot. This die takes part; it knows its own links. -/
def State.panelSet (s : State) (n : Nat) : List Nat :=
  let part := (List.range 64).filter fun p => p == s.fw.pos || (Config.panelAnswers n).contains p
  let reach := part.map fun a => (a, s.westFirst n part a)
  largest (fun a b => (Tab.at reach a []).contains b && (Tab.at reach b []).contains a) 64 part

/-- R382, R383: the logical die of this die is fixed: its HBM lies under that number. -/
def State.setDie (s : State) (die : Nat) : State :=
  let lo (d : Nat) : Nat := dpaKey (d * 2 ^ 46)
  let in_ (d k : Nat) : Bool := decide (lo d ≤ k) && decide (k < lo d + 2 ^ 44)
  let old := s.fw.die
  let s := s.modFw fun f => { f with die := die }
  if die = old then s
  else
    let rest := s.mem.filter fun c => !in_ old c.1 && !in_ die c.1
    let mine := (s.mem.filter fun c => in_ old c.1).map fun c => (c.1 - lo old + lo die, c.2)
    { s with
      mem := rest.filter (fun c => decide (c.1 < lo die)) ++ mine ++ rest.filter fun c => decide (lo die ≤ c.1)
      memErr := (s.memErr.filter fun k => !in_ die k).map fun k => if in_ old k then k - lo old + lo die else k }

/-- R379, R382, R390: every link has trained or failed: the die runs standalone, or the boot agents of the panel agree;
then the information block is published. -/
def State.remap (s : State) : State :=
  let up := [0, 1, 2, 3].any fun p => (s.link p).st == .up
  if !s.fw.booted || !s.trained || s.fw.infoUp then s
  else
    let alone (stranded : Bool) (s : State) : State :=
      (s.setDie 0).modFw fun f => { f with member := false, stranded := stranded, members := [], infoUp := true }
    let ps := s.panelSet (s.fw.loupe.bootsA + s.fw.loupe.bootsB)
    if !up then alone false s
    else if ps.contains s.fw.pos then
      (s.setDie (ps.idxOf s.fw.pos)).modFw fun f =>
        { f with member := true, stranded := false, members := ps.zipIdx, infoUp := true }
    else
      alone true ([0, 1, 2, 3].foldl (fun s p => s.modLink p fun l => { l with st := .down, width := 0 }) s)

/-- R379: a link trains, or fails to within 2 ms of reset. -/
def State.trainLink (s : State) (p width : Nat) : State :=
  if (s.link p).st ≠ .reset then s
  else
    (s.modLink p fun l =>
      if linkWidth width then { l with st := .up, width := width } else { l with st := .down, width := 0 }).remap

def execLinkTraining (port width : Nat) (s : State) : Host.Outcome State Fault Refusal :=
  onPort port (if s.fw.powered then s.trainLink port width else s)

/-- R381: a frame in sequence is delivered to the routers; one with a bad CRC is answered with a negative
acknowledgement; any other is not delivered. -/
def Link.receive (l : Link) (seq : BitVec 12) (crcOk : Bool) (payload : Nat) : Link :=
  if l.st ≠ .up then l
  else if !crcOk then { l with nak := true }
  else if seq = l.rxSeq then { l with rxSeq := l.rxSeq + 1, delivered := l.delivered ++ [payload], nak := false }
  else l

def execLinkFrameReceive (port : Nat) (seq : BitVec 12) (crcOk : Bool) (payload : Nat) (s : State) :
    Host.Outcome State Fault Refusal :=
  onPort port (s.modLink port fun l => l.receive seq crcOk payload)

/-- R381: a link retrains, within 50 µs. -/
def State.retrain (s : State) (p : Nat) : State :=
  s.modLink p fun l =>
    if l.st = .up then { l with st := .retraining, retrains := l.retrains + 1, recent := 0, since := s.now } else l

/-- R381: the frames from a number on are sent again; those before it have been received. -/
def Link.resend (l : Link) (seq : BitVec 12) : Link :=
  { l with
    replay := if l.replay.any fun f => f.1 == seq then l.replay.dropWhile fun f => f.1 != seq else l.replay
    replays := l.replays + 1
    recent := l.recent + 1 }

def execLinkReplay (port : Nat) (seq : BitVec 12) (s : State) : Host.Outcome State Fault Refusal :=
  onPort port <|
    if (s.link port).st ≠ .up then s
    else
      let s := s.modLink port fun l => l.resend seq
      if 16 ≤ (s.link port).recent then s.retrain port else s

/-- R381: 16 replays within one panel heartbeat interval make the link retrain. -/
def execLinkRetrain (port : Nat) (s : State) : Host.Outcome State Fault Refusal :=
  onPort port (if 16 ≤ (s.link port).recent then s.retrain port else s)

/-- R381, R387, R389: a link goes down: the routing tables and the host proxy are computed again, and the host is told. -/
def State.linkDown (s : State) (p : Nat) : State :=
  if (s.link p).st = .down then s
  else (s.modLink p fun l => { l with st := .down, width := 0, changes := l.changes + 1 }).resendAll.deviceEvent

def execLinkDown (port : Nat) (s : State) : Host.Outcome State Fault Refusal :=
  onPort port (if s.fw.powered && (s.link port).st != .reset then s.linkDown port else s)

/-- R381: the packets that waited in the buffers of a link while it retrained leave by it. -/
def State.sendWaiting (s : State) (p : Nat) : State :=
  (s.packets.filter fun k =>
    decide (1024 ≤ k.dst) && s.portTo (farDie k.dst) == some p && !(s.link p).replay.any fun f => f.2 == k.id).foldl
    (fun s k => s.modLink p fun l => l.send k.id) s

/-- R381: a retraining link comes up at some width, or at none. -/
def State.retrainDone (s : State) (p width : Nat) : State :=
  if (s.link p).st ≠ .retraining then s
  else if linkWidth width then
    (s.modLink p fun l =>
      { l with st := .up, width := width, changes := l.changes + (if l.width = width then 0 else 1) }).sendWaiting p
  else s.linkDown p

def execLinkRetrainDone (port width : Nat) (s : State) : Host.Outcome State Fault Refusal :=
  onPort port (s.retrainDone port width)

/-- R379, R381: 2 ms and 50 µs in P-cycles. -/
def trainingTime : Nat := 4000000
def retrainTime : Nat := 100000

/-- R379, R381: links whose time is up have failed at every width. -/
def State.linkTimers (s : State) : State :=
  [0, 1, 2, 3].foldl (fun s p =>
    match (s.link p).st with
    | .reset => if s.fw.powered && s.now = trainingTime then s.trainLink p 0 else s
    | .retraining => if (s.link p).since + retrainTime ≤ s.now then s.retrainDone p 0 else s
    | _ => s) s

/-! ### Boot (R395 to R398) -/

/-- R396: the checks of an image. -/
def Firmware.valid (f : Firmware) (i : FwImage) : Bool :=
  i.tagOk && i.digestOk && i.makerOk && f.owner == some i.ownerKey && decide (f.minSvn ≤ i.svn)

/-- R398: an entry of the measurement log, which holds up to 256. -/
def Firmware.measure (f : Firmware) (kind digest : Nat) : Firmware :=
  if f.log.length < 256 then { f with log := f.log ++ [(kind, digest)] } else f

def Firmware.slot (f : Firmware) (b : Bool) : FwImage := if b then f.slotB else f.slotA

def Firmware.failVerify (f : Firmware) : Firmware := { f with loupe := { f.loupe with verifyFails := f.loupe.verifyFails + 1 } }

/-- R395 step 1: the ROM verifies the selected slot, then the other; the slot that it boots from. -/
def Firmware.pick (f : Firmware) : Firmware × Option Bool :=
  let a := f.selectorB
  if f.valid (f.slot a) then (f, some a)
  else
    let f := f.failVerify
    if f.valid (f.slot !a) then (f, some (!a)) else (f.failVerify, none)

/-- R395, R397, R398, R401: the boot. An erase that the power cut short is completed from its journal; with no owner no
image boots; a trip that the always-on bit records is logged. -/
def Firmware.boot (f : Firmware) : Firmware :=
  let f := { f with
    booted := false, bootFailed := false, debug := false, infoUp := false, bootedSvn := 0, log := [], answer := [],
    routineDigest := 0, memErrors := [], member := false, stranded := false, die := 0, members := [], lost := [] }
  let f := if f.erasing then { f with owner := none, secrets := none, erasing := false } else f
  let f := if f.tripped then { f with tripped := false, loupe := { f.loupe with trips := f.loupe.trips + 1 } } else f
  let f := f.measure 1 (Config.partDigest 1)
  match f.owner with
  | none => f
  | some key =>
    match f.pick with
    | (f, none) => { f.measure 2 (f.slot !f.selectorB).digest with bootFailed := true }
    | (f, some b) =>
      let i := f.slot b
      let f := ((f.measure 2 i.digest).measure 3 (Config.keyDigest key)).measure 4 (Config.partDigest 4)
      { f with
        booted := true
        bootedB := b
        bootedSvn := i.svn
        debug := i.debug
        loupe := if b then { f.loupe with bootsB := f.loupe.bootsB + 1 } else { f.loupe with bootsA := f.loupe.bootsA + 1 } }

/-- Inputs of the outside, which no reset takes back. -/
def outsideInput : Instr → Bool
  | .linkTraining _ _ | .linkFrameReceive _ _ _ _ | .linkReplay _ _ | .linkRetrainDone _ _ | .linkDown _ | .powerRailGood _
  | .powerFail | .temperatureSample _ _ _ | .thermalTrip _ | .droopStretch _ | .vtclassChange _ _ | .patrolScrub _ _
  | .loupeClaim _ _ | .loupeSingleStep _ _ | .firmwareUpdate _ | .svnCommit | .ownershipRelease _ _ _ | .ownerClaim _ _ _
  | .getMeasurements | .rankProgramLoad _ _ | .routineStoreLoad _ | .coreRetire _ _ | .queueDoorbell _ _
  | .queueConfigWrite _ _ _ | .ingressOpen _ _ | .ingressData _ _ | .notifyApertureWrite _ _ | .win4Write _
  | .bar4Access _ _ _ | .loadwShardFetch _ _ _ | .deviceReset => true
  | _ => false

def Due.outside : Due → Bool
  | .ev i => outsideInput i
  | .far _ => true
  | _ => false

/-- What of a core is the part's own. -/
def Core.part (x : Core) : Core := { Core.reset with retired := x.retired, skew := x.skew }

def Cluster.part (k : Cluster) : Cluster := { Cluster.reset with cls := k.cls, temp := k.temp }

/-- The lifetime counts of a link. -/
def Link.part (l : Link) : Link := { Link.reset with replays := l.replays, retrains := l.retrains, changes := l.changes }

/-- R393: firmware frees the reservations of loads that a reset cut short; their PTEs are left invalid. -/
def State.freeLoads (s : State) : State :=
  s.fe.loads.foldl (fun s l =>
    let s := (l.shards.zip l.pages).foldl (fun s p => s.putPtes l.asid p.1 p.2 fun _ => 0) s
    s.modSpace l.asid fun x => { x with quota := x.quota + (l.pages.flatMap id).length, freePages := x.freePages ++ l.pages.flatMap id }) s

/-- The machine after a device reset, before its boot: what is in flight is gone, and time starts again. -/
def State.afterReset (s : State) : State :=
  { State.reset with
    coming := (s.coming.filter fun e => outsideInput e.2).map fun e => (e.1 - s.now, e.2)
    works := (s.works.filter fun e => e.2.outside).map fun e => (e.1 - s.now, e.2)
    agenda := s.agenda.filter Due.outside
    phase := .events
    extra := s.extra
    free := s.free
    nextPkt := s.nextPkt
    cores := s.cores.map fun p => (p.1, p.2.part)
    clusters := s.clusters.map fun p => (p.1, p.2.part)
    mem := s.mem
    memErr := s.memErr
    fe := { FrontEnd.reset with
      images := s.fe.images
      spaces := s.fe.spaces
      reserve := if s.fw.booted then Config.reserve.filter fun c => decide (c < 768) else [] }
    links := s.links.map fun p => (p.1, p.2.part)
    defects := s.defects
    fw := s.fw }

/-- R404: 10 minutes in P-cycles. -/
def loupePeriod : Nat := 1200000000000

/-- R395: device reset is released. -/
def State.deviceReset (s : State) : State :=
  let s := (s.freeLoads.setDie 0).modFw Firmware.boot
  let s := (List.range 48).foldl (fun s cl => s.markIdle cl) s.afterReset
  if s.fw.booted then s.later loupePeriod .loupeLog else s

def execDeviceReset (s : State) : Host.Outcome State Fault Refusal :=
  .next (if s.fw.powered then s.deviceReset else s)

/-! ### Power (R397, R400, R401) -/

/-- R291: the memory key of a byte of host memory, which outlives the device's power. -/
def hostKey (a : Nat) : Bool := decide (2 ^ 60 ≤ a) && (a - 2 ^ 60) / 2 ^ 44 % 4 == 2

/-- R400: the rails are off: what the part holds is lost, but for flash, fuses, the always-on bit and the inputs to
come. -/
def State.powerOff (s : State) : State :=
  let t := s.afterReset
  { t with
    now := s.now
    coming := s.coming.filter fun e => outsideInput e.2
    works := s.works.filter fun e => e.2.outside
    mem := s.mem.filter fun c => hostKey c.1
    memErr := s.memErr.filter hostKey
    fe := { FrontEnd.reset with images := s.fe.images.filter fun i => i.1.toNat / 2 ^ 44 % 4 == 2 }
    fw := { s.fw with
      powered := false, rails := 0, booted := false, bootFailed := false, debug := false, infoUp := false, log := [],
      answer := [], routineDigest := 0, memErrors := [], member := false, stranded := false, die := 0, members := [], lost := [] } }

/-- R401: a trip latches its always-on bit. -/
def State.trip (s : State) : State := s.powerOff.modFw fun f => { f with tripped := true }

def execPowerFail (s : State) : Host.Outcome State Fault Refusal := .next (if s.fw.rails = 0 then s else s.powerOff)

/-- R400: 1 ms in P-cycles, from the last rail's being good to the release of reset. -/
def releaseTime : Nat := 2000000

/-- R400: a rail has been within tolerance for 1 ms; the rails come up in order, 1 to 4. -/
def execPowerRailGood (rail : Nat) (s : State) : Host.Outcome State Fault Refusal :=
  .next <|
    if rail = s.fw.rails + 1 ∧ rail ≤ 4 then
      let s := s.modFw fun f => { f with rails := rail, powered := rail == 4 }
      if rail = 4 then s.later releaseTime .deviceReset else s
    else s

def execThermalTrip (cluster : Nat) (s : State) : Host.Outcome State Fault Refusal :=
  onCluster cluster (if s.fw.powered then s.trip else s)

/-! ### Temperature, clocks and droop (R189, R401, R404) -/

/-- R404: the bin of a temperature. -/
def tempBin (t : Nat) : Nat := Nat.min 15 ((t - 40) / 5)

/-- R404: one more in a lifetime table. -/
def bump (t : Tab Nat) (k : Nat) : Tab Nat := Tab.put t k (Tab.at t k 0 + 1)

def State.modLoupe (s : State) (f : Loupe → Loupe) : State := s.modFw fun x => { x with loupe := f x.loupe }

def Lens.clusters (l : Lens) : List Nat := (l.cores.map clusterOf).eraseDups

/-- R401: the hottest sensor among a lens's clusters. -/
def State.lensTemp (s : State) (l : Lens) : Nat := maxOf 0 (l.clusters.map fun c => (s.cluster c).temp)

/-- R401: 1 ms in P-cycles. -/
def coolTime : Nat := 2000000

/-- R401: every cluster of the lens has been below 85 °C for 1 ms. -/
def State.lensCool (s : State) (l : Lens) : Bool :=
  l.clusters.all fun c => match (s.cluster c).coolSince with
    | some t => decide (t + coolTime ≤ s.now)
    | none => false

/-- R401: the step that firmware decides for a lens, if any; `hot` when package power is over its limit and this lens
draws the most. -/
def State.stepFor (s : State) (l : Lens) (hot : Bool) : Option Bool :=
  if decide (95 ≤ s.lensTemp l) || hot then (if 2 < l.clock then some false else none)
  else if s.lensCool l && decide (l.clock < 4) then some true
  else none

/-- R401: a sample of a cluster's sensor. The samples of one round come in the clusters' order, and firmware decides
for a lens at the last of its clusters. -/
def State.sample (s : State) (cl t : Nat) (hot : Bool) : State :=
  let s := s.modCluster cl fun k =>
    { k with temp := t, coolSince := if t < 85 then some (k.coolSince.getD s.now) else none }
  let s := s.modLoupe fun p => { p with temps := bump p.temps (cl * 16 + tempBin t) }
  if 110 ≤ t then s.trip
  else
    (s.lenses.filter fun p => p.2.fused && maxOf 0 p.2.clusters == cl).foldl (fun s p =>
      match s.stepFor p.2 hot with
      | some up => s.laterWithin 1 4000 (.thermalStep p.1 up)
      | none => s) s

def execTemperatureSample (cluster temp : Nat) (hot : Bool) (s : State) : Host.Outcome State Fault Refusal :=
  onCluster cluster (if s.fw.powered && s.fw.booted then s.sample cluster temp hot else s)

/-- R189, R401: a step takes effect between two A-cycles of the lens. -/
def execThermalStep (lens : Nat) (up : Bool) (s : State) : Host.Outcome State Fault Refusal :=
  .next <|
    if (s.lens lens).fused then
      s.modLens lens fun l => { l with clock := if up then Nat.min 4 (l.clock + 1) else Nat.max 2 (l.clock - 1) }
    else s

/-- R189, R404: one A-cycle of a lens's clock region is stretched. -/
def execDroopStretch (lens : Nat) (s : State) : Host.Outcome State Fault Refusal :=
  .next <|
    let l := s.lens lens
    if l.fused then
      (s.setLens lens { l with stretched := l.stretched + 1 }).modLoupe fun p =>
        { p with stretched := l.clusters.foldl bump p.stretched }
    else s

/-- R404: the time that the clusters of fused lenses spend at each clock, in P-cycles. -/
def State.countClocks (s : State) : State :=
  (s.lenses.filter fun p => p.2.fused).foldl (fun s p =>
    s.modLoupe fun q => { q with steps := p.2.clusters.foldl (fun t c => bump t (c * 3 + (4 - p.2.clock))) q.steps }) s

/-! ### Timing classes (R282) -/

/-- R282, R404: firmware sets the class of a cluster's vertical bus. -/
def execVtclassChange (cluster : Nat) (cls : Bool) (s : State) : Host.Outcome State Fault Refusal :=
  onCluster cluster <|
    if s.fw.powered && s.fw.booted && (s.cluster cluster).cls != cls then
      (s.modCluster cluster fun k => { k with cls := cls, chg := k.chg + 1 }).modLoupe fun p =>
        { p with vtChanges := bump p.vtChanges cluster }
    else s

/-! ### Patrol scrub (R403) -/

/-- R403: scrub reads a 64-byte block of a bank. What it corrects was right to every reader already; an uncorrectable
block goes to the service log only. -/
def execPatrolScrub (bank block : Nat) (s : State) : Host.Outcome State Fault Refusal :=
  if 6144 ≤ bank ∨ 4096 ≤ block then .fault .noSuchAgent
  else .next <|
    if s.fw.powered && s.hasErr (bankKey bank (64 * block)) 64 then
      (s.countError (unitBank bank)).modFw fun f => { f with service := f.service ++ [.scrubbed bank block] }
    else s

/-! ### The loupe (R404, R405) -/

/-- R404: the lifetime records go to the service log, every 10 minutes. -/
def execLoupeLog (s : State) : Host.Outcome State Fault Refusal :=
  s.firmware ((s.modFw fun f => { f with service := f.service ++ [.lifetime f.loupe] }).later loupePeriod .loupeLog)

/-- R405: a slot is claimed for debug when the booted image allows it; else the claim is refused and logged. -/
def execLoupeClaim (core slot : Nat) (s : State) : Host.Outcome State Fault Refusal :=
  onSlot core slot <|
    if !(s.fw.powered && s.fw.booted) then s
    else if s.fw.debug then s.modSlot ⟨core, slot⟩ fun sl => { sl with claimed := true }
    else s.modFw fun f => { f with service := f.service ++ [.claimRefused core slot] }

/-- R405: a claimed slot issues one instruction and stops again. -/
def execLoupeSingleStep (core slot : Nat) (s : State) : Host.Outcome State Fault Refusal :=
  onSlot core slot <|
    if (s.slot ⟨core, slot⟩).claimed then s.modSlot ⟨core, slot⟩ fun sl => { sl with oneStep := true } else s

/-! ### Firmware and ownership (R396, R397) -/

/-- R396: the slot that the running image did not boot from takes the new image; the selector moves to it once it is
verified in place. -/
def Firmware.update (f : Firmware) (i : FwImage) : Firmware :=
  let f := if f.bootedB then { f with slotA := i } else { f with slotB := i }
  if f.valid i then { f with selectorB := !f.bootedB } else f.failVerify

def execFirmwareUpdate (img : FwImage) (s : State) : Host.Outcome State Fault Refusal :=
  s.firmware (s.modFw fun f => f.update img)

/-- R396: the owner's signed commit raises the fused minimum SVN to that of the image that has booted. -/
def execSvnCommit (s : State) : Host.Outcome State Fault Refusal :=
  s.firmware (s.modFw fun f => { f with minSvn := Nat.max f.minSvn f.bootedSvn })

/-- R397 steps 1 and 2: a verified release token; the erase begins with its journal. -/
def execOwnershipRelease (serial nonce : Nat) (sigOk : Bool) (s : State) : Host.Outcome State Fault Refusal :=
  s.firmware <|
    if s.fw.owner.isSome && sigOk && serial == s.fw.serial && nonce == Config.nonce s.fw.nonce then
      s.modFw fun f => { f with erasing := true, nonce := f.nonce + 1 }
    else s

/-- R397 step 2: the owner-keys region and the secrets derived from the owner key are erased. -/
def State.finishErase (s : State) : State :=
  if s.fw.erasing && s.fw.powered then s.modFw fun f => { f with owner := none, secrets := none, erasing := false } else s

/-- R397 step 3: a new owner's key, signed under the maker's claim authority, and fresh secrets. -/
def execOwnerClaim (key serial : Nat) (sigOk : Bool) (s : State) : Host.Outcome State Fault Refusal :=
  .next <|
    if s.fw.powered && s.fw.owner.isNone && sigOk && serial == s.fw.serial then
      let (n, s) := s.draw
      s.modFw fun f => { f with owner := some key, secrets := some n }
    else s

/-! ### Measurements (R293, R363, R398) -/

/-- R398: the latest digest of a kind. -/
def latestOf (log : List (Nat × Nat)) (kind : Nat) : Option Nat := (log.reverse.find? fun e => e.1 == kind).map (·.2)

/-- R398: one block per kind, and one (numbered 0) with a digest of the whole log. -/
def Firmware.blocks (f : Firmware) : List (Nat × Nat) :=
  ([1, 2, 3, 4, 5, 6].filterMap fun k => (latestOf f.log k).map fun d => (k, d)) ++ [(0, Config.logDigest f.log)]

/-- R395, R398: the function answers SPDM whether or not an image has booted. -/
def execGetMeasurements (s : State) : Host.Outcome State Fault Refusal :=
  .next (if s.fw.powered then s.modFw fun f => { f with answer := f.blocks } else s)

/-- R363: a rank operation keeps its fields' ranges: LDI holds 22 bits, a shift 5. -/
def RankOp.ok : RankOp → Bool
  | .ldi _ n => decide (n < 4194304)
  | .shl _ _ n | .shr _ _ n => decide (n < 32)
  | _ => true

/-- R363, R398: a rank program of at most 16 operations is loaded once it is measured. -/
def execRankProgramLoad (prog : List RankOp) (digest : Nat) (s : State) : Host.Outcome State Fault Refusal :=
  s.firmware <|
    if prog.length ≤ 16 ∧ prog.all RankOp.ok ∧ s.fw.log.length < 256 then
      (s.modFe fun e => { e with rank := prog }).modFw fun f => f.measure 6 digest
    else s

/-- R293, R398: walk routines are loaded once they are measured. -/
def execRoutineStoreLoad (digest : Nat) (s : State) : Host.Outcome State Fault Refusal :=
  s.firmware <|
    if s.fw.log.length < 256 then s.modFw fun f => { f.measure 5 digest with routineDigest := digest } else s

end Sys2Proof.Machine
end

