-- ==== Sys2Proof/Machine/VectorArith.lean ====
section
/-! DEFINITION. Vector arithmetic, comparison, bit, conversion and reduction instructions (R138 to R146). -/

namespace Sys2Proof.Machine

/-! ### Lane values -/

/-- R138: a lane of a float operation: the exact value rounded once to the format. -/
def floatLane (ft : BitVec 4) (r : Rnd) (x : FVal × Flags) : BitVec 32 × Flags :=
  let (y, f) := roundFloat ft r x.1
  (image y, x.2 ||| f)

/-- R138: a lane of an integer operation. -/
def intLane (ft : BitVec 4) (sat : Bool) (v : Int) : BitVec 32 × Flags :=
  let (u, f) := reduceInt ft sat v
  (BitVec.ofInt 32 u, f)

/-- R30: the integer a lane holds under an integer format. -/
def laneInt (ft : BitVec 4) (b : BitVec 32) : Int := if intUnsigned ft then (b.toNat : Int) else b.toInt

/-- R138: VADD, VSUB, VMUL and VFMA on one lane. -/
def arithLane (ft : BitVec 4) (r : Rnd) (ff : Rm → FVal → FVal → FVal → FVal × Flags) (fi : Int → Int → Int → Int)
    (a b c : BitVec 32) : BitVec 32 × Flags :=
  if isFloatFt ft then floatLane ft r (ff r.rm (f32 a) (f32 b) (f32 c))
  else intLane ft r.sat (fi (laneInt ft a) (laneInt ft b) (laneInt ft c))

def varith (h : Hdr) (o : FmtV) (s : State) (scalar : Bool) (srcs : List (BitVec 4))
    (ff : Rm → FVal → FVal → FVal → FVal × Flags) (fi : Int → Int → Int → Int) : Host.Outcome State Fault Refusal :=
  velem h o s (if scalar then o.va :: srcs else o.va :: o.vb :: srcs) fun sl =>
    vmap sl o fun i =>
      arithLane o.ft (laneRnd sl o i) ff fi (vlane (sl.vr o.va) i) (operandB sl o scalar i) (vlane (sl.vr o.vc) i)

def execVadd (h : Hdr) (o : FmtV) (s : State) : Host.Outcome State Fault Refusal :=
  varith h o s (o.fn.getLsbD 0) [] (fun rm a b _ => addF rm a b) fun a b _ => a + b

def execVsub (h : Hdr) (o : FmtV) (s : State) : Host.Outcome State Fault Refusal :=
  varith h o s (o.fn.getLsbD 0) [] (fun rm a b _ => addF rm a b.negate) fun a b _ => a - b

def execVmul (h : Hdr) (o : FmtV) (s : State) : Host.Outcome State Fault Refusal :=
  varith h o s (o.fn.getLsbD 0) [] (fun _ a b _ => mulF a b) fun a b _ => a * b

/-- R138: VFMA: FN[0] negates the product, FN[1] the addend, FN[2] takes a scalar B. -/
def execVfma (h : Hdr) (o : FmtV) (s : State) : Host.Outcome State Fault Refusal :=
  let np := o.fn.getLsbD 0
  let na := o.fn.getLsbD 1
  varith h o s (o.fn.getLsbD 2) [o.vc] (fun rm a b c => fmaF rm np na a b c) fun a b c =>
    (if np then -(a * b) else a * b) + (if na then -c else c)

/-- R139: the minimum or maximum of two lanes; the operand selected is copied as it stands, also where its bits are no value
of an integer FT (log entry 31). -/
def minMaxLane (isMax : Bool) (ft : BitVec 4) (prop : Bool) (a b : BitVec 32) : BitVec 32 × Flags :=
  if isFloatFt ft then minMaxF isMax prop a b
  else
    let less := decide (laneInt ft a ≤ laneInt ft b)
    (if less != isMax then a else b, 0)

/-- R139: the pair that VMAX (or VMIN) gives; a tie gives the first. -/
def minMaxPair (isMax : Bool) (a b : Pair) : Pair :=
  if isMax then (if ranksAbove b a then b else a) else (if ranksAbove a b then b else a)

/-- A half of a pair: the key in an even lane, the index in an odd one. -/
def Pair.half (p : Pair) (i : Nat) : BitVec 32 := if i % 2 = 0 then p.key else p.idx

def vminmax (h : Hdr) (o : FmtV) (s : State) (isMax : Bool) : Host.Outcome State Fault Refusal :=
  let scalar := o.fn.getLsbD 0
  velem h o s (if scalar then [o.va] else [o.va, o.vb]) fun sl =>
    vmap sl o fun i =>
      if o.ft = 11 then
        ((minMaxPair isMax (pairOf (sl.vr o.va) (i / 2)) (pairOf (sl.vr o.vb) (i / 2))).half i, 0)
      else minMaxLane isMax o.ft (o.fn.getLsbD 1) (vlane (sl.vr o.va) i) (operandB sl o scalar i)

def execVmin (h : Hdr) (o : FmtV) (s : State) : Host.Outcome State Fault Refusal := vminmax h o s false

def execVmax (h : Hdr) (o : FmtV) (s : State) : Host.Outcome State Fault Refusal := vminmax h o s true

/-- R139: VMIN(VMAX(VA, VB), VC). -/
def execVclmp (h : Hdr) (o : FmtV) (s : State) : Host.Outcome State Fault Refusal :=
  velem h o s [o.va, o.vb, o.vc] fun sl =>
    vmap sl o fun i =>
      let (x, f) := minMaxLane true o.ft false (vlane (sl.vr o.va) i) (vlane (sl.vr o.vb) i)
      let (y, g) := minMaxLane false o.ft false x (vlane (sl.vr o.vc) i)
      (y, f ||| g)

/-- R140. -/
def execVsgn (h : Hdr) (o : FmtV) (s : State) : Host.Outcome State Fault Refusal :=
  let fn := o.fn.toNat
  velem h o s (if fn < 3 then [o.va, o.vb] else [o.va]) fun sl =>
    vmapPure sl o fun i => withSign fn (vlane (sl.vr o.va) i) (vlane (sl.vr o.vb) i)

/-! ### Comparison and selection -/

/-- R141: COND 0 to 5 from an order: whether a is below b, equal to it, above it. -/
def orderCond (c : Nat) (lt eq gt : Bool) : Bool :=
  match c with
  | 0 => eq
  | 1 => !eq
  | 2 => lt
  | 3 => !lt
  | 4 => !gt
  | _ => gt

/-- R141: one lane of VCMP. -/
def compareLane (ft : BitVec 4) (c : Nat) (va vb : VReg) (i : Nat) : Bool × Flags :=
  if isFloatFt ft then cmpF c (vlane va i) (vlane vb i)
  else if ft = 11 then
    let a := pairOf va (i / 2)
    let b := pairOf vb (i / 2)
    (orderCond c (ranksAbove b a) (tiedPairs a b) (ranksAbove a b), 0)
  else
    let a := laneInt ft (vlane va i)
    let b := laneInt ft (vlane vb i)
    (orderCond c (decide (a < b)) (decide (a = b)) (decide (b < a)), 0)

def execVcmp (h : Hdr) (o : FmtV) (s : State) : Host.Outcome State Fault Refusal :=
  velem h o s [o.va, o.vb] fun sl =>
    let rs := (activeLanes sl o).map fun i => (i, compareLane o.ft (bits o.fn 0 4) (sl.vr o.va) (sl.vr o.vb) i)
    vmask sl o ((rs.filter fun p => p.2.1).map (·.1)) (rs.map fun p => (p.1, p.2.2))

/-- R142: VSEL; a pair is selected by the even bit of the mask. -/
def execVsel (h : Hdr) (o : FmtV) (s : State) : Host.Outcome State Fault Refusal :=
  velem h o s [o.va, o.vb] fun sl =>
    let m := sl.mr (o.vc.setWidth 3)
    let m := if o.ft = 11 then pairMask m else m
    vmapPure sl o fun i => vlane (sl.vr (if m.getLsbD i then o.va else o.vb)) i

/-! ### Bit operations -/

/-- R142: FN[0] takes a scalar B, FN[1] inverts it. -/
def vlogic (h : Hdr) (o : FmtV) (s : State) (f : BitVec 32 → BitVec 32 → BitVec 32) :
    Host.Outcome State Fault Refusal :=
  let scalar := o.fn.getLsbD 0
  velem h o s (if scalar then [o.va] else [o.va, o.vb]) fun sl =>
    vmapPure sl o fun i =>
      let b := operandB sl o scalar i
      cutLane o.ft (f (vlane (sl.vr o.va) i) (if o.fn.getLsbD 1 then ~~~b else b))

def execVand (h : Hdr) (o : FmtV) (s : State) : Host.Outcome State Fault Refusal := vlogic h o s fun a b => a &&& b

def execVor (h : Hdr) (o : FmtV) (s : State) : Host.Outcome State Fault Refusal := vlogic h o s fun a b => a ||| b

def execVxor (h : Hdr) (o : FmtV) (s : State) : Host.Outcome State Fault Refusal := vlogic h o s fun a b => a ^^^ b

/-- R142: VSH on one lane of width w by k. -/
def shiftLane (op w k : Nat) (a : BitVec 32) : BitVec 32 :=
  let x := a.toNat % 2 ^ w
  BitVec.ofNat 32 <|
    match op with
    | 0 => if w ≤ k then 0 else x * 2 ^ k % 2 ^ w
    | 1 => if w ≤ k then 0 else x / 2 ^ k
    | 2 => (sextNat w x / (2 ^ Nat.min k (w - 1) : Nat) % (2 ^ w : Nat)).toNat
    | _ =>
      let r := k % w
      x / 2 ^ r + x * 2 ^ (w - r) % 2 ^ w

def execVsh (h : Hdr) (o : FmtV) (s : State) : Host.Outcome State Fault Refusal :=
  let imm := o.fn.getLsbD 2
  velem h o s (if imm then [o.va] else [o.va, o.vb]) fun sl =>
    vmapPure sl o fun i =>
      let k := if imm then bits o.imm 0 5 else bits (vlane (sl.vr o.vb) i) 0 5
      cutLane o.ft (shiftLane (bits o.fn 0 2) (laneWidth o.ft) k (vlane (sl.vr o.va) i))

/-! ### Conversion and special functions -/

/-- R143: VCVT on one lane. -/
def convertLane (src dst : BitVec 4) (r : Rnd) (sh : Nat) (b : BitVec 32) : BitVec 32 × Flags :=
  if src = 11 ∨ src = 15 ∨ dst = 15 then (b, 0)
  else
    let n := laneNum src b
    let (v, f) := if src = 0 ∧ dst = 0 then copyNum n else convert dst r sh n
    (v.lane, f)

def execVcvt (h : Hdr) (o : FmtV) (s : State) : Host.Outcome State Fault Refusal :=
  velem h o s [o.va] fun sl =>
    vmap sl o fun i =>
      convertLane (o.fn.extractLsb' 0 4) o.ft (laneRnd sl o i) (bits o.imm 0 5) (vlane (sl.vr o.va) i)

/-- R144. -/
def execVsf (h : Hdr) (o : FmtV) (s : State) : Host.Outcome State Fault Refusal :=
  vectorWord h o s (beatsOf o.fold) (beatsOf o.fold + 9) [o.va] false (fun s =>
    let sl := s.me
    vmap sl o fun i =>
      let (v, f) := specialF (o.fn.extractLsb' 0 4) o.ft (f32 (vlane (sl.vr o.va) i))
      (image v, f)) id

/-! ### Reductions and scans -/

/-- R145: the identity of a reduction, as a lane image. -/
def identityLane (op : Nat) (ft : BitVec 4) : BitVec 32 :=
  if isFloatFt ft then
    match op with
    | 0 => 0x80000000
    | 1 => 0x7F800000
    | _ => 0xFF800000
  else
    match op with
    | 1 => BitVec.ofInt 32 (intHi ft)
    | 2 => BitVec.ofInt 32 (intLo ft)
    | 3 => 0xFFFFFFFF
    | _ => 0

/-- R145: one step of a reduction: RNE in FP32, or wrapping modulo 2^32. -/
def reduceStep (op : Nat) (ft : BitVec 4) (a b : BitVec 32) : BitVec 32 × Flags :=
  if isFloatFt ft then
    match op with
    | 0 => fround rndNe (addF .rne (f32 a) (f32 b))
    | 1 => minMaxF false false a b
    | _ => minMaxF true false a b
  else
    match op with
    | 0 => (a + b, 0)
    | 1 => minMaxLane false ft false a b
    | 2 => minMaxLane true ft false a b
    | 3 => (a &&& b, 0)
    | 4 => (a ||| b, 0)
    | _ => (a ^^^ b, 0)

/-- R145: Deliver. -/
def deliverLane (ft : BitVec 4) (r : Rnd) (b : BitVec 32) : BitVec 32 × Flags :=
  if isFloatFt ft then floatLane ft r (f32 b, 0)
  else if isIntFt ft then intLane ft false (laneInt ft b)
  else (b, 0)

/-- R59: the steps of one level of the tree, `span` leaves each, with the lowest leaf of each step. -/
def treeLevel (f : α → α → α × Flags) (span : Nat) : Nat → List α → List α × List (Nat × Flags)
  | j, a :: b :: r =>
    let (x, fl) := f a b
    let (xs, fs) := treeLevel f span (j + 1) r
    (x :: xs, (j * span, fl) :: fs)
  | _, l => (l, [])

/-- R59: ReduceTree, at most six levels deep. -/
def reduceTree (f : α → α → α × Flags) : Nat → Nat → List α → List α × List (Nat × Flags)
  | 0, _, l => (l, [])
  | n + 1, span, l =>
    let (xs, fs) := treeLevel f span 0 l
    let (ys, gs) := reduceTree f n (2 * span) xs
    (ys, fs ++ gs)

/-- R145: VRED of lanes. -/
def reduceLanes (sl : Slot) (o : FmtV) (op : Nat) : BitVec 32 × List (Nat × Flags) :=
  let act := activeMask sl o
  let leaves := (List.range (vlOf o.fold)).map fun i =>
    if act.getLsbD i then vlane (sl.vr o.va) i else identityLane op o.ft
  let (ys, fs) := reduceTree (reduceStep op o.ft) 6 2 leaves
  let (v, f) := deliverLane o.ft { laneRnd sl o 0 with sat := false } (ys.headD 0)
  (v, fs ++ [(0, f)])

/-- R35, R145: one step of a reduction of pairs, an inactive one contributing nothing; the n-th tie of the machine
takes either. -/
def pairStep (isMax : Bool) (n : Nat) : Option Pair → Option Pair → Option Pair
  | some a, some b => some (if tiedPairs a b then (if Config.tieTakesFirst n then a else b) else minMaxPair isMax a b)
  | some a, none => some a
  | none, b => b

/-- One level of the tree of pairs, its steps numbered from n. -/
def pairLevel (isMax : Bool) : Nat → List (Option Pair) → List (Option Pair)
  | n, a :: b :: r => pairStep isMax n a b :: pairLevel isMax (n + 1) r
  | _, l => l

def pairTree (isMax : Bool) : Nat → Nat → List (Option Pair) → List (Option Pair)
  | 0, _, l => l
  | k + 1, n, l => pairTree isMax k (n + 32) (pairLevel isMax n l)

/-- R145: VRED of pairs. -/
def reducePairs (sl : Slot) (o : FmtV) (isMax : Bool) (n : Nat) : Pair :=
  let act := activeMask sl o
  let leaves := (List.range (vlOf o.fold / 2)).map fun j =>
    if act.getLsbD (2 * j) then some (pairOf (sl.vr o.va) j) else none
  ((pairTree isMax 5 n leaves).headD none).getD ⟨if isMax then nanImage else 0x7F800000, 0xFFFFFFFF⟩

/-- R145: the lanes other than the result's are kept, or zero under Z. -/
def reduceWrite (o : FmtV) (vs : List (Nat × BitVec 32)) : Write :=
  .v o.vd (if o.z = 1 then BitVec.allOnes 64 else lanesOf (vs.map (·.1))) (packLanes vs)

/-- R35: a reduction of pairs draws for its ties. -/
def State.drawTies (s : State) (o : FmtV) : State := if o.ft = 11 then { s with free := s.free + 160 } else s

def execVred (h : Hdr) (o : FmtV) (s : State) : Host.Outcome State Fault Refusal :=
  let op := bits o.fn 0 4
  vectorWord h o s (beatsOf o.fold) (beatsOf o.fold + 6) [o.va] false (fun s =>
    let sl := s.me
    if o.ft = 11 then
      let p := reducePairs sl o (op == 2) s.free
      ⟨[reduceWrite o [(0, p.key), (1, p.idx)]], [], none⟩
    else
      let (v, fs) := reduceLanes sl o op
      ⟨[reduceWrite o [(0, v)]], fs, none⟩) fun s => s.drawTies o

/-- R146: the scan in lane order: the running value, the delivered lanes and the conditions. -/
def scanLanes (sl : Slot) (o : FmtV) (op : Nat) (excl : Bool) :
    List Nat → BitVec 32 → List (Nat × BitVec 32) × List (Nat × Flags)
  | [], _ => ([], [])
  | i :: r, acc =>
    let act := (activeMask sl o).getLsbD i
    let (nxt, f) := reduceStep op o.ft acc (if act then vlane (sl.vr o.va) i else identityLane op o.ft)
    let (v, g) := deliverLane o.ft { laneRnd sl o i with sat := false } (if excl then acc else nxt)
    let (vs, fs) := scanLanes sl o op excl r nxt
    if act then ((i, v) :: vs, (i, f ||| g) :: fs) else (vs, (i, f) :: fs)

def execVscan (h : Hdr) (o : FmtV) (s : State) : Host.Outcome State Fault Refusal :=
  let op := bits o.fn 0 4
  vectorWord h o s (beatsOf o.fold) (beatsOf o.fold + 6) [o.va] false (fun s =>
    let sl := s.me
    let (vs, fs) := scanLanes sl o op (o.fn.getLsbD 4) (List.range (vlOf o.fold)) (identityLane op o.ft)
    ⟨[vresult sl o vs], fs, none⟩) id

end Sys2Proof.Machine
end

