-- ==== Sys2Proof/Machine/VectorCodec.lean ====
section
/-! DEFINITION. The lattice and FQ4 vector instructions (R154 to R159). -/

namespace Sys2Proof.Machine

/-- The lanes of a range that are active. -/
def activeIn (sl : Slot) (o : FmtV) (lo n : Nat) : List Nat :=
  ((List.range n).map fun k => lo + k).filter fun i => (activeMask sl o).getLsbD i

/-- R54, R154, R158: the inputs of a range of lanes, an inactive one as 0.0. -/
def inputsOf (sl : Slot) (o : FmtV) (lo n : Nat) : List FVal :=
  (List.range n).map fun k =>
    if (activeMask sl o).getLsbD (lo + k) then f32 (vlane (sl.vr o.va) (lo + k)) else .zero false

/-- A result of whole points or groups: the lanes written, and under Z zeros from a lane on (R154 to R158). -/
def blockWrite (o : FmtV) (vs : List (Nat × BitVec 32)) (zeroFrom : Nat) : Write :=
  let zs := if o.z = 1 then (List.range (64 - zeroFrom)).map fun k => zeroFrom + k else []
  .v o.vd (lanesOf (vs.map (·.1) ++ zs)) (packLanes vs)

/-- The infinite inputs of a range, as NV conditions. -/
def infFlags (lo : Nat) (xs : List FVal) : List (Nat × Flags) :=
  (xs.zipIdx.filter fun p => p.1.isInf).map fun p => (lo + p.2, fNV)

/-- R154: VSCE8 and R157: VSCF4, group by group. -/
def scaleGroups (h : Hdr) (o : FmtV) (s : State) (f : Nat → List FVal → BitVec 32 × List (Nat × Flags)) :
    Host.Outcome State Fault Refusal :=
  vectorWord h o s (beatsOf o.fold) (beatsOf o.fold + 6) [o.va] false (fun s =>
    let sl := s.me
    let gs := [0, 1].filter fun g => !(activeIn sl o (32 * g) 32).isEmpty
    let rs := gs.map fun g => (g, f g (inputsOf sl o (32 * g) 32))
    ⟨[blockWrite o (rs.map fun p => (p.1, p.2.1)) 2], rs.flatMap (·.2.2), none⟩) id

def execVsce8 (h : Hdr) (o : FmtV) (s : State) : Host.Outcome State Fault Refusal :=
  scaleGroups h o s fun g xs =>
    let (b, f) := scaleE8L xs
    (BitVec.ofNat 32 b, if f = 0 then [] else infFlags (32 * g) xs)

/-- R157: SE in [7:0], SH in [23:8], SV in [31:24]. -/
def execVscf4 (h : Hdr) (o : FmtV) (s : State) : Host.Outcome State Fault Refusal :=
  scaleGroups h o s fun g xs =>
    let (p, f) := fq4Params xs
    (BitVec.ofNat 32 (p.se + p.sh * 2 ^ 8 + p.sv * 2 ^ 24), if f = 0 then [] else infFlags (32 * g) xs)

/-- R155: VQE8 on one point. -/
def quantPoint (sl : Slot) (o : FmtV) (p : Nat) : BitVec 32 × List (Nat × Flags) :=
  let xs := inputsOf sl o (8 * p) 8
  let (code, nv, clamped) := nearestE8 xs (bits (vlane (sl.vr o.vb) (p / 4)) 0 8)
  let bad := if nv then (xs.zipIdx.filter fun x => !isFinite x.1).map fun x => (8 * p + x.2, fNV) else []
  (BitVec.ofNat 32 code, bad ++ clamped.map fun i => (8 * p + i, fLOVF))

def execVqe8 (h : Hdr) (o : FmtV) (s : State) : Host.Outcome State Fault Refusal :=
  vectorWord h o s 8 14 [o.va, o.vb] false (fun s =>
    let sl := s.me
    let ps := (List.range 8).filter fun p => !(activeIn sl o (8 * p) 8).isEmpty
    let rs := ps.map fun p => (p, quantPoint sl o p)
    ⟨[blockWrite o (rs.map fun p => (p.1, p.2.1)) 8], rs.flatMap (·.2.2), none⟩) id

/-- R156. -/
def execVde8 (h : Hdr) (o : FmtV) (s : State) : Host.Outcome State Fault Refusal :=
  vectorWord h o s 8 14 [o.va, o.vb] false (fun s =>
    let sl := s.me
    vmapPure sl o fun e =>
      image (decodeE8 (bits (vlane (sl.vr o.va) (e / 8)) 0 16) (bits (vlane (sl.vr o.vb) (e / 32)) 0 8) (e % 8))) id

/-- R158: the 20 bytes of group g fill lanes 5g to 5g + 4. -/
def execVqf4 (h : Hdr) (o : FmtV) (s : State) : Host.Outcome State Fault Refusal :=
  vectorWord h o s 8 14 [o.va, o.vb] false (fun s =>
    let sl := s.me
    let gs := [0, 1].filter fun g => !(activeIn sl o (32 * g) 32).isEmpty
    let rs := gs.map fun g =>
      let w := vlane (sl.vr o.vb) g
      let (bs, fs) := fq4Encode ⟨bits w 0 8, bits w 8 16, bits w 24 8⟩ (inputsOf sl o (32 * g) 32)
      let word (j : Nat) : BitVec 32 := BitVec.ofNat 32 (leNat ((bs.drop (4 * j)).take 4))
      ((List.range 5).map fun j => (5 * g + j, word j), fs.map fun (x : Nat × Flags) => (32 * g + x.1, x.2))
    ⟨[blockWrite o (rs.flatMap (·.1)) 10], rs.flatMap (·.2), none⟩) id

/-- R159: group g of VA: the bytes of its lanes 5g to 5g + 4. -/
def groupBytes (v : VReg) (g : Nat) : List Byte := (List.range 5).flatMap fun j => leBytes 4 (vlane v (5 * g + j)).toNat

def execVdf4 (h : Hdr) (o : FmtV) (s : State) : Host.Outcome State Fault Refusal :=
  vectorWord h o s 8 14 [o.va] false (fun s =>
    let sl := s.me
    vmap sl o fun e =>
      let bs := groupBytes (sl.vr o.va) (e / 32)
      let (v, f) := decodeFq4 false (fq4CodeOf bs (e % 32)) (fq4ParamsOf bs) (e % 32)
      (image v, f)) id

end Sys2Proof.Machine
end

