-- ==== Sys2Proof/Machine/VectorMem.lean ====
section
/-! DEFINITION. Vector loads and stores (R137, R150 to R152), and the deferred 0x39 of a vector load (R353). -/

namespace Sys2Proof.Machine

/-- One element of a vector access: its (first) lane and its address. -/
structure Elem where
  lane : Nat
  addr : Word
  deriving DecidableEq, Repr

/-- R150: the lanes that carry an element: every lane, or the key lane of a pair. -/
def elemLanes (sl : Slot) (o : FmtV) : List Nat :=
  let l := activeLanes sl o
  if o.ft = 11 then l.filter fun i => i % 2 == 0 else l

/-- R150: the number of the element of a lane. -/
def elemNum (ft : BitVec 4) (i : Nat) : Nat := if ft = 11 then i / 2 else i

/-- R150: an address as a base and a signed number of containers. -/
def elemAddr (sl : Slot) (o : FmtV) (n : Int) : Word := sl.gr o.rs + BitVec.ofInt 64 (n * contSize o.ft)

/-- The small register of VB: g0 to g15 (R133). -/
def gOfVb (sl : Slot) (o : FmtV) : Word := sl.gr (o.vb.setWidth 5)

/-- R150: the elements of VLD and VST. -/
def strideElems (sl : Slot) (o : FmtV) : List Elem :=
  (elemLanes sl o).map fun i =>
    let k : Int := elemNum o.ft i
    ⟨i, elemAddr sl o (o.imm.toInt + (if o.fn = 0 then k else k * (gOfVb sl o).toInt))⟩

/-- R150: the elements of VGATH and VSCAT. -/
def indexElems (sl : Slot) (o : FmtV) : List Elem :=
  (elemLanes sl o).map fun i => ⟨i, elemAddr sl o ((gOfVb sl o).toInt + (vlane (sl.vr o.va) i).toNat)⟩

/-- R150, R151: the elements of one beat. -/
def beatOf (ft : BitVec 4) (e : Elem) : Nat := elemNum ft e.lane / (if ft = 11 then 4 else 8)

/-- R151: 0x08: an address off its container, or a unit-stride base off the span of a beat. -/
def alignFault (sl : Slot) (o : FmtV) (unit : Bool) (es : List Elem) : Option (BitVec 8 × Word × Word) :=
  let cs := contSize o.ft
  let span := if o.ft = 11 then 32 else 8 * cs
  let off := unit && (elemAddr sl o o.imm.toInt).toNat % span != 0
  (es.find? fun e => off || e.addr.toNat % cs != 0).map fun e => (0x08, e.addr, w64 e.lane)

/-- R151: 0x09, or 0x0D for the global aperture. -/
def spaceFault (cause : BitVec 8) (bad : Word → Bool) (es : List Elem) : Option (BitVec 8 × Word × Word) :=
  (es.find? fun e => bad e.addr).map fun e => (cause, e.addr, w64 e.lane)

/-- R151, R279: 0x0A. -/
def entryFault (x : Core) (write : Bool) (es : List Elem) : Option (BitVec 8 × Word × Word) :=
  es.findSome? fun e =>
    (entryRefuses (x.bm (eaEntry e.addr)) write).map fun p => (0x0A, e.addr, detachInfo e.addr p.1 p.2 e.lane)

/-- The bank and the 64-byte block that an element touches. -/
def blockOf (x : Core) (e : Elem) : Nat × Nat := (bmIndex (x.bm (eaEntry e.addr)), bits e.addr 6 12)

/-- R151, R267, R268: 0x0B: within one beat two blocks of one bank, or, on the first beat, a timed AG on the bank; the
later beats meet a timed AG on their own turns (State.beatConflict). -/
def bankFault (s : State) (o : FmtV) (es : List Elem) : Option (BitVec 8 × Word × Word) :=
  let x := s.myCore
  let k := s.cur.slot
  let bank (e : Elem) : Nat := bmBank (x.bm (eaEntry e.addr))
  es.findSome? fun e =>
    let (b, blk) := blockOf x e
    if es.any fun f =>
        beatOf o.ft f == beatOf o.ft e && decide (f.lane < e.lane) && (blockOf x f).1 == b && (blockOf x f).2 != blk then
      some (0x0B, e.addr, conflictInfo (bank e) k k e.addr e.lane)
    else if beatOf o.ft e = 0 then
      (s.frontConflict s.cur b false).map fun p => (0x0B, e.addr, conflictInfo (bank e) p.1 k e.addr e.lane)
    else none

/-- The first of some checks that fails. -/
def firstFault : List (Option (BitVec 8 × Word × Word)) → Option (BitVec 8 × Word × Word)
  | [] => none
  | some f :: _ => some f
  | none :: r => firstFault r

/-- R151: the fault of a vector access, the lowest cause first. -/
def vmemFault (s : State) (o : FmtV) (write unit : Bool) (es : List Elem) : Option (BitVec 8 × Word × Word) :=
  let sl := s.me
  firstFault [alignFault sl o unit es, spaceFault 0x09 (fun a => !isLocal a && !isGlobal a) es,
    entryFault s.myCore write (es.filter fun e => isLocal e.addr),
    bankFault s o (es.filter fun e => isLocal e.addr), spaceFault 0x0D (fun a => isGlobal a) es]

/-- R127, R267: the banks that each beat uses, with its lowest lane there. -/
def beatBanks (x : Core) (o : FmtV) (t : Nat) (es : List Elem) : List (Nat × Nat × Nat) :=
  (es.map fun e => (t + beatOf o.ft e, (blockOf x e).1, e.lane)).foldl (fun acc u =>
    if acc.any fun v => v.1 == u.1 && v.2.1 == u.2.1 then acc else acc ++ [u]) []

/-- R267: the first beat uses its banks in this P-cycle, the others theirs on the slot's turns to come. -/
def State.planBeats (s : State) (o : FmtV) (es : List Elem) : State :=
  let t := s.me.turn
  let l := beatBanks s.myCore o t es
  let s := (l.filter fun u => u.1 == t).foldl (fun s u => s.useFront s.cur u.2.1) s
  s.modMe fun sl => { sl with beats := sl.beats ++ l.filter fun u => u.1 != t }

/-- R127, R152: an element as an access of the slot, on the turn of its beat. -/
def State.elemAccess (s : State) (o : FmtV) (k : AccKind) (vload : Nat) (e : Elem) (data : Nat) : Access :=
  let sl := s.me
  { id := sl.nextId, kind := k, ea := e.addr, glob := false, name := s.ownName s.cur.core, size := contSize o.ft,
    sx := false, data := BitVec.ofNat 128 data, cmp := 0, op := 0, rt := 0, vdest := some (vload, e.lane, o.ft),
    atTurn := sl.turn + beatOf o.ft e, ord := 0, scp := 0, pc := sl.pc, cycle := s.now, turn := sl.turn, minTurn := 0,
    minCycle := 0, arrive := 0, st := .held, val := 0, ended := true, needs := [] }

/-- R21, R127, R289: an element of the first beat that follows nothing performs; another joins the slot's accesses. -/
def State.issueElem (s : State) (a : Access) : State :=
  let a := { a with needs := s.me.sameByte a }
  let s := s.modMe fun sl => { sl with accs := sl.accs ++ [a], nextId := sl.nextId + 1 }
  if a.needs.isEmpty && decide (a.atTurn ≤ s.me.turn) then s.performLocal s.cur a else s

/-! ### Beats (R127, R128, R267) -/

/-- R27, R137: the P-cycles from a vector load's last beat to its result. -/
def State.loadTime (s : State) (c : Nat) : Nat := 6 + 2 * s.classOf c

/-- R137: the last beats of vector loads fall on this turn. -/
def State.lastBeats (s : State) (r : SlotRef) : State :=
  let t := s.now + s.loadTime r.core
  s.modSlot r fun sl =>
    let sl := { sl with
      vloads := sl.vloads.map fun (v : VLoad) => if v.last = sl.turn then { v with minCycle := Nat.max v.minCycle t } else v }
    sl.vloads.foldl (fun (x : Slot) v => x.closeVload v.id) sl

/-- R267: a timed AG holds a bank that a beat of this turn needs: the vector access takes 0x0B with its lowest lane there
and runs no further beat (log entry 32). -/
def State.beatConflict (s : State) (r : SlotRef) : State :=
  let sl := s.slot r
  let x := s.core r.core
  match sl.accs.findSome? fun a =>
      if a.atTurn = sl.turn ∧ a.vdest.isSome then
        (s.frontConflict r (bmIndex (x.bm (eaEntry a.ea))) false).map fun p => (a, p.1)
      else none with
  | none => s
  | some (a, second) =>
    let info := conflictInfo (bmBank (x.bm (eaEntry a.ea))) second r.slot a.ea a.lane
    (s.modSlot r fun sl =>
      { sl with
        accs := sl.accs.filter fun b => !(b.vdest.isSome && b.cycle == a.cycle)
        vloads := sl.vloads.filter fun v => v.cycle != a.cycle
        beats := []
        vecFree := sl.turn }).defer r none 0x0B (some a.pc) a.ea info a.cycle none

/-- R127: the beats that fall on a slot's turn: they use their banks' front ports, and their elements perform. -/
def State.runBeats (s : State) (r : SlotRef) : State :=
  let s := s.beatConflict r
  let sl := s.slot r
  let now := (sl.beats.filter fun b => b.1 == sl.turn).map fun b => (b.2.1, r.slot)
  let s := s.modCore r.core fun x => { x with frontBusy := x.frontBusy ++ now }
  (s.settle r).lastBeats r

/-! ### Loads -/

/-- R126, R127, R150, R353: a vector load: its elements are read beat by beat, and its lanes become visible together. -/
def State.vload (s : State) (o : FmtV) (es : List Elem) : State :=
  let s := s.planBeats o es
  let sl := s.me
  let b := beatsOf o.fold
  let v : VLoad :=
    { id := sl.nextId, pc := sl.pc, cycle := s.now, vd := o.vd, lanes := writtenLanes sl o, data := 0, left := es.length,
      last := sl.turn + b - 1, minTurn := sl.turn + b + 6, minCycle := if b = 1 then s.now + s.loadTime s.cur.core else 0,
      bad := none }
  let s := s.modMe fun sl => { sl with vloads := sl.vloads ++ [v], nextId := sl.nextId + 1 }
  (es.foldl (fun s e => s.issueElem (s.elemAccess o .load v.id e 0)) s).modMe fun sl => sl.closeVload v.id

/-- R150: VLD and VGATH. -/
def loadWord (h : Hdr) (o : FmtV) (s : State) (srcs : List (BitVec 4)) (unit : Bool) (elems : Slot → List Elem) :
    Host.Outcome State Fault Refusal :=
  vectorWord h o s (beatsOf o.fold) 0 srcs false (fun s => ⟨[], [], vmemFault s o false unit (elems s.me)⟩) fun s =>
    s.vload o (elems s.me)

def execVld (h : Hdr) (o : FmtV) (s : State) : Host.Outcome State Fault Refusal :=
  loadWord h o s [] (o.fn == 0) fun sl => strideElems sl o

def execVgath (h : Hdr) (o : FmtV) (s : State) : Host.Outcome State Fault Refusal :=
  loadWord h o s [o.va] false fun sl => indexElems sl o

/-! ### Stores -/

/-- R150: the container of a stored element, and the conditions its narrowing met. -/
def storeElem (sl : Slot) (o : FmtV) (i : Nat) : Nat × Flags :=
  let v := sl.vr o.vd
  if o.ft = 11 then ((vlane v i).toNat + (vlane v (i + 1)).toNat * 2 ^ 32, 0)
  else storeNarrow o.ft (storeRnd sl i) (vlane v i)

/-- R127, R150, R152: VST and VSCAT: the lanes in increasing order, beat by beat. -/
def storeWord (h : Hdr) (o : FmtV) (s : State) (srcs : List (BitVec 4)) (unit : Bool) (elems : Slot → List Elem) :
    Host.Outcome State Fault Refusal :=
  vectorWord h o s (beatsOf o.fold) (beatsOf o.fold - 1) (o.vd :: srcs) false (fun s =>
    let sl := s.me
    let es := elems sl
    ⟨[], es.map fun e => (e.lane, (storeElem sl o e.lane).2), vmemFault s o true unit es⟩) fun s =>
      let sl := s.me
      let es := elems sl
      es.foldl (fun s e => s.issueElem (s.elemAccess o .store 0 e (storeElem sl o e.lane).1)) (s.planBeats o es)

def execVst (h : Hdr) (o : FmtV) (s : State) : Host.Outcome State Fault Refusal :=
  storeWord h o s [] (o.fn == 0) fun sl => strideElems sl o

def execVscat (h : Hdr) (o : FmtV) (s : State) : Host.Outcome State Fault Refusal :=
  storeWord h o s [o.va] false fun sl => indexElems sl o

end Sys2Proof.Machine
end

