-- ==== Sys2Proof/Machine/VectorMove.lean ====
section
/-! DEFINITION. Vector moves, packing, masks and random lanes (R147 to R149, R160). -/

namespace Sys2Proof.Machine

/-! ### Moving lanes (R147) -/

/-- A lane mover, whose sources are read in any lane. -/
def vmove (h : Hdr) (o : FmtV) (s : State) (srcs : List (BitVec 4)) (body : Slot → VOut) :
    Host.Outcome State Fault Refusal :=
  vectorWord h o s (beatsOf o.fold) (beatsOf o.fold + 3) srcs true (fun s => body s.me) id

def execVperm (h : Hdr) (o : FmtV) (s : State) : Host.Outcome State Fault Refusal :=
  vmove h o s (if o.fn = 0 then [o.va, o.vb] else [o.va]) fun sl =>
    vmapPure sl o fun i =>
      vlane (sl.vr o.va) (if o.fn = 0 then bits (vlane (sl.vr o.vb) i) 0 6 else i ^^^ bits o.imm 0 6)

/-- R147: the lane image of a scalar placed at lane i. -/
def placeAt (ft : BitVec 4) (g : Word) (i : Nat) : BitVec 32 :=
  if ft = 11 then (if i % 2 = 0 then g.setWidth 32 else g.extractLsb' 32 32) else placeLane ft g

def execVbcast (h : Hdr) (o : FmtV) (s : State) : Host.Outcome State Fault Refusal :=
  vmove h o s (if o.fn = 0 then [] else [o.va]) fun sl =>
    vmapPure sl o fun i => if o.fn = 0 then placeAt o.ft (sl.gr o.rs) i else vlane (sl.vr o.va) (bits o.imm 0 6)

/-- R147: VEXT writes a g register (R125: not subject to Z). -/
def execVext (h : Hdr) (o : FmtV) (s : State) : Host.Outcome State Fault Refusal :=
  let k := bits o.imm 0 6
  vectorWord h o s (beatsOf o.fold) (beatsOf o.fold + 3) [] false (fun s =>
    let v := vlane (s.me.vr o.va) k
    ⟨[.g o.rs (if o.fn = 1 then v.signExtend 64 else v.setWidth 64)], [],
      (badLane s.me [o.va] fun i => i == k).map fun lane => (0x39, 0, w64 lane)⟩) id

def execVins (h : Hdr) (o : FmtV) (s : State) : Host.Outcome State Fault Refusal :=
  vmove h o s [] fun sl =>
    let k := bits o.imm 0 6
    let ls := if o.ft = 11 then [2 * (k / 2), 2 * (k / 2) + 1] else [k]
    ⟨[.v o.vd (lanesOf ls) (packLanes (ls.map fun i => (i, placeAt o.ft (sl.gr o.rs) i)))], [], none⟩

def execViota (h : Hdr) (o : FmtV) (s : State) : Host.Outcome State Fault Refusal :=
  vmove h o s [] fun sl =>
    vmapPure sl o fun i => BitVec.ofNat 32 (if o.fn = 0 then i else popCount (sl.mr (o.va.setWidth 3)) i)

def execVslide (h : Hdr) (o : FmtV) (s : State) : Host.Outcome State Fault Refusal :=
  vmove h o s [o.va, o.vb] fun sl =>
    let n := bits o.imm 0 6
    let vl := vlOf o.fold
    vmapPure sl o fun i =>
      if o.fn = 0 then (if n ≤ i then vlane (sl.vr o.va) (i - n) else vlane (sl.vr o.vb) (vl - n + i))
      else if i + n < vl then vlane (sl.vr o.va) (i + n) else vlane (sl.vr o.vb) (i + n - vl)

/-- R147: VMOV: vector to vector, vector to mask, mask to vector. -/
def execVmov (h : Hdr) (o : FmtV) (s : State) : Host.Outcome State Fault Refusal :=
  velem h o s (if o.fn = 2 then [] else [o.va]) fun sl =>
    if o.fn = 0 then vmapPure sl o fun i => vlane (sl.vr o.va) i
    else if o.fn = 1 then vmask sl o ((activeLanes sl o).filter fun i => vlane (sl.vr o.va) i != 0) []
    else
      let one : BitVec 32 := if isFloatFt o.ft then 0x3F800000 else 1
      vmapPure sl o fun i => if (sl.mr (o.va.setWidth 3)).getLsbD i then one else 0

/-! ### Packing (R148) -/

/-- R148: VPACK: the lanes of VA, then of VB, narrowed; the containers fill the low lanes of VD. -/
def packBytes (sl : Slot) (o : FmtV) : List Byte × List (Nat × Flags) :=
  let vl := vlOf o.fold
  let es := (List.range (2 * vl)).map fun e =>
    let i := e % vl
    let (c, f) := storeNarrow o.ft (storeRnd sl i) (vlane (sl.vr (if e < vl then o.va else o.vb)) i)
    (leBytes (contSize o.ft) c, i, f)
  (es.flatMap (·.1), es.map (·.2))

/-- Four bytes to a lane. -/
def byteLanes : List Byte → List (BitVec 32)
  | a :: b :: c :: d :: r => BitVec.ofNat 32 (leNat [a, b, c, d]) :: byteLanes r
  | _ => []

def execVpack (h : Hdr) (o : FmtV) (s : State) : Host.Outcome State Fault Refusal :=
  velem h o s [o.va, o.vb] fun sl =>
    let (bs, fs) := packBytes sl o
    let vs := (byteLanes bs).zipIdx.map fun p => (p.2, p.1)
    ⟨[.v o.vd (lanesOf (vs.map (·.1))) (packLanes vs)], fs, none⟩

def execVunpk (h : Hdr) (o : FmtV) (s : State) : Host.Outcome State Fault Refusal :=
  vmove h o s [o.va] fun sl =>
    let w := contSize o.ft
    vmapPure sl o fun i =>
      let e := o.fn.toNat * vlOf o.fold + i
      (contNum o.ft (bits (sl.vr o.va) (8 * w * e) (8 * w))).lane

/-! ### Masks (R149) -/

def execVmlog (h : Hdr) (o : FmtV) (s : State) : Host.Outcome State Fault Refusal :=
  velem h o s [] fun sl =>
    let a := sl.mr (o.va.setWidth 3)
    let b := sl.mr (o.vb.setWidth 3)
    vmask sl o ((activeLanes sl o).filter fun i => lut4 (bits o.fn 0 4) (a.getLsbD i) (b.getLsbD i)) []

/-- R149: the active lanes whose bit of a mask is set. -/
def setLanes (sl : Slot) (o : FmtV) : List Nat := bitList (activeMask sl o &&& sl.mr (o.va.setWidth 3)) 64

def execVmpop (h : Hdr) (o : FmtV) (s : State) : Host.Outcome State Fault Refusal :=
  velem h o s [] fun sl => ⟨[.g o.rs (w64 (setLanes sl o).length)], [], none⟩

def execVmfst (h : Hdr) (o : FmtV) (s : State) : Host.Outcome State Fault Refusal :=
  velem h o s [] fun sl => ⟨[.g o.rs (w64 ((setLanes sl o).headD 64))], [], none⟩

/-! ### Random lanes (R131, R160) -/

def execVrng (h : Hdr) (o : FmtV) (s : State) : Host.Outcome State Fault Refusal :=
  velem h o s [] fun sl =>
    vmapPure sl o fun i =>
      let u := glint sl.rngkey (sl.gr o.rs + w64 i)
      if o.fn = 0 then u else image (.fin ⟨false, u.toNat / 256, -24, false⟩)

end Sys2Proof.Machine
end

