-- ==== Sys2Proof/Machine/Dispatch.lean ====
section
/-! DEFINITION. The meaning of every row, one arm per constructor of Instr. -/

namespace Sys2Proof.Machine

def exec (i : Instr) (s : State) : Host.Outcome State Fault Refusal :=
  match i with
  | .nop h o => Sys2Proof.Machine.execNop h o s
  | .br h o => Sys2Proof.Machine.execBr h o s
  | .jmp h o => Sys2Proof.Machine.execJmp h o s
  | .call h o => Sys2Proof.Machine.execCall h o s
  | .callr h o => Sys2Proof.Machine.execCallr h o s
  | .ret h o => Sys2Proof.Machine.execRet h o s
  | .loop h o => Sys2Proof.Machine.execLoop h o s
  | .loopImm h o => Sys2Proof.Machine.execLoopImm h o s
  | .waitc h o => Sys2Proof.Machine.execWaitc h o s
  | .waitcImm h o => Sys2Proof.Machine.execWaitcImm h o s
  | .endSlot h o => Sys2Proof.Machine.execEndSlot h o s
  | .trap h o => Sys2Proof.Machine.execTrap h o s
  | .brk h o => Sys2Proof.Machine.execBrk h o s
  | .rft h o => Sys2Proof.Machine.execRft h o s
  | .rftNext h o => Sys2Proof.Machine.execRftNext h o s
  | .chkp h o => Sys2Proof.Machine.execChkp h o s
  | .chkpImm h o => Sys2Proof.Machine.execChkpImm h o s
  | .add h o => Sys2Proof.Machine.execAdd h o s
  | .sub h o => Sys2Proof.Machine.execSub h o s
  | .mul h o => Sys2Proof.Machine.execMul h o s
  | .mulh h o => Sys2Proof.Machine.execMulh h o s
  | .div h o => Sys2Proof.Machine.execDiv h o s
  | .rem h o => Sys2Proof.Machine.execRem h o s
  | .andG h o => Sys2Proof.Machine.execAndG h o s
  | .orG h o => Sys2Proof.Machine.execOrG h o s
  | .xorG h o => Sys2Proof.Machine.execXorG h o s
  | .andn h o => Sys2Proof.Machine.execAndn h o s
  | .shl h o => Sys2Proof.Machine.execShl h o s
  | .shr h o => Sys2Proof.Machine.execShr h o s
  | .sar h o => Sys2Proof.Machine.execSar h o s
  | .rot h o => Sys2Proof.Machine.execRot h o s
  | .minG h o => Sys2Proof.Machine.execMinG h o s
  | .maxG h o => Sys2Proof.Machine.execMaxG h o s
  | .clz h o => Sys2Proof.Machine.execClz h o s
  | .ctz h o => Sys2Proof.Machine.execCtz h o s
  | .popc h o => Sys2Proof.Machine.execPopc h o s
  | .ext h o => Sys2Proof.Machine.execExt h o s
  | .bfx h o => Sys2Proof.Machine.execBfx h o s
  | .bfi h o => Sys2Proof.Machine.execBfi h o s
  | .sel h o => Sys2Proof.Machine.execSel h o s
  | .lea h o => Sys2Proof.Machine.execLea h o s
  | .cmp h o => Sys2Proof.Machine.execCmp h o s
  | .plog h o => Sys2Proof.Machine.execPlog h o s
  | .addi h o => Sys2Proof.Machine.execAddi h o s
  | .andi h o => Sys2Proof.Machine.execAndi h o s
  | .ori h o => Sys2Proof.Machine.execOri h o s
  | .xori h o => Sys2Proof.Machine.execXori h o s
  | .shi h o => Sys2Proof.Machine.execShi h o s
  | .li h o => Sys2Proof.Machine.execLi h o s
  | .liZ h o => Sys2Proof.Machine.execLiZ h o s
  | .liH h o => Sys2Proof.Machine.execLiH h o s
  | .cmpi h o => Sys2Proof.Machine.execCmpi h o s
  | .fadd h o => Sys2Proof.Machine.execFadd h o s
  | .fsub h o => Sys2Proof.Machine.execFsub h o s
  | .fmul h o => Sys2Proof.Machine.execFmul h o s
  | .ffma h o => Sys2Proof.Machine.execFfma h o s
  | .fmin h o => Sys2Proof.Machine.execFmin h o s
  | .fmax h o => Sys2Proof.Machine.execFmax h o s
  | .fcmp h o => Sys2Proof.Machine.execFcmp h o s
  | .fcvt h o => Sys2Proof.Machine.execFcvt h o s
  | .fsf h o => Sys2Proof.Machine.execFsf h o s
  | .fclass h o => Sys2Proof.Machine.execFclass h o s
  | .fsgn h o => Sys2Proof.Machine.execFsgn h o s
  | .mfsr h o => Sys2Proof.Machine.execMfsr h o s
  | .mtsr h o => Sys2Proof.Machine.execMtsr h o s
  | .srset h o => Sys2Proof.Machine.execSrset h o s
  | .srclr h o => Sys2Proof.Machine.execSrclr h o s
  | .wheelWrite h op o => Sys2Proof.Machine.execWheelWrite h op o s
  | .wheelSwitch core => Sys2Proof.Machine.execWheelSwitch core s
  | .ld h o => Sys2Proof.Machine.execLd h o s
  | .st h o => Sys2Proof.Machine.execSt h o s
  | .amo h o => Sys2Proof.Machine.execAmo h o s
  | .fenceAcq h o => Sys2Proof.Machine.execFenceAcq h o s
  | .fenceRel h o => Sys2Proof.Machine.execFenceRel h o s
  | .fenceAr h o => Sys2Proof.Machine.execFenceAr h o s
  | .fenceSc h o => Sys2Proof.Machine.execFenceSc h o s
  | .fenceLayer h o => Sys2Proof.Machine.execFenceLayer h o s
  | .give h o => Sys2Proof.Machine.execGive h o s
  | .giveAdmission core id => Sys2Proof.Machine.execGiveAdmission core id s
  | .giveRepoint core id => Sys2Proof.Machine.execGiveRepoint core id s
  | .batt h o => Sys2Proof.Machine.execBatt h o s
  | .battComplete core k => Sys2Proof.Machine.execBattComplete core k s
  | .bdet h o => Sys2Proof.Machine.execBdet h o s
  | .bdetComplete core k => Sys2Proof.Machine.execBdetComplete core k s
  | .bqry h o => Sys2Proof.Machine.execBqry h o s
  | .bqryAnswer core slot => Sys2Proof.Machine.execBqryAnswer core slot s
  | .vadd h o => Sys2Proof.Machine.execVadd h o s
  | .vsub h o => Sys2Proof.Machine.execVsub h o s
  | .vmul h o => Sys2Proof.Machine.execVmul h o s
  | .vfma h o => Sys2Proof.Machine.execVfma h o s
  | .vmin h o => Sys2Proof.Machine.execVmin h o s
  | .vmax h o => Sys2Proof.Machine.execVmax h o s
  | .vsgn h o => Sys2Proof.Machine.execVsgn h o s
  | .vcmp h o => Sys2Proof.Machine.execVcmp h o s
  | .vsel h o => Sys2Proof.Machine.execVsel h o s
  | .vand h o => Sys2Proof.Machine.execVand h o s
  | .vor h o => Sys2Proof.Machine.execVor h o s
  | .vxor h o => Sys2Proof.Machine.execVxor h o s
  | .vsh h o => Sys2Proof.Machine.execVsh h o s
  | .vcvt h o => Sys2Proof.Machine.execVcvt h o s
  | .vsf h o => Sys2Proof.Machine.execVsf h o s
  | .vred h o => Sys2Proof.Machine.execVred h o s
  | .vscan h o => Sys2Proof.Machine.execVscan h o s
  | .vperm h o => Sys2Proof.Machine.execVperm h o s
  | .vbcast h o => Sys2Proof.Machine.execVbcast h o s
  | .vext h o => Sys2Proof.Machine.execVext h o s
  | .vins h o => Sys2Proof.Machine.execVins h o s
  | .viota h o => Sys2Proof.Machine.execViota h o s
  | .vslide h o => Sys2Proof.Machine.execVslide h o s
  | .vld h o => Sys2Proof.Machine.execVld h o s
  | .vst h o => Sys2Proof.Machine.execVst h o s
  | .vgath h o => Sys2Proof.Machine.execVgath h o s
  | .vscat h o => Sys2Proof.Machine.execVscat h o s
  | .vqe8 h o => Sys2Proof.Machine.execVqe8 h o s
  | .vde8 h o => Sys2Proof.Machine.execVde8 h o s
  | .vsce8 h o => Sys2Proof.Machine.execVsce8 h o s
  | .vqf4 h o => Sys2Proof.Machine.execVqf4 h o s
  | .vdf4 h o => Sys2Proof.Machine.execVdf4 h o s
  | .vscf4 h o => Sys2Proof.Machine.execVscf4 h o s
  | .vrng h o => Sys2Proof.Machine.execVrng h o s
  | .vmlog h o => Sys2Proof.Machine.execVmlog h o s
  | .vmpop h o => Sys2Proof.Machine.execVmpop h o s
  | .vmfst h o => Sys2Proof.Machine.execVmfst h o s
  | .vmov h o => Sys2Proof.Machine.execVmov h o s
  | .vpack h o => Sys2Proof.Machine.execVpack h o s
  | .vunpk h o => Sys2Proof.Machine.execVunpk h o s
  | .vclmp h o => Sys2Proof.Machine.execVclmp h o s
  | .epop h o => Sys2Proof.Machine.execEpop h o s
  | .epush h o => Sys2Proof.Machine.execEpush h o s
  | .epushHdr h o => Sys2Proof.Machine.execEpushHdr h o s
  | .fuse h o => Sys2Proof.Machine.execFuse h o s
  | .fuseComplete lens => Sys2Proof.Machine.execFuseComplete lens s
  | .unfuse h o => Sys2Proof.Machine.execUnfuse h o s
  | .lgo h o => Sys2Proof.Machine.execLgo h o s
  | .lensNodeStart lens => Sys2Proof.Machine.execLensNodeStart lens s
  | .lstop h o => Sys2Proof.Machine.execLstop h o s
  | .lstopQ h o => Sys2Proof.Machine.execLstopQ h o s
  | .lstat h o => Sys2Proof.Machine.execLstat h o s
  | .agset h o => Sys2Proof.Machine.execAgset h o s
  | .aggo h o => Sys2Proof.Machine.execAggo h o s
  | .agstat h o => Sys2Proof.Machine.execAgstat h o s
  | .gateClose h o => Sys2Proof.Machine.execGateClose h o s
  | .gateOpen h o => Sys2Proof.Machine.execGateOpen h o s
  | .bindCh h o => Sys2Proof.Machine.execBindCh h o s
  | .bindComplete task chan => Sys2Proof.Machine.execBindComplete task chan s
  | .bindUn h o => Sys2Proof.Machine.execBindUn h o s
  | .unbindComplete task chan => Sys2Proof.Machine.execUnbindComplete task chan s
  | .skewRd h o => Sys2Proof.Machine.execSkewRd h o s
  | .skewWr h o => Sys2Proof.Machine.execSkewWr h o s
  | .ctab h o => Sys2Proof.Machine.execCtab h o s
  | .ctabLand lens id => Sys2Proof.Machine.execCtabLand lens id s
  | .dmapFacet h o => Sys2Proof.Machine.execDmapFacet h o s
  | .dmapCore h o => Sys2Proof.Machine.execDmapCore h o s
  | .sendMsg h o => Sys2Proof.Machine.execSendMsg h o s
  | .recv h o => Sys2Proof.Machine.execRecv h o s
  | .recva h o => Sys2Proof.Machine.execRecva h o s
  | .barAw h o => Sys2Proof.Machine.execBarAw h o s
  | .barA h o => Sys2Proof.Machine.execBarA h o s
  | .barW h o => Sys2Proof.Machine.execBarW h o s
  | .note h o => Sys2Proof.Machine.execNote h o s
  | .waitn h o => Sys2Proof.Machine.execWaitn h o s
  | .namePre h o => Sys2Proof.Machine.execNamePre h o s
  | .gnode h o => Sys2Proof.Machine.execGnode h o s
  | .gdep h o => Sys2Proof.Machine.execGdep h o s
  | .gwait h o => Sys2Proof.Machine.execGwait h o s
  | .gwaitAll h o => Sys2Proof.Machine.execGwaitAll h o s
  | .gpoll h o => Sys2Proof.Machine.execGpoll h o s
  | .gkill h o => Sys2Proof.Machine.execGkill h o s
  | .gstatFree h o => Sys2Proof.Machine.execGstatFree h o s
  | .gstatDone h o => Sys2Proof.Machine.execGstatDone h o s
  | .cpy h o => Sys2Proof.Machine.execCpy h o s
  | .qntE8l h o => Sys2Proof.Machine.execQntE8l h o s
  | .qntFq4 h o => Sys2Proof.Machine.execQntFq4 h o s
  | .resultWriteback core slot id => Sys2Proof.Machine.execResultWriteback core slot id s
  | .deferredFault core slot id => Sys2Proof.Machine.execDeferredFault core slot id s
  | .windowEnd core slot id => Sys2Proof.Machine.execWindowEnd core slot id s
  | .budgetDeadline core slot => Sys2Proof.Machine.execBudgetDeadline core slot s
  | .cellHold lens row col => Sys2Proof.Machine.execCellHold lens row col s
  | .cellPass lens row col => Sys2Proof.Machine.execCellPass lens row col s
  | .cellAcm lens row col => Sys2Proof.Machine.execCellAcm lens row col s
  | .cellAcmz lens row col => Sys2Proof.Machine.execCellAcmz lens row col s
  | .cellPsm lens row col => Sys2Proof.Machine.execCellPsm lens row col s
  | .cellWld lens row col => Sys2Proof.Machine.execCellWld lens row col s
  | .cellDrn lens row col => Sys2Proof.Machine.execCellDrn lens row col s
  | .cellCmpx lens row col => Sys2Proof.Machine.execCellCmpx lens row col s
  | .cellRec lens row col => Sys2Proof.Machine.execCellRec lens row col s
  | .cellGen lens row col => Sys2Proof.Machine.execCellGen lens row col s
  | .cellAdd lens row col => Sys2Proof.Machine.execCellAdd lens row col s
  | .cellMaxp lens row col => Sys2Proof.Machine.execCellMaxp lens row col s
  | .cellLdh lens row col => Sys2Proof.Machine.execCellLdh lens row col s
  | .cellSnap lens row col => Sys2Proof.Machine.execCellSnap lens row col s
  | .cellRestore lens row col => Sys2Proof.Machine.execCellRestore lens row col s
  | .cellZero lens row col => Sys2Proof.Machine.execCellZero lens row col s
  | .inputPresent lens edge lane => Sys2Proof.Machine.execInputPresent lens edge lane s
  | .edgeWaitEnd lens => Sys2Proof.Machine.execEdgeWaitEnd lens s
  | .stepRow lens => Sys2Proof.Machine.execStepRow lens s
  | .tileLoopRow lens => Sys2Proof.Machine.execTileLoopRow lens s
  | .waitgRow lens => Sys2Proof.Machine.execWaitgRow lens s
  | .signalRow lens => Sys2Proof.Machine.execSignalRow lens s
  | .endRow lens => Sys2Proof.Machine.execEndRow lens s
  | .syncRow lens => Sys2Proof.Machine.execSyncRow lens s
  | .syncResume lens => Sys2Proof.Machine.execSyncResume lens s
  | .invocationEnd lens => Sys2Proof.Machine.execInvocationEnd lens s
  | .listFinish lens => Sys2Proof.Machine.execListFinish lens s
  | .rowBudgetDeadline lens => Sys2Proof.Machine.execRowBudgetDeadline lens s
  | .agFetch core ag lane => Sys2Proof.Machine.execAgFetch core ag lane s
  | .channelForward task chan lane => Sys2Proof.Machine.execChannelForward task chan lane s
  | .freezeLine lens => Sys2Proof.Machine.execFreezeLine lens s
  | .freezeComplete lens => Sys2Proof.Machine.execFreezeComplete lens s
  | .nodeComplete core node => Sys2Proof.Machine.execNodeComplete core node s
  | .copySegment core chan => Sys2Proof.Machine.execCopySegment core chan s
  | .graphUnitRun core => Sys2Proof.Machine.execGraphUnitRun core s
  | .remoteRelease pkt => Sys2Proof.Machine.execRemoteRelease pkt s
  | .globalRequestArrive pkt => Sys2Proof.Machine.execGlobalRequestArrive pkt s
  | .globalResponseArrive pkt => Sys2Proof.Machine.execGlobalResponseArrive pkt s
  | .bulkTransferDone core => Sys2Proof.Machine.execBulkTransferDone core s
  | .messageArrive pkt => Sys2Proof.Machine.execMessageArrive pkt s
  | .recvWindowExpire core chan => Sys2Proof.Machine.execRecvWindowExpire core chan s
  | .notifyArrive core slot mask => Sys2Proof.Machine.execNotifyArrive core slot mask s
  | .nameWalkComplete core name => Sys2Proof.Machine.execNameWalkComplete core name s
  | .nameCacheInvalidate task name => Sys2Proof.Machine.execNameCacheInvalidate task name s
  | .barrierArrival core bar => Sys2Proof.Machine.execBarrierArrival core bar s
  | .barrierRelease core bar => Sys2Proof.Machine.execBarrierRelease core bar s
  | .deviceHeartbeat core => Sys2Proof.Machine.execDeviceHeartbeat core s
  | .panelHeartbeat core => Sys2Proof.Machine.execPanelHeartbeat core s
  | .packetRetransmit pkt => Sys2Proof.Machine.execPacketRetransmit pkt s
  | .niGiveUp pkt => Sys2Proof.Machine.execNiGiveUp pkt s
  | .walkComplete id => Sys2Proof.Machine.execWalkComplete id s
  | .extentInstall core ag => Sys2Proof.Machine.execExtentInstall core ag s
  | .tlbInvalidation asid va bytes => Sys2Proof.Machine.execTlbInvalidation asid va bytes s
  | .migrationStart asid va => Sys2Proof.Machine.execMigrationStart asid va s
  | .migrationCommit asid va => Sys2Proof.Machine.execMigrationCommit asid va s
  | .coreRetire core router => Sys2Proof.Machine.execCoreRetire core router s
  | .queueDoorbell q tail => Sys2Proof.Machine.execQueueDoorbell q tail s
  | .queueConfigWrite q dword data => Sys2Proof.Machine.execQueueConfigWrite q dword data s
  | .queueMap q => Sys2Proof.Machine.execQueueMap q s
  | .pifoPush q => Sys2Proof.Machine.execPifoPush q s
  | .rankUpdate entry => Sys2Proof.Machine.execRankUpdate entry s
  | .placement => Sys2Proof.Machine.execPlacement s
  | .launchPacket entry => Sys2Proof.Machine.execLaunchPacket entry s
  | .waitPacket q => Sys2Proof.Machine.execWaitPacket q s
  | .waitSatisfied q => Sys2Proof.Machine.execWaitSatisfied q s
  | .signalPacket entry => Sys2Proof.Machine.execSignalPacket entry s
  | .loadwPacket entry => Sys2Proof.Machine.execLoadwPacket entry s
  | .loadwShardFetch load shard result => Sys2Proof.Machine.execLoadwShardFetch load shard result s
  | .loadwCommit load => Sys2Proof.Machine.execLoadwCommit load s
  | .copyPacket entry => Sys2Proof.Machine.execCopyPacket entry s
  | .mapPacket entry => Sys2Proof.Machine.execMapPacket entry s
  | .fencePacket entry => Sys2Proof.Machine.execFencePacket entry s
  | .killPacket entry => Sys2Proof.Machine.execKillPacket entry s
  | .preemptDrain task => Sys2Proof.Machine.execPreemptDrain task s
  | .drainLimitExpire task => Sys2Proof.Machine.execDrainLimitExpire task s
  | .preemptCheckpoint task => Sys2Proof.Machine.execPreemptCheckpoint task s
  | .checkpointSave task => Sys2Proof.Machine.execCheckpointSave task s
  | .preemptKill task => Sys2Proof.Machine.execPreemptKill task s
  | .dispatchBind task => Sys2Proof.Machine.execDispatchBind task s
  | .gatesOpen task => Sys2Proof.Machine.execGatesOpen task s
  | .taskEnd task => Sys2Proof.Machine.execTaskEnd task s
  | .taskResume task => Sys2Proof.Machine.execTaskResume task s
  | .ingressOpen port data => Sys2Proof.Machine.execIngressOpen port data s
  | .ingressData port data => Sys2Proof.Machine.execIngressData port data s
  | .notifyApertureWrite offset data => Sys2Proof.Machine.execNotifyApertureWrite offset data s
  | .wakeMailboxDeliver cluster => Sys2Proof.Machine.execWakeMailboxDeliver cluster s
  | .clusterWake cluster => Sys2Proof.Machine.execClusterWake cluster s
  | .clockGate cluster => Sys2Proof.Machine.execClockGate cluster s
  | .powerGate cluster => Sys2Proof.Machine.execPowerGate cluster s
  | .win4Write data => Sys2Proof.Machine.execWin4Write data s
  | .bar4Access offset len write => Sys2Proof.Machine.execBar4Access offset len write s
  | .linkTraining port width => Sys2Proof.Machine.execLinkTraining port width s
  | .linkFrameReceive port seq crcOk payload => Sys2Proof.Machine.execLinkFrameReceive port seq crcOk payload s
  | .linkReplay port seq => Sys2Proof.Machine.execLinkReplay port seq s
  | .linkRetrain port => Sys2Proof.Machine.execLinkRetrain port s
  | .linkDown port => Sys2Proof.Machine.execLinkDown port s
  | .deviceReset => Sys2Proof.Machine.execDeviceReset s
  | .powerRailGood rail => Sys2Proof.Machine.execPowerRailGood rail s
  | .temperatureSample cluster temp hot => Sys2Proof.Machine.execTemperatureSample cluster temp hot s
  | .thermalTrip cluster => Sys2Proof.Machine.execThermalTrip cluster s
  | .droopStretch lens => Sys2Proof.Machine.execDroopStretch lens s
  | .vtclassChange cluster cls => Sys2Proof.Machine.execVtclassChange cluster cls s
  | .patrolScrub bank block => Sys2Proof.Machine.execPatrolScrub bank block s
  | .loupeLog => Sys2Proof.Machine.execLoupeLog s
  | .loupeClaim core slot => Sys2Proof.Machine.execLoupeClaim core slot s
  | .firmwareUpdate img => Sys2Proof.Machine.execFirmwareUpdate img s
  | .svnCommit => Sys2Proof.Machine.execSvnCommit s
  | .ownershipRelease serial nonce sigOk => Sys2Proof.Machine.execOwnershipRelease serial nonce sigOk s
  | .ownerClaim key serial sigOk => Sys2Proof.Machine.execOwnerClaim key serial sigOk s
  | .getMeasurements => Sys2Proof.Machine.execGetMeasurements s
  | .linkRetrainDone port width => Sys2Proof.Machine.execLinkRetrainDone port width s
  | .thermalStep lens up => Sys2Proof.Machine.execThermalStep lens up s
  | .powerFail => Sys2Proof.Machine.execPowerFail s
  | .rankProgramLoad prog digest => Sys2Proof.Machine.execRankProgramLoad prog digest s
  | .routineStoreLoad digest => Sys2Proof.Machine.execRoutineStoreLoad digest s
  | .loupeSingleStep core slot => Sys2Proof.Machine.execLoupeSingleStep core slot s
  | .scOrderPlace core slot => Sys2Proof.Machine.execScOrderPlace core slot s
  | .headFlitLeaves core => Sys2Proof.Machine.execHeadFlitLeaves core s

end Sys2Proof.Machine
end

