-- ==== Sys2Proof/Machine/Panel.lean ====
section
/-! DEFINITION. What only the outside does to the die: the other dies of the panel and the host's reads (R238, R359, R365,
R367, R380 to R387). -/

namespace Sys2Proof.Machine

/-! ### Answers of other dies (R264, R281, R313, R383) -/

/-- What an access to another die has come to there: performed, refused, or, with `val` 1, an uncorrectable error. -/
def farState (ok : Bool) (info : Word) (val : BitVec 128) : AccSt :=
  if ok then .performed else if val = 1 then .uncorrectable info else .refused info

/-- R281, R313: another die answers a packet of this one, or acknowledges it. -/
def State.farAnswer (s : State) (p : Packet) (ok : Bool) (info : Word) (val : BitVec 128) (bytes : List Byte) : State :=
  let s := s.dropPacket p.id
  if p.orphan then s
  else
    match p.cargo with
    | .access a => s.answer ⟨p.src, p.slot⟩ { a with st := farState ok info val, val := val }
    | .agWrite ag ea _ _ =>
      (if ok then s.modCore p.src fun x => x.modAg ag fun g => { g with pending := g.pending - 1 }
        else s.agRefused p.src ag (info.setWidth 8) ea 0).soon (.bulkTransferDone p.src)
    | .agRead ag lane rd ea _ sc _ _ =>
      let err : Option AgErr := if ok then none else some ⟨if val = 1 then 0x39 else 0x30, info.setWidth 8, ea, 0⟩
      (s.modCore p.src fun x => x.modAg ag fun g =>
        { g with
          lanes := g.lanes.map fun q =>
            if q.1 = lane then
              (q.1, { q.2 with reads := q.2.reads.map fun x => if x.id = rd then x.answer sc bytes err else x })
            else q }).soon (.agFetch p.src ag 0)
    | .release _ n _ => s.nodeEnd p.src n (if ok then 0 else 0xF4) (if ok then 0 else 1)
    | _ => if 16 ≤ p.slot then s.nodeEnd p.src (p.slot - 16) 0 0 else s

/-- R238, R264, R313: a packet of another die comes to a core of this one: it goes the way of any other. -/
def State.farPacket (s : State) (src dst : Nat) (seq : BitVec 16) (g : Cargo) : State :=
  if src < 1024 ∨ 768 ≤ dst then s
  else
    let p : Packet := ⟨s.nextPkt, src, dst, noSlot, 0, 0, seq, g, false, false⟩
    ({ s with nextPkt := s.nextPkt + 1, packets := s.packets ++ [p] } : State).deliver p

/-! ### Panel groups (R384) -/

/-- R234, R384: the names of another die are written into the table of a task, and its name caches forget them. -/
def State.rewriteFar (s : State) (t die : Nat) : State :=
  let s := s.writeFarNames t die
  (frameCores (s.task t).rec_).foldl (fun s c =>
    if (s.core c).task = some t then
      (((s.core c).ncache.map (·.1)).filter fun n => bits n 10 6 == die).foldl (fun s n => s.invalidateName c n) s
    else s) s

/-- R384: the tasks of this die in a panel group. -/
def State.membersHere (s : State) (asid : Nat) (image : Word) : List Nat :=
  (s.fe.tasks.filter fun p => s.groupOf p.1 == (asid, image)).map (·.1)

def FarMember.is (m : FarMember) (asid : Nat) (image : Word) (die : Nat) : Bool :=
  m.asid == asid && m.image == image && m.die == die

/-- R384: a member binds on another die. -/
def State.memberBinds (s : State) (m : FarMember) : State :=
  let s := s.modFe fun e => { e with group := (e.group.filter fun x => !x.is m.asid m.image m.die) ++ [m] }
  (s.membersHere m.asid m.image).foldl (fun s t => s.rewriteFar t m.die) s

/-- R384: a member ends on another die. -/
def State.memberEnds (s : State) (asid : Nat) (image : Word) (die : Nat) : State :=
  let s := s.modFe fun e =>
    { e with group := e.group.map fun x => if x.is asid image die then { x with ended := true } else x }
  (s.membersHere asid image).foldl (fun s t => s.rewriteFar t die) s

/-- R385: die 0's root has announced a release to this die. -/
def State.releaseAnnounced (s : State) (asid : Nat) (image : Word) (bar tick : Nat) : State :=
  s.modFe fun e =>
    { e with bars := (e.bars.filter fun b => !b.open_ asid image bar) ++ [⟨asid, image, bar, [], some tick⟩] }

/-- R386: die 0's heartbeat tick comes to a die of another number, and reaches its cores. -/
def State.farHeartbeat (s : State) : State :=
  if s.fw.die = 0 then s
  else
    s.cores.foldl (fun s p => if p.2.task.isSome then s.later (1 + p.2.skew) (.panelHeartbeat p.1) else s) s.panelTick

/-! ### The host and firmware -/

/-- A read by the host of the device's registers. -/
def State.hostReads (s : State) (w : Word) : State := s.modFe fun e => { e with lastRead := some (leBytes 8 w.toNat) }

/-- An input of the outside. -/
def State.outside (s : State) : Outside → State
  | .write dpa bytes => s.poke (dpaKey dpa) bytes
  | .answer pkt ok info val bytes =>
    match s.packet? pkt with
    | some p => if 1024 ≤ p.dst then s.farAnswer p ok info val bytes else s
    | none => s
  | .query core slot v => if core < 768 then s.farQuery ⟨core, slot⟩ v else s
  | .packet src dst seq g => s.farPacket src dst seq g
  | .dieLost die =>
    if die = s.fw.die then s
    else (s.modFw fun f => { f with lost := f.lost.filter (· != die) ++ [die] }).resendAll
  | .hostLink die up => s.modFw fun f => { f with hosts := f.hosts.filter (· != die) ++ if up then [die] else [] }
  | .memberBinds m => s.memberBinds m
  | .memberEnds asid image die => s.memberEnds asid image die
  | .arrived asid image bar die => if s.fw.die = 0 then s.dieArrives asid image bar die else s
  | .release asid image bar tick => if s.fw.die = 0 then s else s.releaseAnnounced asid image bar tick
  | .heartbeat => s.farHeartbeat
  | .oddHead => s.modFw fun f => { f with loupe := { f.loupe with oddHeads := f.loupe.oddHeads + 1 } }
  | .slotTable t w => s.modFe fun e => { e with slotTable := Tab.put e.slotTable (t % 256) w }
  | .configRead q dw => s.hostReads ((s.queue (q % 1024)).configWord dw)
  | .statRead p => s.hostReads (s.port (p % 16)).statWord

end Sys2Proof.Machine
end

