-- ==== Sys2Proof/Machine/Tick.lean ====
section
/-! DEFINITION. The passage from one P-cycle to the next: the time, the estimates, the events that have come, and the
work that the agents of the die take up in that P-cycle. -/

namespace Sys2Proof.Machine

/-- R351: REMAIN.EST decreases by 1 each P-cycle and stops at 0. -/
def Slot.countRemain (sl : Slot) : Slot := if sl.est = 0 then sl else { sl with est := sl.est - 1 }

def Core.countRemain (x : Core) : Core := { x with slots := x.slots.map fun p => (p.1, p.2.countRemain) }

/-- The events or works whose time has come. -/
def takeDue (now : Nat) : List (Nat × α) → List α × List (Nat × α)
  | [] => ([], [])
  | (t, i) :: r => if t ≤ now then let (a, b) := takeDue now r; (i :: a, b) else ([], (t, i) :: r)

/-! ### Address generators (R206, R267) -/

/-- The data lane of an AG that holds the fewest tokens. -/
def Core.leanLane (x : Core) (d : AgDesc) : Nat := (argMin (fun k => (x.lane d.edge k).fifo.length) d.dataLanes).getD 0

/-- R267: the reads that input AGs take up, those of the timed AGs or those of the yielding ones. -/
def State.fetches (s : State) (timed : Bool) : List Due :=
  s.cores.flatMap fun p => p.2.ags.filterMap fun q =>
    let d : AgDesc := q.2.desc
    if q.2.active && !d.isOut && d.stallok != timed then some (.ev (.agFetch p.1 q.1 (p.2.leanLane d))) else none

/-! ### Heartbeats (R232, R386; log entry 2) -/

/-- A tick of a period reaches a core in a P-cycle. -/
def ticks (now skew period : Nat) : Bool := decide (period ≤ now - 1 - skew) && (now - 1 - skew) % period == 0

def State.heartbeats (s : State) : List Due :=
  (s.cores.filter fun p => p.2.task.isSome).flatMap fun p =>
    (if ticks s.now p.2.skew 64 then [Due.ev (.deviceHeartbeat p.1)] else []) ++
      (if s.fw.die = 0 ∧ ticks s.now p.2.skew 2000 then [Due.ev (.panelHeartbeat p.1)] else [])

/-- R386: die 0, or a standalone die, emits the panel heartbeat every 2,000 P-cycles. -/
def State.panelInterval (s : State) : State := if s.fw.die = 0 ∧ s.now % 2000 = 0 then s.panelTick else s

/-! ### Tasks (R361) -/

/-- R361: tasks whose slots have all stopped. -/
def State.endings (s : State) : List Due := (s.fe.tasks.filter fun p => s.stopped p.1).map fun p => Due.ev (.taskEnd p.1)

/-! ### A-cycles (R4, R189) -/

/-- R189: the A-cycles of a lens that start in a P-cycle, and what is left of the next one, in halves; a stretch takes
one A-cycle away. -/
def Lens.cycles (l : Lens) : Nat × Lens :=
  let total := l.frac + l.clock
  let n := total / 2
  let l := { l with frac := total % 2 }
  if 0 < l.stretched ∧ 0 < n then (n - 1, { l with stretched := l.stretched - 1 }) else (n, l)

/-- The A-cycles of all lenses in this P-cycle, in rounds. -/
def State.openings (s : State) : State × List Due :=
  let live : List (Nat × Nat × Lens) := (s.lenses.filter fun p => p.2.fused).map fun p => (p.1, p.2.cycles)
  let round (i : Nat) : List Due := (live.filter fun p => decide (i < p.2.1)).map fun p => Due.openA p.1
  (live.foldl (fun s p => s.setLens p.1 p.2.2) s, round 0 ++ round 1)

/-! ### The next P-cycle -/

/-- R267: the front ports of the banks are free again. -/
def State.freePorts (s : State) : State := { s with cores := s.cores.map fun p => (p.1, { p.2 with frontBusy := [] }) }

/-- R266: the bank at whose back port an event that has come must queue. -/
def State.backBank (s : State) : Instr → Option Nat
  | .globalRequestArrive id => (s.packet? id).bind s.packetBank
  | .copySegment c ch => s.segmentBank c ch
  | _ => none

/-- R275, R301: a request at a back port that cannot begin yet. -/
def State.stays (s : State) : Due → Bool
  | .ev (.globalRequestArrive id) => (s.packet? id).any s.requestWaits
  | _ => false

/-- R376: of the requests at the back ports, in the order of their arrival, at most one per bank begins. -/
def State.pick (s : State) : List (Nat × Due) → List Nat → List Due × List (Nat × Due)
  | [], _ => ([], [])
  | (b, d) :: r, used =>
    if used.contains b || s.stays d then
      let (go, rest) := s.pick r used
      (go, (b, d) :: rest)
    else
      let (go, rest) := s.pick r (b :: used)
      (d :: go, rest)

/-- R266, R376: after the turns of a P-cycle, with its front-port accesses, the back ports begin their requests. -/
def State.begins (s : State) : State :=
  let (go, rest) := s.pick s.back []
  { s with back := rest, agenda := go, phase := .backs }

/-- What firmware, the host's ports and the links do in a P-cycle. -/
def State.housekeep (s : State) : State :=
  ((s.panelInterval.linkTimers.finishErase.retireFailed).countClocks).pumpPorts

/-- The next P-cycle: requests that have come queue at the back ports of their banks (R266); the yielding AGs take what the last one left free; then the timed AGs, the heartbeats, the events
that have come, the tasks that end, and the A-cycles. -/
def State.tick (s : State) : State :=
  let s : State := { s with now := s.now + 1, cores := s.cores.map fun p => (p.1, p.2.countRemain) }
  let s := s.housekeep
  let (due, rest) := takeDue s.now s.coming
  let (work, left) := takeDue s.now s.works
  let (s, opens) := s.openings
  let back := due.filterMap fun i => (s.backBank i).map fun b => (b, Due.ev i)
  let due := due.filter fun i => (s.backBank i).isNone
  { s with
    back := s.back ++ back
    coming := rest
    works := left
    agenda := s.agenda ++ s.fetches false ++ [Due.freePorts] ++ s.fetches true ++ s.heartbeats ++ due.map Due.ev ++ work ++ s.endings ++ opens
    phase := .events }

end Sys2Proof.Machine
end

