-- ==== Sys2Proof/Machine/Step.lean ====
section
/-! DEFINITION. One step of the machine, and the placing of a word where the next step fetches it. -/

namespace Sys2Proof.Machine

/-- What is due happens. -/
def State.happen (s : State) : Due → Host.Outcome State Fault Refusal
  | .ev i => exec i s
  | .cell op l r c => cellEvent op l r c s
  | .openA l => .next (s.openA l)
  | .presentA l => .next (s.presentA l)
  | .closeA l => .next (s.closeA l)
  | .freePorts => .next s.freePorts
  | .beats c k => .next (s.runBeats ⟨c, k⟩)
  | .superWheel c v => .next (s.superWheel c v)
  | .otherHalf c k id => .next (s.otherHalf c k id)
  | .segment c n parts left => .next (s.performSegment c n parts left)
  | .unfuseEnd l => .next (s.unfuseEnd l)
  | .frozenEnd l n cause detail => .next (s.frozenEnd l n cause detail)
  | .memoryError k => .next (s.memoryError k)
  | .cellError l r c m => .next (s.cellError l r c m)
  | .retire c router => .next (s.retireAgain c router)
  | .far x => .next (s.outside x)

/-- One step: the next thing that is due; with nothing due, the next stage of this P-cycle's turns, or the next P-cycle. -/
def step (s : State) : Host.Outcome State Fault Refusal :=
  match s.agenda with
  | d :: r => State.happen { s with agenda := r } d
  | [] =>
    match s.phase with
    | .events => .next { s with phase := .turns s.turnsNow }
    | .turns [] => .next (if s.back.isEmpty then s.tick else s.begins)
    | .backs => .next s.tick
    | .turns (r :: rest) => .next (s.openTurn r rest)
    | .faults rest => .next ({ s with phase := .ready rest }.weighFaults s.cur)
    | .ready rest =>
      if s.mayIssue s.cur then
        let t := { s with phase := .turns rest }.issuing
        match t.fetch with
        | .ok i => exec i t
        | .error u => .next u
      else .next { s with phase := .turns rest }

/-- The state with a word at the PC of slot 0 of core 0, which is bound, running and at the issue of its turn (log
entry 13). -/
def State.withFetchWord (s : State) (nbits w : Nat) : State :=
  let r : SlotRef := ⟨0, 0⟩
  let pc := (s.slot r).pc.toNat
  let s := s.modCore 0 fun x =>
    { x with istore := Tab.store x.istore 0 pc (BitVec.ofNat 64 (w % 2 ^ nbits)), ibad := x.ibad.filter (· != pc) }
  let s := s.modSlot r fun sl =>
    { sl with life := .running, gate := .fromTurn 0, turn := Nat.max sl.turn 7, claimed := false, gfail := none }
  { s with agenda := [], phase := .ready [], cur := r }

end Sys2Proof.Machine
end

