-- ==== Sys2Proof/Safety.lean ====
section
/-! DEFINITION. What the statements say of a step: the state it leaves, what it keeps, and the form that memory keeps. -/

namespace Sys2Proof.Machine

/-! ### Outcomes -/

/-- The instruction answers a next state, and that state is as P says. -/
def Gives (i : Instr) (s : State) (P : State → Prop) : Prop := ∃ t, exec i s = .next t ∧ P t

/-- A step from a state answers a next state, and that state is as P says. -/
def Steps (s : State) (P : State → Prop) : Prop := ∃ t, step s = .next t ∧ P t

/-! ### Frames -/

/-- At most one slot differs: every other slot, all other state of its core, every byte of memory, every other table and
the time are the same. -/
def OnlySlot (r : SlotRef) (s t : State) : Prop := t = s.setSlot r (t.slot r)

/-- At most one core differs: every other core, every byte of memory, every other table and the time are the same. -/
def OnlyCore (c : Nat) (s t : State) : Prop := t = s.setCore c (t.core c)

/-- Every byte of memory and every record of an uncorrectable error is the same. -/
def SameMemory (s t : State) : Prop := t.mem = s.mem ∧ t.memErr = s.memErr

/-! ### The end of a word -/

/-- R13, R94: the word has issued without a transfer: the slot stands at its next word, which may issue on its next
turn. Nothing else of the machine changes. -/
def State.passed (s : State) : State := s.setSlot s.cur { s.me.advance with gate := .fromTurn (s.me.turn + 1) }

/-- R13, R15: the word has issued and its writes are in flight, visible `lat` of the slot's turns later. Nothing else of
the machine changes. -/
def State.issued (s : State) (lat : Nat) (ws : List Write) : State :=
  s.setSlot s.cur { s.me.advance with
    gate := .fromTurn (s.me.turn + 1)
    flights := s.me.flights ++ [⟨s.me.nextId, s.me.turn + lat, 0, ws⟩]
    nextId := s.me.nextId + 1 }

/-- R13: control has gone to a word, which may issue on the slot's third turn after. -/
def State.jumped (s : State) (tgt : BitVec 14) : State :=
  s.setSlot s.cur { s.me with pc := tgt, gate := .fromTurn (s.me.turn + 3) }

/-! ### Faults (R24, R343) -/

/-- R24, R343: a slot that had a handler for the cause enters it, the saved registers written; the handler's first word
may issue on the slot's third turn after. -/
def Slot.inHandler (sl : Slot) (dfr : Bool) (cause : BitVec 8) (epc : BitVec 14) (addr info : Word) : Slot :=
  { sl with
    epc := epc, fcause := BitVec.ofBool dfr ++ cause, faddr := addr, finfo := info
    h := true, life := .running, wait := none, pc := sl.fvec, gate := .fromTurn (sl.turn + 3) }

/-- R24, R343: a slot with no handler for the cause is left FAULTED, the saved registers written. -/
def Slot.leftFaulted (sl : Slot) (dfr : Bool) (cause : BitVec 8) (epc : BitVec 14) (addr info : Word) : Slot :=
  { sl with
    epc := epc, fcause := BitVec.ofBool dfr ++ cause, faddr := addr, finfo := info
    life := .faulted, gate := .closed, wait := none, hold := false, oneStep := false }

/-- R24: the state in which the current slot has taken a precise fault outside a handler. -/
def State.faulted (s : State) (cause : BitVec 8) (addr info : Word) : State :=
  let sl := s.me
  if sl.fhen.getLsbD cause.toNat then s.setSlot s.cur (sl.inHandler false cause sl.pc addr info)
  else
    { s.setSlot s.cur (sl.leftFaulted false cause sl.pc addr info) with
      fe := { s.fe with
        records := s.fe.records ++
          [(s.cur.core, s.cur.slot, sl.pc.setWidth 64, cause.setWidth 64, addr, info)] } }

/-! ### Lens and stream commands (R214) -/

/-- R214: LSTATE: BUSY, OPC, UNIT and STATUS. -/
def lstateValue (busy : Bool) (opc unit code : Nat) : BitVec 32 :=
  BitVec.ofBool busy ++ 0#3 ++ BitVec.ofNat 8 opc ++ BitVec.ofNat 12 unit ++ BitVec.ofNat 8 code

/-- R213, R214: a command has issued and its status is known. -/
def State.reported (s : State) (opc unit code : Nat) : State :=
  s.passed.modMe fun sl => { sl with lstate := lstateValue false opc unit code }

/-- R213, R214: a command has issued and its status is still to come. -/
def State.reporting (s : State) (opc unit : Nat) : State :=
  s.passed.modMe fun sl => { sl with lstate := lstateValue true opc unit 0 }

/-- R214: what the end of a command makes of a slot: its status, where LSTATE still stands for that command. -/
def Slot.told (sl : Slot) (opc unit code : Nat) : Slot :=
  { sl with lstate := if sl.lstate = lstateValue true opc unit 0 then lstateValue false opc unit code else sl.lstate }

/-- The second state is the first with one more event to come, in lo to hi P-cycles; beyond it only the outside's next
delay is used up. -/
def Scheduled (s t : State) (lo hi : Nat) (i : Instr) : Prop :=
  t = { s with coming := t.coming, extra := t.extra } ∧ (∀ e ∈ s.coming, e ∈ t.coming) ∧
    ∃ d, lo ≤ d ∧ d ≤ hi ∧ (s.now + d, i) ∈ t.coming

/-- Every slot but the one whose turn it is is the same. -/
def OtherSlots (s t : State) : Prop := ∀ q, q ≠ s.cur → t.slot q = s.slot q

/-- Every slot is the same. -/
def SameSlots (s t : State) : Prop := ∀ q, t.slot q = s.slot q

/-! ### Words with conditions and vector words -/

/-- R15, R127: a vector word has issued: as `issued`, and the vector datapath is taken for its beats. -/
def State.vissued (s : State) (beats lat : Nat) (ws : List Write) : State :=
  (s.issued lat ws).modMe fun sl => { sl with vecFree := Nat.max s.me.vecFree (s.me.turn + beats) }

/-- R19, R403: nothing keeps a vector word from going through: its guard holds, the datapath is free and no lane of its
slot holds an uncorrectable error. -/
def VectorReady (s : State) (h : Hdr) : Prop := s.me.guard h = true ∧ s.me.vecFree ≤ s.me.turn ∧ s.me.vbad = []

/-- R15, R41, R86: a word whose writes are `ws` and whose conditions are f: with no condition that traps, its writes and
its flags come `lat` turns after issue; with one, the slot takes the lowest of their causes and nothing is written. -/
def FloatOutcome (i : Instr) (s : State) (lat : Nat) (w : Write) (f : Flags) : Prop :=
  (trapCause s.me.fpctl f = none →
    exec i s = .next (s.issued lat (if f = 0 then [w] else [w, .istat (istatOf f)]))) ∧
  (∀ c, s.me.h = false → trapCause s.me.fpctl f = some c → exec i s = .next (s.faulted c 0 0))

/-- R41, R125, R135, R136: a vector word that gives each active lane a value and conditions: with no condition that
traps, VD holds the values in its active lanes (and zero in the others under Z) `lat` turns after issue, and VSTAT the
conditions; with one, the slot takes the lowest cause, FINFO naming its lowest lane, and nothing is written. -/
def LanesOutcome (i : Instr) (s : State) (o : FmtV) (lat : Nat) (lane : Nat → BitVec 32 × Flags) : Prop :=
  let fs := (activeLanes s.me o).map fun k => (k, (lane k).2)
  (laneTrap s.me.fpctl fs = none →
    Gives i s fun t => ∃ v : VReg,
      t = s.vissued (beatsOf o.fold) lat
        (if allFlags fs = 0 then [.v o.vd (writtenLanes s.me o) v]
          else [.v o.vd (writtenLanes s.me o) v, .vstat (allFlags fs)]) ∧
      (∀ k, k < 64 → (activeMask s.me o).getLsbD k = true → vlane v k = (lane k).1) ∧
      (∀ k, k < 64 → (activeMask s.me o).getLsbD k = false → vlane v k = 0)) ∧
  (∀ c k, s.me.h = false → laneTrap s.me.fpctl fs = some (c, k) →
    exec i s = .next (s.faulted c 0 (BitVec.ofNat 64 k)))

/-- R125: a vector word that gives each active lane a value and meets no condition. -/
def PureLanes (i : Instr) (s : State) (o : FmtV) (lat : Nat) (lane : Nat → BitVec 32) : Prop :=
  Gives i s fun t => ∃ v : VReg,
    t = s.vissued (beatsOf o.fold) lat [.v o.vd (writtenLanes s.me o) v] ∧
    (∀ k, k < 64 → (activeMask s.me o).getLsbD k = true → vlane v k = lane k) ∧
    (∀ k, k < 64 → (activeMask s.me o).getLsbD k = false → vlane v k = 0)

/-- R125, R141: a vector word that gives each active lane a bit of a mask register. -/
def MaskBits (i : Instr) (s : State) (o : FmtV) (bit : Nat → Bool) : Prop :=
  Gives i s fun t => ∃ m : Word,
    t = s.vissued (beatsOf o.fold) (beatsOf o.fold + 3) [.m (o.vd.setWidth 3) (writtenLanes s.me o) m] ∧
    ∀ k, k < 64 → m.getLsbD k = ((activeMask s.me o).getLsbD k && bit k)

/-! ### The invariant of memory -/

/-- The memory is in its canonical form: addresses strictly rising, no byte listed that an unlisted address reads as. -/
def State.MemoryCanonical (s : State) : Prop := Memory.wf s.mem = true

end Sys2Proof.Machine
end

