-- ==== Sys2Proof/Certificates/Slice0/Obligations.lean ====
section
/-! DEFINITION. The statements for the provers. -/

open Sys2Proof Sys2Proof.Machine

/-! ### Steps, words and memory -/

/-- A step issues the word at the PC of the slot whose turn it is (R13, R60): when nothing else is due and the slot may
issue, a word that its instruction store holds without an uncorrectable error and that decodes is executed, and the step
is that execution; an event that is due is executed likewise. Around it the step only takes the event from the agenda, or
goes on to the next turn, clears the single step of R405 and puts down the word's turn. No word that decodes stops the
machine: what goes wrong with it is taken as a fault of its slot (R23). Model choices: log entry 5. -/
def Obligations.StepRunsDecodedInstruction : Prop :=
  (∀ (s : State) (i : Instr) (rest : List SlotRef),
    s.agenda = [] → s.phase = .ready rest → s.mayIssue s.cur = true → s.me.gwaitFault = none →
    s.me.pc.toNat ∉ s.myCore.ibad → decodeWord (s.wordAt s.cur) = .ok i →
    step s = exec i ({ s with phase := .turns rest } : State).issuing) ∧
  (∀ (s : State) (i : Instr) (rest : List Due),
    s.agenda = .ev i :: rest → step s = exec i { s with agenda := rest }) ∧
  (∀ (s : State) (w : Word) (i : Instr), decodeWord w = .ok i → ∃ t, exec i s = .next t)

/-- A word that is not an instruction (R74): at a precise fault's cost it leaves every register but the saved ones: 0x01 for
an illegal opcode or reserved value, 0x02 for a nonzero must-be-zero field, FADDR 0, FINFO the whole word. A guard that does
not hold (R14, R18): the word spends its turn and the slot goes on to its next word; nothing else changes, but that a divide
occupies the divide unit for 18 turns and a vector word the vector unit for its beats. -/
def Obligations.WordsThatDoNotExecute : Prop :=
  (∀ (s : State) (d : WordDefect) (rest : List SlotRef),
     s.agenda = [] → s.phase = .ready rest → s.mayIssue s.cur = true → s.me.gwaitFault = none → s.me.h = false →
     s.me.pc.toNat ∉ s.myCore.ibad → decodeWord (s.wordAt s.cur) = .error d →
     step s = .next (({ s with phase := .turns rest } : State).issuing.faulted
       (match d with
         | .illegal => 0x01
         | .reserved => 0x02) 0 (s.wordAt s.cur))) ∧
  (∀ (s : State) (i : Instr) (b : Body), i.body = some b → s.me.guard b.hdr = false →
     (∀ o, b.fields = .x o → o.srn.toNat < 0x80 ∨ 0xFF < o.srn.toNat) →
     Gives i s fun t => OnlySlot s.cur s t ∧
       t.me = { s.passed.me with divFree := t.me.divFree, vecFree := t.me.vecFree } ∧
       s.me.divFree ≤ t.me.divFree ∧ t.me.divFree ≤ Nat.max s.me.divFree (s.me.turn + 18) ∧
       s.me.vecFree ≤ t.me.vecFree)

/-! ### Encoding -/

/-- The decoder reads back every operand of every well-formed word instruction (R60 to R74). -/
def Obligations.DecodeInvertsEncode : Prop :=
  ∀ (i : Instr) (w : Word), i.wellFormed = true → encode i = some w → decodeWord w = .ok i

/-- Every word that the decoder accepts is the word of the well-formed instruction it answers, so no bit of it is
dropped, and two words never stand for one instruction (R60 to R74). -/
def Obligations.EncodeInvertsDecode : Prop :=
  ∀ (w : Word) (i : Instr), decodeWord w = .ok i → encode i = some w ∧ i.wellFormed = true

/-- Words that the spec writes out decode to the instructions they stand for. -/
def Obligations.WordsOfTheSpecDecode : Prop :=
  decodeWord 0x10004A0000000000 = .ok (.add ⟨0, 0, false⟩ ⟨9, 8, 0, 0, 0, 0⟩) ∧
  decodeWord 0x4000298080200010 = .ok (.ld ⟨0, 0, false⟩ ⟨5, 6, 0, 2, 0, 0, 1, 0, 16⟩) ∧
  decodeWord 0x0800000000000000 = .ok (.endSlot ⟨0, 0, false⟩ ⟨0, 0, 0, 0, 0⟩) ∧
  decodeWord 0x3D00000054100400 = .ok (.mtsr ⟨0, 0, false⟩ ⟨0, 0, 0x15, 1, 0x400⟩) ∧
  decodeWord 0xB6003A0000100000 = .ok (.cpy ⟨0, 0, false⟩ ⟨7, 8, 0, 0, 1, 0⟩) ∧
  decodeWord 0x6DA031001E400000 = .ok (.vsce8 ⟨5, 0, false⟩ ⟨3, 1, 0, 0, 0, 1, 3, 9, 0, 0, 0⟩) ∧
  decodeWord 0xA400_01D0_0000_0002 = .ok (.note ⟨0, 0, false⟩ ⟨0, 7, 8, 0, 0, 2⟩)

/-! ### Control (R89 to R98, R355 to R357) -/

/-- NOP, CHKP and WAITC (R61, R97, R357): NOP only passes; CHKP restarts the budget from its reload value and
CHKP #n sets both; WAITC holds the next word until the core's CYCLE has reached G(ra) + n, or, with an immediate, for n
more turns. -/
def Obligations.NopChkpWaitcComplete : Prop :=
  ∀ (s : State) (h : Hdr) (o : FmtC), s.me.guard h = true →
    exec (.nop h o) s = .next s.passed ∧
    exec (.chkp h o) s = .next (s.passed.modMe fun sl => { sl with left := s.me.reload }) ∧
    exec (.chkpImm h o) s = .next (s.passed.modMe fun sl => { sl with reload := o.off, left := o.off }) ∧
    exec (.waitc h o) s = .next (s.passed.modMe fun sl =>
      { sl with gate := .waitc (s.me.turn + 1) (s.me.gr o.ra + o.off.signExtend 64) }) ∧
    exec (.waitcImm h o) s = .next (s.passed.modMe fun sl =>
      { sl with gate := .fromTurn (s.me.turn + 1 + o.off.toNat) })

/-- BR, JMP, CALL, CALLR and RET (R13, R89): with a target inside the instruction store control goes there, its word issuing
on the third turn after; CALL and CALLR write PC + 1 to their register one turn later. Nothing else changes, but the loop
levels that a BR or JMP leaves (TakenBranchLeavesLoops). A target outside the instruction store (R89): every transfer takes
0x09 with FADDR the target. -/
def Obligations.BranchesTransferControl : Prop :=
  (∀ (s : State) (h : Hdr) (o : FmtC) (tgt : Word), s.me.guard h = true → tgt.toNat ≤ 16383 →
     let pc : BitVec 14 := tgt.setWidth 14
     let rel := s.me.pc.setWidth 64 + o.off.signExtend 64
     let ind := s.me.gr o.ra + o.off.signExtend 64
     let link : State := s.setSlot s.cur { s.me with
       pc := pc, gate := .fromTurn (s.me.turn + 3), nextId := s.me.nextId + 1
       flights := s.me.flights ++ [⟨s.me.nextId, s.me.turn + 1, 0, [.g o.rd (s.me.pc.setWidth 64 + 1)]⟩] }
     let away (i : Instr) : Prop := Gives i s fun t =>
       t = s.setSlot s.cur { s.me with
         pc := pc, gate := .fromTurn (s.me.turn + 3), loop1 := t.me.loop1, loop2 := t.me.loop2 }
     (rel = tgt → away (.br h o)) ∧ (ind = tgt → away (.jmp h o)) ∧
     (rel = tgt → exec (.call h o) s = .next link) ∧ (ind = tgt → exec (.callr h o) s = .next link) ∧
     (s.me.gr o.ra = tgt → exec (.ret h o) s = .next (s.jumped pc))) ∧
  (∀ (s : State) (h : Hdr) (o : FmtC) (tgt : Word), s.me.guard h = true → s.me.h = false → 16383 < tgt.toNat →
     (s.me.pc.setWidth 64 + o.off.signExtend 64 = tgt →
       exec (.br h o) s = .next (s.faulted 0x09 tgt 0) ∧ exec (.call h o) s = .next (s.faulted 0x09 tgt 0)) ∧
     (s.me.gr o.ra + o.off.signExtend 64 = tgt →
       exec (.jmp h o) s = .next (s.faulted 0x09 tgt 0) ∧ exec (.callr h o) s = .next (s.faulted 0x09 tgt 0)) ∧
     (s.me.gr o.ra = tgt → exec (.ret h o) s = .next (s.faulted 0x09 tgt 0)))

/-- R95: a taken BR or JMP whose target lies outside [start, end] of the innermost active level pops that level, and the
test repeats against the next; one that lands inside leaves the level as it is; CALL, CALLR and RET never pop a level. -/
def Obligations.TakenBranchLeavesLoops : Prop :=
  ∀ (s : State) (h : Hdr) (o : FmtC) (tgt : Word), s.me.guard h = true → s.me.h = false → tgt.toNat ≤ 16383 →
    let rel := s.me.pc.setWidth 64 + o.off.signExtend 64
    let ind := s.me.gr o.ra + o.off.signExtend 64
    let outside (l : LoopLevel) : Prop := tgt.toNat < l.start.toNat ∨ l.stop.toNat < tgt.toNat
    let popped (l : LoopLevel) : LoopLevel := { l with remaining := 0 }
    let l1 := s.me.loop1
    let l2 := s.me.loop2
    let ends (i : Instr) (a b : LoopLevel) : Prop := Gives i s fun t => t.me.loop1 = a ∧ t.me.loop2 = b
    let leaves (a b : LoopLevel) : Prop := (rel = tgt → ends (.br h o) a b) ∧ (ind = tgt → ends (.jmp h o) a b)
    (l2.remaining ≠ 0 → ¬outside l2 → leaves l1 l2) ∧
    (l2.remaining ≠ 0 → outside l2 → ¬(l1.remaining ≠ 0 ∧ outside l1) → leaves l1 (popped l2)) ∧
    (l2.remaining ≠ 0 → outside l2 → l1.remaining ≠ 0 → outside l1 → leaves (popped l1) (popped l2)) ∧
    (l2.remaining = 0 → l1.remaining ≠ 0 → outside l1 → leaves (popped l1) l2) ∧
    (l2.remaining = 0 → ¬(l1.remaining ≠ 0 ∧ outside l1) → leaves l1 l2) ∧
    (rel = tgt → ends (.call h o) l1 l2) ∧ (ind = tgt → ends (.callr h o) l1 l2) ∧
    (s.me.gr o.ra = tgt → ends (.ret h o) l1 l2)

/-- R93: LOOP with a count that is not zero makes the next level active, its body from PC + 1 to the end word, and goes on
as any word does, to PC + 1; with a count of zero control goes to the word after the end word, or the LOOP takes 0x09 with
FADDR 16,384 where that word does not exist. A body that leaves the active level it lies in, a third level or a LOOP in a
handler takes 0x04 with FINFO 2, in a handler as a double fault; otherwise an end word outside the store takes 0x09. -/
def Obligations.LoopPushesALevel : Prop :=
  ∀ (s : State) (h : Hdr) (o : FmtC), s.me.guard h = true → 1 ≤ o.off.toNat →
    let l1 := s.me.loop1
    let l2 := s.me.loop2
    let pc := s.me.pc.toNat
    let e := pc + o.off.toNat
    let leaves (l : LoopLevel) : Prop :=
      l.remaining ≠ 0 ∧ l.start.toNat ≤ pc ∧ pc ≤ l.stop.toNat ∧ l.stop.toNat < e
    let misnested : Prop := leaves l2 ∨ (l2.remaining = 0 ∧ leaves l1)
    let runs (n : Word) (i : Instr) : Prop :=
      let level : LoopLevel := ⟨s.me.pc + 1, BitVec.ofNat 14 e, n⟩
      let pushed : Slot := if l1.remaining = 0 then { s.me with loop1 := level } else { s.me with loop2 := level }
      let third : Prop := n ≠ 0 ∧ l1.remaining ≠ 0 ∧ l2.remaining ≠ 0
      (s.me.h = false → ¬misnested → ¬third → e ≤ 16383 →
        (n ≠ 0 → exec i s = .next (s.setSlot s.cur pushed).passed) ∧
        (n = 0 → e < 16383 → exec i s = .next (s.jumped (BitVec.ofNat 14 (e + 1)))) ∧
        (n = 0 → e = 16383 → exec i s = .next (s.faulted 0x09 16384 0)) ∧
        (n ≠ 0 → (l1.remaining ≠ 0 ∨ l2.remaining = 0) → (s.setSlot s.cur pushed).passed = s.setSlot s.cur
          { pushed with pc := s.me.pc + 1, gate := .fromTurn (s.me.turn + 1) })) ∧
      (s.me.h = false → (misnested ∨ third) → exec i s = .next (s.faulted 0x04 0 2)) ∧
      (s.me.h = true → exec i s = .next (s.takeFault s.cur false 0x04 s.me.pc 0 2)) ∧
      (s.me.h = false → ¬misnested → ¬third → 16383 < e → ∃ addr, exec i s = .next (s.faulted 0x09 addr 0))
    runs (s.me.gr o.ra) (.loop h o) ∧ runs ((o.ra ++ o.rb).setWidth 64) (.loopImm h o)

/-- R94: at the end word of the innermost active level a word that passes goes back to the body's first word and counts
the pass, or pops the level after the last; elsewhere it goes to PC + 1. -/
def Obligations.EndWordsRepeatTheBody : Prop :=
  ∀ (s : State), s.me.h = false →
    let sl := s.me
    let to_ (pc : BitVec 14) (a b : LoopLevel) : Prop :=
      s.passed.me.pc = pc ∧ s.passed.me.loop1 = a ∧ s.passed.me.loop2 = b
    (sl.loop2.remaining ≠ 0 → sl.loop2.stop ≠ sl.pc → to_ (sl.pc + 1) sl.loop1 sl.loop2) ∧
    (1 < sl.loop2.remaining.toNat → sl.loop2.stop = sl.pc →
      to_ sl.loop2.start sl.loop1 { sl.loop2 with remaining := sl.loop2.remaining - 1 }) ∧
    (sl.loop2.remaining = 1 → sl.loop2.stop = sl.pc → 1 < sl.loop1.remaining.toNat → sl.loop1.stop = sl.pc →
      to_ sl.loop1.start { sl.loop1 with remaining := sl.loop1.remaining - 1 } { sl.loop2 with remaining := 0 }) ∧
    (sl.loop2.remaining = 1 → sl.loop2.stop = sl.pc → (sl.loop1.remaining = 0 ∨ sl.loop1.stop ≠ sl.pc) →
      to_ (sl.pc + 1) sl.loop1 { sl.loop2 with remaining := 0 }) ∧
    (sl.loop2.remaining = 0 → 1 < sl.loop1.remaining.toNat → sl.loop1.stop = sl.pc →
      to_ sl.loop1.start { sl.loop1 with remaining := sl.loop1.remaining - 1 } sl.loop2) ∧
    (sl.loop2.remaining = 0 → sl.loop1.remaining = 1 → sl.loop1.stop = sl.pc →
      to_ (sl.pc + 1) { sl.loop1 with remaining := 0 } sl.loop2) ∧
    (sl.loop2.remaining = 0 → (sl.loop1.remaining = 0 ∨ sl.loop1.stop ≠ sl.pc) → to_ (sl.pc + 1) sl.loop1 sl.loop2)

/-- END, TRAP and BRK (R98, R24, R355): END leaves the slot HALTED; TRAP takes 0x20 and BRK, in a slot that the loupe has
not claimed, 0x21, with FINFO the immediate; in a claimed slot BRK leaves it FAULTED, the record going to the loupe. -/
def Obligations.EndTrapAndBreakStopTheSlot : Prop :=
  ∀ (s : State) (h : Hdr) (o : FmtC), s.me.guard h = true →
    exec (.endSlot h o) s = .next (s.setSlot s.cur
      { s.me with life := .halted, gate := .closed, wait := none, hold := false, oneStep := false }) ∧
    (s.me.h = false → exec (.trap h o) s = .next (s.faulted 0x20 0 (o.off.setWidth 64))) ∧
    (s.me.h = false → s.me.claimed = false → exec (.brk h o) s = .next (s.faulted 0x21 0 (o.off.setWidth 64))) ∧
    (s.me.h = false → s.me.claimed = true → Gives (.brk h o) s fun t =>
      t.me = s.me.leftFaulted false 0x21 s.me.pc 0 (o.off.setWidth 64) ∧ t.fe = s.fe ∧ SameMemory s t ∧
      t.fw.loupe.breaks = s.fw.loupe.breaks ++
        [(s.cur.core, s.cur.slot, s.me.pc.setWidth 64, 0x21, 0, o.off.setWidth 64)])

/-- R24: a fault that the current slot takes at its PC writes EPC, FCAUSE with DEF 0 for a precise and 1 for a deferred
fault, FADDR and FINFO; with its FHEN bit set the slot enters its handler, H set, at FVEC, whose word issues on the third
turn after; otherwise the slot is left FAULTED and the front end gets a record; with H set FINFO gets the PC and the cause
of the second fault and FCAUSE 0x22, EPC and FADDR stand, and the slot is left FAULTED. TRAP takes its fault so. -/
def Obligations.FaultEntersHandlerOrStops : Prop :=
  (∀ (s : State) (dfr : Bool) (cause : BitVec 8) (addr info : Word),
     let sl := s.me
     let stopped (u : Slot) : State := { s.setSlot s.cur u with
       fe := { s.fe with records := s.fe.records ++
         [(s.cur.core, s.cur.slot, u.epc.setWidth 64, u.fcause.setWidth 64, u.faddr, u.finfo)] } }
     let t := s.takeFault s.cur dfr cause sl.pc addr info
     (sl.h = true → t = stopped { sl with
       fcause := 0x22, finfo := (sl.pc.setWidth 64 <<< 16) ||| cause.setWidth 64
       life := .faulted, gate := .closed, wait := none, hold := false, oneStep := false }) ∧
     (sl.h = false → sl.fhen.getLsbD cause.toNat = true →
       t = s.setSlot s.cur (sl.inHandler dfr cause sl.pc addr info)) ∧
     (sl.h = false → sl.fhen.getLsbD cause.toNat = false → t = stopped (sl.leftFaulted dfr cause sl.pc addr info))) ∧
  (∀ (s : State) (h : Hdr) (o : FmtC), s.me.guard h = true →
     exec (.trap h o) s = .next (s.takeFault s.cur false 0x20 s.me.pc 0 (o.off.setWidth 64)))

/-- RFT and RFT.next (R96, R356): H clears and control goes to EPC, or to the word after it, as a taken branch, nothing
else changing; a next word at 16,384 takes 0x09. In a handler RFT.next obeys the end word that EPC is. -/
def Obligations.ReturnFromFault : Prop :=
  ∀ (s : State) (h : Hdr) (o : FmtC), s.me.guard h = true →
    let back (pc : BitVec 14) (a : LoopLevel) : State := s.setSlot s.cur
      { s.me with h := false, pc := pc, gate := .fromTurn (s.me.turn + 3), loop1 := a }
    exec (.rft h o) s = .next (back s.me.epc s.me.loop1) ∧
    (s.me.h = false → s.me.epc ≠ 16383 → exec (.rftNext h o) s = .next (back (s.me.epc + 1) s.me.loop1)) ∧
    (s.me.h = false → s.me.epc = 16383 → exec (.rftNext h o) s = .next (s.faulted 0x09 16384 0)) ∧
    (s.me.h = true → s.me.loop2.remaining = 0 → s.me.epc ≠ 16383 →
      (s.me.loop1.remaining = 0 ∨ s.me.loop1.stop ≠ s.me.epc) →
      exec (.rftNext h o) s = .next (back (s.me.epc + 1) s.me.loop1)) ∧
    (s.me.h = true → s.me.loop2.remaining = 0 → s.me.epc ≠ 16383 → 1 < s.me.loop1.remaining.toNat →
      s.me.loop1.stop = s.me.epc →
      exec (.rftNext h o) s = .next
        (back s.me.loop1.start { s.me.loop1 with remaining := s.me.loop1.remaining - 1 }))

/-! ### Scalar integers (R99 to R104) -/

/-- The arithmetic rows give their result, one turn after issue, or three after MUL and MULH; nothing else changes
(R99, R100). -/
def Obligations.IntegerArithmetic : Prop :=
  ∀ (s : State) (h : Hdr) (o : FmtA), s.me.guard h = true →
    let a := s.me.gr o.ra
    let b := s.me.gr o.rb
    let gives (i : Instr) (lat : Nat) (v : Word) : Prop := exec i s = .next (s.issued lat [.g o.rd v])
    gives (.add h o) 1 (BitVec.ofNat 64 (a.toNat + b.toNat)) ∧
    gives (.sub h o) 1 (BitVec.ofInt 64 (a.toInt - b.toInt)) ∧
    gives (.mul h o) 3 (BitVec.ofNat 64 (a.toNat * b.toNat)) ∧
    (o.fn = 0 → gives (.mulh h o) 3 (BitVec.ofInt 64 (a.toInt * b.toInt / 2 ^ 64))) ∧
    (o.fn = 1 → gives (.mulh h o) 3 (BitVec.ofNat 64 (a.toNat * b.toNat / 2 ^ 64))) ∧
    (o.fn = 2 → gives (.mulh h o) 3 (BitVec.ofInt 64 (a.toInt * b.toNat / 2 ^ 64))) ∧
    (o.fn.toNat ≤ 3 → gives (.lea h o) 1 (a + b * BitVec.ofNat 64 (2 ^ o.fn.toNat) + o.imm.signExtend 64))

/-- DIV and REM (R101): quotient and remainder as mathematics gives them, rounded toward zero, the most negative by -1
and a zero divisor as the rule says; the result comes 18 turns after issue and the divide unit is taken until then; a
second divide in that time takes 0x04, a zero divisor under TIZ 0x14. -/
def Obligations.DivideGivesQuotientAndRemainder : Prop :=
  ∀ (s : State) (h : Hdr) (o : FmtA), s.me.guard h = true →
    let a := s.me.gr o.ra
    let b := s.me.gr o.rb
    let gives (i : Instr) (ws : List Write) : Prop := exec i s = .next
      ((s.issued 18 ws).modMe fun sl => { sl with divFree := s.me.turn + 18 })
    let opc (i : Instr) : Option (BitVec 8) := (encode i).map fun w => w.extractLsb' 56 8
    let both (q r : Word) : Prop := gives (.div h o) [.g o.rd q] ∧ gives (.rem h o) [.g o.rd r]
    (s.me.divFree ≤ s.me.turn →
      (o.fn = 0 → b ≠ 0 → both (BitVec.ofInt 64 (Int.tdiv a.toInt b.toInt)) (BitVec.ofInt 64 (Int.tmod a.toInt b.toInt))) ∧
      (o.fn = 1 → b ≠ 0 → both (BitVec.ofNat 64 (a.toNat / b.toNat)) (BitVec.ofNat 64 (a.toNat % b.toNat))) ∧
      (b = 0 → s.me.fpctl.getLsbD 12 = false →
        gives (.div h o) [.g o.rd (BitVec.allOnes 64), .istat 0x28] ∧ gives (.rem h o) [.g o.rd a, .istat 0x28]) ∧
      (b = 0 → s.me.fpctl.getLsbD 12 = true → s.me.h = false →
        exec (.div h o) s = .next (s.faulted 0x14 0 0) ∧ exec (.rem h o) s = .next (s.faulted 0x14 0 0))) ∧
    opc (.div h o) = some 0x14 ∧ opc (.rem h o) = some 0x15 ∧
    (s.me.turn < s.me.divFree → s.me.h = false →
      exec (.div h o) s = .next (s.faulted 0x04 0 0) ∧ exec (.rem h o) s = .next (s.faulted 0x04 0 0))

/-- Logic, shifts, rotates, minima and maxima (R100): a shift amount is the low six bits of G(RB). -/
def Obligations.IntegerLogicAndShifts : Prop :=
  ∀ (s : State) (h : Hdr) (o : FmtA), s.me.guard h = true →
    let a := s.me.gr o.ra
    let b := s.me.gr o.rb
    let n := b.toNat % 64
    let gives (i : Instr) (v : Word) : Prop := exec i s = .next (s.issued 1 [.g o.rd v])
    gives (.andG h o) (a &&& b) ∧ gives (.orG h o) (a ||| b) ∧ gives (.xorG h o) (a ^^^ b) ∧
    gives (.andn h o) (a &&& ~~~b) ∧
    gives (.shl h o) (BitVec.ofNat 64 (a.toNat * 2 ^ n)) ∧ gives (.shr h o) (BitVec.ofNat 64 (a.toNat / 2 ^ n)) ∧
    gives (.sar h o) (BitVec.ofInt 64 (a.toInt / 2 ^ n)) ∧
    (o.fn = 0 → gives (.rot h o) (a.rotateRight n)) ∧ (o.fn = 1 → gives (.rot h o) (a.rotateLeft n)) ∧
    (o.fn = 0 → gives (.minG h o) (BitVec.ofInt 64 (min a.toInt b.toInt)) ∧
      gives (.maxG h o) (BitVec.ofInt 64 (max a.toInt b.toInt))) ∧
    (o.fn = 1 → gives (.minG h o) (BitVec.ofNat 64 (min a.toNat b.toNat)) ∧
      gives (.maxG h o) (BitVec.ofNat 64 (max a.toNat b.toNat)))

/-- Bit counts, extensions, fields and SEL (R100, R102): the result as bits of the operand. -/
def Obligations.IntegerBitOperations : Prop :=
  ∀ (s : State) (h : Hdr) (o : FmtA), s.me.guard h = true →
    let a := s.me.gr o.ra
    let b := s.me.gr o.rb
    let pos := (o.imm.extractLsb' 0 6).toNat
    let w := (o.imm.extractLsb' 6 6).toNat + 1
    let gives (i : Instr) (v : Word) : Prop := exec i s = .next (s.issued 1 [.g o.rd v])
    (∃ v, gives (.clz h o) v ∧ v.toNat ≤ 64 ∧ (∀ j, 64 - v.toNat ≤ j → a.getLsbD j = false) ∧
      (v.toNat < 64 → a.getLsbD (63 - v.toNat) = true)) ∧
    (∃ v, gives (.ctz h o) v ∧ v.toNat ≤ 64 ∧ (∀ j, j < v.toNat → a.getLsbD j = false) ∧
      (v.toNat < 64 → a.getLsbD v.toNat = true)) ∧
    gives (.popc h o) (BitVec.ofNat 64 ((List.range 64).filter fun j => a.getLsbD j).length) ∧
    (o.fn = 0 → gives (.ext h o) ((a.setWidth 8).signExtend 64)) ∧
    (o.fn = 1 → gives (.ext h o) ((a.setWidth 16).signExtend 64)) ∧
    (o.fn = 2 → gives (.ext h o) ((a.setWidth 32).signExtend 64)) ∧
    (o.fn = 4 → gives (.ext h o) ((a.setWidth 8).setWidth 64)) ∧
    (o.fn = 5 → gives (.ext h o) ((a.setWidth 16).setWidth 64)) ∧
    (o.fn = 6 → gives (.ext h o) ((a.setWidth 32).setWidth 64)) ∧
    (pos + w ≤ 64 → (∃ v, gives (.bfx h o) v ∧ (∀ j, j < w → v.getLsbD j = a.getLsbD (pos + j)) ∧
        ∀ j, w ≤ j → j < 64 → v.getLsbD j = (decide (o.fn = 1) && a.getLsbD (pos + w - 1))) ∧
      (∃ v, gives (.bfi h o) v ∧ ∀ j, j < 64 → v.getLsbD j =
        (if pos ≤ j ∧ j < pos + w then a.getLsbD (j - pos) else (s.me.gr o.rd).getLsbD j))) ∧
    (o.rc.toNat < 8 → gives (.sel h o) (if s.me.pr (o.rc.setWidth 3) then a else b))

/-- Comparisons and predicate logic (R66, R103): CMP, CMPI and PLOG write one predicate and nothing else. -/
def Obligations.ComparisonsWriteAPredicate : Prop :=
  ∀ (s : State) (h : Hdr) (o : FmtA) (q : FmtB), s.me.guard h = true →
    let holds (c : Nat) (a b : Word) : Option Bool := match c with
      | 0 => some (decide (a = b))
      | 1 => some (decide (a ≠ b))
      | 2 => some (decide (a.toInt < b.toInt))
      | 3 => some (decide (b.toInt ≤ a.toInt))
      | 4 => some (decide (a.toInt ≤ b.toInt))
      | 5 => some (decide (b.toInt < a.toInt))
      | 6 => some (decide (a.toNat < b.toNat))
      | 7 => some (decide (b.toNat ≤ a.toNat))
      | 8 => some (decide (a.toNat ≤ b.toNat))
      | 9 => some (decide (b.toNat < a.toNat))
      | _ => none
    (∀ v, holds o.fn.toNat (s.me.gr o.ra) (s.me.gr o.rb) = some v →
      exec (.cmp h o) s = .next (s.issued 1 [.p (o.rd.setWidth 3) v])) ∧
    (∀ v, holds q.fn.toNat (s.me.gr q.ra) (q.imm.signExtend 64) = some v →
      exec (.cmpi h q) s = .next (s.issued 1 [.p (q.rd.setWidth 3) v])) ∧
    exec (.plog h o) s = .next (s.issued 1 [.p (o.rd.setWidth 3)
      (o.fn.getLsbD (2 * (s.me.pr (o.ra.setWidth 3)).toNat + (s.me.pr (o.rb.setWidth 3)).toNat))])

/-- Immediate forms (R104): ADDI sign-extends, the logic forms extend as FN says, SHI shifts by the low six bits, LI
sign-extends, LI.z zero-extends and LI.h writes the upper half over the lower half of G(RA). -/
def Obligations.ImmediateForms : Prop :=
  ∀ (s : State) (h : Hdr) (o : FmtB), s.me.guard h = true →
    let a := s.me.gr o.ra
    let n := (o.imm.extractLsb' 0 6).toNat
    let sx : Word := o.imm.signExtend 64
    let zx : Word := o.imm.setWidth 64
    let gives (i : Instr) (v : Word) : Prop := exec i s = .next (s.issued 1 [.g o.rd v])
    gives (.addi h o) (a + sx) ∧
    (o.fn = 0 → gives (.andi h o) (a &&& sx) ∧ gives (.ori h o) (a ||| sx) ∧ gives (.xori h o) (a ^^^ sx)) ∧
    (o.fn = 1 → gives (.andi h o) (a &&& zx) ∧ gives (.ori h o) (a ||| zx) ∧ gives (.xori h o) (a ^^^ zx)) ∧
    (o.fn = 0 → gives (.shi h o) (BitVec.ofNat 64 (a.toNat * 2 ^ n))) ∧
    (o.fn = 1 → gives (.shi h o) (BitVec.ofNat 64 (a.toNat / 2 ^ n))) ∧
    (o.fn = 2 → gives (.shi h o) (BitVec.ofInt 64 (a.toInt / 2 ^ n))) ∧
    (o.fn = 3 → gives (.shi h o) (a.rotateRight n)) ∧
    gives (.li h o) sx ∧ gives (.liZ h o) zx ∧
    gives (.liH h o) (BitVec.ofNat 64 (o.imm.toNat * 2 ^ 32 + a.toNat % 2 ^ 32))

/-! ### Scalar floating point (R105 to R112) -/

/-- The scalar floating-point rows (R105 to R112): the exact result of the FP32 operands, rounded once as RMF names, after
4 turns, or 10 for FSF; the upper half of the destination is zero; the conditions met are ORed into ISTAT or trap. FCLASS
sets one of ten bits by the sign, exponent and fraction of its operand, and FSGN writes a sign bit over the other 31 bits
of its first operand, or the canonical NaN for a NaN (R111, R112). Model choices: log entry 10. -/
def Obligations.ScalarFloatRowsComplete : Prop :=
  (∀ (s : State) (h : Hdr) (o : FmtA), s.me.guard h = true →
     let sl := s.me
     let a : BitVec 32 := (sl.gr o.ra).setWidth 32
     let b : BitVec 32 := (sl.gr o.rb).setWidth 32
     let c : BitVec 32 := (sl.gr o.rc).setWidth 32
     let rm := sl.rm (bits o.fn 0 3)
     let r : Rnd := ⟨rm, false, sl.rngkey, 0⟩
     let rounds (i : Instr) (x : FVal × Flags) : Prop :=
       FloatOutcome i s 4 (.g o.rd ((fround r x).1.setWidth 64)) (fround r x).2
     let src := o.fn.extractLsb' 4 4
     let dst := o.fn.extractLsb' 0 4
     let n := contNum src ((sl.gr o.ra).toNat % 2 ^ (8 * contSize src))
     let cv := convert dst ⟨sl.rm (bits o.imm 0 3), o.imm.getLsbD 3, sl.rngkey, 0⟩ (bits o.imm 4 5) n
     rounds (.fadd h o) (addF rm (f32 a) (f32 b)) ∧ rounds (.fsub h o) (addF rm (f32 a) (f32 b).negate) ∧
     rounds (.fmul h o) (mulF (f32 a) (f32 b)) ∧
     rounds (.ffma h o) (fmaF rm (o.fn.getLsbD 3) (o.fn.getLsbD 4) (f32 a) (f32 b) (f32 c)) ∧
     FloatOutcome (.fmin h o) s 4 (.g o.rd ((minMaxF false (o.fn == 1) a b).1.setWidth 64)) (minMaxF false (o.fn == 1) a b).2 ∧
     FloatOutcome (.fmax h o) s 4 (.g o.rd ((minMaxF true (o.fn == 1) a b).1.setWidth 64)) (minMaxF true (o.fn == 1) a b).2 ∧
     FloatOutcome (.fcmp h o) s 4 (.p (o.rd.setWidth 3) (cmpF (bits o.fn 0 4) a b).1) (cmpF (bits o.fn 0 4) a b).2 ∧
     (src ≠ dst → FloatOutcome (.fcvt h o) s 4 (.g o.rd (cv.1.scalar dst)) cv.2) ∧
     (src = dst → FloatOutcome (.fcvt h o) s 4 (.g o.rd ((copyNum n).1.scalar dst)) (copyNum n).2) ∧
     FloatOutcome (.fsf h o) s 10 (.g o.rd ((image (specialF dst 0 (f32 a)).1).setWidth 64)) (specialF dst 0 (f32 a)).2 ∧
     exec (.fclass h o) s = .next (s.issued 4 [.g o.rd (classOf a)]) ∧
     exec (.fsgn h o) s = .next (s.issued 4 [.g o.rd ((withSign o.fn.toNat a b).setWidth 64)])) ∧
  (∀ (a b : BitVec 32),
     let e := (a.extractLsb' 23 8).toNat
     let m := (a.extractLsb' 0 23).toNat
     let n := a.getLsbD 31
     (e = 255 → m ≠ 0 → a.getLsbD 22 = false → classOf a = 0x100) ∧ (e = 255 → m ≠ 0 → a.getLsbD 22 = true → classOf a = 0x200) ∧
     (e = 255 → m = 0 → classOf a = if n then 0x001 else 0x080) ∧
     (e ≠ 0 → e ≠ 255 → classOf a = if n then 0x002 else 0x040) ∧
     (e = 0 → m ≠ 0 → classOf a = if n then 0x004 else 0x020) ∧
     (e = 0 → m = 0 → classOf a = if n then 0x008 else 0x010) ∧
     (e = 255 → m ≠ 0 → ∀ fn, withSign fn a b = 0x7FC00000) ∧
     (¬(e = 255 ∧ m ≠ 0) → ∀ fn j, j < 31 → (withSign fn a b).getLsbD j = a.getLsbD j) ∧
     (¬(e = 255 ∧ m ≠ 0) → (withSign 0 a b).getLsbD 31 = b.getLsbD 31 ∧ (withSign 1 a b).getLsbD 31 = !b.getLsbD 31 ∧
       (withSign 2 a b).getLsbD 31 = (n ^^ b.getLsbD 31) ∧ (withSign 3 a b).getLsbD 31 = false ∧
       (withSign 4 a b).getLsbD 31 = !n))

/-! ### System registers (R75, R113, R117 to R122) -/

/-- MFSR, MTSR, SRSET and SRCLR (R113): a read gives the register's value one turn later; the writes take effect one turn
later, the value being G(RA) or the immediate, and write no other register. R74: a task slot's access to a supervisor
system register, 0x080 to 0x0FF, takes 0x03, before its guard, with FADDR 0 and FINFO the word. Model choices: log entry
20. -/
def Obligations.SystemRegisterRowsComplete : Prop :=
  (∀ (s : State) (h : Hdr) (o : FmtX), s.me.guard h = true → ¬(0x80 ≤ o.srn.toNat ∧ o.srn.toNat ≤ 0xFF) →
     let v : Word := if o.fn = 0 then s.me.gr o.ra else o.imm.setWidth 64
     exec (.mfsr h o) s = .next (s.issued 1 [.g o.rd (s.readSr s.cur o.srn.toNat)]) ∧
     exec (.mtsr h o) s = .next (s.issued 1 [.sys o.srn .move v]) ∧
     exec (.srset h o) s = .next (s.issued 1 [.sys o.srn .set v]) ∧
     exec (.srclr h o) s = .next (s.issued 1 [.sys o.srn .clear v])) ∧
  (∀ (s : State) (h : Hdr) (o : FmtX), s.me.h = false → 0x80 ≤ o.srn.toNat → o.srn.toNat ≤ 0xFF →
     ∀ i, (i = .mfsr h o ∨ i = .mtsr h o ∨ i = .srset h o ∨ i = .srclr h o) →
       exec i s = .next (s.faulted 0x03 0 (s.wordAt s.cur)))

/-- Reading after writing (R25, R37, R87, R113, R136, R252): when the write of a system register becomes visible, the
register reads as the written, ORed or cleared value in the bits it has, FHEN without its hardwired bits, FPCTL with its old
RM where the new one is above 4; no other register of the slot, no other slot and no memory changes. WHEEL (R121, R122): a
write that changes no position not granted to its task, names no slot that is not the task's and starves none of its slots
is in force from the first boundary of the wheel at least two P-cycles later; the wheel in force stands until then, and at
the boundary the latest value written replaces it. Any other write takes 0x03 with a bit of FINFO for each offending
position, and changes nothing. -/
def Obligations.SystemRegisterWriteIsReadBack : Prop :=
  (∀ (s : State) (r : SlotRef) (n : Nat) (op : SrOp) (v : Word),
     let old := s.readSr r n
     let u : Word := match op with
       | .move => v
       | .set => old ||| v
       | .clear => old &&& ~~~v
     let t := s.writeSr r n op v
     (n = 0x10 ∨ n = 0x11 → t.readSr r n = u &&& 0x3FFF) ∧ (n = 0x12 → t.readSr r n = u &&& 0x1FF) ∧
     (n = 0x13 ∨ n = 0x14 ∨ n = 0x24 ∨ n = 0x50 → t.readSr r n = u) ∧
     (n = 0x15 → t.readSr r n = u &&& 0x06070003031FFFFE) ∧
     (n = 0x18 → t.readSr r n = (u &&& 0x1F00) ||| (if (u &&& 7).toNat ≤ 4 then u &&& 7 else old &&& 7)) ∧
     (n = 0x19 → t.readSr r n = u &&& 0x3F) ∧ (n = 0x1A → t.readSr r n = u &&& 0x7F) ∧
     (n = 0x25 → t.readSr r n = u &&& 0xFFFFFFFF) ∧ (n = 0x41 → t.readSr r n = u &&& 7) ∧
     (n = 0x44 → t.readSr r n = u &&& 0xFFFF) ∧
     (∀ q, q ≠ r → t.slot q = s.slot q) ∧ OnlyCore r.core s t ∧
     (t.slot r).g = (s.slot r).g ∧ (t.slot r).p = (s.slot r).p ∧ (t.slot r).v = (s.slot r).v ∧
     (t.slot r).m = (s.slot r).m ∧ (t.slot r).pc = (s.slot r).pc) ∧
  (∀ (s : State) (h : Hdr) (o : FmtX) (op : SrOp), s.me.guard h = true →
     let c := s.cur.core
     let x := s.myCore
     let v : Word := if o.fn = 0 then s.me.gr o.ra else o.imm.setWidth 64
     let old := x.wheelNext
     let new : Word := match op with
       | .move => v
       | .set => old ||| v
       | .clear => old &&& ~~~v
     let here := s.now + x.skew
     let b := (here + 17) / 16 * 16
     let mine (k : Nat) : Prop := (x.slot k).life ≠ .unbound ∧ (x.slot k).task = s.me.task
     let starved (k : Nat) : Prop := mine k ∧
       ((x.slot k).life = .boundIdle ∨ (x.slot k).life = .running ∨ (x.slot k).life = .waiting) ∧
       ∀ p, p < 16 → wheelSlot new p ≠ some k
     let notGranted (p : Nat) : Prop := x.task ≠ s.me.task ∧ wheelEntry old p ≠ wheelEntry new p
     let foreign (p : Nat) : Prop := ∃ k, wheelSlot new p = some k ∧ ¬mine k
     let takes (p : Nat) : Prop := ∃ k, wheelSlot old p = some k ∧ starved k
     let refused : Prop := (∃ p, p < 16 ∧ (notGranted p ∨ foreign p)) ∨ ∃ k, k < 8 ∧ starved k
     (¬refused → Gives (.wheelWrite h op o) s fun t =>
       t.myCore.wheel = x.wheel ∧ t.myCore.wheelNext = new ∧ t.myCore.wheelDue = x.wheelDue ++ [(b, new)] ∧
       t.me = s.passed.me ∧ (∀ q, q ≠ s.cur → t.slot q = s.slot q) ∧ SameMemory s t ∧
       (s.now + (b - here), Instr.wheelSwitch c) ∈ t.coming) ∧
     (refused → s.me.h = false → ∃ info : Word, exec (.wheelWrite h op o) s = .next (s.faulted 0x03 0 info) ∧
       ∀ p, p < 64 → (info.getLsbD p = true ↔ p < 16 ∧ (notGranted p ∨ foreign p ∨ takes p)))) ∧
  (∀ (s : State) (c : Nat), c < 768 →
     let x := s.core c
     let here := s.now + x.skew
     Gives (.wheelSwitch c) s fun t => OnlyCore c s t ∧ t.core c = { x with
       wheel := (((x.wheelDue.filter fun p => decide (p.1 ≤ here)).getLast?).map (·.2)).getD x.wheel
       wheelDue := x.wheelDue.filter fun p => decide (here < p.1) })

/-! ### Results and accesses (R15 to R17, R20, R279, R280, R285 to R290) -/

/-- A result becomes visible (R15, R16): its register holds the value, g0, p0 and m0 excepted, which never change; a
vector or mask result changes the lanes it names and no other; flags are ORed in; a system register is written; the result
is in flight no longer, and nothing else changes, but that a fence that waited for it may go on (R290). -/
def Obligations.ResultBecomesVisible : Prop :=
  ∀ (s : State) (core slot : Nat) (f : Flight) (early rest : List Flight), core < 768 → slot < 8 →
    let r : SlotRef := ⟨core, slot⟩
    let old := s.slot r
    let left := early ++ rest
    old.flights = early ++ f :: rest → (∀ g ∈ early, g.id ≠ f.id) → f.minTurn ≤ old.turn → f.minCycle ≤ s.now →
    let sees (ws : List Write) (P : Slot → Prop) : Prop := f.writes = ws →
      Gives (.resultWriteback core slot f.id) s fun t =>
        SameMemory s t ∧ (∀ q, q ≠ r → t.slot q = s.slot q) ∧
        ((∀ st, old.gate ≠ .stalled st) → OnlySlot r s t ∧ (t.slot r).gate = old.gate) ∧ P (t.slot r)
    (∀ d v, sees [.g d v] fun sl => sl = { old with g := sl.g, flights := left, gate := sl.gate } ∧
      ∀ k, sl.gr k = if k = d ∧ d ≠ 0 then v else old.gr k) ∧
    (∀ d v, sees [.p d v] fun sl => sl = { old with p := sl.p, flights := left, gate := sl.gate } ∧
      ∀ k, sl.pr k = if k = d ∧ d ≠ 0 then v else old.pr k) ∧
    (∀ d ls v, sees [.v d ls v] fun sl => sl = { old with v := sl.v, vbad := sl.vbad, flights := left, gate := sl.gate } ∧
      ∀ k j, j < 64 → vlane (sl.vr k) j = if k = d ∧ ls.getLsbD j = true then vlane v j else vlane (old.vr k) j) ∧
    (∀ d ls v, sees [.m d ls v] fun sl => sl = { old with m := sl.m, flights := left, gate := sl.gate } ∧
      ∀ k j, (sl.mr k).getLsbD j = if k = d ∧ d ≠ 0 ∧ ls.getLsbD j = true then v.getLsbD j else (old.mr k).getLsbD j) ∧
    (∀ b, sees [.istat b] fun sl => sl = { old with istat := old.istat ||| b, flights := left, gate := sl.gate }) ∧
    (∀ b, sees [.vstat b] fun sl => sl = { old with vstat := old.vstat ||| b, flights := left, gate := sl.gate }) ∧
    (∀ n op v, (∀ st, old.gate ≠ .stalled st) → f.writes = [.sys n op v] → exec (.resultWriteback core slot f.id) s =
      .next ((s.setSlot r { old with flights := left }).writeSr r n.toNat op v))

/-- LD, ST and AMO (R20, R264, R285 to R289): the address is G(RA) + OFF13, and for LD and ST + G(RB). An access that meets
none of the faults of its issue turn issues: no register of the slot changes yet, LD changes no byte, and ST and AMO of the
core's own window change none but those at their address. With no other access of the slot in flight and plain order, a
local one performs at once: ST writes the low bytes of its source, least significant first; AMO writes what its operation
gives of the old value, and its register is to hold the old value; LD's register is to hold the bytes. A global one, with
its window given and its name known, leaves for the core its name resolves to. -/
def Obligations.LocalAccessesPerform : Prop :=
  ∀ (s : State) (h : Hdr) (o : FmtM), s.me.guard h = true →
    let n := Machine.sizeOf o.sz
    let x := s.myCore
    let eaLS := s.me.gr o.ra + o.off.signExtend 64 + s.me.gr o.rb
    let eaA := s.me.gr o.ra + o.off.signExtend 64
    let ready (ea : Word) (write : Bool) : Prop := ea.toNat % n = 0 ∧ ea.toNat < 4194304 ∧
      bmV (x.bm (eaEntry ea)) = true ∧ bmPend (x.bm (eaEntry ea)) = false ∧
      (write = true → bmWp (x.bm (eaEntry ea)) = false) ∧
      (∀ p ∈ x.frontBusy, p.1 = bmIndex (x.bm (eaEntry ea)) → p.2 < 8) ∧ (∀ b ∈ s.me.beats, b.1 ≠ s.me.turn)
    let alone : Prop := s.MemoryCanonical ∧ s.me.accs = [] ∧ o.ord = 0
    let clean (ea : Word) : Prop := s.hasErr (x.winKey ea) n = false
    let issues (i : Instr) (P : State → Prop) : Prop := Gives i s fun t => (∀ q, q ≠ s.cur → t.slot q = s.slot q) ∧
      t.myCore.bmap = x.bmap ∧ t.me = { s.passed.me with
        accs := t.me.accs, flights := t.me.flights, due := t.me.due, gate := t.me.gate, nextId := t.me.nextId } ∧ P t
    let kept (t : State) : Prop := OnlyCore s.cur.core s { t with mem := s.mem, memErr := s.memErr } ∧
      t.me = { s.passed.me with accs := t.me.accs, nextId := s.me.nextId + 1 }
    let outside (ea : Word) (t : State) : Prop :=
      ∀ a, (a < x.winKey ea ∨ x.winKey ea + n ≤ a) → t.byte a = s.byte a
    let bytesAre (t : State) (key : Nat) (v : Nat) : Prop := ∀ a, t.byte a =
      if key ≤ a ∧ a < key + n then BitVec.ofNat 8 (v / 256 ^ (a - key)) else s.byte a
    let global (ea : Word) (i : Instr) (k : AccKind) : Prop := ea.toNat % n = 0 → 2 ^ 40 ≤ ea.toNat → ea.toNat < 2 ^ 40 + 2 ^ 38 →
      o.win ≠ 0 → (s.resolve s.cur.core (eaName ea)).fault = none → issues i fun t => SameMemory s t ∧
        ∀ dst, s.me.accs = [] → s.resolve s.cur.core (eaName ea) = .hit dst → dst < 768 → ∃ p : Packet,
          t.packets = s.packets ++ [p] ∧ p.src = s.cur.core ∧ p.dst = dst ∧
          (∃ b, p.cargo = .access b ∧ t.me.accs = [b] ∧ b.kind = k ∧ b.ea = ea ∧ b.size = n ∧ b.st = .sent) ∧
          ∃ d, s.requestLeg s.cur.core dst ≤ d ∧ (s.now + d, Instr.globalRequestArrive p.id) ∈ t.coming
    (ready eaLS true → issues (.st h o) (outside eaLS)) ∧ (ready eaLS false → issues (.ld h o) (SameMemory s)) ∧
    (ready eaA true → issues (.amo h o) (outside eaA)) ∧
    (ready eaLS true → alone → n ≠ 16 → issues (.st h o) fun t => kept t ∧ t.me.accs = [] ∧
      bytesAre t (x.winKey eaLS) (s.me.gr (o.rt + 1) ++ s.me.gr o.rt).toNat) ∧
    (ready eaLS false → alone → n ≠ 16 → clean eaLS → issues (.ld h o) fun t => kept t ∧ SameMemory s t ∧
      ∃ a, t.me.accs = [a] ∧ a.st = .arrived ∧ a.rt = o.rt ∧ a.size = n ∧ a.kind = .load ∧ a.sx = (o.fnm == 1) ∧
        a.vdest = none ∧ a.ended = false ∧ a.val.toNat = leNat (s.bytes (x.winKey eaLS) n)) ∧
    (ready eaA true → alone → n ≠ 16 → clean eaA → issues (.amo h o) fun t =>
      let m := leNat (s.bytes (x.winKey eaA) n)
      kept t ∧ bytesAre t (x.winKey eaA)
        (amoValue o.fnm n m ((s.me.gr o.rb).toNat % 2 ^ (8 * n)) ((s.me.gr o.rt).toNat % 2 ^ (8 * n))) ∧
      ∃ a, t.me.accs = [a] ∧ a.st = .arrived ∧ a.rt = o.rt ∧ a.size = n ∧ a.kind = .amo ∧ a.ended = false ∧ a.val.toNat = m) ∧
    (s.extra = [] → alone → n = 16 →
      (ready eaLS true → issues (.st h o) fun t => t.me.accs = [] ∧
        bytesAre t (x.winKey eaLS) (s.me.gr (o.rt + 1) ++ s.me.gr o.rt).toNat) ∧
      (ready eaLS false → clean eaLS → issues (.ld h o) fun t => SameMemory s t ∧ ∃ a, t.me.accs = [a] ∧ a.st = .arrived ∧
        a.rt = o.rt ∧ a.size = n ∧ a.kind = .load ∧ a.ended = false ∧ a.val.toNat = leNat (s.bytes (x.winKey eaLS) n))) ∧
    global eaLS (.ld h o) .load ∧ global eaLS (.st h o) .store ∧ global eaA (.amo h o) .amo

/-- R285: LD, ST and AMO whose address is not a multiple of the access size take the precise fault 0x08 with FADDR the
address, whatever else is wrong with it; one outside the local window and the global aperture takes 0x09; a global one of
a known name without a window takes 0x0D, and one whose name is not mapped 0x0C; a local one of an entry that is detached,
pending or, for a write, protected takes 0x0A. -/
def Obligations.MisplacedAccessesFault : Prop :=
  ∀ (s : State) (h : Hdr) (o : FmtM), s.me.guard h = true → s.me.h = false →
    let n := Machine.sizeOf o.sz
    let ls := s.me.gr o.ra + o.off.signExtend 64 + s.me.gr o.rb
    let am := s.me.gr o.ra + o.off.signExtend 64
    let outside (a : Word) : Prop := a.toNat % n = 0 ∧ 4194304 ≤ a.toNat ∧ (a.toNat < 2 ^ 40 ∨ 2 ^ 40 + 2 ^ 38 ≤ a.toNat)
    let global (a : Word) : Prop := a.toNat % n = 0 ∧ 2 ^ 40 ≤ a.toNat ∧ a.toNat < 2 ^ 40 + 2 ^ 38
    let name (a : Word) : NameRes := s.resolve s.cur.core (eaName a)
    let w (a : Word) : Word := s.myCore.bm (eaEntry a)
    let closed (a : Word) (write : Bool) : Prop := a.toNat % n = 0 ∧ a.toNat < 4194304 ∧
      (bmV (w a) = false ∨ bmPend (w a) = true ∨ (write = true ∧ bmWp (w a) = true))
    (ls.toNat % n ≠ 0 → exec (.ld h o) s = .next (s.faulted 0x08 ls 0) ∧ exec (.st h o) s = .next (s.faulted 0x08 ls 0)) ∧
    (am.toNat % n ≠ 0 → exec (.amo h o) s = .next (s.faulted 0x08 am 0)) ∧
    (outside ls → exec (.ld h o) s = .next (s.faulted 0x09 ls 0) ∧ exec (.st h o) s = .next (s.faulted 0x09 ls 0)) ∧
    (outside am → exec (.amo h o) s = .next (s.faulted 0x09 am 0)) ∧
    (global ls → o.win = 0 → (name ls).fault = none →
      exec (.ld h o) s = .next (s.faulted 0x0D ls 0) ∧ exec (.st h o) s = .next (s.faulted 0x0D ls 0)) ∧
    (global am → o.win = 0 → (name am).fault = none → exec (.amo h o) s = .next (s.faulted 0x0D am 0)) ∧
    (∀ info, global ls → (name ls).fault = some info →
      exec (.ld h o) s = .next (s.faulted 0x0C ls info) ∧ exec (.st h o) s = .next (s.faulted 0x0C ls info)) ∧
    (∀ info, global am → (name am).fault = some info → exec (.amo h o) s = .next (s.faulted 0x0C am info)) ∧
    (closed ls false → ∃ info, exec (.ld h o) s = .next (s.faulted 0x0A ls info)) ∧
    (closed ls true → ∃ info, exec (.st h o) s = .next (s.faulted 0x0A ls info)) ∧
    (closed am true → ∃ info, exec (.amo h o) s = .next (s.faulted 0x0A am info))

/-- R280, R287: at its window end an LD or AMO whose data have arrived writes its register: zero- or sign-extended, a
16-byte load its pair; one whose data have not takes the deferred-precise 0x05, and one refused at its target 0x0A. -/
def Obligations.WindowEndDeliversOrFaults : Prop :=
  ∀ (s : State) (core slot : Nat) (a : Access) (early late : List Access), core < 768 → slot < 8 →
    let r : SlotRef := ⟨core, slot⟩
    let sl := s.slot r
    sl.accs = early ++ a :: late → (∀ b ∈ early, b.id ≠ a.id) → (∀ b ∈ sl.accs, b.st ≠ .held) → sl.pends = [] →
    (∀ st, sl.gate ≠ .stalled st) → sl.life ≠ .unbound →
    a.ended = false → a.minTurn ≤ sl.turn → a.minCycle ≤ s.now → a.kind ≠ .store → a.vdest = none →
    let v := a.val.toNat
    let left := early ++ late
    (a.st = .arrived → a.arrive ≤ s.now → Gives (.windowEnd core slot a.id) s fun t => OnlySlot r s t ∧
      t.slot r = { sl with g := (t.slot r).g, accs := left } ∧
      (a.size ≠ 16 → ∀ k, (t.slot r).gr k = if k = a.rt ∧ a.rt ≠ 0 then
        (if a.sx then BitVec.ofInt 64 (sextNat (8 * a.size) v) else BitVec.ofNat 64 v) else sl.gr k) ∧
      (a.size = 16 → a.rt ≠ 0 → a.rt + 1 ≠ 0 → ∀ k, (t.slot r).gr k = if k = a.rt then BitVec.ofNat 64 v else
        if k = a.rt + 1 then BitVec.ofNat 64 (v / 2 ^ 64) else sl.gr k)) ∧
    (a.st = .sent → Gives (.windowEnd core slot a.id) s fun t => OnlySlot r s t ∧ (t.slot r).g = sl.g ∧
      ∃ f, (t.slot r).due = sl.due ++ [f] ∧ f.cause = 0x05 ∧ f.own = some a.pc ∧ f.addr = 0) ∧
    (∀ info, a.st = .refused info → Gives (.windowEnd core slot a.id) s fun t => OnlySlot r s t ∧ (t.slot r).g = sl.g ∧
      (t.slot r).accs = left ∧ ∃ f, (t.slot r).due = sl.due ++ [f] ∧ f.cause = 0x0A ∧ f.own = some a.pc ∧ f.addr = a.ea ∧
        f.info = info)

/-- FENCE (R290): with nothing outstanding that it waits for a fence holds the slot for no P-cycle beyond its own: its next
word may issue from the next P-cycle on; otherwise it stalls. An acquire waits for the loads and AMOs that are neither
visible nor faulted, a release for the accesses of its scope that have not performed; FENCE.SC waits for both and then for
the switch's order, or for the next heartbeat, and FENCE.LAYER until DONE has reached ISSUED. No register and no memory
changes. A stall ends once nothing that it waits for is left. Model choices: log entry 22. -/
def Obligations.FencesStallAndComplete : Prop :=
  (∀ (s : State) (h : Hdr) (o : FmtM), s.me.guard h = true →
    let unseen : Prop := (∃ a ∈ s.me.accs, a.ended = false) ∨ s.me.vectorLoads ≠ []
    let unperformed : Prop := ∃ a ∈ s.me.accs, a.isPerformed = false ∧
      (2 ≤ o.scp.toNat ∨ a.name = s.ownName s.cur.core)
    let stands (g : Gate) : State := s.setSlot s.cur { s.passed.me with gate := g }
    let ended : Gate := .fromCycle (s.now + 1)
    let fence (i : Instr) (waits : Prop) : Prop := (¬waits → exec i s = .next (stands ended)) ∧
      (waits → ∃ vis perf, exec i s = .next (stands (.stalled ⟨none, vis, perf, .plain⟩)))
    let both : Prop := unseen ∨ unperformed
    fence (.fenceAcq h o) unseen ∧ fence (.fenceRel h o) unperformed ∧ fence (.fenceAr h o) both ∧
    (both → ∃ vis perf e, exec (.fenceSc h o) s = .next (stands (.stalled ⟨none, vis, perf, e⟩)) ∧
      e = if o.scp.toNat < 3 then .place else if o.scp = 4 then .panel none else .device none) ∧
    (¬both →
      (o.scp.toNat < 3 → Gives (.fenceSc h o) s fun t => (∃ hi, Scheduled (stands (.stalled ⟨none, [], [], .placed⟩)) t 8 hi
        (.scOrderPlace s.cur.core s.cur.slot))) ∧
      (o.scp = 3 → exec (.fenceSc h o) s = .next (stands (.stalled ⟨none, [], [], .device (some s.now)⟩))) ∧
      (o.scp = 4 → exec (.fenceSc h o) s = .next (stands (.stalled ⟨none, [], [], .panel (some s.now)⟩)))) ∧
    ((s.myCore.done - s.myCore.issued).toNat < 2 ^ 31 → exec (.fenceLayer h o) s = .next (stands ended)) ∧
    (2 ^ 31 ≤ (s.myCore.done - s.myCore.issued).toNat →
      exec (.fenceLayer h o) s = .next (stands (.stalled ⟨none, [], [], .layer s.myCore.issued⟩)))) ∧
  (∀ (s : State) (r : SlotRef) (st : Stall), (s.slot r).gate = .stalled st → st.stage = .plain →
    (∀ a ∈ (s.slot r).accs, (a.id ∈ st.vis → a.ended = true) ∧ (a.id ∈ st.perf → a.isPerformed = true)) →
    (∀ n ∈ (s.slot r).vectorLoads, n ∉ st.vis) →
    s.settleStall r = s.setSlot r { s.slot r with gate := .fromCycle (s.now + 1) }) ∧
  (∀ (s : State) (r : SlotRef), r.core < 768 → r.slot < 8 →
    ((∃ st, (s.slot r).gate = .stalled st ∧ st.stage = .placed) → Gives (.scOrderPlace r.core r.slot) s fun t =>
      SameMemory s t ∧ (∀ q, q ≠ r → t.slot q = s.slot q) ∧
      t.slot r = { s.slot r with gate := .fromCycle (s.now + 1) } ∧
      (t.cluster (clusterOf r.core)).scOrder = (s.cluster (clusterOf r.core)).scOrder ++ [(s.now, r.core, r.slot)]) ∧
    ((¬∃ st, (s.slot r).gate = .stalled st ∧ st.stage = .placed) → exec (.scOrderPlace r.core r.slot) s = .next s))

/-! ### Banks (R269 to R278) -/

/-- GIVE, BATT and BDET issued (R273, R274, R277): an entry that holds no bank is refused as DETACHED to GIVE and BDET, a
pending one as BUSY, one in use by an AG or engine as BUSY to BDET, an attached or pending one as OCCUPIED to BATT, an empty
pool or a full quota as EMPTY, a target outside the frame or the cluster as FOREIGN; a name that does not resolve takes
0x0C. An accepted command leaves PEND in BSTAT, with the operation and the entry, and makes the entry pending; the bank's
bytes do not change. Model choices: log entry 22. -/
def Obligations.BankCommandsIssue : Prop :=
  ∀ (s : State) (h : Hdr) (o : FmtM), s.me.guard h = true →
    let c := s.cur.core
    let k := (o.off.extractLsb' 0 4).toNat
    let w := s.myCore.bm k
    let reg := s.me.gr o.ra
    let name := s.resolve c (reg.setWidth 16)
    let st (pend op code : Nat) : BitVec 16 := BitVec.ofNat 16 (pend * 32768 + op * 4096 + k * 256 + code)
    let refused (i : Instr) (op code : Nat) : Prop :=
      exec i s = .next (s.passed.modMe fun sl => { sl with bstat := st 0 op code })
    let accepted (i : Instr) (op : Nat) : Prop := Gives i s fun t => SameMemory s t ∧ t.me.bstat = st 1 op 0 ∧
      bmPend (t.myCore.bm k) = true ∧ (∀ j, j ≠ k → t.myCore.bm j = s.myCore.bm j) ∧
      (∀ q, q ≠ s.cur → t.slot q = s.slot q) ∧
      t.me = { s.passed.me with bstat := t.me.bstat, pends := t.me.pends }
    let far : Prop := (∃ x, name = .hit x ∧ s.foreign c x = true) ∨ ∃ x, name = .away x
    (reg.toNat < 65536 → name.fault = none →
      (bmV w = false → refused (.give h o) 1 5) ∧ (bmV w = true → bmPend w = true → refused (.give h o) 1 1) ∧
      (bmV w = true → bmPend w = false → far → refused (.give h o) 1 3) ∧
      (bmV w = true → bmPend w = false → ¬far → accepted (.give h o) 1)) ∧
    (∀ info, s.me.h = false → reg.toNat < 65536 → name.fault = some info →
      exec (.give h o) s = .next (s.faulted 0x0C reg info)) ∧
    (s.me.h = false → 65536 ≤ reg.toNat → exec (.give h o) s = .next (s.faulted 0x0C reg 0)) ∧
    ((bmV w = true ∨ bmPend w = true) → refused (.batt h o) 2 2) ∧
    (bmV w = false → bmPend w = false →
      (s.pooled (clusterOf c) = none ∨ (s.recOf c).quota ≤ s.holding (clusterOf c) s.myCore.task) → refused (.batt h o) 2 4) ∧
    (bmV w = false → bmPend w = false → (∃ b, s.pooled (clusterOf c) = some b) →
      s.holding (clusterOf c) s.myCore.task < (s.recOf c).quota → accepted (.batt h o) 2) ∧
    (bmV w = false → refused (.bdet h o) 3 5) ∧
    (bmV w = true → (bmPend w = true ∨ s.myCore.entryInUse k = true) → refused (.bdet h o) 3 1) ∧
    (bmV w = true → bmPend w = false → s.myCore.entryInUse k = false → accepted (.bdet h o) 3)

/-- The bank switch's part (R274, R277, R278): BATT ends with the bank zeroed and the entry attached at a new generation;
BDET, once the accesses admitted to the entry are done, with the bank pooled and the entry detached; a give whose request
arrives in its turn is admitted or refused; once its admitted accesses are done it is re-pointed: the giver's entry is
cleared and the target's names the same bank at the next generation, its bytes untouched. BQRY (R278): with a name that
resolves it stalls its slot until the answer, and the answer comes to its register: the V and PEND of the entry, and its
generation or the forward record that names the entry. Model choices: log entry 22. -/
def Obligations.BankCommandsComplete : Prop :=
  (∀ (s : State) (c k : Nat), c < 768 →
     let x := s.core c
     let w := x.bm k
     (∀ b, s.pendingBank c k = some b → Gives (.battComplete c k) s fun t =>
       (∀ off, off < 262144 → t.byte (bankKey b off) = 0) ∧
       (∀ a, (a < bankKey b 0 ∨ bankKey (b + 1) 0 ≤ a) → t.byte a = s.byte a) ∧
       (t.bank b).gen = (s.bank b).gen + 1 ∧ (t.bank b).st = .attached c k ∧ bmV ((t.core c).bm k) = true ∧
       bmPend ((t.core c).bm k) = false ∧ bmBank ((t.core c).bm k) = b % 128 ∧ ∀ j, j ≠ k → (t.core c).bm j = x.bm j) ∧
     (s.pendingBank c k = none → exec (.battComplete c k) s = .next s) ∧
     (bmV w = true → bmPend w = true → (∀ g ∈ x.gives, g.k ≠ k) →
       (s.admitted c k = false → Gives (.bdetComplete c k) s fun t =>
         SameMemory s t ∧ (t.bank (bmIndex w)).st = .pooled ∧ bmV ((t.core c).bm k) = false ∧
         bmPend ((t.core c).bm k) = false ∧ ∀ j, j ≠ k → (t.core c).bm j = x.bm j) ∧
       (s.admitted c k = true → exec (.bdetComplete c k) s = .next (s.later 1 (.bdetComplete c k)))) ∧
     ((bmV w = false ∨ bmPend w = false ∨ ∃ g ∈ x.gives, g.k = k) → exec (.bdetComplete c k) s = .next s) ∧
     (∀ g, x.give? g.id = some g → g.st = .admitting → g.node = none →
       let free : Prop := x.entryInUse g.k = false ∧ (s.core g.tgt).retired = false ∧
         bmV ((s.core g.tgt).bm g.j) = false ∧ bmPend ((s.core g.tgt).bm g.j) = false
       let comes : Prop := ∀ p, s.givePacket c g.id = some p → s.seqFate p = .perform
       (comes → ¬free → Gives (.giveAdmission c g.id) s fun t => SameMemory s t ∧
         bmPend ((t.core c).bm g.k) = false ∧ (t.core c).gives = dropFirst (fun y => y.id == g.id) x.gives) ∧
       (comes → free → g.tgt ≠ c → Gives (.giveAdmission c g.id) s fun t => SameMemory s t ∧
         bmPend ((t.core g.tgt).bm g.j) = true ∧ (t.core c).give? g.id = some { g with st := .releasing } ∧
         ((s.slot ⟨c, g.slot⟩).pends = [] → ∃ d, 1 ≤ d ∧ (s.now + d, Instr.giveRepoint c g.id) ∈ t.coming)) ∧
       (∀ p, s.givePacket c g.id = some p → s.seqFate p ≠ .perform → Gives (.giveAdmission c g.id) s fun t =>
         SameMemory s t ∧ SameSlots s t ∧ (t.core c).bmap = x.bmap ∧ (t.core c).gives = x.gives)) ∧
     (∀ g, x.give? g.id = some g → g.st = .releasing → g.node = none → g.tgt ≠ c →
       (s.admitted c g.k = true → exec (.giveRepoint c g.id) s = .next (s.later 1 (.giveRepoint c g.id))) ∧
       (s.admitted c g.k = false → Gives (.giveRepoint c g.id) s fun t => SameMemory s t ∧
         (t.core c).gives = dropFirst (fun y => y.id == g.id) x.gives ∧
         bmV ((t.core c).bm g.k) = false ∧ bmPend ((t.core c).bm g.k) = false ∧
         bmV ((t.core g.tgt).bm g.j) = true ∧ bmPend ((t.core g.tgt).bm g.j) = false ∧
         bmWp ((t.core g.tgt).bm g.j) = false ∧ bmIndex ((t.core g.tgt).bm g.j) = bmIndex (x.bm g.k) ∧
         (t.bank (bmIndex (x.bm g.k))).gen = (s.bank (bmIndex (x.bm g.k))).gen + 1))) ∧
  ((∀ (s : State) (h : Hdr) (o : FmtM), s.me.guard h = true →
     let c := s.cur.core
     let ea := s.me.gr o.ra
     let local_ : Prop := ea.toNat < 4194304
     let global : Prop := 2 ^ 40 ≤ ea.toNat ∧ ea.toNat < 2 ^ 40 + 2 ^ 38
     let name := s.resolve c (eaName ea)
     let stalls (P : Option Nat → State → Prop) : Prop := Gives (.bqry h o) s fun t => SameMemory s t ∧
       (∀ q, q ≠ s.cur → t.slot q = s.slot q) ∧ ∃ own tgt, t.me = { s.passed.me with
         gate := .stalled ⟨own, [], [], .bqry ea o.rt s.me.pc tgt⟩, nextId := s.me.nextId + 1 } ∧ P tgt t
     let asks (t : State) (d : Nat) : Prop := ∃ e, d ≤ e ∧ (s.now + e, Instr.bqryAnswer c s.cur.slot) ∈ t.coming
     (local_ → stalls fun tgt t => tgt = some c ∧ asks t 4) ∧
     (global → name.fault = none → stalls fun tgt t => ∀ d, name = .hit d → tgt = some d ∧
       asks t (if clusterOf c = clusterOf d then 4 else s.requestLeg c d)) ∧
     (∀ info, s.me.h = false → global → name.fault = some info → exec (.bqry h o) s = .next (s.faulted 0x0C ea info)) ∧
     (s.me.h = false → ¬local_ → ¬global → exec (.bqry h o) s = .next (s.faulted 0x09 ea 0))) ∧
   (∀ (s : State) (core slot tgt : Nat) (ea : Word) (rt : BitVec 5) (own : Option Nat) (pc : BitVec 14)
       (vis perf : List Nat), core < 768 → slot < 8 →
     let sl := s.slot ⟨core, slot⟩
     (tgt < 768 → sl.gate = .stalled ⟨own, vis, perf, .bqry ea rt pc (some tgt)⟩ →
       let w := (s.core tgt).bm (eaEntry ea)
       let st := (if bmV w then 2 ^ 62 else 0) + (if bmPend w then 2 ^ 61 else 0)
       let v : Word := match s.hint tgt (eaEntry ea) with
         | none => BitVec.ofNat 64 (st + bmGen w)
         | some f => BitVec.ofNat 64 (2 ^ 63 + st + f.name.toNat * 2 ^ 36 + f.j % 16 * 2 ^ 32 + f.gen.toNat)
       let at_ := s.now + if clusterOf core = clusterOf tgt then 4 else s.responseLeg core tgt .load
       exec (.bqryAnswer core slot) s = .next (s.setSlot ⟨core, slot⟩ { sl with
         gate := .fromCycle (at_ + 1), nextId := sl.nextId + 1
         flights := sl.flights ++ [⟨sl.nextId, 0, at_, [.g rt v]⟩] })) ∧
     ((∀ st, sl.gate ≠ .stalled st) → exec (.bqryAnswer core slot) s = .next s)))


/-! ### Vectors (R124 to R160) -/

/-- The elementwise arithmetic rows and VSF (R138, R139, R143, R144): each active lane is the operation on its operands'
lanes, rounded or reduced to the format, B being a vector lane or the low half of a g register; fold + 3 turns after issue,
or fold + 9 for VSF; conditions go to VSTAT or trap, and nothing else changes. On 32-bit integers without saturation (R138,
R145, R146) VADD, VSUB and VMUL wrap, VMIN and VMAX compare as signed, VRED adds the active lanes whatever their number and
VSCAN gives each active lane the sum up to it, all modulo 2^32. -/
def Obligations.VectorArithmeticLanes : Prop :=
  (∀ (s : State) (h : Hdr) (o : FmtV), VectorReady s h →
     let sl := s.me
     let lat := beatsOf o.fold + 3
     let a (k : Nat) := vlane (sl.vr o.va) k
     let c (k : Nat) := vlane (sl.vr o.vc) k
     let b (scalar : Bool) (k : Nat) : BitVec 32 := if scalar then (sl.gr o.rs).setWidth 32 else vlane (sl.vr o.vb) k
     let r (k : Nat) : Rnd := ⟨sl.rm (bits o.fn 5 3), o.fn.getLsbD 4, sl.rngkey, k⟩
     let does (i : Instr) (scalar : Bool) (ff : Rm → FVal → FVal → FVal → FVal × Flags) (fi : Int → Int → Int → Int) : Prop :=
       LanesOutcome i s o lat fun k => arithLane o.ft (r k) ff fi (a k) (b scalar k) (c k)
     let np := o.fn.getLsbD 0
     let na := o.fn.getLsbD 1
     let mm (isMax : Bool) (k : Nat) : BitVec 32 × Flags :=
       if o.ft = 11 then
         ((minMaxPair isMax (pairOf (sl.vr o.va) (k / 2)) (pairOf (sl.vr o.vb) (k / 2))).half k, 0)
       else minMaxLane isMax o.ft (o.fn.getLsbD 1) (a k) (b (o.fn.getLsbD 0) k)
     does (.vadd h o) (o.fn.getLsbD 0) (fun rm x y _ => addF rm x y) (fun x y _ => x + y) ∧
     does (.vsub h o) (o.fn.getLsbD 0) (fun rm x y _ => addF rm x y.negate) (fun x y _ => x - y) ∧
     does (.vmul h o) (o.fn.getLsbD 0) (fun _ x y _ => mulF x y) (fun x y _ => x * y) ∧
     does (.vfma h o) (o.fn.getLsbD 2) (fun rm x y z => fmaF rm np na x y z)
       (fun x y z => (if np then -(x * y) else x * y) + (if na then -z else z)) ∧
     LanesOutcome (.vmin h o) s o lat (mm false) ∧ LanesOutcome (.vmax h o) s o lat (mm true) ∧
     LanesOutcome (.vclmp h o) s o lat (fun k =>
       let x := minMaxLane true o.ft false (a k) (b false k)
       let y := minMaxLane false o.ft false x.1 (c k)
       (y.1, x.2 ||| y.2)) ∧
     LanesOutcome (.vcvt h o) s o lat (fun k =>
       convertLane (o.fn.extractLsb' 0 4) o.ft (r k) (bits o.imm 0 5) (a k)) ∧
     LanesOutcome (.vsf h o) s o (beatsOf o.fold + 9) (fun k =>
       let x := specialF (o.fn.extractLsb' 0 4) o.ft (f32 (a k))
       (image x.1, x.2))) ∧
  (∀ (s : State) (h : Hdr) (o : FmtV), VectorReady s h → o.ft = 8 →
     let sl := s.me
     let a (k : Nat) := vlane (sl.vr o.va) k
     let b (k : Nat) := vlane (sl.vr o.vb) k
     let lat := beatsOf o.fold + 3
     let act (n : Nat) : List Nat := (List.range n).filter fun k => (activeMask sl o).getLsbD k
     let sum (ks : List Nat) : BitVec 32 := ks.foldl (fun x k => x + a k) 0
     (o.fn = 0 → PureLanes (.vadd h o) s o lat (fun k => a k + b k) ∧ PureLanes (.vsub h o) s o lat (fun k => a k - b k) ∧
       PureLanes (.vmul h o) s o lat (fun k => a k * b k) ∧
       PureLanes (.vmin h o) s o lat (fun k => BitVec.ofInt 32 (min (a k).toInt (b k).toInt)) ∧
       PureLanes (.vmax h o) s o lat (fun k => BitVec.ofInt 32 (max (a k).toInt (b k).toInt))) ∧
     (o.fn = 0 → Gives (.vred h o) s fun t => ∃ v : VReg, vlane v 0 = sum (act (8 * 2 ^ o.fold.toNat)) ∧
       t = s.vissued (beatsOf o.fold) (beatsOf o.fold + 6) [.v o.vd (if o.z = 1 then BitVec.allOnes 64 else 1) v]) ∧
     (o.fn = 0 → PureLanes (.vscan h o) s o (beatsOf o.fold + 6) (fun k => sum (act (k + 1)))) ∧
     (o.fn = 16 → PureLanes (.vscan h o) s o (beatsOf o.fold + 6) (fun k => sum (act k))))

/-- VRED and VSCAN in every format (R59, R145, R146): the tree or the lane order over the active lanes, delivered to the
format; fold + 6 turns after issue. A reduction of pairs takes either pair of a tie. Model choices: log entry 8. -/
def Obligations.ReductionsComplete : Prop :=
  ∀ (s : State) (h : Hdr) (o : FmtV), VectorReady s h →
    let op := bits o.fn 0 4
    let lat := beatsOf o.fold + 6
    let flagged (w : Write) (fs : List (Nat × Flags)) : List Write := if allFlags fs = 0 then [w] else [w, .vstat (allFlags fs)]
    let red := reduceLanes s.me o op
    let scn := scanLanes s.me o op (o.fn.getLsbD 4) (List.range (vlOf o.fold)) (identityLane op o.ft)
    let p := reducePairs s.me o (op == 2) s.free
    (o.ft ≠ 11 → laneTrap s.me.fpctl red.2 = none →
      exec (.vred h o) s = .next (s.vissued (beatsOf o.fold) lat (flagged (reduceWrite o [(0, red.1)]) red.2))) ∧
    (o.ft = 11 → Gives (.vred h o) s fun t =>
      { t with free := s.free } = s.vissued (beatsOf o.fold) lat [reduceWrite o [(0, p.key), (1, p.idx)]]) ∧
    (laneTrap s.me.fpctl scn.2 = none →
      exec (.vscan h o) s = .next (s.vissued (beatsOf o.fold) lat (flagged (vresult s.me o scn.1) scn.2)))

/-- The rows that move, select and combine bits lane by lane (R140, R142, R147, R148): each active lane is the lane, the
bits or the scalar the rule names; no condition arises and nothing else changes. -/
def Obligations.VectorMovesAndBits : Prop :=
  ∀ (s : State) (h : Hdr) (o : FmtV), VectorReady s h →
    let sl := s.me
    let lat := beatsOf o.fold + 3
    let vl := 8 * 2 ^ o.fold.toNat
    let a (k : Nat) := vlane (sl.vr o.va) k
    let b (k : Nat) := vlane (sl.vr o.vb) k
    let n := (o.imm.extractLsb' 0 6).toNat
    let ob (k : Nat) : BitVec 32 :=
      let x := if o.fn.getLsbD 0 then (sl.gr o.rs).setWidth 32 else b k
      if o.fn.getLsbD 1 then ~~~x else x
    let pure (i : Instr) (f : Nat → BitVec 32) : Prop := PureLanes i s o lat f
    pure (.vand h o) (fun k => cutLane o.ft (a k &&& ob k)) ∧ pure (.vor h o) (fun k => cutLane o.ft (a k ||| ob k)) ∧
    pure (.vxor h o) (fun k => cutLane o.ft (a k ^^^ ob k)) ∧
    (o.ft = 8 → o.fn = 0 → pure (.vsh h o) (fun k => a k <<< ((b k).toNat % 32))) ∧
    (o.ft = 8 → o.fn = 1 → pure (.vsh h o) (fun k => a k >>> ((b k).toNat % 32))) ∧
    (o.ft = 8 → o.fn = 2 → pure (.vsh h o) (fun k => (a k).sshiftRight ((b k).toNat % 32))) ∧
    pure (.vsh h o) (fun k => cutLane o.ft (shiftLane (bits o.fn 0 2) (laneWidth o.ft)
      (if o.fn.getLsbD 2 then bits o.imm 0 5 else bits (b k) 0 5) (a k))) ∧
    (o.ft ≠ 11 → pure (.vsel h o) (fun k => if (sl.mr (o.vc.setWidth 3)).getLsbD k then a k else b k)) ∧
    (o.ft = 11 → pure (.vsel h o) (fun k => if (sl.mr (o.vc.setWidth 3)).getLsbD (k / 2 * 2) then a k else b k)) ∧
    pure (.vsgn h o) (fun k => withSign o.fn.toNat (a k) (b k)) ∧
    (o.fn = 0 → pure (.vmov h o) a) ∧
    (o.fn = 2 → pure (.vmov h o) (fun k =>
      if (sl.mr (o.va.setWidth 3)).getLsbD k then (if o.ft.toNat ≤ 4 then 0x3F800000 else 1) else 0)) ∧
    (o.fn = 0 → pure (.vperm h o) (fun k => a ((b k).toNat % 64))) ∧
    (o.fn ≠ 0 → pure (.vperm h o) (fun k => a (k ^^^ n))) ∧
    (o.fn = 0 → pure (.vbcast h o) (fun k => placeAt o.ft (sl.gr o.rs) k)) ∧
    (o.fn ≠ 0 → pure (.vbcast h o) (fun _ => a n)) ∧
    (o.fn = 0 → pure (.viota h o) (fun k => BitVec.ofNat 32 k)) ∧
    (o.fn ≠ 0 → pure (.viota h o) (fun k =>
      BitVec.ofNat 32 ((List.range k).filter fun j => (sl.mr (o.va.setWidth 3)).getLsbD j).length)) ∧
    (o.fn = 0 → pure (.vslide h o) (fun k => if n ≤ k then a (k - n) else b (vl - n + k))) ∧
    (o.fn ≠ 0 → pure (.vslide h o) (fun k => if k + n < vl then a (k + n) else b (k + n - vl))) ∧
    pure (.vunpk h o) (fun k => (contNum o.ft (bits (sl.vr o.va) (8 * contSize o.ft * (o.fn.toNat * vl + k))
      (8 * contSize o.ft))).lane) ∧
    (o.fn = 0 → pure (.vrng h o) (fun k => glint sl.rngkey (sl.gr o.rs + BitVec.ofNat 64 k)))

/-- VINS, VEXT, VPACK and the float form of VRNG (R147, R148, R160): VINS writes one lane, or a pair, whatever the mask;
VEXT gives a g register a lane, zero- or sign-extended; VPACK narrows the lanes of VA and then of VB into the low
containers of VD; VRNG.f gives uniform numbers below 1. -/
def Obligations.InsertExtractPackComplete : Prop :=
  ∀ (s : State) (h : Hdr) (o : FmtV), VectorReady s h →
    let sl := s.me
    let k := (o.imm.extractLsb' 0 6).toNat
    let done (i : Instr) (ws : List Write) : Prop :=
      exec i s = .next (s.vissued (beatsOf o.fold) (beatsOf o.fold + 3) ws)
    let lane := vlane (sl.vr o.va) k
    let pk := packBytes sl o
    let vs := (byteLanes pk.1).zipIdx.map fun p => (p.2, p.1)
    let w : Write := .v o.vd (lanesOf (vs.map (·.1))) (packLanes vs)
    (o.fn ≠ 1 → done (.vext h o) [.g o.rs (lane.setWidth 64)]) ∧ (o.fn = 1 → done (.vext h o) [.g o.rs (lane.signExtend 64)]) ∧
    (o.ft ≠ 11 → Gives (.vins h o) s fun t => ∃ v : VReg, vlane v k = placeLane o.ft (sl.gr o.rs) ∧
      t = s.vissued (beatsOf o.fold) (beatsOf o.fold + 3) [.v o.vd (1#64 <<< k) v]) ∧
    (o.ft = 11 → Gives (.vins h o) s fun t => ∃ v : VReg, vlane v (k / 2 * 2) = (sl.gr o.rs).setWidth 32 ∧
      vlane v (k / 2 * 2 + 1) = (sl.gr o.rs).extractLsb' 32 32 ∧
      t = s.vissued (beatsOf o.fold) (beatsOf o.fold + 3) [.v o.vd (3#64 <<< (k / 2 * 2)) v]) ∧
    (laneTrap sl.fpctl pk.2 = none →
      done (.vpack h o) (if allFlags pk.2 = 0 then [w] else [w, .vstat (allFlags pk.2)])) ∧
    (o.fn ≠ 0 → PureLanes (.vrng h o) s o (beatsOf o.fold + 3) fun j =>
      image (.fin ⟨false, (glint sl.rngkey (sl.gr o.rs + BitVec.ofNat 64 j)).toNat / 256, -24, false⟩))

/-- The mask rows (R141, R149): VCMP and VMLOG give each active lane a bit, inactive lanes none; VMPOP counts the active
set lanes of a mask and VMFST names the lowest, or 64. -/
def Obligations.MaskRowsComplete : Prop :=
  ∀ (s : State) (h : Hdr) (o : FmtV), VectorReady s h →
    let sl := s.me
    let m (r : BitVec 4) := sl.mr (r.setWidth 3)
    let lit (k : Nat) : Bool := (activeMask sl o).getLsbD k && (m o.va).getLsbD k
    let fs := (activeLanes sl o).map fun k => (k, (compareLane o.ft (bits o.fn 0 4) (sl.vr o.va) (sl.vr o.vb) k).2)
    (allFlags fs = 0 → MaskBits (.vcmp h o) s o fun k =>
      (compareLane o.ft (bits o.fn 0 4) (sl.vr o.va) (sl.vr o.vb) k).1) ∧
    (allFlags fs ≠ 0 → laneTrap sl.fpctl fs = none → Gives (.vcmp h o) s fun t => ∃ w : Word,
      t = s.vissued (beatsOf o.fold) (beatsOf o.fold + 3)
        [.m (o.vd.setWidth 3) (writtenLanes s.me o) w, .vstat (allFlags fs)]) ∧
    (o.fn = 1 → MaskBits (.vmov h o) s o fun k => vlane (sl.vr o.va) k != 0) ∧
    MaskBits (.vmlog h o) s o (fun k => o.fn.getLsbD (2 * ((m o.va).getLsbD k).toNat + ((m o.vb).getLsbD k).toNat)) ∧
    exec (.vmpop h o) s = .next (s.vissued (beatsOf o.fold) (beatsOf o.fold + 3)
      [.g o.rs (BitVec.ofNat 64 ((List.range 64).filter lit).length)]) ∧
    exec (.vmfst h o) s = .next (s.vissued (beatsOf o.fold) (beatsOf o.fold + 3)
      [.g o.rs (BitVec.ofNat 64 (((List.range 64).find? lit).getD 64))])

/-- The codec rows (R47 to R56, R153 to R159): VDE8 and VDF4 decode each active element; VSCE8 and VSCF4 give the scale
of each group with an active lane, inactive lanes counting as 0.0; VQE8 and VQF4 give its codes; conditions go to VSTAT. -/
def Obligations.CodecRowsComplete : Prop :=
  ∀ (s : State) (h : Hdr) (o : FmtV), VectorReady s h →
    let sl := s.me
    let done (i : Instr) (beats lat : Nat) (w : Write) (fs : List (Nat × Flags)) : Prop :=
      laneTrap sl.fpctl fs = none →
        exec i s = .next (s.vissued beats lat (if allFlags fs = 0 then [w] else [w, .vstat (allFlags fs)]))
    let groups := [0, 1].filter fun g => (List.range 32).any fun k => (activeMask sl o).getLsbD (32 * g + k)
    let points := (List.range 8).filter fun p => (List.range 8).any fun k => (activeMask sl o).getLsbD (8 * p + k)
    let xs (g : Nat) := inputsOf sl o (32 * g) 32
    let infs (g : Nat) : List (Nat × Flags) := infFlags (32 * g) (xs g)
    let scales (f : List FVal → BitVec 32 × Flags) : Write × List (Nat × Flags) :=
      (blockWrite o (groups.map fun g => (g, (f (xs g)).1)) 2,
        groups.flatMap fun g => if (f (xs g)).2 = 0 then [] else infs g)
    let e8 := scales fun l => (BitVec.ofNat 32 (scaleE8L l).1, (scaleE8L l).2)
    let f4 := scales fun l =>
      (BitVec.ofNat 32 ((fq4Params l).1.se + (fq4Params l).1.sh * 2 ^ 8 + (fq4Params l).1.sv * 2 ^ 24), (fq4Params l).2)
    let q8 := points.map fun p => (p, quantPoint sl o p)
    let par (g : Nat) : Fq4Params :=
      ⟨bits (vlane (sl.vr o.vb) g) 0 8, bits (vlane (sl.vr o.vb) g) 8 16, bits (vlane (sl.vr o.vb) g) 24 8⟩
    let q4 (g : Nat) := fq4Encode (par g) (xs g)
    let d4 (e : Nat) := decodeFq4 false (fq4CodeOf (groupBytes (sl.vr o.va) (e / 32)) (e % 32))
      (fq4ParamsOf (groupBytes (sl.vr o.va) (e / 32))) (e % 32)
    done (.vsce8 h o) (beatsOf o.fold) (beatsOf o.fold + 6) e8.1 e8.2 ∧
    done (.vscf4 h o) (beatsOf o.fold) (beatsOf o.fold + 6) f4.1 f4.2 ∧
    done (.vqe8 h o) 8 14 (blockWrite o (q8.map fun p => (p.1, p.2.1)) 8) (q8.flatMap (·.2.2)) ∧
    done (.vde8 h o) 8 14 (vresult sl o ((activeLanes sl o).map fun e => (e, image (decodeE8
      (bits (vlane (sl.vr o.va) (e / 8)) 0 16) (bits (vlane (sl.vr o.vb) (e / 32)) 0 8) (e % 8))))) [] ∧
    done (.vqf4 h o) 8 14
      (blockWrite o (groups.flatMap fun g => (List.range 5).map fun j =>
        (5 * g + j, BitVec.ofNat 32 (leNat (((q4 g).1.drop (4 * j)).take 4)))) 10)
      (groups.flatMap fun g => (q4 g).2.map fun x => (32 * g + x.1, x.2)) ∧
    done (.vdf4 h o) 8 14 (vresult sl o ((activeLanes sl o).map fun e => (e, image (d4 e).1)))
      ((activeLanes sl o).map fun e => (e, (d4 e).2))

/-- Vector loads and stores (R126, R127, R137, R150 to R152) that meet no memory fault: the elements of each beat perform on
its turn. A load leaves every byte as it was; a store changes no byte but those of its elements, and no other register of
the slot changes. With no earlier access of the slot in flight the elements of the first beat perform at once, a store's
lanes in rising order; those of a later beat are held for its turn. A load of one beat then gives each active lane the
container at its address, fold + 6 turns after its last beat's turn at the earliest. -/
def Obligations.VectorMemoryRowsComplete : Prop :=
  ∀ (s : State) (h : Hdr) (o : FmtV), VectorReady s h →
    let sl := s.me
    let c := contSize o.ft
    let lanes := (activeLanes sl o).filter fun k => o.ft != 11 || k % 2 == 0
    let num (k : Nat) : Nat := if o.ft = 11 then k / 2 else k
    let strided : List Elem := lanes.map fun k => ⟨k, sl.gr o.rs + BitVec.ofInt 64
      ((o.imm.toInt + (if o.fn = 0 then (num k : Int) else num k * (sl.gr (o.vb.setWidth 5)).toInt)) * c)⟩
    let indexed : List Elem := lanes.map fun k => ⟨k, sl.gr o.rs + BitVec.ofInt 64
      (((sl.gr (o.vb.setWidth 5)).toInt + (vlane (sl.vr o.va) k).toNat) * c)⟩
    let beat (e : Elem) : Nat := num e.lane / (if o.ft = 11 then 4 else 8)
    let key (e : Elem) : Nat := s.myCore.winKey e.addr
    let alone : Prop := sl.accs = [] ∧ sl.vloads = [] ∧ s.memErr = []
    let issued (t : State) : Prop := (∀ q, q ≠ s.cur → t.slot q = s.slot q) ∧ t.me.pc = s.passed.me.pc ∧
      t.me.vecFree = sl.turn + beatsOf o.fold ∧ t.me.g = sl.g ∧ t.me.p = sl.p ∧ t.me.v = sl.v ∧ t.me.m = sl.m
    let holds (t : State) (kind : AccKind) (e : Elem) (data : Nat) : Prop := ∃ a ∈ t.me.accs, a.kind = kind ∧
      a.ea = e.addr ∧ a.glob = false ∧ a.size = c ∧ a.data = BitVec.ofNat 128 data ∧ a.st = .held ∧
      a.atTurn = sl.turn + beat e ∧ ∃ id, a.vdest = some (id, e.lane, o.ft)
    let loads (i : Instr) (unit : Bool) (es : List Elem) : Prop := vmemFault s o false unit es = none →
      Gives i s (fun t => issued t ∧ SameMemory s t) ∧
      (alone → o.fold ≠ 0 → Gives i s fun t => issued t ∧ (∀ e ∈ es, beat e ≠ 0 → holds t .load e 0) ∧
        ∃ v, t.me.vloads = [v] ∧ v.vd = o.vd ∧ v.lanes = writtenLanes sl o ∧ v.last = sl.turn + beatsOf o.fold - 1 ∧
          v.minTurn = sl.turn + beatsOf o.fold + 6 ∧ v.left = (es.filter fun e => beat e != 0).length ∧
          (o.ft ≠ 11 → ∀ e ∈ es, beat e = 0 → vlane v.data e.lane = (contNum o.ft (leNat (s.bytes (key e) c))).lane)) ∧
      (alone → o.fold = 0 → o.ft ≠ 11 → Gives i s fun t => issued t ∧ ∃ f v, t.me.flights = sl.flights ++ [f] ∧
        f.minTurn = sl.turn + 7 ∧ f.minCycle = s.now + 6 + 2 * s.classOf s.cur.core ∧
        f.writes = [.v o.vd (writtenLanes sl o) v] ∧ ∀ e ∈ es, vlane v e.lane = (contNum o.ft (leNat (s.bytes (key e) c))).lane)
    let stores (i : Instr) (unit : Bool) (es : List Elem) : Prop := vmemFault s o true unit es = none →
      laneTrap sl.fpctl (es.map fun e => (e.lane, (storeElem sl o e.lane).2)) = none →
      Gives i s (fun t => issued t ∧ ∀ a, (∀ e ∈ es, a < key e ∨ key e + c ≤ a) → t.byte a = s.byte a) ∧
      (alone → Gives i s fun t => issued t ∧
        t.mem = (es.filter fun e => beat e == 0).foldl
          (fun m e => memWriteAll m (key e) (leBytes c (storeElem sl o e.lane).1)) s.mem ∧
        ∀ e ∈ es, beat e ≠ 0 → holds t .store e (storeElem sl o e.lane).1)
    loads (.vld h o) (o.fn == 0) strided ∧ loads (.vgath h o) false indexed ∧
    stores (.vst h o) (o.fn == 0) strided ∧ stores (.vscat h o) false indexed

/-! ### Lenses, their commands and streams (R174 to R225) -/

/-- FUSE, UNFUSE, LSTOP, LSTOP.q, LSTAT, SKEW and CTAB of the origin of a lens that the kernel declares (R213 to R218,
R222, R223). FUSE and CTAB end within their bounds (FuseAndCtabEnd); UNFUSE releases an idle lens; LSTOP and LSTOP.q
report OK and ask a running list to stop; LSTAT and SKEW.rd give their values 4 turns after issue; SKEW.wr sets the
counter, the tokens injected before keeping the old delay; each refusal leaves its STATUS and changes nothing else. R213:
an undeclared lens number, or a core that is not the lens's origin, takes 0x0E from FUSE, UNFUSE, LSTOP, LSTOP.q and SKEW;
LGO takes it too where its address is in order, and LSTAT and CTAB of a core that lies in no such lens. Model choices: log entry
21. -/
def Obligations.LensCommandsComplete : Prop :=
  (∀ (s : State) (h : Hdr) (o : FmtA) (key ox oy w hh : Nat), s.me.guard h = true →
     s.namedLens o = some (key, ox, oy, w, hh) → s.cur.core = coreAt ox oy → ox < 24 → 0 < w → 0 < hh →
     let n := bits o.imm 0 6
     let p := s.placeLens key ox oy w hh
     let l := p.lens key
     let busy : Prop := l.st = .fusing ∨ l.freezing = true ∨ l.seq.active = true ∨ l.queue ≠ []
     let stopped (r : StopReq) : Lens := { l with
       last := 0
       seq := { l.seq with stop := if l.seq.active = true ∧ l.seq.ended = false ∧ l.seq.stop ≠ .now then r else l.seq.stop } }
     let e := bits o.imm 6 1
     let i := (s.me.gr o.rb).toNat
     let v := (s.me.gr o.ra).toNat
     let x := s.lens key
     ((x.st = .unfused ∨ x.st = .failed) → Gives (.fuse h o) s fun t =>
       Scheduled ((p.setLens key { l with st := .fusing, fuser := s.cur.slot }).reporting 0x80 n) t 1 (1024 + 16 * w * hh)
         (.fuseComplete key)) ∧
     ((x.fused = true ∨ x.st = .fusing) →
       exec (.fuse h o) s = .next ((s.setLens key { x with last := 2 }).reported 0x80 n 2)) ∧
     (busy → exec (.unfuse h o) s = .next ((p.setLens key { l with last := 5 }).reported 0x81 n 5)) ∧
     (¬busy → l.fused = false → exec (.unfuse h o) s = .next ((p.setLens key { l with last := 7 }).reported 0x81 n 7)) ∧
     (¬busy → l.fused = true → p.lensInUse key = true →
       exec (.unfuse h o) s = .next ((p.setLens key { l with last := 2 }).reported 0x81 n 2)) ∧
     (¬busy → l.fused = true → p.lensInUse key = false → Gives (.unfuse h o) s fun t =>
       SameMemory s t ∧ OtherSlots s t ∧ (t.lens key).st = .unfused ∧ (t.lens key).table = l.table ∧
       (t.lens key).cells = l.cells ∧ (∀ k, k ≠ key → t.lens k = s.lens k) ∧
       (∀ d k, d < 4 → k < l.lanesOn d → (t.edgeLane l d k).fifo = []) ∧
       ∃ c, (c = 0 ∨ c = 9) ∧ (t.lens key).last = BitVec.ofNat 8 c ∧
         (p.writing l = false → t.me = { s.passed.me with lstate := lstateValue false 0x81 n c }) ∧
         (p.writing l = true → t.me = { s.passed.me with lstate := lstateValue true 0x81 n 0 } ∧
           (t.lens key).unfusing = some (s.cur.slot, c)) ∧
         (c = 9 ↔ ∃ d k, d < 4 ∧ k < l.lanesOn d ∧ (p.edgeLane l d k).fifo ≠ [])) ∧
     exec (.lstop h o) s = .next ((p.setLens key (stopped .intervalEnd)).reported 0x83 n 0) ∧
     exec (.lstopQ h o) s = .next ((p.setLens key (stopped .now)).reported 0x83 n 0) ∧
     exec (.skewRd h o) s = .next (s.issued 4
       [.g o.rd (if x.fused = true ∧ i < x.lanesOn e then BitVec.ofNat 64 (x.counter e i) else BitVec.allOnes 64)]) ∧
     (x.fused = false → exec (.skewWr h o) s = .next (s.reported 0x8A n 7)) ∧
     (x.fused = true → x.lanesOn e ≤ i → exec (.skewWr h o) s = .next (s.reported 0x8A n 1)) ∧
     (x.fused = true → i < x.lanesOn e → 63 < v → exec (.skewWr h o) s = .next (s.reported 0x8A n 4)) ∧
     (x.fused = true → i < x.lanesOn e → v ≤ 63 → Gives (.skewWr h o) s fun t => ∃ y : Lens,
       t = (s.setLens key y).reported 0x8A n 0 ∧ y = { x with westCnt := y.westCnt, northCnt := y.northCnt, oldSkew := y.oldSkew } ∧
       (∀ d k, d < 2 → y.counter d k = if d = e ∧ k = i then v else x.counter d k) ∧
       ∀ a, a < (if x.mid then x.acyc + 1 else x.acyc) → y.counterFrom e i a = x.counterFrom e i a)) ∧
  (∀ (s : State) (h : Hdr) (o : FmtA) (key ox oy w hh : Nat), s.me.guard h = true →
     s.namedLens o = some (key, ox, oy, w, hh) → ox ≤ coreX s.cur.core → coreX s.cur.core < ox + w →
     oy ≤ coreY s.cur.core → coreY s.cur.core < oy + hh →
     let n := bits o.imm 0 6
     let x := s.lens key
     let cw : CtlWord := (s.me.gr o.rb).setWidth 40
     let row := bits (s.me.gr o.ra) 16 16
     let col := bits (s.me.gr o.ra) 0 16
     exec (.lstat h o) s = .next (s.issued 4 [.g o.rd (BitVec.ofNat 64
       ((if x.fused then x.rows % 4096 * 2 ^ 52 + x.cols % 4096 * 2 ^ 40 else 0) + x.st.num * 2 ^ 36 + x.last.toNat * 2 ^ 24 +
         x.flags.toNat * 2 ^ 16 + x.seq.row % 65536))]) ∧
     ((x.fused = false ∨ x.rows ≤ row ∨ x.cols ≤ col) → exec (.ctab h o) s = .next (s.reported 0x8D n 1)) ∧
     (x.fused = true → row < x.rows → col < x.cols → cw.ok = false → exec (.ctab h o) s = .next (s.reported 0x8D n 3)) ∧
     (x.fused = true → row < x.rows → col < x.cols → cw.ok = true → Gives (.ctab h o) s fun t =>
       Scheduled ((({ s with nextPkt := s.nextPkt + 1 } : State).setLens key { x with
         ctabs := x.ctabs.map (fun j =>
             { j with told := j.told || (decide (j.core = s.cur.core) && decide (j.slot = s.cur.slot)) }) ++
           [⟨s.nextPkt, false, s.cur.core, s.cur.slot, row, col, bits o.imm 6 4, cw⟩] }).reporting 0x8D n)
         t 1 64 (.ctabLand key s.nextPkt))) ∧
  (∀ (s : State) (h : Hdr) (o : FmtA), s.me.guard h = true → s.me.h = false →
     let fault : State := s.faulted 0x0E 0 0
     let a := s.me.gr o.ra
     ((∀ key ox oy w hh, s.namedLens o = some (key, ox, oy, w, hh) → s.cur.core ≠ coreAt ox oy) →
       exec (.fuse h o) s = .next fault ∧ exec (.unfuse h o) s = .next fault ∧ exec (.lstop h o) s = .next fault ∧
       exec (.lstopQ h o) s = .next fault ∧ exec (.skewRd h o) s = .next fault ∧ exec (.skewWr h o) s = .next fault ∧
       (a.toNat % 16 ≠ 0 → exec (.lgo h o) s = .next (s.faulted 0x08 a 0)) ∧
       (a.toNat % 16 = 0 → rangeFault s.myCore a 16 = none → exec (.lgo h o) s = .next fault)) ∧
     ((∀ key ox oy w hh, s.namedLens o = some (key, ox, oy, w, hh) →
         ¬(ox ≤ coreX s.cur.core ∧ coreX s.cur.core < ox + w ∧ oy ≤ coreY s.cur.core ∧ coreY s.cur.core < oy + hh)) →
       exec (.lstat h o) s = .next fault ∧ exec (.ctab h o) s = .next fault))

/-- R175, R215: the end of FUSE: where the rectangle is whole and free and its tables are accepted, the lens is IDLE with
its bypassed rows and columns, its counters computed, its tables placed and its cells as after reset; otherwise it is
FAILED with the STATUS and no facet changes; the issuing slot's LSTATE gets the STATUS. Both FUSE and the UNFUSE before it
wait for the writes of the old configuration (R309). The end of CTAB (R223): the entry
holds the word, every other entry what it held. Model choices: log entry 21. -/
def Obligations.FuseAndCtabEnd : Prop :=
  (∀ (s : State) (key : Nat),
    let l := s.lens key
    let m := (s.fuseResult key).1
    let code := (s.fuseResult key).2
    let goesOn (t : State) : Prop := t.agenda = s.agenda ++ if l.queue = [] then [] else [Due.ev (.lensNodeStart key)]
    (l.st ≠ .fusing → exec (.fuseComplete key) s = .next s) ∧
    (l.st = .fusing → s.unfuseFirst l = true → exec (.fuseComplete key) s = .next (s.later 1 (.fuseComplete key))) ∧
    (l.st = .fusing → s.unfuseFirst l = false → code ≠ 0 → Gives (.fuseComplete key) s fun t => goesOn t ∧
      { t with agenda := s.agenda } = (s.setLens key { l with st := .failed, last := BitVec.ofNat 8 code }).modSlot
        ⟨l.origin, l.fuser⟩ fun sl => sl.told 0x80 l.num code) ∧
    (l.st = .fusing → s.unfuseFirst l = false → code = 0 → Gives (.fuseComplete key) s fun t => goesOn t ∧
      SameMemory s t ∧ t.lens key = { m with last := 0 } ∧ m.st = .idle ∧ m.cells = [] ∧ m.waves = [] ∧ m.wires = [] ∧
      (m.bypR, m.bypC) = s.bypassOf l ∧ (∀ i, i < m.rows → m.counter 0 i = m.rowTime (m.physRow i) - i) ∧
      (∀ i, i < m.cols → m.counter 1 i = m.colTime (m.physCol i) - i) ∧ (∀ k, k ≠ key → t.lens k = s.lens k) ∧
      (∀ d k, d < 4 → k < m.lanesOn d → (t.edgeLane m d k).fifo = [] ∧ (t.edgeLane m d k).conv = Conv.reset) ∧
      (∀ r, r ≠ ⟨l.origin, l.fuser⟩ → t.slot r = s.slot r) ∧
      t.slot ⟨l.origin, l.fuser⟩ = (s.slot ⟨l.origin, l.fuser⟩).told 0x80 l.num 0) ∧
    (s.geomOk l = false → code = 1) ∧ (s.geomOk l = true → s.facetTaken key l = true → code = 2)) ∧
  (∀ (s : State) (key k st : Nat),
    let l := s.lens key
    l.unfusing = some (k, st) →
    (s.writing l = true → s.unfuseEnd key = s.work 1 (.unfuseEnd key)) ∧
    (s.writing l = false → s.unfuseEnd key = (s.setLens key { l with unfusing := none }).modSlot ⟨l.origin, k⟩ fun sl =>
      sl.told 0x81 l.num st)) ∧
  (∀ (s : State) (key : Nat) (j : CtabJob),
    let l := s.lens key
    l.ctabs.find? (fun i => i.id == j.id) = some j → j.col < 1536 → j.entry < 16 → Gives (.ctabLand key j.id) s fun t => ∃ m : Lens,
      t = (if j.told then s.setLens key m else
        (s.setLens key m).modSlot ⟨j.core, j.slot⟩ (fun sl => sl.told 0x8D (key % 64) 0)) ∧
      m = { l with ctabs := l.ctabs.filter (fun i => i.id != j.id), table := m.table, restart := m.restart, parity := m.parity } ∧
      (∀ a b ph, b < 1536 → ph < 16 → m.entry a b ph = if a = j.row ∧ b = j.col ∧ ph = j.entry then j.word else l.entry a b ph) ∧
      ∀ k, k < 16 → m.restart.getLsbD k = (l.restart.getLsbD k || (restartOp (CtlWord.op j.word) && k == j.entry)))

/-- AGSET, AGGO, AGSTAT and GATE (R219, R220): AGSET loads the descriptor at G(RA) into the AG, or leaves it BAD with
BADDESC, or reports BUSY, and waits for an AMO of its slot to those bytes; AGGO starts every AG it names, or none and reports why; AGSTAT gives its value 4 turns after
issue; GATE closes or opens the named gates of the core. Model choices: log entry 21. -/
def Obligations.AgCommandsComplete : Prop :=
  ∀ (s : State) (h : Hdr) (o : FmtA), s.me.guard h = true →
    let c := s.cur.core
    let x := s.myCore
    let n := bits o.imm 0 2
    let a := s.me.gr o.ra
    let told (opc unit code : Nat) (t : State) : Prop :=
      SameMemory s t ∧ OtherSlots s t ∧ t.me = { s.passed.me with lstate := lstateValue false opc unit code }
    let reached : Prop := a.toNat % 64 = 0 ∧ rangeFault x a 64 = none ∧ (x.ag n).active = false
    let readable (d : AgDesc) : Prop := reached ∧ s.hasErr (x.winKey a) 64 = false ∧
      ∃ bs, s.descriptor a 64 = some bs ∧ d = BitVec.ofNat 512 (leNat bs)
    let others (t : State) : Prop := ∀ m, m ≠ n → t.myCore.ag m = x.ag m
    let mask := bits o.imm 0 4
    let named (m : Nat) : Prop := m < 4 ∧ nbit mask m = true
    let code := s.aggoStatus c ((List.range 4).filter fun m => nbit mask m)
    let stops (m : Nat) : Prop := (x.ag m).st = .bad ∨ (x.ag m).st = .empty ∨ (x.ag m).st = .fault
    let sideless (m : Nat) : Prop := s.sideLens c (AgDesc.edge (x.ag m).desc) = none
    (s.me.h = false → a.toNat % 64 ≠ 0 → exec (.agset h o) s = .next (s.faulted 0x08 a 0)) ∧
    (∀ f, s.me.h = false → a.toNat % 64 = 0 → rangeFault x a 64 = some f →
      exec (.agset h o) s = .next (s.faulted f.1 f.2.1 f.2.2)) ∧
    (a.toNat % 64 = 0 → rangeFault x a 64 = none → (x.ag n).active = true →
      exec (.agset h o) s = .next (s.reported 0x85 n 5)) ∧
    (s.me.accs = [] → s.descriptor a 64 = some (s.winBytes c a 64)) ∧
    (reached → s.descriptor a 64 = none → exec (.agset h o) s = .next (s.modMe fun sl => { sl with gate := .offer })) ∧
    (∀ l d, readable d → d.ok = true → (if d.space = .va then s.readExtents c (d.dw 6) 16 else some []) = some l →
      Gives (.agset h o) s fun t => told 0x85 n 0 t ∧ others t ∧ (t.myCore.ag n).st = .loaded ∧ (t.myCore.ag n).desc = d ∧
        (t.myCore.ag n).daddr = a ∧ (t.myCore.ag n).ext = l ∧ (t.myCore.ag n).i2 = d.progi) ∧
    (∀ d, readable d → (d.ok = false ∨ (d.space = .va ∧ s.readExtents c (d.dw 6) 16 = none)) →
      Gives (.agset h o) s fun t => told 0x85 n 6 t ∧ others t ∧ (t.myCore.ag n).st = .bad) ∧
    (code ≠ 0 → exec (.aggo h o) s = .next (s.reported 0x86 mask code)) ∧
    (code = 0 → Gives (.aggo h o) s fun t => told 0x86 mask 0 t ∧
      (∀ m, named m → (t.myCore.ag m).st = .run ∧ (t.myCore.ag m).desc = (x.ag m).desc) ∧
      ∀ m, m < 4 → ¬named m → t.myCore.ag m = x.ag m) ∧
    ((∃ m, named m ∧ stops m) → code = 6) ∧
    ((∀ m, named m → ¬stops m) → (∃ m, named m ∧ (x.ag m).active = true) → code = 5) ∧
    ((∀ m, named m → ¬stops m ∧ (x.ag m).active = false) → (∃ m, named m ∧ sideless m) → code = 7) ∧
    exec (.agstat h o) s = .next (s.issued 4 [.g o.rd (BitVec.ofNat 64
      ((x.ag n).progress.1 % 2 ^ 32 * 2 ^ 32 + (x.ag n).progress.2 % 2 ^ 24 * 2 ^ 8 + (x.ag n).st.num))]) ∧
    exec (.gateClose h o) s = .next
      ((s.setCore c { x with gates := x.gates ||| o.imm.setWidth 4 }).reported 0x88 (bits o.imm 0 4) 0) ∧
    exec (.gateOpen h o) s = .next
      ((s.setCore c { x with gates := x.gates &&& ~~~(o.imm.setWidth 4) }).reported 0x88 (bits o.imm 0 4) 0)

/-- BIND, BIND.un and DMAP, and the ends of the two first (R221, R224): BIND attaches every lane of the route to the
channel, which is bound within 256 P-cycles; BIND.un stops it, and once no token is in flight every lane goes back to its
prism, the tokens in its buffer kept; a command that finds another in progress waits for its turn, and each reports to its
slot, but for one whose slot has issued a later command; each refusal leaves its STATUS and changes nothing else. DMAP gives the fields of
the defect map, or 0 for no core of the die. Model choices: log entry 21. -/
def Obligations.ChannelAndMapCommandsComplete : Prop :=
  (∀ (s : State) (h : Hdr) (o : FmtA) (task : Nat), s.me.guard h = true → s.myCore.task = some task →
    let n := bits o.imm 0 12
    let key := chanKey task n
    let bind : Instr := .bindCh h o
    let loose : Instr := .bindUn h o
    (s.routeOf task n = none → exec bind s = .next (s.reported 0x89 n 8) ∧ exec loose s = .next (s.reported 0x89 n 8)) ∧
    (∀ r, s.routeOf task n = some r →
      let code := s.bindStatus task s.cur.core n
      (s.holdsEnd task s.cur.core r = false → code = 1 ∧ exec loose s = .next (s.reported 0x89 n 1)) ∧
      (s.holdsEnd task s.cur.core r = true → s.routeFused task r = false → code = 7) ∧
      (code ≠ 0 → exec bind s = .next (s.reported 0x89 n code)) ∧
      let x := s.chan key
      let queued (un : Bool) : List ChanCmd := (x.cmds.map fun c =>
        { c with told := c.told || (decide (c.core = s.cur.core) && decide (c.slot = s.cur.slot)) }) ++
          [⟨s.cur.core, s.cur.slot, un, false⟩]
      let waits (un : Bool) (t : State) : Prop := SameMemory s t ∧ OtherSlots s t ∧
        t.me = { s.passed.me with lstate := lstateValue true 0x89 n 0 } ∧ (t.chan key).cmds = queued un ∧
        (t.chan key).fly = x.fly ∧ ∀ c e k, ((t.core c).lane e k).fifo = ((s.core c).lane e k).fifo
      (code = 0 → x.st = .bound → x.cmds = [] → exec bind s = .next (s.reported 0x89 n 0)) ∧
      (code = 0 → ¬(x.st = .bound ∧ x.cmds = []) → Gives bind s (waits false)) ∧
      (code = 0 → x.st = .unbound → x.cmds = [] → Gives bind s fun t => (t.chan key).st = .binding ∧
        (∀ p ∈ s.routeLanes task r, ((t.core p.1).lane p.2.1 p.2.2).att = .chan key) ∧
        ∃ d, 1 ≤ d ∧ d ≤ 256 ∧ (s.now + d, Instr.bindComplete task n) ∈ t.coming) ∧
      (s.holdsEnd task s.cur.core r = true → x.st = .unbound → x.cmds = [] → exec loose s = .next (s.reported 0x89 n 0)) ∧
      (s.holdsEnd task s.cur.core r = true → ¬(x.st = .unbound ∧ x.cmds = []) → Gives loose s (waits true)) ∧
      (s.holdsEnd task s.cur.core r = true → x.st = .bound → x.cmds = [] → Gives loose s fun t =>
        (t.chan key).st = .unbinding ∧ (s.now + 1, Instr.unbindComplete task n) ∈ t.coming))) ∧
  (∀ (s : State) (task n : Nat),
    let key := chanKey task n
    let x := s.chan key
    let tells (j : ChanCmd) (u : State) : State := if j.told then u else u.modSlot ⟨j.core, j.slot⟩ fun sl => sl.told 0x89 n 0
    (x.st ≠ .binding → exec (.bindComplete task n) s = .next s) ∧
    (∀ j, x.st = .binding → x.cmds = [j] → j.un = false → exec (.bindComplete task n) s = .next
      (tells j (s.modChan key fun y => { y with st := .bound, cmds := [] }))) ∧
    (x.st = .binding → Gives (.bindComplete task n) s fun t => SameMemory s t ∧
      (t.chan key).cmds = x.cmds.dropWhile (fun c => !c.un) ∧ (t.chan key).fly = x.fly ∧
      ((t.chan key).st = .bound ∨ (t.chan key).st = .unbinding)) ∧
    (x.st ≠ .unbinding → exec (.unbindComplete task n) s = .next s) ∧
    (x.st = .unbinding → x.fly ≠ [] → Gives (.unbindComplete task n) s fun t =>
      Scheduled s t 1 1 (.unbindComplete task n)) ∧
    (x.st = .unbinding → x.fly = [] → Gives (.unbindComplete task n) s fun t => SameMemory s t ∧
      (t.chan key).cmds = x.cmds.dropWhile (fun c => c.un) ∧
      ((t.chan key).st = .unbound ∨ (t.chan key).st = .binding)) ∧
    (∀ u j, x.st = .unbinding → x.fly = [] → x.cmds = [j] → j.un = true → s.routeOf task n = some u →
      Gives (.unbindComplete task n) s fun t => SameMemory s t ∧ (t.chan key).st = .unbound ∧
      (∀ q, t.slot q = (tells j s).slot q) ∧
      (∀ p ∈ s.routeLanes task u, ((t.core p.1).lane p.2.1 p.2.2).att ≠ .chan key) ∧
      ∀ c e k, ((t.core c).lane e k).fifo = ((s.core c).lane e k).fifo)) ∧
  (∀ (s : State) (h : Hdr) (o : FmtA), s.me.guard h = true →
    let a := s.me.gr o.ra
    let c := coreAt (bits a 0 8) (bits a 8 8)
    let d := s.defect c
    let onDie : Prop := bits a 0 8 ≤ 23 ∧ bits a 8 8 ≤ 31 ∧ bits a 16 48 = 0
    let field (l : List Nat) (k : Nat) : Nat := match l[k]? with
      | some i => 64 + i % 64
      | none => 0
    let gives (i : Instr) (v : Nat) : Prop := exec i s = .next (s.issued 4 [.g o.rd (BitVec.ofNat 64 v)])
    (onDie → gives (.dmapFacet h o) (field d.cols 1 * 2 ^ 40 + field d.cols 0 * 2 ^ 32 + field d.rows 1 * 2 ^ 24 +
      field d.rows 0 * 2 ^ 16 + d.colsLive * 256 + d.rowsLive)) ∧
    (onDie → gives (.dmapCore h o) (d.live.toNat + 2 * d.router.toNat + 4 * d.prism.toNat + 8 * (s.core c).retired.toNat)) ∧
    (¬onDie → gives (.dmapFacet h o) 0 ∧ gives (.dmapCore h o) 0))

/-- EPOP, EPUSH and EPUSH.hdr (R225): EPOP takes the head token of every live lane and VD holds their values 11 turns
later; EPUSH and EPUSH.hdr count one entry in flight in the lanes they push to, and in the P-cycle of their eleventh turn
the tokens enter the lanes' tails; a side that is on no fused lens, or a lane attached to another agent, takes 0x0E, a
lane that is dry or full 0x05 with the lowest such lane in FINFO. Model choices: log entry 21. -/
def Obligations.EdgePopsAndPushes : Prop :=
  (∀ (s : State) (h : Hdr) (o : FmtV), VectorReady s h →
    let edge := bits o.fn 0 2
    let x := s.myCore
    let act := activeMask s.me o
    let head (k : Nat) : BitVec 32 × Flags := match (x.lane edge k).fifo with
      | t :: _ => popValue s.me o.ft k t
      | [] => (0, 0)
    let kept (t : State) : Prop := SameMemory s t ∧ OtherSlots s t ∧ t.me.pc = s.passed.me.pc ∧ t.me.g = s.me.g ∧
      t.me.v = s.me.v ∧ t.me.vecFree = Nat.max s.me.vecFree (s.me.turn + 8)
    let sent (t : State) (ws : List Write) : Prop := t.me.flights = s.me.flights ++ [⟨s.me.nextId, s.me.turn + 11, 0, ws⟩]
    let lanesAre (t : State) (f : Nat → Lane → Lane) : Prop :=
      ∀ e k, k < 64 → t.myCore.lane e k = if e = edge then f k (x.lane e k) else x.lane e k
    (s.me.h = false → s.prismSide edge false = none →
      exec (.epop h o) s = .next (s.faulted 0x0E 0 0) ∧ exec (.epush h o) s = .next (s.faulted 0x0E 0 0)) ∧
    (s.me.h = false → s.prismSide edge true = none → exec (.epushHdr h o) s = .next (s.faulted 0x0E 0 0)) ∧
    let seen (ws : List Write) (fs : List (Nat × Flags)) : List Write := if allFlags fs = 0 then ws else ws ++ [.vstat (allFlags fs)]
    (∀ key n, s.prismSide edge false = some (key, n) →
      let pops := (activeLanes s.me o).map fun k => (k, if k < n then (head k).2 else 0)
      let pushes := (List.range n).map fun k => (k, if act.getLsbD k then (pushToken s.me o k).2 else 0)
      (s.popFault edge = none → laneTrap s.me.fpctl pops = none → Gives (.epop h o) s fun t => kept t ∧
        (∃ v : VReg, sent t (seen [.v o.vd (writtenLanes s.me o) v] pops) ∧
          ∀ k, k < 64 → act.getLsbD k = true → vlane v k = if k < n then (head k).1 else 0) ∧
        lanesAre t fun k a => if k < n then { a with fifo := a.fifo.drop 1, tags := a.tags.drop 1 } else a) ∧
      (∀ k, s.me.h = false → k < n → 32 ≤ (x.lane edge k).fifo.length + (x.lane edge k).inFlight →
        (∀ j, j < k → (x.lane edge j).fifo.length + (x.lane edge j).inFlight < 32) →
        exec (.epush h o) s = .next (s.faulted 0x05 0 (BitVec.ofNat 64 k))) ∧
      ((∀ k, k < n → (x.lane edge k).fifo.length + (x.lane edge k).inFlight < 32) → laneTrap s.me.fpctl pushes = none →
        Gives (.epush h o) s fun t => kept t ∧
        sent t (seen [.push edge ((List.range n).map fun k =>
          (k, if act.getLsbD k then (pushToken s.me o k).1 else Token.idle))] pushes) ∧
        lanesAre t fun k a => if k < n then { a with inFlight := a.inFlight + 1 } else a)) ∧
    (∀ key n, s.prismSide edge true = some (key, n) →
      (∀ k, k < n → act.getLsbD k = true → (x.lane edge k).fifo.length + (x.lane edge k).inFlight < 32) →
      Gives (.epushHdr h o) s fun t => kept t ∧
        sent t [.push edge (((List.range n).filter fun k => act.getLsbD k).map fun k =>
          (k, ⟨true, ((s.me.gr o.rs).setWidth 32).extractLsb' 28 4, (s.me.gr o.rs).setWidth 32⟩))] ∧
        lanesAre t fun k a => if k < n ∧ act.getLsbD k = true then { a with inFlight := a.inFlight + 1 } else a)) ∧
  (∀ (s : State) (core slot e k : Nat) (tok : Token) (f : Flight) (rest : List Flight), core < 768 → slot < 8 →
    let sl := s.slot ⟨core, slot⟩
    sl.flights = f :: rest → f.minTurn ≤ sl.turn → f.minCycle ≤ s.now → (∀ st, sl.gate ≠ .stalled st) →
    f.writes = [.push e [(k, tok)]] → Gives (.resultWriteback core slot f.id) s fun t => OnlyCore core s t ∧
      t.slot ⟨core, slot⟩ = { sl with flights := rest } ∧
      (t.core core).lane e k = { (s.core core).lane e k with
        fifo := ((s.core core).lane e k).fifo ++ [tok], inFlight := ((s.core core).lane e k).inFlight - 1 })

/-- The sixteen operations of a cell (R168, R170 to R172): a cell that a wave token reaches runs the operation of its entry
on the tokens of its inputs: its registers become what R168 gives, after the actions of IS and SN, and its E and S outputs
are, by EOSEL and SOSEL, its input, the result, idle-zero, or HELD and the old A; HOLD leaves them and PASS passes both
inputs on. No other cell changes and nothing outside the lens, sticky flags stay set, and without TRAPEN no event is
raised. -/
def Obligations.CellOperations : Prop :=
  ∀ (s : State) (key a b : Nat) (v : Wave),
    let l := s.lens key
    let w : CtlWord := l.entry a b v.ph.toNat
    let old := (l.cell a b).begin v.is v.sn
    let win := l.input a b true
    let nin := l.input a b false
    l.waveAt a b = some v → a < l.rows → b < l.cols → b < 1536 → l.runs (l.cellCore a b) = true → l.parity = [] →
    let fl := floatClass w.fmt
    let A := old.acc w
    let el (x : Token) := (elements w x).1
    let sum (x : Token) := (sumBits w x).1
    let pair := (pairBits nin).1
    let prev := if w.dly = 0 then A else old.delay w.dly
    let both : BitVec 64 := pair ++ old.pk
    let only (t : State) : Prop := t = s.setLens key (t.lens key) ∧ (w.trapen = false → (t.lens key).raised = l.raised) ∧
      (∀ i j, j < 1536 → ¬(i = a ∧ j = b) → (t.lens key).cell i j = l.cell i j) ∧ (t.lens key).waves = l.waves ∧
      l.flags ||| (t.lens key).flags = (t.lens key).flags
    let half := if old.pq then old.held.extractLsb' 32 32 else old.held.extractLsb' 0 32
    let does (i : Instr) (op : Nat) (new : Cell) (r : BitVec 32) : Prop := w.op = op → Gives i s fun t => only t ∧
      (t.lens key).cell a b = { new with
        eOut := (match w.eosel with
          | 0 => win
          | 1 => (resultToken w false nin r).1
          | 2 => Token.idle
          | _ => ⟨false, 11, half⟩)
        sOut := (match w.sosel with
          | 0 => nin
          | 1 => (resultToken w false nin r).1
          | 2 => Token.idle
          | _ => (resultToken w true nin A).1) }
    let toA (i : Instr) (op : Nat) (x : BitVec 32) : Prop := does i op (old.setAcc w x) x
    (w.op = 0 → Gives (.cellHold key a b) s fun t => only t ∧ (t.lens key).cell a b = old) ∧
    (w.op = 1 → Gives (.cellPass key a b) s fun t => only t ∧ (t.lens key).cell a b = { old with eOut := win, sOut := nin }) ∧
    toA (.cellAcm key a b) 2 (dotAcc fl A (el win) (el nin)).1 ∧
    toA (.cellAcmz key a b) 3 (dotAcc fl 0 (el win) (el nin)).1 ∧
    does (.cellPsm key a b) 4 old (dotAcc fl (sum nin) (el win) (decodeElems w.fmt (old.wreg w))).1 ∧
    does (.cellWld key a b) 5 (old.setWreg w (weightBits w nin).1) nin.data ∧
    does (.cellDrn key a b) 6 (old.setAcc w (sum nin)) A ∧
    (old.pq = false → does (.cellCmpx key a b) 7 { old with pk := pair, pq := true } (old.pout.extractLsb' 0 32)) ∧
    (old.pq = true → does (.cellCmpx key a b) 7
      (if ranksAbove ⟨old.pk, pair⟩ ⟨old.held.extractLsb' 0 32, old.held.extractLsb' 32 32⟩ then
        { old with held := both, pout := old.held, pq := false } else { old with pout := both, pq := false })
      (old.pout.extractLsb' 32 32)) ∧
    does (.cellRec key a b) 8 (({ old with dn := (old.dn <<< 32) ||| A.setWidth 480 } : Cell).setAcc w
      (recAcc fl (sum win) prev (sum nin)).1) (recAcc fl (sum win) prev (sum nin)).1 ∧
    does (.cellGen key a b) 9 old
      (let g := glint (old.w0 ++ old.w1) ((indexBits win).1.setWidth 64)
       if w.fmt = 10 then g else image (.fin ⟨false, g.toNat / 256, -24, false⟩)) ∧
    does (.cellAdd key a b) 10 old (sumAcc fl (sum win) (sum nin)).1 ∧
    toA (.cellMaxp key a b) 11
      (if fl then (minMaxF true false A (sum win)).1 else if A.toInt < (sum win).toInt then sum win else A) ∧
    (old.pq = false → does (.cellLdh key a b) 12 { old with pk := pair, pq := true } (old.held.extractLsb' 0 32)) ∧
    (old.pq = true → does (.cellLdh key a b) 12 { old with held := both, pq := false } (old.held.extractLsb' 32 32)) ∧
    does (.cellSnap key a b) 13 (if w.asel then { old with accs1 := old.acc1 } else { old with accs0 := old.acc0 }) A ∧
    toA (.cellRestore key a b) 14 (if w.asel then old.accs1 else old.accs0) ∧
    toA (.cellZero key a b) 15 0

/-- LGO and the rows of its list (R181 to R188, R216): LGO arms a LENS node, whose list starts at its first row when the
lens is idle and ends at once with 0xF3 where the lens is not fused; a STEP row injects one wave token per A-cycle with
the phase, IS and SN of R183 and goes on; LOOP, WAITG, SIGNAL, END and SYNC do what R184 says; a row that cannot be run
raises an event; a list that has run out completes its node. Model choices: log entry 21. -/
def Obligations.TileStepListsRun : Prop :=
  (∀ (s : State) (h : Hdr) (o : FmtA) (key ox oy w hh : Nat), s.me.guard h = true → (s.me.gr o.ra).toNat % 16 = 0 →
    rangeFault s.myCore (s.me.gr o.ra) 16 = none → s.namedLens o = some (key, ox, oy, w, hh) → s.cur.core = coreAt ox oy →
    let p := s.placeLens key ox oy w hh
    (s.me.h = false → s.myCore.freeNode = none → exec (.lgo h o) s = .next (s.faulted 0x0F 0 0x02000000)) ∧
    (∀ n, s.myCore.freeNode = some n → Gives (.lgo h o) s fun t => SameMemory s t ∧ OtherSlots s t ∧
      t.me = (s.issued 4 [.g o.rd (BitVec.ofNat 64 n)]).me ∧
      t.myCore.node n = { Node.reset with st := .running, owner := s.cur.slot, kind := 4 } ∧
      t.lens key = { p.lens key with queue := (p.lens key).queue ++ [⟨n, s.cur.slot, s.me.gr o.ra⟩] } ∧
      t.agenda = s.agenda ++ [Due.ev (.lensNodeStart key)])) ∧
  (∀ (s : State) (key : Nat) (j : LensJob),
    let l := s.lens key
    l.queue = [j] → l.seq.active = false → l.freezing = false →
    (l.st = .unfused ∨ l.st = .failed → Gives (.lensNodeStart key) s fun t => SameMemory s t ∧ SameSlots s t ∧
      (t.lens key).queue = [] ∧ (t.lens key).last = 0xF3 ∧ (((s.core (coreAt l.ox l.oy)).node j.node).st ≠ .free →
        ((t.core (coreAt l.ox l.oy)).node j.node).status = 0xF3 ∧
        Due.ev (.nodeComplete (coreAt l.ox l.oy) j.node) ∈ t.agenda)) ∧
    (l.st = .idle → Gives (.lensNodeStart key) s fun t => SameMemory s t ∧ SameSlots s t ∧ (t.lens key).queue = [] ∧
      (t.lens key).st = .run ∧ (t.lens key).flags = 0 ∧ (t.lens key).seq.active = true ∧ (t.lens key).seq.base = j.base ∧
      (t.lens key).seq.node = j.node ∧ (t.lens key).seq.row = 0 ∧ (t.lens key).seq.fresh = true)) ∧
  (∀ (s : State) (key : Nat),
    let l := s.lens key
    let r : Row := l.seq.cur
    let q := l.seq
    let runs (k : Nat) : Prop := l.ready = true ∧ q.rowDone = false ∧ l.badRow = false ∧ Row.kind r = k
    let same (t : State) : Prop := SameMemory s t ∧ SameSlots s t
    let comesTo (t : State) (n : Nat) (loops : List (Nat × Nat × Nat)) : Prop := same t ∧ (t.lens key).seq.row = n ∧
      (t.lens key).seq.loops = loops ∧ (t.lens key).seq.fresh = true ∧ t.agenda.head? = some (Due.ev ((t.lens key).rowEvent key))
    let raises (t : State) : Prop := same t ∧ ∃ e, (t.lens key).raised = l.raised ++ [e] ∧ e.cause = 0x0E ∧
      e.vec = (q.row, q.rep, q.ofs)
    (∀ x, runs 0 → Row.fence r = false → ((s.startRow key).countRow key).starved key (Row.phase r q.ofs) = none → l.open_ = [x] →
      Gives (.stepRow key) s fun t => same t ∧ (t.lens key).st = .run ∧ (t.lens key).mid = true ∧
        (t.lens key).waves = l.waves ++ [⟨l.acyc, if q.ofs = 0 then l.acyc else x.first,
          BitVec.ofNat 4 (Row.p0 r + q.ofs % Row.np r), q.ofs == 0, q.ofs == 0 && Row.snap r, q.row, q.rep, q.ofs⟩] ∧
        (q.ofs + 1 < Row.len r →
          (t.lens key).seq.row = q.row ∧ (t.lens key).seq.rep = q.rep ∧ (t.lens key).seq.ofs = q.ofs + 1) ∧
        (q.ofs + 1 = Row.len r → (t.lens key).seq.row = q.row ∧ (q.rep + 1 < Row.rep r →
            (t.lens key).seq.rep = q.rep + 1 ∧ (t.lens key).seq.ofs = 0 ∧ (t.lens key).seq.rowDone = false) ∧
          (q.rep + 1 = Row.rep r → (t.lens key).seq.rowDone = true))) ∧
    (l.ready = true → q.rowDone = false → q.bad = 0 → (65535 < q.row ∨ Row.ok r = false) → Gives (.stepRow key) s raises) ∧
    (runs 1 → Row.tgt r < q.row →
      (∀ f c u, q.loops = (q.row, f, c) :: u → Gives (.tileLoopRow key) s fun t =>
        if c = 0 then comesTo t (q.row + 1) u else comesTo t (Row.tgt r) ((q.row, f, c - 1) :: u)) ∧
      (q.loops = [] → Gives (.tileLoopRow key) s fun t => if Row.cnt r = 1 then comesTo t (q.row + 1) []
        else comesTo t (Row.tgt r) [(q.row, Row.tgt r, Row.cnt r - 2)]) ∧
      (∀ m f c u, q.loops = (m, f, c) :: u → m ≠ q.row → (4 ≤ q.loops.length ∨ Row.tgt r < f ∨ m ≤ q.row) →
        Gives (.tileLoopRow key) s raises) ∧
      (∀ m f c u, q.loops = (m, f, c) :: u → q.row < m → f ≤ Row.tgt r → q.loops.length < 4 → Gives (.tileLoopRow key) s
        fun t => if Row.cnt r = 1 then comesTo t (q.row + 1) q.loops
          else comesTo t (Row.tgt r) ((q.row, Row.tgt r, Row.cnt r - 2) :: q.loops))) ∧
    (runs 1 → q.row ≤ Row.tgt r → Gives (.tileLoopRow key) s raises) ∧
    (runs 2 → let nd := (s.core l.origin).node (bits r 0 6)
      (nd.st = .free ∨ nd.st = .done → Gives (.waitgRow key) s fun t => comesTo t (q.row + 1) q.loops) ∧
      (nd.st = .armed ∨ nd.st = .running → Gives (.waitgRow key) s fun t => same t ∧ (t.lens key).mid = true ∧
        (t.lens key).seq.row = q.row ∧ (t.lens key).seq.budget = q.budget + 1)) ∧
    (runs 3 → Row.fence r = false → Gives (.signalRow key) s fun t => same t ∧ (t.lens key).seq.row = q.row + 1 ∧
      t.agenda.take 2 = [Due.ev (.notifyArrive l.origin (bits r 16 3) (r.setWidth 16)), Due.ev ((t.lens key).rowEvent key)]) ∧
    (runs 4 → Gives (.endRow key) s fun t => same t ∧ (t.lens key).seq.ended = true ∧ (t.lens key).waves = l.waves) ∧
    (runs 5 → (s.synced l = true → Gives (.syncRow key) s fun t => comesTo t (q.row + 1) q.loops) ∧
      (s.synced l = false → Gives (.syncRow key) s fun t => same t ∧ (t.lens key).seq.paused = true ∧
        (t.lens key).seq.row = q.row)) ∧
    (q.active = true → q.paused = true → q.ended = false → l.freezing = false → s.synced l = true →
      Gives (.syncResume key) s fun t => comesTo t (q.row + 1) q.loops ∧ (t.lens key).seq.paused = false) ∧
    (l.overBudget = true → l.freezing = false → Gives (.rowBudgetDeadline key) s fun t => same t ∧
      ∃ e, (t.lens key).raised = l.raised ++ [e] ∧ e.cause = 0x06 ∧ e.vec = l.nextVec) ∧
    (s.listOver key = true → ((s.core l.origin).node q.node).killed = false → q.stop = .none → l.queue = [] →
      Gives (.listFinish key) s fun t => same t ∧ (t.lens key).st = .idle ∧ (t.lens key).last = 0 ∧
        (t.lens key).seq.active = false ∧ (((s.core l.origin).node q.node).st ≠ .free →
          ((t.core l.origin).node q.node).status = 0 ∧ Due.ev (.nodeComplete l.origin q.node) ∈ t.agenda)))

/-- The agents of a lens (R186, R195, R200 to R202, R206, R211, R307, R346 to R348): an input lane presents its head token
to its first cell; an edge wait ends; an AG's reads only add tokens to its lanes' tails, never beyond 32 entries, and none
through a closed gate; a channel forwards its producer's head token to every consumer; an invocation that ends sends
its held stores to the back port of their bank, where they perform, or into device memory; the freeze line keeps the event that ranks first; and a complete freeze leaves the lens FROZEN with its
record, which goes to the front end, and discards the open invocations. Model choices: log entry 21. -/
def Obligations.LensAgentsAct : Prop :=
  (∀ (s : State) (key edge i : Nat) (v : Wave) (tok : Token) (rest : List Token),
    let l := s.lens key
    let c := (l.laneAt edge i).1
    let k := (l.laneAt edge i).2
    let a := (s.core c).lane edge k
    edge < 2 → i < l.lanesOn edge → s.presents l edge i = some v → a.fifo = tok :: rest → tok.hdr = false → tok.ft ≠ 9 →
    a.att = .prism → Gives (.inputPresent key edge i) s fun t => SameMemory s t ∧ SameSlots s t ∧
      (t.core c).lane edge k = { a with fifo := rest } ∧
      (t.lens key).wires = l.wires ++ [l.entryWire edge i 0 (portToken a.conv tok).1] ∧ (t.lens key).acyc = l.acyc ∧
      (a.conv.bad = false → tok.ft ≠ 5 → tok.ft ≠ 8 → (portToken a.conv tok).1 = tok)) ∧
  (∀ (s : State) (key : Nat),
    let l := s.lens key
    l.st = .edgeWait → Gives (.edgeWaitEnd key) s fun t => SameMemory s t ∧ SameSlots s t ∧
      t.lens key = { l with st := .run } ∧ ∀ p ∈ s.lensAgs key, ((s.core p.1).ag p.2).st = .edgeWait →
        ((t.core p.1).ag p.2).st = .run) ∧
  (∀ (s : State) (c n k : Nat), c < 768 → n < 4 →
    let d : AgDesc := ((s.core c).ag n).desc
    Gives (.agFetch c n k) s (fun t => SameSlots s t ∧
      (∀ e j, e ≠ d.edge → j < 64 → (t.core c).lane e j = (s.core c).lane e j) ∧
      ∀ j, (∃ more, ((t.core c).lane d.edge j).fifo = ((s.core c).lane d.edge j).fifo ++ more) ∧
        (((s.core c).lane d.edge j).fifo.length + 2 * (((s.core c).ag n).lane j).reads.length ≤ 32 →
          ((t.core c).lane d.edge j).fifo.length ≤ 32)) ∧
    ((s.core c).gates.getLsbD d.edge = true → exec (.agFetch c n k) s = .next s)) ∧
  (∀ (s : State) (task n k : Nat) (r : Route) (a : LaneRange) (tok : Token) (rest : List Token),
    let key := chanKey task n
    let p := s.rangeLane task a k
    let l := s.lens (lensKey task a.lens)
    s.routeOf task n = some r → r.src = some a → s.mayForward task n k = true → ((s.core p.1).lane p.2.1 p.2.2).fifo = tok :: rest →
    (∀ x ∈ (s.chan key).fly, l.region < x.due) → (∀ b ∈ r.dst, 0 < s.rangeLatency task a b) →
    Gives (.channelForward task n k) s fun t => SameMemory s t ∧ SameSlots s t ∧
      ((t.core p.1).lane p.2.1 p.2.2).fifo = rest ∧ (t.chan key).fly = (s.chan key).fly ++ r.dst.zipIdx.map fun q =>
        ⟨l.region + s.rangeLatency task a q.1, q.2, k, tok⟩) ∧
  (∀ (s : State) (key : Nat) (v : Invocation),
    let l := s.lens key
    l.open_ = [v] → l.endedBy v l.endLimit = true → s.outAgs key = [] →
    (v.segs = [] → exec (.invocationEnd key) s = .next (s.setLens key { l with open_ := [] })) ∧
    (∀ g, v.segs = [g] → g.space = 0 → Gives (.invocationEnd key) s fun t => SameMemory s t ∧ SameSlots s t ∧
      (t.lens key).open_ = [] ∧ (t.core g.core).issued = (s.core g.core).issued + 1 ∧
      ((t.core g.core).ag g.ag).pending = ((s.core g.core).ag g.ag).pending + 1 ∧
      t.back = s.back ++ [(bmIndex ((s.core g.core).bm (eaEntry g.addr)),
        Due.segment g.core g.ag [(g.addr, g.bytes)] (s.classOf g.core))]) ∧
    (∀ g, v.segs = [g] → g.space = 2 → Gives (.invocationEnd key) s fun t => SameSlots s t ∧ (t.lens key).open_ = [] ∧
      t.mem = (g.keys.zip g.bytes).foldl (fun m x => memWrite m x.1 x.2) s.mem)) ∧
  (∀ (s : State) (c n : Nat) (ea : Word) (bs : List Byte) (rest : List Due), s.agenda = .segment c n [(ea, bs)] 0 :: rest →
    Steps s fun t => SameSlots s t ∧ t.mem = memWriteAll s.mem ((s.core c).winKey ea) bs ∧
      ((t.core c).ag n).pending = ((s.core c).ag n).pending - 1 ∧ t.agenda = rest ++ [.ev (.bulkTransferDone c)]) ∧
  (∀ (s : State) (key : Nat) (e : RegionEvent),
    let l := s.lens key
    (firstEvent l.raised = some e → l.freezing = false → l.fused = true → Gives (.freezeLine key) s fun t =>
      SameMemory s t ∧ SameSlots s t ∧ t.lens key = { l with kept := some e, freezing := true, raised := [], mid := false }) ∧
    let stored : Prop := s.storesWalk key (l.open_.map (·.first)) = false
    (¬stored → exec (.freezeComplete key) s = .next s) ∧
    (l.kept = some e → l.freezing = true → e.fcyc + l.skMax e < l.acyc → l.queue = [] → stored → Gives (.freezeComplete key) s fun t =>
      SameSlots s t ∧ (t.lens key).st = .frozen ∧ (t.lens key).last = e.cause ∧ (t.lens key).freezing = false ∧
      (t.lens key).open_ = [] ∧ (t.lens key).waves = [] ∧ (t.lens key).wires = [] ∧
      t.fe.freezes = s.fe.freezes ++ [(t.lens key).record] ∧ (t.lens key).record = freezeRecord l e (s.freezeWhy l e) ∧
      bits (t.lens key).record 56 8 = e.cause.toNat ∧
      (l.seq.active = true → ((s.core l.origin).node l.seq.node).st ≠ .free →
        (∀ c ∈ l.cores, ∀ q ∈ (s.core c).ags, q.2.lens = key → q.2.pending = 0) →
        ((t.core l.origin).node l.seq.node).status = e.cause ∧ ((t.core l.origin).node l.seq.node).detail = e.detail)))

/-! ### Messages, notifies, barriers (R233 to R254) -/

/-- SEND, RECV, RECVA and what follows them (R242 to R247): SEND reads its bytes, as one load of its slot, and joins the send queue with the route of its name, or waits for a
free entry; the head of the queue leaves for the core that its name resolved to and arrives not before the nominal
latency, or waits for its name; RECV and RECVA arm their channel; a message that an armed receive accepts is written at its address and no byte
beyond it, LASTLAT names its sender, latency, seams and hops, the channel is disarmed and a mailbox's bit is set; one that
is not accepted changes no byte, and the arming slot takes the deferred 0x07 with the kind in FINFO[7:4]; a placed receive
whose window has passed ends likewise. Model choices: log entry 22. -/
def Obligations.MessagesComplete : Prop :=
  (∀ (s : State) (h : Hdr) (o : FmtA), s.me.guard h = true →
    let c := s.cur.core
    let x := s.myCore
    let name := s.me.gr o.ra
    let src := s.me.gr o.rb
    let len := s.me.gr o.rc
    let res := s.resolveReg name 16
    let n := bits o.fn 0 4
    let fits : Prop := src.toNat % 8 = 0 ∧ len.toNat % 8 = 0 ∧ 1 ≤ len.toNat ∧ len.toNat ≤ 256
    let whole : Prop := fits ∧ rangeFault x src len.toNat = none
    let clean : Prop := s.hasErr (x.winKey src) len.toNat = false
    let follows : Prop := ∃ e ∈ s.me.accs, e.kind = .amo ∧ e.isPerformed = false ∧ e.overlaps (s.sourceAccess src len.toNat) = true
    (whole → res.fault = none → x.sendq.length < 16 → ¬follows → clean → Gives (.sendMsg h o) s fun t =>
      SameMemory s t ∧ OtherSlots s t ∧ t.me = s.passed.me ∧
      t.myCore.miss = (if res = .miss ∧ x.miss ≠ 0xFFFFFFFF then x.miss + 1 else x.miss) ∧
      ∃ m : Msg, t.myCore.sendq = x.sendq ++ [m] ∧ m.isNotify = false ∧ m.name = name.setWidth 16 ∧ m.chan = n ∧
        m.bytes.length = len.toNat ∧ (s.me.accs = [] → m.bytes = s.winBytes c src len.toNat) ∧ m.stamp = s.cycle c ∧
        m.slot = s.cur.slot ∧ m.src = s.ownName c ∧ ∀ d, res = .hit d → m.dst = some d) ∧
    (whole → res.fault = none → (16 ≤ x.sendq.length ∨ follows) →
      exec (.sendMsg h o) s = .next (s.setSlot s.cur { s.me with gate := .offer })) ∧
    (whole → res.fault = none → x.sendq.length < 16 → ¬follows → ¬clean → s.me.life ≠ .unbound → Gives (.sendMsg h o) s fun t =>
      ∃ f : DueFault, t = s.passed.modMe (fun sl => { sl with due := sl.due ++ [f], nextId := sl.nextId + 1 }) ∧
        f.cause = 0x39 ∧ f.addr = src ∧ f.own = some s.me.pc) ∧
    (∀ info, s.me.h = false → whole → res.fault = some info → exec (.sendMsg h o) s = .next (s.faulted 0x0C name info)) ∧
    (s.me.h = false → (len = 0 ∨ 256 < len.toNat) → exec (.sendMsg h o) s = .next (s.faulted 0x09 src 0)) ∧
    (s.me.h = false → 1 ≤ len.toNat → len.toNat ≤ 256 → (src.toNat % 8 ≠ 0 ∨ len.toNat % 8 ≠ 0) →
      exec (.sendMsg h o) s = .next (s.faulted 0x08 src 0)) ∧
    (∀ f, s.me.h = false → fits → rangeFault x src len.toNat = some f →
      exec (.sendMsg h o) s = .next (s.faulted f.1 f.2.1 f.2.2))) ∧
  (∀ (s : State) (h : Hdr) (o : FmtA), s.me.guard h = true →
    let c := s.cur.core
    let x := s.myCore
    let n := bits o.fn 0 4
    let a := s.me.gr o.ra
    let len := s.me.gr o.rb
    let first := x.syncref + BitVec.ofNat 64 (bits o.imm 8 12)
    let last := first + BitVec.ofNat 64 (bits o.imm 0 8)
    let now := (s.cycle c).toNat
    let free : Prop := (x.recvChan n).armed = none ∧ a.toNat % 8 = 0 ∧ len.toNat % 8 = 0 ∧ 1 ≤ len.toNat ∧ len.toNat ≤ 256 ∧
      rangeFault x a len.toNat = none
    let armed (r : Recv) : State := (s.setCore c (x.setRecv n ⟨some r, s.cur.slot, false⟩)).passed
    (free → now ≤ last.toNat → Gives (.recv h o) s fun t => Scheduled (armed ⟨s.cur.slot, a, len.toNat, true, first, last, 0⟩) t
      (last.toNat + 1 - now) (last.toNat + 1 - now) (.recvWindowExpire c n)) ∧
    (free → exec (.recva h o) s = .next (armed ⟨s.cur.slot, a, len.toNat, false, 0, 0, o.imm.setWidth 4⟩)) ∧
    (s.me.h = false → (x.recvChan n).armed ≠ none →
      exec (.recv h o) s = .next (s.faulted 0x07 a (BitVec.ofNat 64 (64 + n))) ∧
      exec (.recva h o) s = .next (s.faulted 0x07 a (BitVec.ofNat 64 (64 + n)))) ∧
    (s.me.h = false → (x.recvChan n).armed = none → last.toNat < now →
      exec (.recv h o) s = .next (s.faulted 0x07 a (BitVec.ofNat 64 (16 + n))))) ∧
  (∀ (s : State) (c dst : Nat) (m : Msg) (rest : List Msg), c < 768 → dst < 768 → (s.core c).sendq = m :: rest →
    (∀ k, (s.slot ⟨c, k⟩).pends = []) →
    ((m.dst = some dst ∨ (m.dst = none ∧ s.lookup c m.name = .hit dst)) → m.isNotify = false →
      Gives (.headFlitLeaves c) s fun t => SameMemory s t ∧ SameSlots s t ∧
        (t.core c).sendq = rest ∧ ∃ p : Packet, t.packets = s.packets ++ [p] ∧ p.src = c ∧ p.dst = dst ∧
          p.cargo = .message m.chan m.bytes m.stamp m.src ∧
          (s.cutOff c dst = false →
            ∃ d, s.latency c dst m.flits - 1 ≤ d ∧ (s.now + d, Instr.messageArrive p.id) ∈ t.coming) ∧
          (s.cutOff c dst = true → (s.now + 1, Instr.niGiveUp p.id) ∈ t.coming)) ∧
    (∀ ret cut, m.dst = none → s.lookup c m.name = .unmapped ret cut → m.slot < 8 → (s.slot ⟨c, m.slot⟩).life ≠ .unbound →
      Gives (.headFlitLeaves c) s fun t => SameMemory s t ∧ (t.core c).sendq = rest ∧ ∃ f : DueFault,
        (t.slot ⟨c, m.slot⟩).due = (s.slot ⟨c, m.slot⟩).due ++ [f] ∧ f.cause = 0x0C ∧ f.own = some m.pc) ∧
    (m.dst = none → s.lookup c m.name = .miss → m.name ∈ (s.core c).walks → exec (.headFlitLeaves c) s = .next s) ∧
    (m.dst = none → s.lookup c m.name = .frozen → exec (.headFlitLeaves c) s = .next s)) ∧
  (∀ (s : State) (c : Nat), c < 768 → (s.core c).sendq = [] → exec (.headFlitLeaves c) s = .next s) ∧
  (∀ (s : State) (p : Packet) (n : Nat) (bs : List Byte) (stamp : Word) (src : BitVec 16),
    let c := p.dst
    let x := s.core c
    s.packet? p.id = some p → c < 768 → n < 16 → p.cargo = .message n bs stamp src → s.seqFate p = .perform →
    let off (r : Recv) : SlotRef := ⟨c, r.slot⟩
    let now := (s.cycle c).toNat
    let gone (t : State) : Prop := t.packets = dropFirst (fun q => q.id == p.id) s.packets ∧ ((t.core c).recvChan n).armed = none
    let faults (k kind : Nat) (addr : Word) (t : State) : Prop := SameMemory s t ∧ gone t ∧
      ∃ f : DueFault, (t.slot ⟨c, k⟩).due = (s.slot ⟨c, k⟩).due ++ [f] ∧ f.cause = 0x07 ∧ f.addr = addr ∧ bits f.info 4 4 = kind
    let open_ (r : Recv) : Prop := r.placed = true → now ≤ r.last.toNat
    (∀ r, (x.recvChan n).armed = some r → bs.length ≤ r.len → bmV (x.bm (eaEntry r.dest)) = true → open_ r →
      (r.placed = true → r.first.toNat ≤ now) → (s.slot (off r)).wait = none → (s.slot (off r)).flights = [] →
      Gives (.messageArrive p.id) s fun t =>
        t.mem = memWriteAll s.mem (x.winKey r.dest) bs ∧ gone t ∧
        (∀ q, q ≠ off r → t.slot q = s.slot q) ∧
        t.slot (off r) = (if r.placed then s.slot (off r) else
          { s.slot (off r) with notify := (s.slot (off r)).notify ||| ((1 : BitVec 16) <<< r.bit.toNat) }) ∧
        (t.core c).lastlat = BitVec.ofNat 48 (src.toNat * 2 ^ 32 +
          Nat.min (s.cycle c - stamp).toNat 65535 * 2 ^ 16 + ((s.way p.src c).getD (0, 0, 0)).2.1 * 2 ^ 8 +
          ((s.way p.src c).getD (0, 0, 0)).1)) ∧
    (∀ r, (x.recvChan n).armed = some r → r.placed = true → r.last.toNat < now → (s.slot (off r)).life ≠ .unbound →
      Gives (.messageArrive p.id) s (faults r.slot 1 r.dest)) ∧
    (∀ r, (x.recvChan n).armed = some r → open_ r → (s.slot (off r)).life ≠ .unbound →
      (r.len < bs.length → Gives (.messageArrive p.id) s (faults r.slot 3 r.dest)) ∧
      (bs.length ≤ r.len → bmV (x.bm (eaEntry r.dest)) = false → Gives (.messageArrive p.id) s (faults r.slot 5 r.dest)) ∧
      (bs.length ≤ r.len → bmV (x.bm (eaEntry r.dest)) = true → r.placed = true → now < r.first.toNat →
        Gives (.messageArrive p.id) s (faults r.slot 0 r.dest))) ∧
    ((x.recvChan n).armed = none → (x.recvChan n).late = true → Gives (.messageArrive p.id) s fun t =>
      SameMemory s t ∧ SameSlots s t ∧ gone t) ∧
    ((x.recvChan n).armed = none → (x.recvChan n).late = false → (s.slot ⟨c, (x.recvChan n).lastSlot⟩).life ≠ .unbound →
      Gives (.messageArrive p.id) s (faults (x.recvChan n).lastSlot 2 0))) ∧
  (∀ (s : State) (c n : Nat), c < 768 →
    (((s.core c).recvChan n).armed = none → exec (.recvWindowExpire c n) s = .next s) ∧
    (∀ r, ((s.core c).recvChan n).armed = some r → r.placed = false → exec (.recvWindowExpire c n) s = .next s)) ∧
  (∀ (s : State) (c n : Nat) (r : Recv), c < 768 → n < 16 → ((s.core c).recvChan n).armed = some r → r.placed = true →
    (s.slot ⟨c, r.slot⟩).life ≠ .unbound →
    ((s.cycle c).toNat ≤ r.last.toNat → exec (.recvWindowExpire c n) s = .next s) ∧
    (r.last.toNat < (s.cycle c).toNat → Gives (.recvWindowExpire c n) s fun t => SameMemory s t ∧
      ((t.core c).recvChan n).armed = none ∧ ((t.core c).recvChan n).late = true ∧
      ∃ f : DueFault, (t.slot ⟨c, r.slot⟩).due = (s.slot ⟨c, r.slot⟩).due ++ [f] ∧ f.cause = 0x07 ∧ f.addr = r.dest ∧
        bits f.info 4 4 = 1))

/-- NOTE, WAITN, NAME and the arrival of notify bits and of a name walk (R235, R236, R252 to R254): once the accesses that
its release covers have performed, a NOTE to the own core sets its bits 2 P-cycles later, and one to another core joins the
send queue, or waits for room in it; WAITN whose test
passes clears the matched bits and writes them to its register 1 turn later, and otherwise waits; bits that arrive are
added, and end a wait they satisfy; NAME starts a walk on a miss, and the walk's entry enters the cache. -/
def Obligations.NotifiesComplete : Prop :=
  (∀ (s : State) (h : Hdr) (o : FmtA), s.me.guard h = true →
    let c := s.cur.core
    let reg := s.me.gr o.ra
    let n : BitVec 16 := reg.setWidth 16
    let res := s.resolveReg reg 19
    let name := s.resolveReg reg 16
    let mask : BitVec 16 := (s.me.gr o.rb).setWidth 16
    let k := bits reg 16 3
    let scp : BitVec 3 := o.imm.setWidth 3
    let covered := (s.me.accs.filter fun a => !a.isPerformed && (decide (2 ≤ scp.toNat) || a.name == s.ownName c)).map (·.id)
    let act : RelAct := .note n res.dst k mask scp (s.cycle c) s.me.pc
    let kept (t : State) : Prop := SameMemory s t ∧ OtherSlots s t
    let waits (ids : List Nat) (t : State) : Prop := kept t ∧
      t.me = { s.passed.me with pends := s.me.pends ++ [⟨ids, act⟩] } ∧ t.myCore.sendq = s.myCore.sendq ∧ t.agenda = s.agenda
    (∀ info, s.me.h = false → res.fault = some info → exec (.note h o) s = .next (s.faulted 0x0C reg info)) ∧
    (res = .hit c → mask ≠ 0 → covered = [] → Gives (.note h o) s fun t =>
      Scheduled (s.useName c n).passed t 2 2 (.notifyArrive c k mask)) ∧
    (∀ d, res = .hit d → mask = 0 → covered = [] → exec (.note h o) s = .next (s.useName c n).passed) ∧
    (res.fault = none → res ≠ .hit c → mask ≠ 0 → covered = [] → s.myCore.sendq.length < 16 → Gives (.note h o) s fun t =>
      kept t ∧ t.me = s.passed.me ∧ ∃ m : Msg, t.myCore.sendq = s.myCore.sendq ++ [m] ∧ m.isNotify = true ∧ m.name = n ∧
        m.tslot = k ∧ m.mask = mask ∧ m.scope = scp ∧ m.stamp = s.cycle c ∧ m.src = s.ownName c ∧ m.dst = res.dst ∧
        m.slot = s.cur.slot) ∧
    (res.fault = none → res ≠ .hit c → mask ≠ 0 → covered = [] → 16 ≤ s.myCore.sendq.length →
      Gives (.note h o) s (waits [])) ∧
    (res.fault = none → covered ≠ [] → Gives (.note h o) s (waits covered)) ∧
    (name ≠ .miss → exec (.namePre h o) s = .next s.passed) ∧
    (name = .miss → Gives (.namePre h o) s fun t => kept t ∧ t.me = s.passed.me ∧ t.myCore.walks = s.myCore.walks ++ [n])) ∧
  (∀ (s : State) (h : Hdr) (o : FmtA), s.me.guard h = true →
    let mask : BitVec 16 := o.imm.setWidth 16
    let got := s.me.notify &&& mask
    let passes : Prop := mask = 0 ∨ if o.fn = 1 then got = mask else got ≠ 0
    (passes → exec (.waitn h o) s = .next ((s.issued 1 [.g o.rd (got.setWidth 64)]).modMe fun sl =>
      { sl with notify := s.me.notify &&& ~~~mask })) ∧
    (¬passes → exec (.waitn h o) s = .next (s.setSlot s.cur
      { s.me with life := .waiting, wait := some (.waitn (o.fn == 1) mask o.rd), gate := .closed }))) ∧
  (∀ (s : State) (c k : Nat) (mask : BitVec 16), c < 768 → k < 8 →
    let r : SlotRef := ⟨c, k⟩
    let sl := s.slot r
    let all := sl.notify ||| mask
    let added : Prop := exec (.notifyArrive c k mask) s = .next (s.setSlot r { sl with notify := all })
    (sl.flights = [] ∨ s.turnToOpen r = false) →
    (sl.wait = none → added) ∧ (sl.life ≠ .waiting → added) ∧
    (∀ every want rd, sl.life = .waiting → sl.wait = some (.waitn every want rd) →
      let got := all &&& want
      ((if every then got = want else got ≠ 0) → exec (.notifyArrive c k mask) s = .next (s.setSlot r { sl.advance with
        life := .running, wait := none, gate := .fromCycle (s.now + 1), notify := all &&& ~~~got
        flights := sl.flights ++ [⟨sl.nextId, 0, s.now + 1, [.g rd (got.setWidth 64)]⟩], nextId := sl.nextId + 1 })) ∧
      (¬(if every then got = want else got ≠ 0) → added))) ∧
  (∀ (s : State) (c : Nat) (n : BitVec 16), c < 768 →
    let x := s.core c
    (n ∉ x.walks → exec (.nameWalkComplete c n.toNat) s = .next s) ∧
    (n ∈ x.walks → (∀ m ∈ x.sendq, m.name ≠ n) → (∀ g ∈ x.gives, g.st = .walking → g.name ≠ n) →
      (∀ p ∈ s.packets, p.src = c → p.dst = 769 → p.name ≠ n) →
      (∀ k, k < 8 → (∀ a ∈ (s.slot ⟨c, k⟩).accs, a.st = .walking → a.name ≠ n) ∧
        ∀ own vis perf ea rt pc, (s.slot ⟨c, k⟩).gate = .stalled ⟨own, vis, perf, .bqry ea rt pc none⟩ → eaName ea ≠ n) →
      Gives (.nameWalkComplete c n.toNat) s fun t => OnlyCore c s t ∧ SameSlots s t ∧
        (t.core c).ncache = ((n, s.walkEntry c n) :: x.ncache.filter fun p => p.1 != n).take 64 ∧
        (t.core c).walks = x.walks.erase n ∧ (t.core c).sendq = x.sendq ∧ (t.core c).gives = x.gives))

/-- Barriers and heartbeats (R232, R249 to R251, R305, R311, R385, R386): BAR.a sets the core's latch and arrives, once the accesses that
its group's scope covers have performed;
BAR.w waits while the latch is set; the last arrival of a group schedules the release of each of its cores within the
window and skew of the group's span, or, where the group spans several dies, tells the root on die 0, which announces a
tick at least 1,000 P-cycles later once every die has arrived; a release clears the latch, sets SYNCREF to CYCLE, counts the generation and ends the
waits on that id; a heartbeat tick counts in HBEAT, and ends the fences that wait for it. Model choices: log entries 2 and
22. -/
def Obligations.BarriersAndHeartbeats : Prop :=
  (∀ (s : State) (h : Hdr) (o : FmtA), s.me.guard h = true →
    let c := s.cur.core
    let k := bits o.imm 0 2
    let x := s.myCore
    let scp := groupScope (s.manyDies c k) (groupCores (s.recOf c) k c)
    let covered := (s.me.accs.filter fun a => !a.isPerformed && (decide (2 ≤ scp.toNat) || a.name == s.ownName c)).map (·.id)
    let set : State := s.setCore c { x with latch := x.latch ||| ((1 : BitVec 4) <<< k) }
    let latched : State :=
      if covered = [] then { set with agenda := s.agenda ++ [Due.ev (.barrierArrival c k)] }
      else set.setSlot s.cur { s.me with pends := s.me.pends ++ [⟨covered, .barrier k⟩] }
    let waiting (u : State) : State := u.setSlot u.cur { u.me with life := .waiting, wait := some (.bar k), gate := .closed }
    (x.latch.getLsbD k = false → exec (.barA h o) s = .next latched.passed ∧ exec (.barW h o) s = .next s.passed ∧
      exec (.barAw h o) s = .next (waiting latched)) ∧
    (x.latch.getLsbD k = true → exec (.barA h o) s = .next s.passed ∧ exec (.barW h o) s = .next (waiting s) ∧
      exec (.barAw h o) s = .next (waiting s))) ∧
  (∀ (s : State) (c k : Nat), c < 768 → k < 4 →
    let x := s.core c
    let group := groupCores (s.recOf c) k c
    let band := releaseBand group
    (x.arrived k = true → s.manyDies c k = false → x.task ≠ none → s.groupDone k group = true →
      Gives (.barrierArrival c k) s fun t => SameMemory s t ∧ t.cores = s.cores ∧
        ∀ d ∈ group, (s.core d).task ≠ none → (s.core d).retired = false →
          ∃ w, band.1 ≤ w ∧ w ≤ band.2.1 ∧ (s.now + w, Instr.barrierRelease d k) ∈ t.coming) ∧
    (∀ n, x.arrived k = true → s.manyDies c k = true → x.task = some n → s.groupDone k group = true →
      let asid := (s.groupOf n).1
      let image := (s.groupOf n).2
      let die := s.fw.die
      s.announced asid image k = false → Gives (.barrierArrival c k) s fun t => SameMemory s t ∧ t.cores = s.cores ∧
        ∃ b ∈ t.fe.bars, b.asid = asid ∧ b.image = image ∧ b.bar = k ∧ die ∈ b.dies ∧
          (die = 0 → (∀ d, d < 64 → (Tab.at s.fe.spaces asid Space.reset).dieset.getLsbD d = true → d ∈ b.dies) →
            ∃ tick, b.tick = some tick ∧ s.now + 1000 ≤ 2000 * tick)) ∧
    ((x.arrived k = false ∨ s.groupDone k group = false) → exec (.barrierArrival c k) s = .next s) ∧
    (Gives (.barrierRelease c k) s fun t => SameMemory s t ∧ (t.core c).syncref = s.cycle c ∧
      (∀ j, (t.core c).latch.getLsbD j = if j = k then false else x.latch.getLsbD j) ∧
      Tab.at (t.core c).gens k 0 = Tab.at x.gens k 0 + 1 ∧
      ∀ j, t.slot ⟨c, j⟩ = if (s.slot ⟨c, j⟩).life = .waiting ∧ (s.slot ⟨c, j⟩).wait = some (.bar k)
        then { (s.slot ⟨c, j⟩).advance with life := .running, wait := none, gate := .fromCycle (s.now + 1) }
        else s.slot ⟨c, j⟩)) ∧
  (∀ (s : State) (c : Nat), c < 768 →
    let x := s.core c
    let sent (p : Nat) : Nat := (s.now - 1 - x.skew) / p * p
    let ends (i : Instr) (e : Nat) (w : Option Nat → StallEnd) : Prop := Gives i s fun t => OnlyCore c s t ∧
      ∀ j own vis perf d, (s.slot ⟨c, j⟩).gate = .stalled ⟨own, vis, perf, w (some d)⟩ → t.slot ⟨c, j⟩ =
        if d < e then { s.slot ⟨c, j⟩ with gate := .fromCycle (s.now + 1) } else s.slot ⟨c, j⟩
    Gives (.deviceHeartbeat c) s (fun t => (t.core c).hbeat = x.hbeat + 1 ∧ (t.core c).bmap = x.bmap) ∧
    ends (.deviceHeartbeat c) (sent 64) .device ∧
    ends (.panelHeartbeat c) (if s.fw.die = 0 then sent 2000 else s.now - 1 - x.skew) .panel)

/-! ### The graph unit and the copy engine (R315 to R338) -/

/-- The graph instructions (R318, R333 to R338): GNODE, CPY and QNT arm the lowest
FREE node from the descriptor at G(RA), which they read as a load of the slot (behind its earlier AMOs to it); the node launches when it has no predecessor and ends with BADDESC when it is
rejected; GDEP records an edge, or acts at once on a predecessor that is done; GWAIT ends on nodes that are DONE, which
become FREE, and waits for others; GPOLL and GSTAT give their values 4 turns after issue; GKILL ends a node that has not
begun. Model choices: log entry 22. -/
def Obligations.GraphInstructionsComplete : Prop :=
  (∀ (s : State) (h : Hdr) (o : FmtA) (n : Nat), s.me.guard h = true →
    let c := s.cur.core
    let x := s.myCore
    let a := s.me.gr o.ra
    let open_ (k : AccKind) (len : Nat) : Prop :=
      ∃ e ∈ s.me.accs, e.kind = k ∧ e.isPerformed = false ∧ e.overlaps (s.sourceAccess a len) = true
    let kept (t : State) : Prop := SameMemory s t ∧ OtherSlots s t ∧
      t.me = (s.issued 4 [.g o.rd (BitVec.ofNat 64 n)]).me ∧ ∀ m, m ≠ n → t.myCore.node m = x.node m
    let ended (t : State) (code detail : BitVec 8) : Prop := kept t ∧ (t.myCore.node n).st = .armed ∧
      (t.myCore.node n).ending = true ∧ (t.myCore.node n).status = code ∧ (t.myCore.node n).detail = detail ∧
      Due.ev (.nodeComplete c n) ∈ t.agenda
    let found (al len : Nat) : Prop := a.toNat % al = 0 ∧ rangeFault x a len = none ∧ x.freeNode = some n
    let ready (al len : Nat) : Prop := found al len ∧ ¬open_ .amo al ∧ ¬open_ .store al
    let d : NodeDesc := BitVec.ofNat 256 (leNat (s.winBytes c a 32))
    let u : Transfer := BitVec.ofNat 512 (leNat (s.winBytes c a 64))
    let clean (len : Nat) : Prop := s.hasErr (x.winKey a) len = false
    let copies (i : Instr) (kind ch : Nat) : Prop := Gives i s fun t => kept t ∧ (t.myCore.node n).st = .running ∧
      (t.myCore.node n).kind = BitVec.ofNat 8 kind ∧ (t.myCore.node n).chan = ch ∧ (t.myCore.node n).comp = a + 64 ∧
      (t.myCore.node n).td = some u ∧ t.myCore.engine ch = x.engine ch ++ [n]
    (ready 32 32 → clean 32 → d.defect x = none → bits (d.dw 0) 8 8 ≠ 0 → Gives (.gnode h o) s fun t => kept t ∧
      (t.myCore.node n).st = .armed ∧ (t.myCore.node n).pred = bits (d.dw 0) 8 8 ∧
      (t.myCore.node n).kind = BitVec.ofNat 8 d.kind ∧ (t.myCore.node n).succ = d.succs ∧
      (t.myCore.node n).comp = d.dw 1 ∧ (t.myCore.node n).arg0 = d.dw 2 ∧ (t.myCore.node n).arg1 = d.dw 3 ∧
      (t.myCore.node n).owner = s.cur.slot) ∧
    (ready 32 32 → clean 32 → d.defect x = none → bits (d.dw 0) 8 8 = 0 →
      Gives (.gnode h o) s fun t => kept t ∧ (t.myCore.node n).st = .running) ∧
    (∀ k, ready 32 32 → clean 32 → d.defect x = some k → Gives (.gnode h o) s fun t => ended t 0xF6 (BitVec.ofNat 8 k)) ∧
    (ready 64 72 → clean 64 →
      (u.defect 1 = none → copies (.cpy h o) 1 (if o.fn = 1 then 1 else 0)) ∧
      (∀ k, u.defect 1 = some k → Gives (.cpy h o) s fun t => ended t 0xF6 (BitVec.ofNat 8 (128 + k))) ∧
      (u.defect 2 = none → u.dft = 9 → copies (.qntE8l h o) 2 1) ∧
      (u.defect 2 = none → u.dft = 5 → copies (.qntFq4 h o) 2 1) ∧
      (u.defect 2 = none → u.dft ≠ 9 → Gives (.qntE8l h o) s fun t => ended t 0xF6 0x85) ∧
      (u.defect 2 = none → u.dft ≠ 5 → Gives (.qntFq4 h o) s fun t => ended t 0xF6 0x85) ∧
      (∀ k, u.defect 2 = some k →
        (u.dft = 9 → Gives (.qntE8l h o) s fun t => ended t 0xF6 (BitVec.ofNat 8 (128 + k))) ∧
        (u.dft = 5 → Gives (.qntFq4 h o) s fun t => ended t 0xF6 (BitVec.ofNat 8 (128 + k))))) ∧
    (found 32 32 → open_ .amo 32 → exec (.gnode h o) s = .next (s.setSlot s.cur { s.me with gate := .offer })) ∧
    (found 64 72 → open_ .amo 64 → ∀ i ∈ [Instr.cpy h o, .qntE8l h o, .qntFq4 h o],
      exec i s = .next (s.setSlot s.cur { s.me with gate := .offer })) ∧
    (s.me.h = false → a.toNat % 32 ≠ 0 → exec (.gnode h o) s = .next (s.faulted 0x08 a 0)) ∧
    (s.me.h = false → a.toNat % 64 ≠ 0 → exec (.cpy h o) s = .next (s.faulted 0x08 a 0)) ∧
    (s.me.h = false → a.toNat % 32 = 0 → rangeFault x a 32 = none → x.freeNode = none →
      exec (.gnode h o) s = .next (s.faulted 0x0F 0 0x02000000))) ∧
  (∀ (s : State) (h : Hdr) (o : FmtA), s.me.guard h = true →
    let c := s.cur.core
    let x := s.myCore
    let a := (s.me.gr o.ra).toNat
    let b := (s.me.gr o.rb).toNat
    let na := x.node a
    let live : Prop := na.st = .armed ∨ na.st = .running
    let edge (kind n : Nat) : Host.Outcome State Fault Refusal := .next (s.faulted 0x0F 0 (BitVec.ofNat 64 (kind * 2 ^ 24 + n)))
    let good : Prop := (na.st = .done ∧ na.status = 0) ∨ (na.st = .free ∧ na.freedBy = some 0)
    let freed : State := s.setCore c (x.modNode a fun d => { d with st := .free, freedBy := none })
    let kept (t : State) : Prop := SameMemory s t ∧ OtherSlots s t ∧ t.me = s.passed.me
    (s.me.h = false → (64 ≤ a ∨ 64 ≤ b) → exec (.gdep h o) s = edge 1 0) ∧
    (s.me.h = false → 64 ≤ a → exec (.gwait h o) s = edge 1 0 ∧ exec (.gpoll h o) s = edge 1 0 ∧ exec (.gkill h o) s = edge 1 0) ∧
    (a < 64 → b < 64 →
      (s.me.h = false → na.st = .free → na.freedBy = none → exec (.gdep h o) s = edge 1 a) ∧
      (s.me.h = false → (live ∨ na.st = .done) → a = b → exec (.gdep h o) s = edge 3 a) ∧
      (s.me.h = false → live → a ≠ b → 4 ≤ na.succ.length → exec (.gdep h o) s = edge 3 a) ∧
      (s.me.h = false → live → a ≠ b → na.succ.length < 4 → (x.node b).st ≠ .armed → exec (.gdep h o) s = edge 3 b) ∧
      (live → a ≠ b → na.succ.length < 4 → (x.node b).st = .armed → exec (.gdep h o) s = .next
        (s.setCore c (x.modNode a fun d => { d with succ := d.succ ++ [b] })).passed) ∧
      (good → a ≠ b → (x.node b).st = .armed → (x.node b).ending = false → Gives (.gdep h o) s fun t => kept t ∧
        (t.myCore.node b).pred = (x.node b).pred - 1 ∧
        (t.myCore.node b).st = if (x.node b).pred ≤ 1 then .running else .armed) ∧
      (na.st = .done → na.status ≠ 0 → a ≠ b → (x.node b).st = .armed → (x.node b).ending = false →
        Gives (.gdep h o) s fun t => kept t ∧ (t.myCore.node b).ending = true ∧ (t.myCore.node b).status = 0xF5 ∧
          (t.myCore.node b).detail = BitVec.ofNat 8 a ∧ Due.ev (.nodeComplete c b) ∈ t.agenda)) ∧
    (a < 64 →
      (s.me.h = false → na.st = .free → exec (.gwait h o) s = edge 1 a) ∧
      (na.st = .done → na.status = 0 → exec (.gwait h o) s = .next freed.passed) ∧
      (na.st = .done → na.status ≠ 0 → s.me.h = false → exec (.gwait h o) s = .next (freed.faulted 0x0F 0
        (BitVec.ofNat 64 (na.detail.toNat * 2 ^ 16 + na.status.toNat * 2 ^ 8 + a)))) ∧
      (live → exec (.gwait h o) s = .next (s.setSlot s.cur
        { s.me with life := .waiting, wait := some (.gwait [a] [] none), gate := .closed })) ∧
      (na.st = .done → exec (.gpoll h o) s = .next (freed.issued 4 [.g o.rd (BitVec.ofNat 64
        (na.seq.toNat * 2 ^ 32 + 3 * 2 ^ 30 + na.flags.toNat * 2 ^ 16 + na.detail.toNat * 2 ^ 8 + na.status.toNat))])) ∧
      (na.st ≠ .done → exec (.gpoll h o) s = .next (s.issued 4 [.g o.rd (BitVec.ofNat 64
        ((if na.st = .armed then na.pred else 0) * 2 ^ 32 + na.st.num * 2 ^ 30))])) ∧
      ((na.st = .free ∨ na.st = .done) → na.ending = false → exec (.gkill h o) s = .next s.passed) ∧
      (na.st = .armed → na.ending = false → Gives (.gkill h o) s fun t => kept t ∧ (t.myCore.node a).ending = true ∧
        (t.myCore.node a).status = 0xF1 ∧ Due.ev (.nodeComplete c a) ∈ t.agenda) ∧
      (na.st = .running → na.ending = false → (na.kind = 6 ∨ na.kind = 7) → exec (.gkill h o) s = .next s.passed)) ∧
    ((∀ k, k < 64 → (x.node k).owner = s.cur.slot → (x.node k).st = .free) → exec (.gwaitAll h o) s = .next s.passed) ∧
    ((∃ k, k < 64 ∧ (x.node k).owner = s.cur.slot ∧ ((x.node k).st = .armed ∨ (x.node k).st = .running)) →
      Gives (.gwaitAll h o) s fun t => OnlySlot s.cur s t ∧ t.me.life = .waiting ∧ ∃ left seen fail,
        t.me.wait = some (.gwait left seen fail) ∧ ∀ k, k ∈ left ↔
          k < 64 ∧ (x.node k).owner = s.cur.slot ∧ ((x.node k).st = .armed ∨ (x.node k).st = .running)) ∧
    exec (.gstatFree h o) s = .next (s.issued 4
      [.g o.rd (BitVec.ofNat 64 ((List.range 64).filter fun k => (x.node k).st == .free).length)]) ∧
    exec (.gstatDone h o) s = .next (s.issued 4
      [.g o.rd (BitVec.ofNat 64 ((List.range 64).filter fun k => (x.node k).st == .done).length)]))

/-- The work of nodes and their completion (R319, R320, R323 to R330, R336): a node whose work has ended writes its
completion object, if its entry takes it, is DONE or FREE under AUTOFREE and takes the next sequence number; in the next
P-cycle its notify bit is set and each successor's count goes down, or the successor is cancelled, and a GWAIT that waits
for it ends; FILL stores ARG1 and COPY of bits what it reads; a WAKE node sets its bits as NOTE does, a REMOTE node sends
a release, which counts down an ARMED node and is acknowledged; a GIVE of an entry that holds no bank is refused. Model
choices: log entries 21 and 22. -/
def Obligations.GraphWorkCompletes : Prop :=
  (∀ (s : State) (c n : Nat), c < 768 →
    let x := s.core c
    let nd := x.node n
    nd.ending = true → nd.endAt ≤ s.now → (nd.st = .armed ∨ nd.st = .running) → x.fins = [] →
    let writes : Prop := nd.comp ≠ 0 ∧ isLocal nd.comp = true ∧ nd.comp.toNat % 8 = 0 ∧ bmV (x.bm (eaEntry nd.comp)) = true ∧ bmPend (x.bm (eaEntry nd.comp)) = false ∧
      bmWp (x.bm (eaEntry nd.comp)) = false
    Gives (.nodeComplete c n) s fun t => SameSlots s t ∧
      ((t.core c).node n).st = (if nd.autofree then .free else .done) ∧ ((t.core c).node n).seq = x.cseq ∧
      ((t.core c).node n).status = nd.status ∧ (t.core c).cseq = (if x.cseq + 1 = 0 then 1 else x.cseq + 1) ∧
      (s.now + 1, Instr.nodeComplete c n) ∈ t.coming ∧ (¬writes → SameMemory s t) ∧
      (writes → t.mem = memWriteAll s.mem (x.winKey nd.comp) (leBytes 8 (BitVec.ofNat 64 (x.cseq.toNat * 2 ^ 32 +
        n % 64 * 2 ^ 24 + nd.flags.toNat * 2 ^ 16 + nd.detail.toNat * 2 ^ 8 + nd.status.toNat)).toNat))) ∧
  (∀ (s : State) (c n m : Nat) (f : NodeFin), c < 768 →
    let x := s.core c
    x.fins = [f] → f.node = n → f.due ≤ s.now → f.deliver = none → (x.node n).ending = false → m ≠ n →
    (x.node m).st = .armed → (x.node m).ending = false →
    (f.ntv = none → f.succ = [m] → (∀ k, (s.slot ⟨c, k⟩).wait = none) → f.status = 0 → Gives (.nodeComplete c n) s fun t =>
      SameMemory s t ∧ SameSlots s t ∧ ((t.core c).node m).pred = (x.node m).pred - 1 ∧
      ((t.core c).node m).st = (if (x.node m).pred ≤ 1 then .running else .armed)) ∧
    (f.ntv = none → f.succ = [m] → (∀ k, (s.slot ⟨c, k⟩).wait = none) → f.status ≠ 0 → Gives (.nodeComplete c n) s fun t =>
      SameMemory s t ∧ SameSlots s t ∧ ((t.core c).node m).ending = true ∧ ((t.core c).node m).status = 0xF5 ∧
      ((t.core c).node m).detail = BitVec.ofNat 8 n) ∧
    (∀ k b, f.ntv = some (k, b) → f.succ = [] → (∀ j, (s.slot ⟨c, j⟩).wait = none) → (s.slot ⟨c, k⟩).flights = [] →
      Gives (.nodeComplete c n) s fun t => SameMemory s t ∧ (∀ q, q ≠ ⟨c, k⟩ → t.slot q = s.slot q) ∧ t.slot ⟨c, k⟩ =
        { s.slot ⟨c, k⟩ with notify := (s.slot ⟨c, k⟩).notify ||| ((1 : BitVec 16) <<< b) }) ∧
    (∀ k, k < 8 → f.ntv = none → f.succ = [] → (s.slot ⟨c, k⟩).wait = some (.gwait [n] [] none) →
      (s.slot ⟨c, k⟩).life = .waiting → (∀ j, j ≠ k → (s.slot ⟨c, j⟩).wait = none) → (x.node n).st = .done → f.status = 0 → Gives (.nodeComplete c n) s fun t =>
      SameMemory s t ∧ ((t.core c).node n).st = .free ∧ (∀ j, j ≠ k → t.slot ⟨c, j⟩ = s.slot ⟨c, j⟩) ∧ t.slot ⟨c, k⟩ =
        { (s.slot ⟨c, k⟩).advance with life := .running, wait := none, gate := .fromCycle (s.now + 1) })) ∧
  (∀ (s : State) (c n ch : Nat) (u : Transfer), c < 768 → ch < 2 →
    let x := s.core c
    let nd := x.node n
    x.engine ch = [n] → nd.st = .running → nd.ending = false →
    (nd.killed = true → nd.td = some u → Gives (.copySegment c ch) s fun t => SameMemory s t ∧ SameSlots s t ∧
      ((t.core c).node n).ending = true ∧ ((t.core c).node n).status = 0xF1) ∧
    (nd.killed = false → nd.needs = [] → nd.walk = none → nd.td = some u → nd.pos = 0 → nd.keepAll = false →
      u.cnt0 = 1 → u.cnt1 = 1 → u.cnt2 = 1 → u.sft = 15 → u.dft = 15 → u.dsp = .loc → s.memErr = [] →
      let key (i : Nat) : Nat := x.winKey (u.dw 1 + BitVec.ofNat 64 i)
      (∀ i, i < 4 → isLocal (u.dw 1 + BitVec.ofNat 64 i) = true ∧
        entryRefuses (x.bm (eaEntry (u.dw 1 + BitVec.ofNat 64 i))) true = none) →
      let stores (bs : List Byte) : Prop := Gives (.copySegment c ch) s fun t => SameSlots s t ∧
        t.mem = ((List.range 4).map key |>.zip bs).foldl (fun m p => memWrite m p.1 p.2) s.mem ∧
        ((t.core c).node n).ending = true ∧ ((t.core c).node n).status = 0 ∧ (t.core c).issued = x.issued + 1
      (nd.kind = 3 → (∀ i, i < 4 → key i / 64 = key 0 / 64) → stores (leBytes 4 nd.arg1.toNat)) ∧
      (nd.kind = 1 → (∀ i, i < 4 → key i / 64 = key 0 / 64) → u.ssp = .loc → s.mayOverlap c u = false →
        (∀ i, i < 4 → isLocal (u.dw 0 + BitVec.ofNat 64 i) = true ∧
          entryRefuses (x.bm (eaEntry (u.dw 0 + BitVec.ofNat 64 i))) false = none) →
        stores ((List.range 4).map fun i => s.byte (x.winKey (u.dw 0 + BitVec.ofNat 64 i)))))) ∧
  (∀ (s : State) (c n : Nat), c < 768 →
    let x := s.core c
    let nd := x.node n
    x.guq = [n] → nd.st = .running → nd.ending = false → nd.needs = [] → nd.killed = false →
    let name : BitVec 16 := nd.arg0.setWidth 16
    let mask : BitVec 16 := nd.arg0.extractLsb' 32 16
    let same (t : State) : Prop := SameMemory s t ∧ SameSlots s t ∧ (t.core c).guq = []
    (nd.kind = 6 → s.resolve c name = .hit c → mask ≠ 0 → Gives (.graphUnitRun c) s fun t => same t ∧
      (s.now + 2, Instr.notifyArrive c (bits nd.arg0 16 3) mask) ∈ t.coming ∧ ((t.core c).node n).ending = true ∧
      ((t.core c).node n).endAt = s.now + 2 ∧ ((t.core c).node n).status = 0) ∧
    (∀ dst, nd.kind = 7 → s.resolve c name = .hit dst → dst < 768 → Gives (.graphUnitRun c) s fun t => same t ∧
      ∃ p : Packet, t.packets = s.packets ++ [p] ∧ p.src = c ∧ p.dst = dst ∧ p.cargo = .release (bits nd.arg0 16 6) n false ∧
        ∃ d, s.latency c dst 1 ≤ d ∧ (s.now + d, Instr.remoteRelease p.id) ∈ t.coming) ∧
    (nd.kind = 5 → (s.resolve c (nd.arg0.extractLsb' 16 16)).fault = none → bmV (x.bm (bits nd.arg0 0 4)) = false →
      Gives (.graphUnitRun c) s fun t => same t ∧ ((t.core c).node n).ending = true ∧
        ((t.core c).node n).status = 0xF4 ∧ ((t.core c).node n).detail = 5)) ∧
  (∀ (s : State) (p : Packet) (m k : Nat) (ok : Bool), s.packets = [p] → p.src < 768 → p.dst < 768 →
    p.cargo = .release m k ok →
    (p.performed = true → p.slot ≠ 15 → ((s.core p.src).node k).st ≠ .free → Gives (.remoteRelease p.id) s fun t => SameMemory s t ∧ SameSlots s t ∧ t.packets = [] ∧
      ((t.core p.src).node k).ending = true ∧ ((t.core p.src).node k).status = (if ok then 0 else 0xF4) ∧
      ((t.core p.src).node k).detail = if ok then 0 else 1) ∧
    (p.performed = false → p.seq = Tab.at (s.core p.dst).seqFrom p.src 0 → (s.core p.dst).reorder = [] →
      let nd := (s.core p.dst).node m
      nd.st = .armed → nd.ending = false → Gives (.remoteRelease p.id) s fun t => SameMemory s t ∧ SameSlots s t ∧
        ((t.core p.dst).node m).pred = nd.pred - 1 ∧
        ((t.core p.dst).node m).st = (if nd.pred ≤ 1 then .running else .armed) ∧
        t.packets = [{ p with performed := true, cargo := .release m k true }] ∧
        ∃ d, s.latency p.dst p.src 1 ≤ d ∧ (s.now + d, Instr.remoteRelease p.id) ∈ t.coming))

/-! ### Faults that fall due, and the mesh (R279, R284, R313, R343, R351, R354) -/

/-- The events of slots and of the mesh: a deferred fault that is due is taken with DEF = 1 (the 0x0B of a later beat with DEF
= 0: log entry 32), in a handler as a double fault, or only recorded where the
slot has stopped; the budget deadline takes 0x06; a request that reaches its target performs there, a `.q` one in two
halves, or is refused, and is answered; the answer reaches its slot; a packet is sent again over the routes in force; where no path is left the NI gives
it up and its agent takes 0x3A; a transfer whose data have arrived is counted in DONE. Model choices: log entry 22. -/
def Obligations.SlotAndMeshEvents : Prop :=
  (∀ (s : State) (r : SlotRef), r.core < 768 → r.slot < 8 →
    let sl := s.slot r
    let on : Prop := sl.life = .running ∨ sl.life = .waiting
    let recorded (u : State) (epc : BitVec 14) (fc : BitVec 9) (addr info : Word) : State := { u with
      fe := { u.fe with records := u.fe.records ++ [(r.core, r.slot, epc.setWidth 64, fc.setWidth 64, addr, info)] } }
    (∀ id, sl.due.find? (fun g => g.id == id) = none → exec (.deferredFault r.core r.slot id) s = .next s) ∧
    (∀ f, sl.due.find? (fun g => g.id == f.id) = some f →
      let dfr := f.cause != 0x0B
      let epc := f.own.getD sl.pc
      let bare := { sl with due := dropFirst (fun g => g.id == f.id) sl.due }
      let base : State := if f.cause = 0x39 ∧ isLocal f.addr = true then
        s.countError (unitBank (bmIndex ((s.core r.core).bm (eaEntry f.addr)))) else s
      let twice : Slot := { bare with
        finfo := (epc.setWidth 64 <<< 16) ||| f.cause.setWidth 64, fcause := 0x22
        life := .faulted, gate := .closed, wait := none, hold := false, oneStep := false }
      (on → sl.h = false → sl.fhen.getLsbD f.cause.toNat = true → exec (.deferredFault r.core r.slot f.id) s =
        .next (base.setSlot r (bare.inHandler dfr f.cause epc f.addr f.info))) ∧
      (on → sl.h = false → sl.fhen.getLsbD f.cause.toNat = false → exec (.deferredFault r.core r.slot f.id) s =
        .next (recorded (base.setSlot r (bare.leftFaulted dfr f.cause epc f.addr f.info)) epc (BitVec.ofBool dfr ++ f.cause) f.addr
          f.info)) ∧
      (on → sl.h = true → exec (.deferredFault r.core r.slot f.id) s =
        .next (recorded (base.setSlot r twice) sl.epc 0x22 sl.faddr twice.finfo)) ∧
      (¬on → exec (.deferredFault r.core r.slot f.id) s =
        .next (recorded (base.setSlot r bare) epc (1#1 ++ f.cause) f.addr f.info))) ∧
    (sl.budgetDue = true → ¬on → exec (.budgetDeadline r.core r.slot) s =
      .next (s.setSlot r { sl with budgetDue := false, hold := false })) ∧
    (sl.budgetDue = true → on → sl.h = false →
      let bare := { sl with budgetDue := false, hold := false }
      let info := sl.reload.setWidth 64
      (sl.fhen.getLsbD 6 = true → exec (.budgetDeadline r.core r.slot) s =
        .next (s.setSlot r (bare.inHandler false 6 sl.pc 0 info))) ∧
      (sl.fhen.getLsbD 6 = false → exec (.budgetDeadline r.core r.slot) s =
        .next (recorded (s.setSlot r (bare.leftFaulted false 6 sl.pc 0 info)) sl.pc (0#1 ++ 6#8) 0 info))) ∧
    (sl.budgetDue = false → exec (.budgetDeadline r.core r.slot) s = .next s)) ∧
  (∀ (s : State) (p : Packet) (a : Access),
    let r : SlotRef := ⟨p.src, p.slot⟩
    let sl := s.slot r
    s.packets = [p] → p.src < 768 → p.slot ≠ 15 → p.cargo = .access a → sl.accs = [a] → a.st = .sent → sl.pends = [] →
    (∀ st, sl.gate ≠ .stalled st) →
    let left (t : State) (b : Access) : Prop := t.packets = [{ p with performed := true, cargo := .access b }] ∧
      ∃ d, s.responseLeg p.src p.dst a.kind ≤ d ∧ (s.now + d, Instr.globalResponseArrive p.id) ∈ t.coming
    (p.dst < 768 → p.performed = false → p.answered = false → (s.core p.dst).reorder = [] → (s.core p.dst).gives = [] →
      (a.kind ≠ .load → p.seq = Tab.at (s.core p.dst).seqFrom p.src 0) →
      let w := (s.core p.dst).bm (eaEntry a.ea)
      let key := (s.core p.dst).winKey a.ea
      (a.size ≠ 16 → a.kind = .load → bmV w = true → s.hasErr key a.size = false →
        let b := { a with st := .performed, val := BitVec.ofNat 128 (leNat (s.bytes key a.size)) }
        Gives (.globalRequestArrive p.id) s fun t => SameMemory s t ∧ left t b ∧ (t.slot r).accs = [b]) ∧
      (a.size ≠ 16 → a.kind = .store → bmV w = true → bmWp w = false →
        let b := { a with st := .performed }
        Gives (.globalRequestArrive p.id) s fun t => t.mem = memWriteAll s.mem key (leBytes a.size a.data.toNat) ∧
          left t b ∧ (t.slot r).accs = [b]) ∧
      (a.size ≠ 16 → a.kind = .amo → bmV w = true → bmWp w = false → s.hasErr key a.size = false →
        let m := leNat (s.bytes key a.size)
        let lim := 2 ^ (8 * a.size)
        let b := { a with st := .performed, val := BitVec.ofNat 128 m }
        Gives (.globalRequestArrive p.id) s fun t => left t b ∧ (t.slot r).accs = [b] ∧ t.mem = memWriteAll s.mem key
          (leBytes a.size (amoValue a.op a.size m (a.data.toNat % lim) (a.cmp.toNat % lim)))) ∧
      (a.size = 16 → a.ea.toNat % 16 = 0 → a.st = .sent → bmV w = true → s.hasErr key 16 = false →
        (s.extra = [] → a.kind = .load → Gives (.globalRequestArrive p.id) s fun t => SameMemory s t ∧
          left t { a with st := .performed, val := BitVec.ofNat 128 (leNat (s.bytes key 16)) }) ∧
        (s.extra = [] → a.kind = .store → bmWp w = false → Gives (.globalRequestArrive p.id) s fun t =>
          t.mem = memWriteAll s.mem key (leBytes 16 a.data.toNat) ∧ ∃ b, left t b ∧ b.st = .performed) ∧
        (∀ e more, s.extra = e :: more → e ≠ 0 → a.kind = .load → Gives (.globalRequestArrive p.id) s fun t => SameMemory s t ∧
          t.packets = [{ p with cargo := .access { a with
            st := .half, val := BitVec.ofNat 128 (leNat (s.bytes key 8)) } }] ∧
          (s.now + e, Instr.globalRequestArrive p.id) ∈ t.coming)) ∧
      ((bmV w = false ∨ (a.kind ≠ .load ∧ bmWp w = true)) → Gives (.globalRequestArrive p.id) s fun t => SameMemory s t ∧
        (t.slot r).accs = [a] ∧ ∃ info, left t { a with st := .refused info })) ∧
    (p.dst < 768 → s.cutOff p.src p.dst = false → Gives (.packetRetransmit p.id) s fun t =>
      ∃ hi, Scheduled s t (s.requestLeg p.src p.dst) hi (.globalRequestArrive p.id)) ∧
    (p.dst < 768 → s.cutOff p.src p.dst = true → exec (.packetRetransmit p.id) s = .next s ∧
      (a.ended = false → a.kind ≠ .store → sl.life ≠ .unbound → Gives (.niGiveUp p.id) s fun t => SameMemory s t ∧
        t.packets = [] ∧ (t.slot r).accs = [{ a with st := .givenUp }] ∧ ∃ f : DueFault, (t.slot r).due = sl.due ++ [f] ∧
          f.cause = 0x3A ∧ f.own = none ∧ f.addr = a.ea ∧
          f.info = BitVec.ofNat 64 (p.name.toNat * 2 ^ 48 + if a.kind = .load then 0 else 2))) ∧
    (p.dst < 768 → s.cutOff p.src p.dst = false → exec (.niGiveUp p.id) s = .next s)) ∧
  (∀ (s : State) (p : Packet) (a b : Access),
    let r : SlotRef := ⟨p.src, p.slot⟩
    let sl := s.slot r
    s.packets = [p] → p.src < 768 → p.slot ≠ 15 → p.cargo = .access b → p.performed = true → sl.accs = [a] → a.id = b.id → a.st = .performed →
    sl.pends = [] → (∀ st, sl.gate ≠ .stalled st) → sl.life ≠ .unbound →
    let gone (t : State) : Prop := SameMemory s t ∧ t.packets = []
    (b.st = .performed → a.kind ≠ .store → a.ended = false → Gives (.globalResponseArrive p.id) s fun t => gone t ∧
      (t.slot r).accs = [{ a with st := .arrived, arrive := s.now, val := b.val }]) ∧
    (b.st = .performed → a.kind = .store → Gives (.globalResponseArrive p.id) s fun t => gone t ∧ (t.slot r).accs = []) ∧
    (∀ info, b.st = .refused info → a.kind ≠ .store → a.ended = false → Gives (.globalResponseArrive p.id) s fun t =>
      gone t ∧ (t.slot r).accs = [{ a with st := .refused info }]) ∧
    (∀ info, b.st = .refused info → a.kind = .store → Gives (.globalResponseArrive p.id) s fun t => gone t ∧
      (t.slot r).accs = [] ∧ ∃ f : DueFault, (t.slot r).due = sl.due ++ [f] ∧ f.cause = 0x0A ∧ f.own = some a.pc ∧ f.addr = a.ea)) ∧
  (∀ (s : State) (c : Nat), c < 768 → (∀ k st, (s.slot ⟨c, k⟩).gate ≠ .stalled st) →
    ((s.core c).done ≠ (s.core c).issued →
      exec (.bulkTransferDone c) s = .next (s.setCore c { s.core c with done := (s.core c).done + 1 })) ∧
    ((s.core c).done = (s.core c).issued → exec (.bulkTransferDone c) s = .next s))

/-! ### Translation, moved pages, names and cores that go (R234, R292 to R296, R352) -/

/-- Walks, extents, invalidations, the migration engine, the invalidation of a name and the retirement of a core: a walk
of routine 0 goes through three levels; its end sets A, and D on a write, gives a node its TLB entry or the status 0x18 or
0x19, and an AG its extent or its failure; a service thread installs the extent; an invalidation drops the translations of
its range and clears V in overlapping extents; a move sets MV and clears W, then copies the page and names it, once no held write goes by the old translation; a name
leaves the caches of its task; a retired core, once its vector beats have run (R128), holds no slot and no bank, its slots are recorded with 0x38, and its name
reads as retired. Model choices: log entries 9, 11 and 27. -/
def Obligations.TranslationAndRetirement : Prop :=
  (∀ (s : State) (root : Nat) (va w1 w2 w3 : Word), bits va 52 12 = 0 →
    let pointer (w : Word) : Prop := w.getLsbD 0 = true ∧ bits w 52 6 = 0 ∧ bits w 8 8 = 0 ∧ w.getLsbD 6 = false ∧
      bits w 16 28 * 65536 < 384 * 2 ^ 30
    let table (w : Word) : Nat := s.fw.die * 2 ^ 46 + bits w 16 28 * 65536
    s.pteAt (root + 8 * bits va 40 12) = w1 → pointer w1 → s.pteAt (table w1 + 8 * bits va 28 12) = w2 → pointer w2 →
    s.pteAt (table w2 + 8 * bits va 16 12) = w3 → w3.getLsbD 0 = true → bits w3 52 4 = 0 → bits w3 8 8 = 0 → bits w3 56 2 ≠ 3 →
    s.findLeaf root va = some ⟨table w2 + 8 * bits va 16 12, w3, 16⟩) ∧
  (∀ (s : State) (w : Walk), s.fe.walks = [w] → (s.space w.asid).routine = 0 →
    let leaf := s.findLeaf (s.space w.asid).root.toNat w.va
    let allowed (l : Leaf) : Bool := l.pte.getLsbD (if w.write then 3 else 2)
    let touched (l : Leaf) : List Host.Cell :=
      memWriteAll s.mem (dpaKey l.place) (leBytes 8 (l.pte ||| if w.write then 0x30 else 0x10).toNat)
    let found (l : Leaf) (d : Nat) : Prop := leaf = some l ∧ d = s.pageDpa l.pte ∧
      (w.write = true → l.pte.getLsbD 1 = false)
    (∀ l, leaf = some l → w.write = true → l.pte.getLsbD 1 = true →
      (∀ c n, w.who = .node c n → ((s.core c).node n).walk.isSome = true) →
      (∀ c n, w.who = .ag c n → ((s.core c).ag n).walk.isSome = true) → Gives (.walkComplete w.id) s fun t =>
      ∃ hi, Scheduled s t 1 hi (.walkComplete w.id)) ∧
    (∀ c n, w.who = .node c n → ((s.core c).node n).walk.isSome = true → ((s.core c).node n).st ≠ .free →
      let nd (t : State) : Node := (t.core c).node n
      let failed (t : State) (code : BitVec 8) : Prop := SameMemory s t ∧ SameSlots s t ∧ t.fe.walks = [] ∧
        (nd t).walk = none ∧ (nd t).vaFail = w.va ∧ (nd t).ending = true ∧ (nd t).status = code
      (∀ l d, found l d → allowed l = true → Gives (.walkComplete w.id) s fun t => t.mem = touched l ∧ SameSlots s t ∧
        t.fe.walks = [] ∧ (nd t).walk = none ∧ (t.core c).tlb.head? = some ⟨w.asid,
          w64 (w.va.toNat / 2 ^ l.log2 * 2 ^ l.log2), l.log2, w64 d, l.pte.getLsbD 2, l.pte.getLsbD 3 && w.write⟩) ∧
      (∀ l d, found l d → allowed l = false → Gives (.walkComplete w.id) s fun t => failed t 0x19) ∧
      (leaf = none → Gives (.walkComplete w.id) s fun t => failed t 0x18)) ∧
    (∀ c n, w.who = .ag c n → ((s.core c).ag n).walk.isSome = true →
      let ag (t : State) : AG := (t.core c).ag n
      (∀ l d, found l d → allowed l = true → Gives (.walkComplete w.id) s fun t => t.mem = touched l ∧ SameSlots s t ∧
        t.fe.walks = [] ∧ (ag t).got = some (extentFor w.va d l.log2) ∧
        ∃ k, 1 ≤ k ∧ (s.now + k, Instr.extentInstall c n) ∈ t.coming) ∧
      ((leaf = none ∨ ∃ l d, found l d ∧ allowed l = false) → Gives (.walkComplete w.id) s fun t => SameMemory s t ∧
        SameSlots s t ∧ t.fe.walks = [] ∧ (ag t).walk = none ∧ (ag t).lost = ((s.core c).ag n).walk))) ∧
  (∀ (s : State) (c n : Nat) (e : BitVec 128), c < 768 →
    let g := (s.core c).ag n
    let live := g.ext.filter fun x => x.getLsbD 127
    (g.got = none → exec (.extentInstall c n) s = .next s) ∧
    (g.got = some e → exec (.extentInstall c n) s = .next (s.setCore c ((s.core c).modAg n fun _ => { g with
      ext := e :: (if live.length < 16 then live else live.dropLast)
      walk := none
      got := none
      st := if g.st = .starve then .run else g.st })))) ∧
  (∀ (s : State) (asid : Nat) (va : Word) (n : Nat), Gives (.tlbInvalidation asid va n) s fun t =>
    SameMemory s t ∧ SameSlots s t ∧ t.fe = s.fe ∧
    let hit (e : TlbEntry) : Prop := e.asid = asid ∧ e.va.toNat < va.toNat + n ∧ va.toNat < e.va.toNat + 2 ^ e.bits
    (∀ c e, e ∈ (t.core c).tlb ↔ e ∈ (s.core c).tlb ∧ ¬hit e) ∧
    (∀ k e, e ∈ (t.cluster k).tlb ↔ e ∈ (s.cluster k).tlb ∧ ¬hit e) ∧
    (∀ c a tk x, (s.core c).task = some tk → (s.task tk).asid = asid → x ∈ ((t.core c).ag a).ext → x.getLsbD 127 = true →
      ¬(bits x 0 52 < va.toNat + n ∧ va.toNat < bits x 0 52 + 65536 * bits x 52 12))) ∧
  (∀ (s : State) (asid : Nat) (a va : Word) (l : Leaf), va = w64 (a.toNat / 65536 * 65536) →
    let sp := s.space asid
    s.findLeaf sp.root.toNat va = some l → l.log2 = 16 → l.pte.getLsbD 7 = true → l.pte.getLsbD 1 = false → bits l.pte 56 2 = 2 →
    (∀ page rest, sp.freePages = page :: rest → sp.quota ≠ 0 → Gives (.migrationStart asid a) s fun t =>
      t.mem = memWriteAll s.mem (dpaKey l.place) (leBytes 8 ((l.pte ||| 2) &&& ~~~(8 : Word)).toNat) ∧ SameSlots s t ∧
      (t.space asid).quota = sp.quota - 1 ∧ (t.space asid).freePages = rest ∧
      (t.space asid).moving = sp.moving ++ [(va, page ||| if l.pte.getLsbD 3 then 1 else 0)] ∧
      ∃ d, 1 ≤ d ∧ (s.now + d, Instr.migrationCommit asid va) ∈ t.coming) ∧
    ((sp.freePages = [] ∨ sp.quota = 0) → exec (.migrationStart asid a) s = .next s)) ∧
  (∀ (s : State) (asid : Nat) (va : Word),
    (s.heldSegs asid va 65536 ≠ [] → exec (.migrationCommit asid va) s = .next (s.later 1 (.migrationCommit asid va))) ∧
    (s.heldSegs asid va 65536 = [] → (∀ m ∈ (s.space asid).moving, m.1 ≠ va) →
      exec (.migrationCommit asid va) s = .next s)) ∧
  (∀ (s : State) (asid : Nat) (va page : Word) (l : Leaf),
    let sp := s.space asid
    let old := s.pageDpa l.pte
    s.heldSegs asid va 65536 = [] →
    sp.moving = [(va, page)] → s.findLeaf sp.root.toNat va = some l →
    Gives (.migrationCommit asid va) s fun t => SameSlots s t ∧ (t.space asid).moving = [] ∧
      t.mem = memWriteAll (memWriteAll s.mem (dpaKey (page.toNat / 65536 * 65536)) (s.bytes (dpaKey old) 65536))
        (dpaKey l.place) (leBytes 8 (w64 (page.toNat / 65536 % 2 ^ 28 * 65536 + l.pte.toNat % 65536) &&& ~~~(2 : Word) |||
          if page.getLsbD 0 then 8 else 0).toNat)) ∧
  (∀ (s : State) (tk : Nat) (n : BitVec 16),
    let mine (c : Nat) : Prop := c ∈ frameCores (s.task tk).rec_ ∧ (s.core c).task = some tk
    (∀ c, mine c → (∀ m ∈ (s.core c).sendq, m.name ≠ n) ∧ (∀ g ∈ (s.core c).gives, g.st = .walking → g.name ≠ n) ∧
      (∀ p ∈ s.packets, p.src = c → p.dst = 769 → p.name ≠ n) ∧
      ∀ k, k < 8 → (∀ a ∈ (s.slot ⟨c, k⟩).accs, a.st = .walking → a.name ≠ n) ∧
        ∀ own vis perf ea rt pc, (s.slot ⟨c, k⟩).gate = .stalled ⟨own, vis, perf, .bqry ea rt pc none⟩ → eaName ea ≠ n) →
    Gives (.nameCacheInvalidate tk n.toNat) s fun t => t = { s with cores := t.cores } ∧ SameSlots s t ∧
      ∀ c, (mine c → t.core c = { s.core c with
          slots := (t.core c).slots, ncache := (s.core c).ncache.filter fun p => p.1 != n }) ∧
        (¬mine c → t.core c = s.core c)) ∧
  (∀ (s : State) (c : Nat) (router : Bool), c < 768 →
    ((s.fw.booted = false ∨ (s.core c).retired = true) → exec (.coreRetire c router) s = .next s) ∧
    (s.fw.booted = true → (s.core c).retired = false → (s.core c).beatsLeft = true → exec (.coreRetire c router) s =
      .next ((s.setCore c { s.core c with retiring := true }).work 1 (.retire c router))) ∧
    (s.fw.booted = true → (s.core c).retired = false → (s.core c).beatsLeft = false → Gives (.coreRetire c router) s fun t =>
      (t.core c).retired = true ∧ (t.core c).task = none ∧ (t.core c).slots = [] ∧
      (∀ e, e < 16 → ((t.core c).bm e).getLsbD 63 = false) ∧ (router = true → c ∈ t.fw.deadRouters) ∧
      (∀ k, (s.slot ⟨c, k⟩).life ≠ .unbound →
        (c, k, (s.slot ⟨c, k⟩).pc.setWidth 64, (0x38 : Word), (0 : Word), (0 : Word)) ∈ t.fe.records) ∧
      ∀ tk, (s.core c).task = some tk → (s.queue (s.task tk).queue).notice = 0 → s.lenses = [] →
        (∀ d, d ≠ c → (s.core d).task = none) → (∀ e, e < 16 → ((s.core c).bm e).getLsbD 63 = false) →
        let place := dpaKey (namePlace (s.task tk).rec_ c)
        t.mem = memWriteAll s.mem place (leBytes 8 (setBits (setBits (w64 (s.word place 8)) 63 1 0) 61 1 1).toNat)))

/-! ### Queues, packets, weight loading (R358 to R364, R392 to R394) -/

/-- Queues and the PIFO (R358 to R364): a doorbell moves TAIL of an enabled queue, or breaks it; configuration fields are
written while EN = 0; the thread that has been idle longest takes a queue with work; it refuses the packet at HEAD with
FORMAT, waits on it, or pushes it with its rank; ranks are computed again as AGE advances, by the reset program as R363
gives it; a management thread takes the entries whose turn it is; a WAIT ends when its word satisfies COND and gives its
thread back after 4,096 P-cycles. Model choices: log entry 23. -/
def Obligations.QueuesAndPifo : Prop :=
  (∀ (s : State) (q : Nat) (tail : BitVec 32), q < 1024 →
    let x := s.queue q
    let size := 2 ^ Nat.min (Nat.max x.log2.toNat 4) 16
    let served : Prop := x.en = true ∧ x.loc.toNat ≤ 1 ∧ x.broken = false
    (¬served → exec (.queueDoorbell q tail) s = .next s) ∧
    (served → size < (tail - x.head).toNat → exec (.queueDoorbell q tail) s =
      .next (s.modQueue q fun x => { x with broken := true })) ∧
    (served → (tail - x.head).toNat ≤ size → tail ≠ x.head → exec (.queueDoorbell q tail) s =
      .next ((s.modQueue q fun x => { x with tail := tail }).soon (.queueMap q)))) ∧
  (∀ (s : State) (q : Nat) (d : Word), q < 1024 →
    let x := s.queue q
    let may : Prop := s.fw.booted = true ∧ s.fw.infoUp = true ∧ s.fw.owner.isSome = true
    (x.en = true → ∀ k, k ≠ 1 → exec (.queueConfigWrite q k d) s = .next s) ∧
    (x.en = true → may → d.getLsbD 0 = false → exec (.queueConfigWrite q 1 d) s =
      .next (s.modQueue q fun x => { x with en := false })) ∧
    (x.en = false →
      exec (.queueConfigWrite q 0 d) s = .next (s.modQueue q fun x => { x with ring := d &&& ~~~63 }) ∧
      exec (.queueConfigWrite q 2 d) s = .next s ∧
      exec (.queueConfigWrite q 3 d) s = .next (s.modQueue q fun x => { x with notice := d &&& ~~~31 }) ∧
      Gives (.queueConfigWrite q 1 d) s fun t => SameMemory s t ∧ t.cores = s.cores ∧ t.queue q = { x with
        msix := d.extractLsb' 32 16, weight := d.extractLsb' 24 8, log2 := d.extractLsb' 19 5, loc := d.extractLsb' 16 3
        en := t.mayEnable && d.getLsbD 0
        broken := x.broken && !(t.mayEnable && d.getLsbD 0)
        tail := if x.broken && t.mayEnable && d.getLsbD 0 then x.head else x.tail })) ∧
  (∀ (s : State) (q th : Nat), q < 1024 → s.threadOf q = none →
    let x := s.queue q
    x.en = true → x.loc.toNat ≤ 1 → x.broken = false → x.tail ≠ x.head → x.waiting = none →
    (th < 32 → (Tab.at s.fe.threads th (0, 0)).1 = 0 →
      (∀ k, k < 32 → k ≠ th → (Tab.at s.fe.threads k (0, 0)).1 = 0 →
        (Tab.at s.fe.threads th (0, 0)).2 < (Tab.at s.fe.threads k (0, 0)).2) →
      exec (.queueMap q) s = .next ((s.setThread th (q + 1, s.now)).soon (.pifoPush q))) ∧
    ((∀ k, k < 32 → (Tab.at s.fe.threads k (0, 0)).1 ≠ 0) → exec (.queueMap q) s = .next s)) ∧
  (∀ (s : State) (q th : Nat), q < 1024 → s.threadOf q = some th →
    let x := s.queue q
    let p := s.headPacket x
    x.en = true → x.loc.toNat ≤ 1 → x.broken = false → x.tail ≠ x.head → x.waiting = none →
    ((4096 ≤ s.fe.inside.length ∨ s.fe.pushes ≠ []) → Gives (.pifoPush q) s fun t => ∃ hi, Scheduled s t 1 hi (.pifoPush q)) ∧
    (s.fe.inside.length < 4096 → s.fe.pushes = [] →
    let again (t : State) : Prop := ∃ d, 1 ≤ d ∧ (s.now + d, Instr.pifoPush q) ∈ t.coming
    let read (t : State) : Prop := SameMemory s t ∧ t.cores = s.cores ∧ (t.queue q).head = x.head + 1
    (p.ok = false → p.done = 0 → Gives (.pifoPush q) s fun t => read t ∧ again t ∧ t.fe.pifo = s.fe.pifo ∧
      t.fe.msix = s.fe.msix ++ [x.msix.toNat]) ∧
    (p.ok = true → p.type = 1 → Gives (.pifoPush q) s fun t => read t ∧ t.fe.pifo = s.fe.pifo ∧
      (t.queue q).waiting = some p ∧ t.agenda = s.agenda ++ [Due.ev (.waitPacket q)]) ∧
    (p.ok = true → p.type ≠ 1 → Gives (.pifoPush q) s fun t => read t ∧ again t ∧
      ∃ e : PifoEntry, t.fe.pifo = s.fe.pifo ++ [e] ∧ e.queue = q ∧ e.index = x.head.toNat ∧ e.packet = p ∧ e.age = 0 ∧
        e.leaving = false ∧ e.rank = rankRun s.fe.rank (rankField p q x.weight.toNat 0) ∧
        (s.now + 4096, Instr.rankUpdate e.id) ∈ t.coming))) ∧
  (∀ (s : State) (id : Nat), s.entry? id = none → ∀ i ∈ [Instr.rankUpdate id, .launchPacket id, .signalPacket id, .loadwPacket id,
    .copyPacket id, .mapPacket id, .fencePacket id, .killPacket id], exec i s = .next s) ∧
  (∀ (s : State) (e : PifoEntry), s.fe.order.head? = some e → Gives .placement s fun t => SameMemory s t ∧ t.cores = s.cores ∧
    Due.ev e.event ∈ t.agenda) ∧
  (∀ (s : State) (e : PifoEntry), s.entry? e.id = some e → e.pushed ≤ s.now →
    let age := (s.now - e.pushed) / 4096
    let aged (r : Nat) : State := (s.modEntry e.id fun _ => { e with age := age, rank := r }).later
      (4096 - (s.now - e.pushed) % 4096) (.rankUpdate e.id)
    exec (.rankUpdate e.id) s = .next (aged
      (rankRun s.fe.rank (rankField e.packet e.queue (s.queue e.queue).weight.toNat age))) ∧
    (s.fe.rank = resetRank → FePacket.type e.packet = 0 → FePacket.tokens e.packet ≤ 255 →
      let w := (255 - FePacket.tokens e.packet) * 65536 + 65535
      exec (.rankUpdate e.id) s = .next (aged (FePacket.cls e.packet * 2 ^ 24 + (w - Nat.min age w))))) ∧
  (∀ (s : State) (e : PifoEntry), s.fe.pifo = [e] → s.fe.pushes = [] →
    (e.leaving = false → FePacket.type e.packet = 0 → Gives .placement s fun t => SameMemory s t ∧ t.cores = s.cores ∧
      t.agenda = s.agenda ++ [Due.ev (.launchPacket e.id)] ∧ t.fe.pifo = [e] ∧
      ∃ d, 1 ≤ d ∧ (s.now + d, Instr.placement) ∈ t.coming) ∧
    (e.leaving = false → FePacket.type e.packet ≠ 0 → Gives .placement s fun t => SameMemory s t ∧ t.cores = s.cores ∧
      t.agenda = s.agenda ++ [Due.ev e.event] ∧ t.fe.pifo = [{ e with leaving := true }]) ∧
    (e.leaving = true → exec .placement s = .next s)) ∧
  (∀ (s u : State) (q th : Nat) (p : FePacket) (bs : List Byte), q < 1024 → s.threadOf q = some th →
    (s.queue q).waiting = some p → s.feRead (s.queueSpace q) (p.dw 1) 8 = (.ok bs, u) → u.threadOf q = some th →
    u.now = s.now → (u.queue q).waiting = some p → (u.queue q).waitSince = (s.queue q).waitSince →
    let v : Word := BitVec.ofNat 64 (leNat bs)
    let cond := bits (p.dw 0) 8 2
    let holds : Prop := (cond = 0 ∧ (p.dw 2).toNat ≤ v.toNat) ∨ (cond = 1 ∧ v = p.dw 2) ∨ (cond = 2 ∧ v ≠ p.dw 2)
    cond ≤ 2 →
    (holds → exec (.waitPacket q) s = .next (u.soon (.waitSatisfied q))) ∧
    (¬holds → s.now - (s.queue q).waitSince < 4096 → Gives (.waitPacket q) s fun t =>
      ∃ hi, Scheduled u t 1 hi (.waitPacket q)) ∧
    (¬holds → 4096 ≤ s.now - (s.queue q).waitSince → Gives (.waitPacket q) s fun t => SameMemory u t ∧
      Tab.at t.fe.threads th (0, 0) = (0, s.now)) ∧
    (holds → p.done = 0 → Gives (.waitSatisfied q) s fun t => SameMemory u t ∧ (t.queue q).waiting = none ∧
      t.fe.msix = u.fe.msix ++ [(u.queue q).msix.toNat] ∧ ∃ d, 1 ≤ d ∧ (s.now + d, Instr.pifoPush q) ∈ t.coming))

/-- Packets that a management thread carries out (R328, R360, R361, R392 to R394): a packet's completion writes its
completion object and raises the vector of its queue; SIGNAL and FENCE wait for every earlier packet of their queue;
SIGNAL writes or adds, COPY moves its bytes, MAP writes or clears its PTEs and completes once no held write goes by an old
translation; KILL ends its task, and completes when it is gone; LOADW checks its manifest,
refuses it or reserves its pages and fetches its shards; a shard's bytes fill its pages when their count and CRC are
right, are fetched again at most twice, and end the load otherwise; the commit makes every PTE of the load valid. Model
choices: log entry 23. -/
def Obligations.PacketsAreCarriedOut : Prop :=
  (∀ (s : State) (e : PifoEntry) (status detail : Nat), status < 256 → detail < 65536 →
    let t := s.finishEntry e status detail
    let done := FePacket.done e.packet
    let u := s.dropEntry e.id
    let index := e.index % 2 ^ Nat.min (Nat.max (s.queue e.queue).log2.toNat 4) 16
    t.fe.msix = s.fe.msix ++ [(s.queue e.queue).msix.toNat] ∧ (∀ x ∈ t.fe.pifo, x.id ≠ e.id) ∧
      (done = 0 → SameMemory s t ∧ t.cores = s.cores) ∧ (done ≠ 0 → t.mem = (u.feWrite (s.queueSpace e.queue) done
        (leBytes 8 (index * 2 ^ 32 + detail * 2 ^ 16 + status))).2.mem)) ∧
  (∀ (s : State) (e : PifoEntry), s.entry? e.id = some e → e.leaving = true →
    let p : FePacket := e.packet
    let a := s.queueSpace e.queue
    let earlier : Prop := ∃ r, (s.queue e.queue).outstanding = e.index :: r
    let behind : Prop := ∃ k r, (s.queue e.queue).outstanding = k :: r ∧ k ≠ e.index
    (earlier → exec (.fencePacket e.id) s = .next (s.finishEntry e 0 0)) ∧
    (behind → Gives (.fencePacket e.id) s (fun t => ∃ hi, Scheduled s t 1 hi (.fencePacket e.id)) ∧
      Gives (.signalPacket e.id) s fun t => ∃ hi, Scheduled s t 1 hi (.signalPacket e.id)) ∧
    (∀ u, earlier → (p.dw 0).getLsbD 8 = false → s.feWrite a (p.dw 1) (leBytes 8 (p.dw 2).toNat) = (none, u) →
      exec (.signalPacket e.id) s = .next (u.finishEntry e 0 0)) ∧
    (∀ u v bs, earlier → (p.dw 0).getLsbD 8 = true → s.feRead a (p.dw 1) 8 = (.ok bs, u) →
      u.feWrite a (p.dw 1) (leBytes 8 (p.dw 2 + BitVec.ofNat 64 (leNat bs)).toNat) = (none, v) →
      exec (.signalPacket e.id) s = .next (v.finishEntry e 0 0)) ∧
    (∀ u v bs, s.feRead a (p.dw 1) (p.dw 3).toNat = (.ok bs, u) → u.feWrite a (p.dw 2) bs = (none, v) →
      exec (.copyPacket e.id) s = .next (v.finishEntry e 0 0)) ∧
    (∀ u c, s.feRead a (p.dw 1) (p.dw 3).toNat = (.error c, u) →
      exec (.copyPacket e.id) s = .next (u.finishEntry e 7 c.toNat)) ∧
    (Tab.find s.fe.tasks (bits (p.dw 1) 0 8) = none → exec (.killPacket e.id) s = .next (s.finishEntry e 0 0)) ∧
    (∀ u, u = s.killTask (bits (p.dw 1) 0 8) →
      (Tab.find u.fe.tasks (bits (p.dw 1) 0 8) = none → exec (.killPacket e.id) s = .next (u.finishEntry e 0 0)) ∧
      (Tab.find u.fe.tasks (bits (p.dw 1) 0 8) ≠ none → exec (.killPacket e.id) s = .next (u.later 1 (.killPacket e.id)))) ∧
    (∀ place, (p.dw 3).toNat = 1 →
      let asid := bits (p.dw 1) 0 12
      s.leafPlace (s.space asid).root.toNat (p.dw 2) = some place →
      let old := s.pteAt place
      let done (u : State) : Host.Outcome State Fault Refusal :=
        .next (if u.oldWrites asid (p.dw 2) 65536 then u.later 1 (.mapPacket e.id) else u.finishEntry e 0 0)
      ((old.getLsbD 0 = false ∧ old.getLsbD 1 = true) → exec (.mapPacket e.id) s = .next (s.finishEntry e 1 0)) ∧
      ((old.getLsbD 0 = true ∨ old.getLsbD 1 = false) → (p.dw 0).getLsbD 8 = true → exec (.mapPacket e.id) s =
        done ((s.poke (dpaKey place) (leBytes 8 0)).invalidate asid (p.dw 2) 65536)) ∧
      (∀ u bs, (old.getLsbD 0 = true ∨ old.getLsbD 1 = false) → (p.dw 0).getLsbD 8 = false →
        s.feRead a (p.dw 4) 8 = (.ok bs, u) → bs.length = 8 → exec (.mapPacket e.id) s =
          done ((u.poke (dpaKey place) bs).invalidate asid (p.dw 2) 65536))) ∧
    ((p.dw 1).toNat % 8 ≠ 0 → exec (.loadwPacket e.id) s = .next (s.finishEntry e 1 0)) ∧
    (∀ u v hd bs, (p.dw 1).toNat % 8 = 0 → s.feRead a (p.dw 1) 32 = (.ok hd, u) →
      let h : BitVec 256 := BitVec.ofNat 256 (leNat hd)
      (headerOk h = false → exec (.loadwPacket e.id) s =
        .next ((u.dropEntry e.id).endLoad e.queue e.index p 1 0 4294967295 0 0)) ∧
      (headerOk h = true →
        let n := bits (h.extractLsb' 64 64) 0 32
        let asid := bits (h.extractLsb' 64 64) 32 12
        u.feRead a (p.dw 1 + 32) (32 * n) = (.ok bs, v) →
        let shards : List Shard := (List.range n).map fun i => BitVec.ofNat 256 (leNat ((bs.drop (32 * i)).take 32))
        let want := (shards.map Shard.pages).foldl (· + ·) 0
        let room := Nat.min (v.space asid).quota (v.space asid).freePages.length
        (∀ i, v.badShard asid shards [] 0 = some i → exec (.loadwPacket e.id) s =
          .next ((v.dropEntry e.id).endLoad e.queue e.index p 1 (i + 1) i 0 0)) ∧
        (v.badShard asid shards [] 0 = none → room < want → exec (.loadwPacket e.id) s =
          .next ((v.dropEntry e.id).endLoad e.queue e.index p 5 0 4294967295 0 0)) ∧
        (v.badShard asid shards [] 0 = none → want ≤ room → Gives (.loadwPacket e.id) s fun t => t.cores = v.cores ∧
          (∀ x ∈ t.fe.pifo, x.id ≠ e.id) ∧ (t.space asid).quota = (v.space asid).quota - want ∧
          (t.space asid).freePages = (v.space asid).freePages.drop want ∧ ∃ l : Load, t.fe.loads = v.fe.loads ++ [l] ∧
            l.id = e.id ∧ l.asid = asid ∧ l.shards = shards ∧ l.pages = dealPages shards (v.space asid).freePages ∧
            l.refetch = 0 ∧ ∀ (i : Nat) (x : Shard), shards[i]? = some x →
              l.fetched[i]? = some (if (BitVec.extractLsb' 192 64 x).getLsbD 1 then some [] else none))))) ∧
  (∀ (s : State) (id : Nat), s.fe.loads.find? (fun k => k.id == id) = none →
    (∀ i r, exec (.loadwShardFetch id i r) s = .next s) ∧ exec (.loadwCommit id) s = .next s) ∧
  (∀ (s : State) (l : Load) (i : Nat) (x : Shard), s.fe.loads.find? (fun k => k.id == l.id) = some l → l.shards[i]? = some x → l.fetched[i]? = some none →
    let tries := l.tries.getD i 0
    let failed (code : Nat) : Host.Outcome State Fault Refusal := .next (s.loadFails l i code)
    let again (o : Host.Outcome State Fault Refusal) : Prop := ∃ t, o = .next t ∧ SameMemory s t ∧ t.cores = s.cores ∧
      t.fe.loads = updFirst (fun k => k.id == l.id)
        (fun _ => { l with tries := setNth l.tries i (tries + 1), refetch := l.refetch + 1 }) s.fe.loads
    exec (.loadwShardFetch l.id i .timeout) s = failed 0x3A ∧
    (2 ≤ tries → exec (.loadwShardFetch l.id i .badCrc) s = failed 0x39) ∧
    (tries < 2 → again (exec (.loadwShardFetch l.id i .badCrc) s)) ∧
    (∀ bs, (bs.length ≠ x.size ∨ (crc32c bs).toNat ≠ x.crc) → tries < 2 → again (exec (.loadwShardFetch l.id i (.good bs)) s)) ∧
    (∀ bs page, bs.length = x.size → (crc32c bs).toNat = x.crc → l.pages.getD i [] = [page] → bs.length ≤ 65536 →
      Gives (.loadwShardFetch l.id i (.good bs)) s fun t => t.cores = s.cores ∧
        t.mem = memWriteAll s.mem (dpaKey page.toNat) (bs ++ List.replicate (65536 - bs.length) 0) ∧
        t.fe.loads = updFirst (fun k => k.id == l.id)
          (fun _ => { l with fetched := setNth l.fetched i (some []) }) s.fe.loads ∧
        ((∀ f ∈ setNth l.fetched i (some []), f.isSome = true) → Due.ev (.loadwCommit l.id) ∈ t.agenda))) ∧
  (∀ (s : State) (l : Load), s.fe.loads.find? (fun k => k.id == l.id) = some l →
    ((∀ f ∈ l.fetched, f.isSome = true) → exec (.loadwCommit l.id) s = .next
      ((((l.shards.zip l.pages).foldl (fun u q => u.putPtes l.asid q.1 q.2 (shardPte q.1)) s).dropLoad l.id).endLoad
        l.queue l.index l.packet 0 0 4294967295 l.refetch (l.pages.map List.length).sum)) ∧
    ((∃ f ∈ l.fetched, f = none) → exec (.loadwCommit l.id) s = .next s))

/-! ### Placement, dispatch, pre-emption (R228, R361, R364 to R373) -/

/-- Placement, dispatch and the end of a task (R228, R361, R364 to R366): a LAUNCH whose image is unknown or that is refused
completes with its status; one that fits is placed at a fitting record and dispatched; dispatch refuses a bind record that
breaks a rule and an image that
dchld does not accept, waits for gated clusters, for the messages of tasks that have left and for banks, or loads text,
wheel and slots of every live core behind closed gates;
then the gates open and the slots with text run; a task ends when each of its bound slots is HALTED or FAULTED, and
teardown leaves its cores no slot and no bank and completes its LAUNCH. Model choices: log entries 12, 24 and 40. -/
def Obligations.PlacementAndDispatch : Prop :=
  (∀ (s : State) (e : PifoEntry), s.entry? e.id = some e → FePacket.type e.packet = 0 →
    let image := s.imageOf (s.queueSpace e.queue) e.packet
    let ahead := (s.fe.order.takeWhile fun x => x.id != e.id).filter fun x => FePacket.type x.packet == 0
    ((∃ x ∈ ahead, x.queue = e.queue) → exec (.launchPacket e.id) s = .next s) ∧
    (ahead = [] → e.resume = none →
      (∀ u, image = (none, u) → exec (.launchPacket e.id) s = .next (u.finishEntry e 1 0)) ∧
      (∀ u img k, image = (some (img, k), u) →
        let refused := u.launchRefusal (s.queueSpace e.queue) e.packet k
        let free (t : Nat) : Prop := t < 256 ∧ Tab.find u.fe.tasks t = none
        let ok (t : Nat) (r : BindRec) : Prop :=
          r ∈ u.recordsFor e.packet img k t ∧ u.reserveOk r = true ∧ u.fits k r = true
        (refused ≠ 0 → exec (.launchPacket e.id) s = .next (u.finishEntry e refused 0)) ∧
        (refused = 0 → (∃ t, free t) → (∀ t, free t → u.recordsFor e.packet img k t = []) →
          Gives (.launchPacket e.id) s fun v =>
            ∃ x, v = ({ u with extra := x } : State).finishEntry e 2 0) ∧
        (refused = 0 → (∃ t, free t) → (∀ t, free t → ∃ r, ok t r) → Gives (.launchPacket e.id) s fun v =>
          ∃ t r, free t ∧ ok t r ∧ (v.task t).st = .placed ∧ (v.task t).rec_ = r ∧ (v.task t).kernel = k ∧
            (v.task t).packet = e.packet ∧ (v.task t).saved = none ∧ (∀ x ∈ v.fe.pifo, x.id ≠ e.id) ∧ v.cores = u.cores ∧
            Tab.at v.fe.slotTable t 0 = r.word t ∧ Due.ev (.dispatchBind t) ∈ v.agenda))) ∧
    (∀ t v, ahead = [] → e.resume = some t → (s.task t).saved = some v →
      ((∃ p ∈ v.cores, (s.core p.1).retired = true) → Gives (.launchPacket e.id) s fun u =>
        Tab.find u.fe.tasks t = none ∧ ∀ x ∈ u.fe.pifo, x.id ≠ e.id) ∧
      ((∀ p ∈ v.cores, (s.core p.1).retired = false) → s.resumable t v = true →
        (∀ c ∈ frameCores (s.task t).rec_, s.holder c = none) → Gives (.launchPacket e.id) s fun u =>
          (u.task t).st = .placed ∧ (∀ x ∈ u.fe.pifo, x.id ≠ e.id) ∧ Due.ev (.taskResume t) ∈ u.agenda))) ∧
  (∀ (s : State) (t : Nat), Tab.find s.fe.tasks t = none → ∀ i ∈ [Instr.dispatchBind t, .gatesOpen t, .taskEnd t, .preemptDrain t,
    .drainLimitExpire t, .preemptCheckpoint t, .checkpointSave t, .preemptKill t, .taskResume t], exec i s = .next s) ∧
  (∀ (s : State) (t : Nat), (Tab.find s.fe.tasks t).isSome = true → (s.task t).st = .placed → (s.task t).saved = none →
    let w := Tab.at s.fe.slotTable t 0
    let r := bindOf w
    let tk := s.task t
    let k := tk.kernel
    let laid := ((s.modTask t fun x => { x with rec_ := r }).clearTask t).layLenses t k r
    let image := laid.bindImage (s.groupOf t) k r
    let status := laid.dchldStatus t k image r
    let awake : Prop := ∀ c ∈ s.liveCores r, (s.cluster (clusterOf c)).gating = .awake
    let quiet : Prop := ∀ c ∈ s.liveCores r, (s.core c).sendq = []
    (s.bindOk t k w = false → exec (.dispatchBind t) s = .next ((s.clearTask t).endLaunch t 1 0)) ∧
    (s.bindOk t k w = true → ¬awake → Gives (.dispatchBind t) s fun u =>
      u.cores = s.cores ∧ SameMemory s u ∧ ∃ d, 1 ≤ d ∧ (s.now + d, Instr.dispatchBind t) ∈ u.coming) ∧
    (s.bindOk t k w = true → awake → ¬quiet → exec (.dispatchBind t) s = .next (s.later 1 (.dispatchBind t))) ∧
    (s.bindOk t k w = true → awake → quiet →
      (status ≠ 0 → exec (.dispatchBind t) s = .next ((s.clearTask t).endLaunch t status 0)) ∧
      (status = 0 → s.banksOk k r = false → Gives (.dispatchBind t) s fun u => ∃ hi, Scheduled s u 1 hi (.dispatchBind t)) ∧
      (∀ b, status = 0 → s.banksOk k r = true → image = some b → Gives (.dispatchBind t) s fun u =>
        (u.task t).st = .bound ∧ (u.task t).rec_ = r ∧ (∃ d, 1 ≤ d ∧ (s.now + d, Instr.gatesOpen t) ∈ u.coming) ∧
        ∀ c ∈ s.liveCores r, (u.core c).task = some t ∧ (u.core c).gates = 15 ∧ (u.core c).wheel = r.wheel ∧
          (∀ text, timedText b (s.classOf c) = some text → (u.core c).istore = text) ∧
          ∀ j, j < 8 → let sl := u.slot ⟨c, j⟩
            (r.text.getLsbD j = false → sl.life = .unbound) ∧
            (r.text.getLsbD j = true → sl.life = .boundIdle ∧ sl.pc = Tab.at r.entry j 0 ∧ sl.gr 1 = r.arg ∧
              sl.reload = r.budget ∧ sl.left = r.budget ∧ sl.est = r.remain ∧ sl.pr 0 = true)))) ∧
  (∀ (s : State) (t : Nat), (Tab.find s.fe.tasks t).isSome = true → (s.task t).saved = none →
    ((s.task t).st ≠ .bound → exec (.gatesOpen t) s = .next s) ∧
    ((s.task t).st = .bound → Gives (.gatesOpen t) s fun u => SameMemory s u ∧ (u.task t).st = .running ∧
      ∀ c ∈ s.liveCores (s.task t).rec_, (u.core c).gates = 0 ∧ ∀ j, (s.slot ⟨c, j⟩).life = .boundIdle →
        u.slot ⟨c, j⟩ = { s.slot ⟨c, j⟩ with life := .running, gate := .fromTurn ((s.slot ⟨c, j⟩).turn + 1) })) ∧
  (∀ (s : State) (t : Nat), (Tab.find s.fe.tasks t).isSome = true →
    (s.stopped t = false → exec (.taskEnd t) s = .next s) ∧
    (s.stopped t = true → s.rebinds t = true → Gives (.taskEnd t) s fun u => (u.task t).st = .placed ∧
      (∀ c ∈ s.liveCores (s.task t).rec_, (u.core c).slots = [] ∧ (u.core c).task = none) ∧
      ∃ d, 1 ≤ d ∧ (s.now + d, Instr.dispatchBind t) ∈ u.coming) ∧
    (s.stopped t = true → s.rebinds t = false →
      (∀ c, s.lowestCause t = some c → exec (.taskEnd t) s = .next (s.teardown t false 7 c)) ∧
      (s.lowestCause t = none → ∃ n, exec (.taskEnd t) s = .next (s.teardown t false 0 n)))) ∧
  (∀ (s : State) (t status detail : Nat) (kill : Bool), (s.task t).rec_.done = 0 →
    let u := s.teardown t kill status detail
    Tab.find u.fe.tasks t = none ∧ u.fe.msix = s.fe.msix ++ [(s.queue (s.task t).queue).msix.toNat] ∧ SameMemory s u ∧
    (∀ n, n / 64 = t → u.lens n = Lens.reset) ∧ (∀ n, n / 4096 = t → u.chan n = Channel.reset) ∧
    ∀ c ∈ s.liveCores (s.task t).rec_, (u.core c).slots = [] ∧ (u.core c).task = none ∧
      ∀ e, e < 16 → ((u.core c).bm e).getLsbD 63 = false)

/-- Pre-emption (R368, R369, R371 to R373): nothing is evicted where a victim falls to the last row, and each victim's
policy is put into effect otherwise; the names of a victim are frozen; it drains until twice its limit and is then decided
again without row 1;
a checkpoint waits until all of the task is at rest, and then keeps its cores, lenses and channels, leaves its cores no
slot and puts its LAUNCH back into the PIFO; KILL tears the task down once its vector beats and staged messages are over; a
suspended task resumes with its registers as
saved, SYNCREF moved on by the time between, its slots BOUND-IDLE until the gates open. Model choices: log entries 16, 25
and 40. -/
def Obligations.PreemptionComplete : Prop :=
  (∀ (s : State) (k : Kernel) (rs : List BindRec) (r : BindRec), s.plan k rs = some r →
    let u := s.weighVictims k rs
    let row (t : Nat) : Policy := s.policy k r t ((s.task t).st == .running)
    (∀ t, s.policy k r t true =
      if s.estimate t ≤ (if r.cls = 0 then 40000 else 80000) then .drain else s.policy k r t false) ∧
    (∀ t, s.policy k r t false = if (s.task t).rec_.restart = 2 ∧ s.costFor k r t ≤ r.tokens then .checkpoint
      else if (s.task t).rec_.restart = 1 then .kill else .wait) ∧
    ((∃ t ∈ s.victims k r, row t = .wait) → u = s) ∧
    ((∀ t ∈ s.victims k r, row t ≠ .wait) → ∀ t ∈ s.victims k r, (row t = .drain → Due.ev (.preemptDrain t) ∈ u.agenda) ∧
      (row t = .checkpoint → Due.ev (.preemptCheckpoint t) ∈ u.agenda) ∧
      (row t = .kill → Due.ev (.preemptKill t) ∈ u.agenda))) ∧
  (∀ (s : State) (t : Nat), (Tab.find s.fe.tasks t).isSome = true →
    let x := s.task t
    let frozen := s.freezeNames t true
    (x.st = .running → exec (.preemptDrain t) s =
      .next ((frozen.modTask t fun x => { x with st := .draining 80000 }).later 160000 (.drainLimitExpire t))) ∧
    (∀ n, x.st = .draining n →
      exec (.preemptDrain t) s = .next (frozen.later (2 * n) (.drainLimitExpire t)) ∧
      exec (.drainLimitExpire t) s = .next (s.modTask t fun x => { x with st := .draining 0 }).wakeManager) ∧
    ((x.st = .running ∨ ∃ n, x.st = .draining n) → Gives (.preemptCheckpoint t) s fun u => u.cores = frozen.cores ∧
      SameMemory frozen u ∧ (u.task t).st = .checkpointing ∧ ∃ d, 1 ≤ d ∧ (s.now + d, Instr.checkpointSave t) ∈ u.coming) ∧
    (x.st ≠ .running → (∀ n, x.st ≠ .draining n) → exec (.preemptDrain t) s = .next s ∧
      exec (.drainLimitExpire t) s = .next s ∧ exec (.preemptCheckpoint t) s = .next s) ∧
    (x.st ≠ .checkpointing → exec (.checkpointSave t) s = .next s) ∧
    (x.st = .checkpointing → s.drained t = false → Gives (.checkpointSave t) s fun u =>
      ∃ hi, Scheduled s u 1 hi (.checkpointSave t)) ∧
    (x.st = .checkpointing → s.drained t = true → Gives (.checkpointSave t) s fun u => (u.task t).st = .suspended ∧
      SameMemory (s.saveArea t) u ∧
      (∃ v, (u.task t).saved = some v ∧ v.cycle = s.now ∧ v.cores = (s.liveCores x.rec_).map (fun c => (c, s.core c)) ∧
        v.lenses = s.lenses.filter (fun p => p.1 / 64 == t) ∧ v.chans = s.chans.filter fun p => p.1 / 4096 == t) ∧
      (∀ c ∈ s.liveCores x.rec_, (u.core c).slots = [] ∧ (u.core c).task = none) ∧
      (s.fe.inside.length < 4096 →
        ∃ e ∈ u.fe.pifo, e.resume = some t ∧ e.packet = x.packet ∧ e.queue = x.queue ∧ e.leaving = false) ∧
      (4096 ≤ s.fe.inside.length → (x.queue, x.index, x.packet, some t) ∈ u.fe.pushes)) ∧
    (x.st = .suspended → exec (.preemptKill t) s = .next s ∧ Tab.find (s.killTask t).fe.tasks t = none) ∧
    ((x.st = .placed ∨ x.st = .bound ∨ (x.st = .killing ∧ s.killable t = true)) →
      exec (.preemptKill t) s = .next (s.teardown t true 6 0)) ∧
    (x.st = .killing → s.killable t = false → exec (.preemptKill t) s = .next (s.later 1 (.preemptKill t))) ∧
    ((x.st = .running ∨ x.st = .checkpointing ∨ ∃ n, x.st = .draining n) → exec (.preemptKill t) s =
      .next ((frozen.modTask t fun x => { x with st := .killing }).later 1 (.preemptKill t)))) ∧
  (∀ (s : State) (base : Nat) (r : SlotRef),
    let sl := s.slot r
    let u := s.saveSlot base r
    let at_ (off n : Nat) : Nat := u.word (dpaKey (base + off)) n
    (∀ k, k < 32 → at_ (8 * k) 8 = (sl.gr (BitVec.ofNat 5 k)).toNat) ∧
    (∀ k, k < 16 → at_ (0x600 + 256 * k) 256 = (sl.vr (BitVec.ofNat 4 k)).toNat) ∧
    (∀ k, k < 8 → at_ (0x1600 + 8 * k) 8 = (sl.mr (BitVec.ofNat 3 k)).toNat)) ∧
  (∀ (s : State) (t : Nat) (v : Saved), (Tab.find s.fe.tasks t).isSome = true → (s.task t).st = .placed →
    (s.task t).saved = some v →
    let awake : Prop := ∀ p ∈ v.cores, (s.cluster (clusterOf p.1)).gating = .awake
    let quiet : Prop := ∀ p ∈ v.cores, (s.core p.1).sendq = []
    (¬awake → Gives (.taskResume t) s fun u => u.cores = s.cores ∧ SameMemory s u ∧
      ∃ d, 1 ≤ d ∧ (s.now + d, Instr.taskResume t) ∈ u.coming) ∧
    (awake → ¬quiet → exec (.taskResume t) s = .next (s.later 1 (.taskResume t))) ∧
    (awake → quiet → (v.cores.map (·.1)).Nodup → (v.lenses.map (·.1)).Nodup →
      (∀ p ∈ v.cores, ∀ e, e < 16 → (p.2.bm e).getLsbD 63 = false) →
      Gives (.taskResume t) s fun u => SameMemory (s.freezeNames t false) u ∧ (u.task t).st = .bound ∧
        (∃ d, 1 ≤ d ∧ (s.now + d, Instr.gatesOpen t) ∈ u.coming) ∧
        (∀ l ∈ v.lenses, u.lens l.1 = { l.2 with cells := l.2.cells.map fun c => (c.1, { c.2 with dn := 0 }) }) ∧
        ∀ p ∈ v.cores, let y := u.core p.1
          y.gates = 15 ∧ y.istore = p.2.istore ∧ y.task = p.2.task ∧
          y.syncref = p.2.syncref + BitVec.ofNat 64 (s.now - v.cycle) ∧
          ∀ j, (p.2.slot j).life ≠ .unbound → u.slot ⟨p.1, j⟩ = { p.2.slot j with life := .boundIdle, gate := .closed })) ∧
  (∀ (s : State) (t : Nat) (v : Saved), (Tab.find s.fe.tasks t).isSome = true → (s.task t).st = .bound →
    (s.task t).saved = some v → (v.cores.map (·.1)).Nodup → Gives (.gatesOpen t) s fun u =>
      (u.task t).st = .running ∧ (u.task t).saved = none ∧
      ∀ p ∈ v.cores, p.1 ∈ s.liveCores (s.task t).rec_ → (u.core p.1).gates = 0 ∧
        ∀ j, (s.slot ⟨p.1, j⟩).life = .boundIdle → (p.2.slot j).life ≠ .boundIdle → u.slot ⟨p.1, j⟩ =
          { s.slot ⟨p.1, j⟩ with
            life := (p.2.slot j).life, gate := (p.2.slot j).gate.resumed (s.slot ⟨p.1, j⟩).turn })

/-! ### The host's ports, gating, links, service, firmware (R339, R340, R367, R379 to R382, R391, R395 to R405) -/

/-- The host's ports and the gating of clusters (R339, R340, R367, R389, R391, R402): OPEN names a configuration, or is
refused; DATA enters the port's buffer; a write of the notify aperture sets bits of a bound slot, goes to the mailbox of a
gated cluster, or is dropped and counted; a wake ends with the delivery of the mailbox before anything else; a cluster
idle for 1 ms is clock-gated, and for 100 ms power-gated; WIN4 keeps DIE and BASE, and the window reads and writes the HBM
of this die or of a member of the panel set that links lead to.
Model choices: log entries 18 and 26. -/
def Obligations.HostPortsComplete : Prop :=
  (∀ (s : State) (p : Nat) (d : Word), p < 16 → s.fw.powered = true →
    let x := s.port p
    let opens (n : Nat) : State := s.modPort p fun _ => ⟨BitVec.ofNat 8 n, 0, d.toNat, [], [], 0⟩
    let running (st : TaskSt) : Prop := st = .running ∨ (∃ n, st = .draining n) ∨ st = .checkpointing ∨ st = .killing
    let pushed (k : IngressCfg) : Prop :=
      (∃ e ∈ s.fe.pifo, e.queue = k.queue ∧ e.packet = k.packet ∧ e.index = 2 ^ 32) ∨
        ∃ e ∈ s.fe.pushes, e.1 = k.queue ∧ e.2.2.1 = k.packet ∧ e.2.1 = 2 ^ 32
    (Tab.find s.fe.configs d.toNat = none → exec (.ingressOpen p d) s =
      .next (s.modPort p fun x => { x with stat := 3, buffer := [], held := [] })) ∧
    (∀ k tk, Tab.find s.fe.configs d.toNat = some k → k.task = some tk →
      (running (s.task tk).st → exec (.ingressOpen p d) s = .next (opens 2)) ∧
      (¬running (s.task tk).st → exec (.ingressOpen p d) s = .next (opens 1))) ∧
    (∀ k, Tab.find s.fe.configs d.toNat = some k → k.task = none →
      (pushed k → exec (.ingressOpen p d) s = .next (opens 1)) ∧
      (¬pushed k → s.fe.inside.length < 4096 → Gives (.ingressOpen p d) s fun t => SameMemory s t ∧ t.cores = s.cores ∧
        t.fe.ports = (opens 1).fe.ports ∧ ∃ e : PifoEntry, t.fe.pifo = s.fe.pifo ++ [e] ∧ e.queue = k.queue ∧
          e.packet = k.packet ∧ e.resume = none ∧ e.leaving = false) ∧
      (¬pushed k → 4096 ≤ s.fe.inside.length → Gives (.ingressOpen p d) s fun t => SameMemory s t ∧ t.cores = s.cores ∧
        t.fe = { (opens 1).fe with pushes := s.fe.pushes ++ [(k.queue, 2 ^ 32, k.packet, none)] })) ∧
    ((x.stat = 0 ∨ x.stat = 3) → exec (.ingressData p d) s = .next s) ∧
    (x.stat ≠ 0 → x.stat ≠ 3 → bits d 37 27 ≠ 0 →
      exec (.ingressData p d) s = .next (s.modPort p fun x => { x with stat := 3 })) ∧
    (x.stat ≠ 0 → x.stat ≠ 3 → bits d 37 27 = 0 → x.held = [] → x.buffer.length < 512 → s.portShut x = false →
      Gives (.ingressData p d) s fun t => SameMemory s t ∧ t.cores = s.cores ∧
        t.port p = { x with buffer := x.buffer ++ [⟨d.getLsbD 36, d.extractLsb' 32 4, d.extractLsb' 0 32⟩] }) ∧
    (x.stat ≠ 0 → x.stat ≠ 3 → bits d 37 27 = 0 → (512 ≤ x.buffer.length ∨ s.portShut x = true) →
      Gives (.ingressData p d) s fun t => SameMemory s t ∧ t.cores = s.cores ∧
        t.port p = { x with held := x.held ++ [d] })) ∧
  (∀ (s : State) (c : Nat) (d : Word), c < 768 → s.fw.powered = true →
    let r : SlotRef := ⟨c, bits d 16 3⟩
    let mask := d.extractLsb' 0 16
    let k := s.cluster (clusterOf c)
    let dropped : Host.Outcome State Fault Refusal :=
      .next { s with fe := { s.fe with dropped := s.fe.dropped + 1 } }
    (∀ off, (off % 64 ≠ 0 ∨ 768 ≤ off / 64) → exec (.notifyApertureWrite off d) s = dropped) ∧
    (bits d 19 45 ≠ 0 → exec (.notifyApertureWrite (64 * c) d) s = dropped) ∧
    (bits d 19 45 = 0 → k.gating = .awake → (s.slot r).life = .unbound →
      exec (.notifyApertureWrite (64 * c) d) s = dropped) ∧
    (bits d 19 45 = 0 → k.gating = .awake → (s.slot r).life ≠ .unbound → (s.slot r).wait = none →
      ((s.slot r).flights = [] ∨ s.turnToOpen r = false) → exec (.notifyApertureWrite (64 * c) d) s =
        .next (s.setSlot r { s.slot r with notify := (s.slot r).notify ||| mask })) ∧
    (bits d 19 45 = 0 → k.gating ≠ .awake → k.mailbox ≠ [] → k.mailbox.length < 8 →
      (∀ m ∈ k.mailbox, ¬(m.1 = c ∧ m.2.1 = bits d 16 3)) → exec (.notifyApertureWrite (64 * c) d) s =
        .next (s.modCluster (clusterOf c) fun k => { k with mailbox := k.mailbox ++ [(c, bits d 16 3, mask)] })) ∧
    (bits d 19 45 = 0 → k.gating ≠ .awake → k.mailbox = [] → Gives (.notifyApertureWrite (64 * c) d) s fun t =>
      SameMemory s t ∧ t.cores = s.cores ∧ (t.cluster (clusterOf c)).mailbox = [(c, bits d 16 3, mask)] ∧
      (t.cluster (clusterOf c)).gating = .waking ∧
      (k.gating = .clockGated → (s.now + 4000, Instr.clusterWake (clusterOf c)) ∈ t.coming) ∧
      (k.gating = .powerGated → (s.now + 80000, Instr.clusterWake (clusterOf c)) ∈ t.coming)) ∧
    (bits d 19 45 = 0 → k.gating ≠ .awake → 8 ≤ k.mailbox.length → (∀ m ∈ k.mailbox, ¬(m.1 = c ∧ m.2.1 = bits d 16 3)) →
      exec (.notifyApertureWrite (64 * c) d) s = .next (s.modCluster (clusterOf c) fun k =>
        { k with overflow := some (k.overflow.getD 0 ||| mask) }))) ∧
  (∀ (s : State) (cl : Nat), cl < 48 →
    let k := s.cluster cl
    let idle (d : Nat) : Prop := s.idleFor cl d = true
    (k.gating = .waking → Gives (.clusterWake cl) s fun t => SameMemory s t ∧ t.cores = s.cores ∧
      (t.cluster cl).gating = .awake ∧ (t.cluster cl).mailbox = k.mailbox ∧
      t.agenda = Due.ev (.wakeMailboxDeliver cl) :: s.agenda ∧ ((∀ c, c < 768 → clusterOf c = cl → s.holder c = none) →
        (t.cluster cl).idleSince = s.now ∧ (s.now + 2000000, Instr.clockGate cl) ∈ t.coming)) ∧
    (k.gating ≠ .awake → exec (.wakeMailboxDeliver cl) s = .next s) ∧
    (k.gating ≠ .waking → exec (.clusterWake cl) s = .next s) ∧
    (∀ c j mask, k.gating = .awake → k.mailbox = [(c, j, mask)] → k.overflow = none → (s.slot ⟨c, j⟩).life ≠ .unbound →
      (s.slot ⟨c, j⟩).wait = none → ((s.slot ⟨c, j⟩).flights = [] ∨ s.turnToOpen ⟨c, j⟩ = false) →
      Gives (.wakeMailboxDeliver cl) s fun t =>
        SameMemory s t ∧ (t.cluster cl).mailbox = [] ∧
        t.slot ⟨c, j⟩ = { s.slot ⟨c, j⟩ with notify := (s.slot ⟨c, j⟩).notify ||| mask } ∧
        ∀ q, q ≠ ⟨c, j⟩ → t.slot q = s.slot q) ∧
    (k.gating = .awake → idle 2000000 → exec (.clockGate cl) s =
      .next ((s.modCluster cl fun k => { k with gating := .clockGated }).later 198000000 (.powerGate cl))) ∧
    ((k.gating ≠ .awake ∨ ¬idle 2000000) → exec (.clockGate cl) s = .next s) ∧
    (k.gating = .clockGated → idle 200000000 → s.mayPowerGate cl = true → Gives (.powerGate cl) s fun t =>
      t.cores = s.cores ∧ (t.cluster cl).gating = .powerGated ∧
      ∀ a, t.byte a = if cl * 128 * 262144 ≤ a ∧ a < (cl + 1) * 128 * 262144 then emptyByte else s.byte a) ∧
    ((k.gating ≠ .clockGated ∨ ¬idle 200000000 ∨ s.mayPowerGate cl = false) → exec (.powerGate cl) s = .next s)) ∧
  (∀ (s : State) (d : Word), s.fw.powered = true → exec (.win4Write d) s =
    .next { s with fe := { s.fe with win4 := d &&& 0x000FFFFFC0000000 } }) ∧
  (∀ (s : State) (off len : Nat) (v : Word), s.fw.powered = true →
    let a := bits s.fe.win4 30 16 * 2 ^ 30 + off
    let die := bits s.fe.win4 46 6
    let key := dpaKey (die * 2 ^ 46 + a)
    let there : Prop := die = s.fw.die ∨ (s.dieKnown die = true ∧ s.dieCut die = false)
    let fits : Prop := a + len ≤ 384 * 2 ^ 30
    (there → fits → exec (.bar4Access off len none) s =
      .next { s with fe := { s.fe with lastRead := some (s.bytes key len) } }) ∧
    (there → len ≤ 8 → fits → exec (.bar4Access off len (some v)) s =
      .next (s.poke key (leBytes len v.toNat))) ∧
    ((¬there ∨ ¬fits) → exec (.bar4Access off len none) s =
      .next { s with fe := { s.fe with lastRead := none } }) ∧
    (len ≤ 8 → (¬there ∨ ¬fits) → exec (.bar4Access off len (some v)) s =
      .next { s with fe := { s.fe with dropped := s.fe.dropped + 1 } }))

/-- Links, power, temperature, clocks, scrub and the loupe (R189, R282, R379, R381, R389, R400, R401, R403 to R405): a
link trains or goes down; a frame in sequence is delivered, one with a bad CRC is answered negatively; a replay sends the
frames from its number again, and 16 in an interval make the link retrain; a lost link is told to the host, and the packets
that are not acknowledged are sent again; the rails come
up in order, and reset is released 1 ms after the last; at 110 °C the part trips, at 95 °C a lens steps down within 2 µs,
and a lens of clusters below 85 °C for 1 ms steps up; classes, stretched A-cycles, scrub findings and claims are recorded.
Model choices: log entries 18, 27 and 28. -/
def Obligations.LinksAndServiceComplete : Prop :=
  (∀ (s : State) (p w : Nat), p < 4 →
    let l := s.link p
    let others (t : State) : Prop := SameMemory s t ∧ t.cores = s.cores ∧ ∀ k, k ≠ p → t.link k = s.link k
    let fits : Prop := w = 4 ∨ w = 8 ∨ w = 16
    (s.fw.powered = true → l.st = .reset → (∃ k, k < 4 ∧ k ≠ p ∧ (s.link k).st = .reset) →
      (fits → Gives (.linkTraining p w) s fun t => others t ∧ t.link p = { l with st := .up, width := w }) ∧
      (¬fits → Gives (.linkTraining p w) s fun t => others t ∧ t.link p = { l with st := .down, width := 0 })) ∧
    (l.st ≠ .reset → exec (.linkTraining p w) s = .next s) ∧
    (∀ seq ok n, l.st = .up →
      (ok = false → exec (.linkFrameReceive p seq ok n) s = .next (s.modLink p fun l => { l with nak := true })) ∧
      (ok = true → seq = l.rxSeq → exec (.linkFrameReceive p seq ok n) s = .next (s.modLink p fun l =>
        { l with rxSeq := l.rxSeq + 1, delivered := l.delivered ++ [n], nak := false })) ∧
      (ok = true → seq ≠ l.rxSeq → Gives (.linkFrameReceive p seq ok n) s fun t => others t ∧ t.link p = l) ∧
      (l.recent < 15 → Gives (.linkReplay p seq) s fun t => others t ∧ t.link p = { l with
        replay := if (∃ f ∈ l.replay, f.1 = seq) then l.replay.dropWhile fun f => f.1 != seq else l.replay
        replays := l.replays + 1
        recent := l.recent + 1 }) ∧
      (15 ≤ l.recent → Gives (.linkReplay p seq) s fun t => others t ∧ (t.link p).st = .retraining ∧
        (t.link p).retrains = l.retrains + 1 ∧ (t.link p).since = s.now)) ∧
    (l.st = .up → 16 ≤ l.recent → exec (.linkRetrain p) s = .next (s.modLink p fun l =>
      { l with st := .retraining, retrains := l.retrains + 1, recent := 0, since := s.now })) ∧
    (l.recent < 16 → exec (.linkRetrain p) s = .next s) ∧
    (l.st = .retraining →
      (fits → Gives (.linkRetrainDone p w) s fun t => others t ∧ (t.link p).st = .up ∧ (t.link p).width = w ∧
        (t.link p).changes = l.changes + (if l.width = w then 0 else 1) ∧ (t.link p).rxSeq = l.rxSeq ∧
        ((∀ k ∈ s.packets, k.dst < 1024) → t.link p = { l with st := .up, width := w, changes := (t.link p).changes })) ∧
      (¬fits → s.fw.powered = true → exec (.linkRetrainDone p w) s = exec (.linkDown p) s)) ∧
    (l.st ≠ .retraining → exec (.linkRetrainDone p w) s = .next s) ∧
    (s.fw.powered = true → (l.st = .up ∨ l.st = .retraining) → Gives (.linkDown p) s fun t => others t ∧
      t.fe = { s.fe with msix := s.fe.msix ++ [0] } ∧ t.link p = { l with st := .down, width := 0, changes := l.changes + 1 } ∧
      t.packets = s.packets ∧ ∀ k ∈ s.packets, k.src < 768 → k.dst < 768 → s.cutOff k.src k.dst = false →
        (s.now + 1, Instr.packetRetransmit k.id) ∈ t.coming)) ∧
  (∀ (s : State) (r : Nat),
    (r = s.fw.rails + 1 → r < 4 → exec (.powerRailGood r) s =
      .next { s with fw := { s.fw with rails := r, powered := false } }) ∧
    (s.fw.rails = 3 → exec (.powerRailGood 4) s =
      .next (({ s with fw := { s.fw with rails := 4, powered := true } } : State).later 2000000 .deviceReset)) ∧
    ((r ≠ s.fw.rails + 1 ∨ 4 < r) → exec (.powerRailGood r) s = .next s) ∧
    (s.fw.rails = 0 → exec .powerFail s = .next s) ∧
    (s.fw.rails ≠ 0 → Gives .powerFail s fun t => t.fw.powered = false ∧ t.fw.rails = 0 ∧ t.fw.booted = false ∧
      t.now = s.now ∧ t.fw.tripped = s.fw.tripped ∧ t.fw.owner = s.fw.owner ∧ (∀ a, a < 2 ^ 60 → t.byte a = emptyByte) ∧
      ∀ q, (t.slot q).life = .unbound) ∧
    (∀ cl, cl < 48 → s.fw.powered = true → Gives (.thermalTrip cl) s fun t => t.fw.powered = false ∧ t.fw.rails = 0 ∧
      t.fw.tripped = true ∧ ∀ q, (t.slot q).life = .unbound)) ∧
  (∀ (s : State) (cl temp : Nat) (hot : Bool), cl < 48 → s.fw.powered = true → s.fw.booted = true →
    (110 ≤ temp → Gives (.temperatureSample cl temp hot) s fun t => t.fw.powered = false ∧ t.fw.tripped = true) ∧
    (temp < 110 → Gives (.temperatureSample cl temp hot) s fun t => t.cores = s.cores ∧ SameMemory s t ∧ t.lenses = s.lenses ∧
      (t.cluster cl).temp = temp ∧
      ((t.cluster cl).coolSince = none ↔ 85 ≤ temp) ∧
      Tab.at t.fw.loupe.temps (cl * 16 + Nat.min 15 ((temp - 40) / 5)) 0 =
        Tab.at s.fw.loupe.temps (cl * 16 + Nat.min 15 ((temp - 40) / 5)) 0 + 1) ∧
    (∀ key l, temp < 110 → (key, l) ∈ s.lenses → l.fused = true → maxOf 0 l.clusters = cl →
      let u := s.modCluster cl fun k =>
        { k with temp := temp, coolSince := if temp < 85 then some (k.coolSince.getD s.now) else none }
      let steps (up : Bool) : Prop := Gives (.temperatureSample cl temp hot) s fun t =>
        ∃ d, 1 ≤ d ∧ d ≤ 4000 ∧ (s.now + d, Instr.thermalStep key up) ∈ t.coming
      ((hot = true ∨ ∃ c ∈ l.clusters, 95 ≤ (u.cluster c).temp) → 2 < l.clock → steps false) ∧
      (hot = false → l.clock < 4 → (∀ c ∈ l.clusters, (u.cluster c).temp < 95 ∧
        ∃ k, (u.cluster c).coolSince = some k ∧ k + 2000000 ≤ s.now) → steps true))) ∧
  (∀ (s : State) (key : Nat),
    let l := s.lens key
    (l.fused = false → ∀ up, exec (.thermalStep key up) s = .next s) ∧ (l.fused = false → exec (.droopStretch key) s = .next s) ∧
    (l.fused = true →
      exec (.thermalStep key true) s = .next (s.setLens key { l with clock := Nat.min 4 (l.clock + 1) }) ∧
      exec (.thermalStep key false) s = .next (s.setLens key { l with clock := Nat.max 2 (l.clock - 1) }) ∧
      Gives (.droopStretch key) s fun t => t.cores = s.cores ∧ SameMemory s t ∧
        t.lens key = { l with stretched := l.stretched + 1 })) ∧
  (∀ (s : State) (cl : Nat) (cls : Bool), cl < 48 → s.fw.powered = true → s.fw.booted = true →
    let k := s.cluster cl
    (k.cls = cls → exec (.vtclassChange cl cls) s = .next s) ∧
    (k.cls ≠ cls → Gives (.vtclassChange cl cls) s fun t => t.cores = s.cores ∧ SameMemory s t ∧
      t.cluster cl = { k with cls := cls, chg := k.chg + 1 } ∧
      Tab.at t.fw.loupe.vtChanges cl 0 = Tab.at s.fw.loupe.vtChanges cl 0 + 1)) ∧
  (∀ (s : State) (bank block : Nat), bank < 6144 → block < 4096 → s.fw.powered = true →
    let bad := s.hasErr (bankKey bank (64 * block)) 64
    (bad = false → exec (.patrolScrub bank block) s = .next s) ∧
    (bad = true → Gives (.patrolScrub bank block) s fun t => t.cores = s.cores ∧ SameMemory s t ∧
      t.fw.service = s.fw.service ++ [.scrubbed bank block])) ∧
  (∀ (s : State) (r : SlotRef), r.core < 768 → r.slot < 8 → s.fw.powered = true → s.fw.booted = true →
    exec .loupeLog s = .next (({ s with fw := { s.fw with service := s.fw.service ++ [.lifetime s.fw.loupe] } } : State).later
      1200000000000 .loupeLog) ∧
    (s.fw.debug = true → exec (.loupeClaim r.core r.slot) s = .next (s.setSlot r { s.slot r with claimed := true })) ∧
    (s.fw.debug = false → exec (.loupeClaim r.core r.slot) s =
      .next { s with fw := { s.fw with service := s.fw.service ++ [.claimRefused r.core r.slot] } }) ∧
    ((s.slot r).claimed = true →
      exec (.loupeSingleStep r.core r.slot) s = .next (s.setSlot r { s.slot r with oneStep := true })) ∧
    ((s.slot r).claimed = false → exec (.loupeSingleStep r.core r.slot) s = .next s))

/-- Boot, firmware, ownership and measurements (R293, R363, R395 to R398): device reset boots the selected image, else the
other one, else none, and leaves every slot UNBOUND and every bank pooled; an update writes the slot that was not booted
from and selects it only when it is valid; a commit raises the fused minimum; a verified release token starts the
journalled erase; a claim installs a new owner where there is none; GET_MEASUREMENTS answers the latest digest of each
kind and one of the whole log; rank programs and walk routines are loaded only with their measurement. Model choices: log
entries 4, 19, 27 and 28. -/
def Obligations.FirmwareComplete : Prop :=
  (∀ (s : State), s.fw.powered = true →
    let f := s.fw
    let first := if f.selectorB then f.slotB else f.slotA
    let second := if f.selectorB then f.slotA else f.slotB
    let good (i : FwImage) : Prop := i.tagOk = true ∧ i.digestOk = true ∧ i.makerOk = true ∧ f.owner = some i.ownerKey ∧
      f.minSvn ≤ i.svn
    let clean (t : State) : Prop := t.now = 0 ∧ t.agenda = s.agenda.filter Due.outside ∧ (∀ q, t.slot q = Slot.reset) ∧
      (∀ b, t.bank b = Bank.reset) ∧ t.packets = [] ∧ t.lenses = [] ∧ t.fe.tasks = [] ∧ t.fe.queues = [] ∧ t.fe.pifo = []
    let held (t : State) : Prop := s.fe.loads = [] → SameMemory (s.setDie 0) t
    (f.erasing = true → Gives .deviceReset s fun t => clean t ∧ held t ∧ t.fw.booted = false ∧ t.fw.owner = none ∧
      t.fw.secrets = none ∧ t.fw.erasing = false) ∧
    (f.erasing = false →
    (good first → Gives .deviceReset s fun t => clean t ∧ held t ∧ t.fw.booted = true ∧ t.fw.bootFailed = false ∧
      t.fw.bootedB = f.selectorB ∧ t.fw.bootedSvn = first.svn ∧ t.fw.debug = first.debug ∧
      t.fw.log.map (fun e => e.1) = [1, 2, 3, 4] ∧ t.fw.loupe.verifyFails = f.loupe.verifyFails) ∧
    (¬good first → good second → Gives .deviceReset s fun t => clean t ∧ held t ∧ t.fw.booted = true ∧
      t.fw.bootedB = (!f.selectorB) ∧ t.fw.bootedSvn = second.svn ∧ t.fw.loupe.verifyFails = f.loupe.verifyFails + 1) ∧
    (¬good first → ¬good second → Gives .deviceReset s fun t => clean t ∧ held t ∧ t.fw.booted = false ∧
      (f.owner.isSome = true → t.fw.bootFailed = true)))) ∧
  (∀ (s : State), s.fw.powered = true → s.fw.booted = true →
    let f := s.fw
    let now (g : Firmware) : Host.Outcome State Fault Refusal := .next { s with fw := g }
    (∀ i : FwImage,
      let stored := if f.bootedB then { f with slotA := i } else { f with slotB := i }
      let valid : Prop := i.tagOk = true ∧ i.digestOk = true ∧ i.makerOk = true ∧ f.owner = some i.ownerKey ∧ f.minSvn ≤ i.svn
      (valid → exec (.firmwareUpdate i) s = now { stored with selectorB := !f.bootedB }) ∧
      (¬valid → exec (.firmwareUpdate i) s = now { stored with
        loupe := { f.loupe with verifyFails := f.loupe.verifyFails + 1 } })) ∧
    exec .svnCommit s = now { f with minSvn := Nat.max f.minSvn f.bootedSvn } ∧
    (f.owner.isSome = true → exec (.ownershipRelease f.serial (Config.nonce f.nonce) true) s =
      now { f with erasing := true, nonce := f.nonce + 1 }) ∧
    (∀ serial nonce ok, (ok = false ∨ serial ≠ f.serial ∨ nonce ≠ Config.nonce f.nonce ∨ f.owner = none) →
      exec (.ownershipRelease serial nonce ok) s = .next s) ∧
    (∀ key, f.owner = none → exec (.ownerClaim key f.serial true) s = .next { s with
      fw := { f with owner := some key, secrets := some s.free }, free := s.free + 1 }) ∧
    (∀ key serial ok, (f.owner.isSome = true ∨ ok = false ∨ serial ≠ f.serial) → exec (.ownerClaim key serial ok) s = .next s) ∧
    (∀ prog digest, prog.length ≤ 16 → (∀ o ∈ prog, RankOp.ok o = true) → f.log.length < 256 →
      exec (.rankProgramLoad prog digest) s = .next { s with
        fe := { s.fe with rank := prog }, fw := { f with log := f.log ++ [(6, digest)] } }) ∧
    (∀ prog digest, (16 < prog.length ∨ 256 ≤ f.log.length) → exec (.rankProgramLoad prog digest) s = .next s) ∧
    (∀ digest, f.log.length < 256 → exec (.routineStoreLoad digest) s =
      now { f with log := f.log ++ [(5, digest)], routineDigest := digest }) ∧
    (∀ digest, 256 ≤ f.log.length → exec (.routineStoreLoad digest) s = .next s)) ∧
  (∀ (s : State), s.fw.powered = true → Gives .getMeasurements s fun t => t = { s with fw := { s.fw with answer := t.fw.answer } } ∧
    (∀ k d, 1 ≤ k → k ≤ 6 → ((k, d) ∈ t.fw.answer ↔ ∃ a b, s.fw.log = a ++ (k, d) :: b ∧ ∀ e ∈ b, e.1 ≠ k)) ∧
    (0, Config.logDigest s.fw.log) ∈ t.fw.answer)

/-! ### Reset and the form of memory -/

/-- The state after device reset (R9, R11, R25, R37, R87, R124, R136, R214, R231, R252, R265, R269, R272, R315, R351, R395;
log entries 1 and 4): every slot is UNBOUND with H = 0 and the system registers at their reset values, every bank is pooled,
no packet, lens, task or address record exists, time is 0, memory lists nothing and is in its canonical form, and the boot
comes next. -/
def Obligations.ResetLeavesTheMachineIdle : Prop :=
  let s := State.reset
  let sl := Slot.reset
  (∀ q, s.slot q = sl) ∧
  (sl.life = Life.unbound ∧ sl.pc = 0 ∧ sl.h = false ∧ sl.fvec = 0 ∧ sl.epc = 0 ∧ sl.fcause = 0 ∧ sl.faddr = 0 ∧ sl.finfo = 0 ∧
    sl.fhen = 0 ∧ sl.fpctl = 0 ∧ sl.istat = 0 ∧ sl.vstat = 0) ∧
  (sl.reload = 0 ∧ sl.left = 0 ∧ sl.bstat = 0 ∧ sl.notify = 0 ∧ sl.wovf = false ∧ sl.lstate = 0 ∧ sl.loop1.remaining = 0 ∧
    sl.loop2.remaining = 0) ∧
  (∀ r, sl.gr r = 0) ∧ (∀ r k, vlane (sl.vr r) k = 0) ∧ (∀ r, sl.pr r = (r == 0)) ∧ (∀ r, sl.mr r = if r = 0 then BitVec.allOnes 64 else 0) ∧
  (∀ c, (s.core c).cseq = 1 ∧ (∀ n, ((s.core c).node n).st = NodeSt.free) ∧ (∀ e, (s.core c).bm e = 0) ∧
    (∀ a, ((s.core c).ag a).st = AgSt.empty) ∧ (s.core c).miss = 0 ∧ (s.core c).latch = 0 ∧ (s.core c).retired = false) ∧
  (∀ b, (s.bank b).st = BankSt.pooled) ∧ s.packets = [] ∧ (∀ l, (s.lens l).st = LensSt.unfused) ∧ s.fe.tasks = [] ∧
  s.fe.pifo = [] ∧ (∀ q, (s.queue q).en = false) ∧ s.now = 0 ∧ s.mem = [] ∧ s.MemoryCanonical ∧
  s.coming = [(1, Instr.deviceReset)] ∧ s.agenda = []

/-- Every step keeps the canonical form of memory (R20, R265, R291): addresses strictly rising, and no byte listed that an
unlisted address reads as; so equal memories are equal data. Model choices: log entry 3. -/
def Obligations.StepKeepsMemoryCanonical : Prop :=
  ∀ s t : State, s.MemoryCanonical → step s = .next t → t.MemoryCanonical
end

