-- ==== Sys2Proof/Laws/Tab.lean ====
section
/-! SUPPORT. Tables: what an entry reads as after another was set. -/

namespace Sys2Proof

@[simp] theorem Tab.find_put (t : Tab β) (k : Nat) (v : β) : Tab.find (Tab.put t k v) k = some v := by
  induction t with
  | nil => simp [Tab.put, Tab.find]
  | cons p r ih =>
    obtain ⟨j, u⟩ := p
    unfold Tab.put
    split
    · simp [Tab.find]
    · split
      · simp [Tab.find]
      · rename_i h; simp [Tab.find, Ne.symm h, ih]

theorem Tab.find_put_ne (t : Tab β) (k j : Nat) (v : β) (h : j ≠ k) : Tab.find (Tab.put t k v) j = Tab.find t j := by
  induction t with
  | nil => simp [Tab.put, Tab.find, Ne.symm h]
  | cons p r ih =>
    obtain ⟨i, u⟩ := p
    unfold Tab.put
    split
    · simp [Tab.find, Ne.symm h]
    · split
      · subst_vars; simp [Tab.find, Ne.symm h]
      · simp [Tab.find, ih]

@[simp] theorem Tab.at_put (t : Tab β) (k : Nat) (v d : β) : Tab.at (Tab.put t k v) k d = v := by
  simp [Tab.at]

theorem Tab.at_put_ne (t : Tab β) (k j : Nat) (v d : β) (h : j ≠ k) : Tab.at (Tab.put t k v) j d = Tab.at t j d := by
  simp [Tab.at, Tab.find_put_ne t k j v h]

@[simp] theorem Tab.put_put (t : Tab β) (k : Nat) (u v : β) : Tab.put (Tab.put t k u) k v = Tab.put t k v := by
  induction t with
  | nil => simp [Tab.put]
  | cons p r ih =>
    obtain ⟨i, w⟩ := p
    by_cases h : k < i
    · simp [Tab.put, h]
    · by_cases e : k = i
      · simp [Tab.put, e]
      · simp [Tab.put, h, e, ih]

@[simp] theorem Tab.find_drop (t : Tab β) (k : Nat) : Tab.find (Tab.drop t k) k = none := by
  induction t with
  | nil => rfl
  | cons p r ih =>
    obtain ⟨j, u⟩ := p
    by_cases h : j = k <;> simp_all [Tab.drop, Tab.find]

theorem Tab.find_drop_ne (t : Tab β) (k j : Nat) (h : j ≠ k) : Tab.find (Tab.drop t k) j = Tab.find t j := by
  induction t with
  | nil => rfl
  | cons p r ih =>
    obtain ⟨i, u⟩ := p
    by_cases e : i = k
    · subst e; simp_all [Tab.drop, Tab.find, Ne.symm h]
    · simp_all [Tab.drop, Tab.find]

@[simp] theorem Tab.at_store [DecidableEq β] (t : Tab β) (d : β) (k : Nat) (v : β) : Tab.at (Tab.store t d k v) k d = v := by
  by_cases h : v = d <;> simp [Tab.store, Tab.at, h]

theorem Tab.at_store_ne [DecidableEq β] (t : Tab β) (d : β) (k j : Nat) (v : β) (h : j ≠ k) :
    Tab.at (Tab.store t d k v) j d = Tab.at t j d := by
  by_cases e : v = d <;> simp [Tab.store, Tab.at, e, Tab.find_drop_ne t k j h, Tab.find_put_ne t k j v h]

end Sys2Proof
end

