-- ==== Sys2Proof/Laws/State.lean ====
section
/-! SUPPORT. What each update of the state leaves: one lemma per field per update, so that no proof unfolds a record. -/

namespace Sys2Proof.Machine

/-! ### State.setCore -/

section

variable (s : State) (c : Nat) (x : Core)

@[simp] theorem State.setCore_now : (s.setCore c x).now = s.now := rfl
@[simp] theorem State.setCore_coming : (s.setCore c x).coming = s.coming := rfl
@[simp] theorem State.setCore_works : (s.setCore c x).works = s.works := rfl
@[simp] theorem State.setCore_agenda : (s.setCore c x).agenda = s.agenda := rfl
@[simp] theorem State.setCore_back : (s.setCore c x).back = s.back := rfl
@[simp] theorem State.setCore_phase : (s.setCore c x).phase = s.phase := rfl
@[simp] theorem State.setCore_cur : (s.setCore c x).cur = s.cur := rfl
@[simp] theorem State.setCore_extra : (s.setCore c x).extra = s.extra := rfl
@[simp] theorem State.setCore_free : (s.setCore c x).free = s.free := rfl
@[simp] theorem State.setCore_nextPkt : (s.setCore c x).nextPkt = s.nextPkt := rfl
@[simp] theorem State.setCore_cores : (s.setCore c x).cores = Tab.put s.cores c x := rfl
@[simp] theorem State.setCore_clusters : (s.setCore c x).clusters = s.clusters := rfl
@[simp] theorem State.setCore_banks : (s.setCore c x).banks = s.banks := rfl
@[simp] theorem State.setCore_mem : (s.setCore c x).mem = s.mem := rfl
@[simp] theorem State.setCore_memErr : (s.setCore c x).memErr = s.memErr := rfl
@[simp] theorem State.setCore_packets : (s.setCore c x).packets = s.packets := rfl
@[simp] theorem State.setCore_lenses : (s.setCore c x).lenses = s.lenses := rfl
@[simp] theorem State.setCore_chans : (s.setCore c x).chans = s.chans := rfl
@[simp] theorem State.setCore_fe : (s.setCore c x).fe = s.fe := rfl
@[simp] theorem State.setCore_links : (s.setCore c x).links = s.links := rfl
@[simp] theorem State.setCore_defects : (s.setCore c x).defects = s.defects := rfl
@[simp] theorem State.setCore_pbeat : (s.setCore c x).pbeat = s.pbeat := rfl
@[simp] theorem State.setCore_fw : (s.setCore c x).fw = s.fw := rfl

end

/-! ### State.modCore -/

section

variable (s : State) (c : Nat) (f : Core → Core)

@[simp] theorem State.modCore_now : (s.modCore c f).now = s.now := rfl
@[simp] theorem State.modCore_coming : (s.modCore c f).coming = s.coming := rfl
@[simp] theorem State.modCore_works : (s.modCore c f).works = s.works := rfl
@[simp] theorem State.modCore_agenda : (s.modCore c f).agenda = s.agenda := rfl
@[simp] theorem State.modCore_back : (s.modCore c f).back = s.back := rfl
@[simp] theorem State.modCore_phase : (s.modCore c f).phase = s.phase := rfl
@[simp] theorem State.modCore_cur : (s.modCore c f).cur = s.cur := rfl
@[simp] theorem State.modCore_extra : (s.modCore c f).extra = s.extra := rfl
@[simp] theorem State.modCore_free : (s.modCore c f).free = s.free := rfl
@[simp] theorem State.modCore_nextPkt : (s.modCore c f).nextPkt = s.nextPkt := rfl
@[simp] theorem State.modCore_cores : (s.modCore c f).cores = Tab.put s.cores c (f (s.core c)) := rfl
@[simp] theorem State.modCore_clusters : (s.modCore c f).clusters = s.clusters := rfl
@[simp] theorem State.modCore_banks : (s.modCore c f).banks = s.banks := rfl
@[simp] theorem State.modCore_mem : (s.modCore c f).mem = s.mem := rfl
@[simp] theorem State.modCore_memErr : (s.modCore c f).memErr = s.memErr := rfl
@[simp] theorem State.modCore_packets : (s.modCore c f).packets = s.packets := rfl
@[simp] theorem State.modCore_lenses : (s.modCore c f).lenses = s.lenses := rfl
@[simp] theorem State.modCore_chans : (s.modCore c f).chans = s.chans := rfl
@[simp] theorem State.modCore_fe : (s.modCore c f).fe = s.fe := rfl
@[simp] theorem State.modCore_links : (s.modCore c f).links = s.links := rfl
@[simp] theorem State.modCore_defects : (s.modCore c f).defects = s.defects := rfl
@[simp] theorem State.modCore_pbeat : (s.modCore c f).pbeat = s.pbeat := rfl
@[simp] theorem State.modCore_fw : (s.modCore c f).fw = s.fw := rfl

end

/-! ### State.setSlot -/

section

variable (s : State) (r : SlotRef) (x : Slot)

@[simp] theorem State.setSlot_now : (s.setSlot r x).now = s.now := rfl
@[simp] theorem State.setSlot_coming : (s.setSlot r x).coming = s.coming := rfl
@[simp] theorem State.setSlot_works : (s.setSlot r x).works = s.works := rfl
@[simp] theorem State.setSlot_agenda : (s.setSlot r x).agenda = s.agenda := rfl
@[simp] theorem State.setSlot_back : (s.setSlot r x).back = s.back := rfl
@[simp] theorem State.setSlot_phase : (s.setSlot r x).phase = s.phase := rfl
@[simp] theorem State.setSlot_cur : (s.setSlot r x).cur = s.cur := rfl
@[simp] theorem State.setSlot_extra : (s.setSlot r x).extra = s.extra := rfl
@[simp] theorem State.setSlot_free : (s.setSlot r x).free = s.free := rfl
@[simp] theorem State.setSlot_nextPkt : (s.setSlot r x).nextPkt = s.nextPkt := rfl
@[simp] theorem State.setSlot_cores : (s.setSlot r x).cores = Tab.put s.cores r.core ((s.core r.core).setSlot r.slot x) := rfl
@[simp] theorem State.setSlot_clusters : (s.setSlot r x).clusters = s.clusters := rfl
@[simp] theorem State.setSlot_banks : (s.setSlot r x).banks = s.banks := rfl
@[simp] theorem State.setSlot_mem : (s.setSlot r x).mem = s.mem := rfl
@[simp] theorem State.setSlot_memErr : (s.setSlot r x).memErr = s.memErr := rfl
@[simp] theorem State.setSlot_packets : (s.setSlot r x).packets = s.packets := rfl
@[simp] theorem State.setSlot_lenses : (s.setSlot r x).lenses = s.lenses := rfl
@[simp] theorem State.setSlot_chans : (s.setSlot r x).chans = s.chans := rfl
@[simp] theorem State.setSlot_fe : (s.setSlot r x).fe = s.fe := rfl
@[simp] theorem State.setSlot_links : (s.setSlot r x).links = s.links := rfl
@[simp] theorem State.setSlot_defects : (s.setSlot r x).defects = s.defects := rfl
@[simp] theorem State.setSlot_pbeat : (s.setSlot r x).pbeat = s.pbeat := rfl
@[simp] theorem State.setSlot_fw : (s.setSlot r x).fw = s.fw := rfl

end

/-! ### State.modSlot -/

section

variable (s : State) (r : SlotRef) (f : Slot → Slot)

@[simp] theorem State.modSlot_now : (s.modSlot r f).now = s.now := rfl
@[simp] theorem State.modSlot_coming : (s.modSlot r f).coming = s.coming := rfl
@[simp] theorem State.modSlot_works : (s.modSlot r f).works = s.works := rfl
@[simp] theorem State.modSlot_agenda : (s.modSlot r f).agenda = s.agenda := rfl
@[simp] theorem State.modSlot_back : (s.modSlot r f).back = s.back := rfl
@[simp] theorem State.modSlot_phase : (s.modSlot r f).phase = s.phase := rfl
@[simp] theorem State.modSlot_cur : (s.modSlot r f).cur = s.cur := rfl
@[simp] theorem State.modSlot_extra : (s.modSlot r f).extra = s.extra := rfl
@[simp] theorem State.modSlot_free : (s.modSlot r f).free = s.free := rfl
@[simp] theorem State.modSlot_nextPkt : (s.modSlot r f).nextPkt = s.nextPkt := rfl
@[simp] theorem State.modSlot_cores : (s.modSlot r f).cores = Tab.put s.cores r.core ((s.core r.core).setSlot r.slot (f (s.slot r))) := rfl
@[simp] theorem State.modSlot_clusters : (s.modSlot r f).clusters = s.clusters := rfl
@[simp] theorem State.modSlot_banks : (s.modSlot r f).banks = s.banks := rfl
@[simp] theorem State.modSlot_mem : (s.modSlot r f).mem = s.mem := rfl
@[simp] theorem State.modSlot_memErr : (s.modSlot r f).memErr = s.memErr := rfl
@[simp] theorem State.modSlot_packets : (s.modSlot r f).packets = s.packets := rfl
@[simp] theorem State.modSlot_lenses : (s.modSlot r f).lenses = s.lenses := rfl
@[simp] theorem State.modSlot_chans : (s.modSlot r f).chans = s.chans := rfl
@[simp] theorem State.modSlot_fe : (s.modSlot r f).fe = s.fe := rfl
@[simp] theorem State.modSlot_links : (s.modSlot r f).links = s.links := rfl
@[simp] theorem State.modSlot_defects : (s.modSlot r f).defects = s.defects := rfl
@[simp] theorem State.modSlot_pbeat : (s.modSlot r f).pbeat = s.pbeat := rfl
@[simp] theorem State.modSlot_fw : (s.modSlot r f).fw = s.fw := rfl

end

/-! ### State.modMe -/

section

variable (s : State) (f : Slot → Slot)

@[simp] theorem State.modMe_now : (s.modMe f).now = s.now := rfl
@[simp] theorem State.modMe_coming : (s.modMe f).coming = s.coming := rfl
@[simp] theorem State.modMe_works : (s.modMe f).works = s.works := rfl
@[simp] theorem State.modMe_agenda : (s.modMe f).agenda = s.agenda := rfl
@[simp] theorem State.modMe_back : (s.modMe f).back = s.back := rfl
@[simp] theorem State.modMe_phase : (s.modMe f).phase = s.phase := rfl
@[simp] theorem State.modMe_cur : (s.modMe f).cur = s.cur := rfl
@[simp] theorem State.modMe_extra : (s.modMe f).extra = s.extra := rfl
@[simp] theorem State.modMe_free : (s.modMe f).free = s.free := rfl
@[simp] theorem State.modMe_nextPkt : (s.modMe f).nextPkt = s.nextPkt := rfl
@[simp] theorem State.modMe_cores : (s.modMe f).cores = Tab.put s.cores s.cur.core ((s.core s.cur.core).setSlot s.cur.slot (f s.me)) := rfl
@[simp] theorem State.modMe_clusters : (s.modMe f).clusters = s.clusters := rfl
@[simp] theorem State.modMe_banks : (s.modMe f).banks = s.banks := rfl
@[simp] theorem State.modMe_mem : (s.modMe f).mem = s.mem := rfl
@[simp] theorem State.modMe_memErr : (s.modMe f).memErr = s.memErr := rfl
@[simp] theorem State.modMe_packets : (s.modMe f).packets = s.packets := rfl
@[simp] theorem State.modMe_lenses : (s.modMe f).lenses = s.lenses := rfl
@[simp] theorem State.modMe_chans : (s.modMe f).chans = s.chans := rfl
@[simp] theorem State.modMe_fe : (s.modMe f).fe = s.fe := rfl
@[simp] theorem State.modMe_links : (s.modMe f).links = s.links := rfl
@[simp] theorem State.modMe_defects : (s.modMe f).defects = s.defects := rfl
@[simp] theorem State.modMe_pbeat : (s.modMe f).pbeat = s.pbeat := rfl
@[simp] theorem State.modMe_fw : (s.modMe f).fw = s.fw := rfl

end

/-! ### State.modMyCore -/

section

variable (s : State) (f : Core → Core)

@[simp] theorem State.modMyCore_now : (s.modMyCore f).now = s.now := rfl
@[simp] theorem State.modMyCore_coming : (s.modMyCore f).coming = s.coming := rfl
@[simp] theorem State.modMyCore_works : (s.modMyCore f).works = s.works := rfl
@[simp] theorem State.modMyCore_agenda : (s.modMyCore f).agenda = s.agenda := rfl
@[simp] theorem State.modMyCore_back : (s.modMyCore f).back = s.back := rfl
@[simp] theorem State.modMyCore_phase : (s.modMyCore f).phase = s.phase := rfl
@[simp] theorem State.modMyCore_cur : (s.modMyCore f).cur = s.cur := rfl
@[simp] theorem State.modMyCore_extra : (s.modMyCore f).extra = s.extra := rfl
@[simp] theorem State.modMyCore_free : (s.modMyCore f).free = s.free := rfl
@[simp] theorem State.modMyCore_nextPkt : (s.modMyCore f).nextPkt = s.nextPkt := rfl
@[simp] theorem State.modMyCore_cores : (s.modMyCore f).cores = Tab.put s.cores s.cur.core (f s.myCore) := rfl
@[simp] theorem State.modMyCore_clusters : (s.modMyCore f).clusters = s.clusters := rfl
@[simp] theorem State.modMyCore_banks : (s.modMyCore f).banks = s.banks := rfl
@[simp] theorem State.modMyCore_mem : (s.modMyCore f).mem = s.mem := rfl
@[simp] theorem State.modMyCore_memErr : (s.modMyCore f).memErr = s.memErr := rfl
@[simp] theorem State.modMyCore_packets : (s.modMyCore f).packets = s.packets := rfl
@[simp] theorem State.modMyCore_lenses : (s.modMyCore f).lenses = s.lenses := rfl
@[simp] theorem State.modMyCore_chans : (s.modMyCore f).chans = s.chans := rfl
@[simp] theorem State.modMyCore_fe : (s.modMyCore f).fe = s.fe := rfl
@[simp] theorem State.modMyCore_links : (s.modMyCore f).links = s.links := rfl
@[simp] theorem State.modMyCore_defects : (s.modMyCore f).defects = s.defects := rfl
@[simp] theorem State.modMyCore_pbeat : (s.modMyCore f).pbeat = s.pbeat := rfl
@[simp] theorem State.modMyCore_fw : (s.modMyCore f).fw = s.fw := rfl

end

/-! ### State.modCluster -/

section

variable (s : State) (c : Nat) (f : Cluster → Cluster)

@[simp] theorem State.modCluster_now : (s.modCluster c f).now = s.now := rfl
@[simp] theorem State.modCluster_coming : (s.modCluster c f).coming = s.coming := rfl
@[simp] theorem State.modCluster_works : (s.modCluster c f).works = s.works := rfl
@[simp] theorem State.modCluster_agenda : (s.modCluster c f).agenda = s.agenda := rfl
@[simp] theorem State.modCluster_back : (s.modCluster c f).back = s.back := rfl
@[simp] theorem State.modCluster_phase : (s.modCluster c f).phase = s.phase := rfl
@[simp] theorem State.modCluster_cur : (s.modCluster c f).cur = s.cur := rfl
@[simp] theorem State.modCluster_extra : (s.modCluster c f).extra = s.extra := rfl
@[simp] theorem State.modCluster_free : (s.modCluster c f).free = s.free := rfl
@[simp] theorem State.modCluster_nextPkt : (s.modCluster c f).nextPkt = s.nextPkt := rfl
@[simp] theorem State.modCluster_cores : (s.modCluster c f).cores = s.cores := rfl
@[simp] theorem State.modCluster_clusters : (s.modCluster c f).clusters = Tab.put s.clusters c (f (s.cluster c)) := rfl
@[simp] theorem State.modCluster_banks : (s.modCluster c f).banks = s.banks := rfl
@[simp] theorem State.modCluster_mem : (s.modCluster c f).mem = s.mem := rfl
@[simp] theorem State.modCluster_memErr : (s.modCluster c f).memErr = s.memErr := rfl
@[simp] theorem State.modCluster_packets : (s.modCluster c f).packets = s.packets := rfl
@[simp] theorem State.modCluster_lenses : (s.modCluster c f).lenses = s.lenses := rfl
@[simp] theorem State.modCluster_chans : (s.modCluster c f).chans = s.chans := rfl
@[simp] theorem State.modCluster_fe : (s.modCluster c f).fe = s.fe := rfl
@[simp] theorem State.modCluster_links : (s.modCluster c f).links = s.links := rfl
@[simp] theorem State.modCluster_defects : (s.modCluster c f).defects = s.defects := rfl
@[simp] theorem State.modCluster_pbeat : (s.modCluster c f).pbeat = s.pbeat := rfl
@[simp] theorem State.modCluster_fw : (s.modCluster c f).fw = s.fw := rfl

end

/-! ### State.modBank -/

section

variable (s : State) (b : Nat) (f : Bank → Bank)

@[simp] theorem State.modBank_now : (s.modBank b f).now = s.now := rfl
@[simp] theorem State.modBank_coming : (s.modBank b f).coming = s.coming := rfl
@[simp] theorem State.modBank_works : (s.modBank b f).works = s.works := rfl
@[simp] theorem State.modBank_agenda : (s.modBank b f).agenda = s.agenda := rfl
@[simp] theorem State.modBank_back : (s.modBank b f).back = s.back := rfl
@[simp] theorem State.modBank_phase : (s.modBank b f).phase = s.phase := rfl
@[simp] theorem State.modBank_cur : (s.modBank b f).cur = s.cur := rfl
@[simp] theorem State.modBank_extra : (s.modBank b f).extra = s.extra := rfl
@[simp] theorem State.modBank_free : (s.modBank b f).free = s.free := rfl
@[simp] theorem State.modBank_nextPkt : (s.modBank b f).nextPkt = s.nextPkt := rfl
@[simp] theorem State.modBank_cores : (s.modBank b f).cores = s.cores := rfl
@[simp] theorem State.modBank_clusters : (s.modBank b f).clusters = s.clusters := rfl
@[simp] theorem State.modBank_banks : (s.modBank b f).banks = Tab.put s.banks b (f (s.bank b)) := rfl
@[simp] theorem State.modBank_mem : (s.modBank b f).mem = s.mem := rfl
@[simp] theorem State.modBank_memErr : (s.modBank b f).memErr = s.memErr := rfl
@[simp] theorem State.modBank_packets : (s.modBank b f).packets = s.packets := rfl
@[simp] theorem State.modBank_lenses : (s.modBank b f).lenses = s.lenses := rfl
@[simp] theorem State.modBank_chans : (s.modBank b f).chans = s.chans := rfl
@[simp] theorem State.modBank_fe : (s.modBank b f).fe = s.fe := rfl
@[simp] theorem State.modBank_links : (s.modBank b f).links = s.links := rfl
@[simp] theorem State.modBank_defects : (s.modBank b f).defects = s.defects := rfl
@[simp] theorem State.modBank_pbeat : (s.modBank b f).pbeat = s.pbeat := rfl
@[simp] theorem State.modBank_fw : (s.modBank b f).fw = s.fw := rfl

end

/-! ### State.setLens -/

section

variable (s : State) (l : Nat) (x : Lens)

@[simp] theorem State.setLens_now : (s.setLens l x).now = s.now := rfl
@[simp] theorem State.setLens_coming : (s.setLens l x).coming = s.coming := rfl
@[simp] theorem State.setLens_works : (s.setLens l x).works = s.works := rfl
@[simp] theorem State.setLens_agenda : (s.setLens l x).agenda = s.agenda := rfl
@[simp] theorem State.setLens_back : (s.setLens l x).back = s.back := rfl
@[simp] theorem State.setLens_phase : (s.setLens l x).phase = s.phase := rfl
@[simp] theorem State.setLens_cur : (s.setLens l x).cur = s.cur := rfl
@[simp] theorem State.setLens_extra : (s.setLens l x).extra = s.extra := rfl
@[simp] theorem State.setLens_free : (s.setLens l x).free = s.free := rfl
@[simp] theorem State.setLens_nextPkt : (s.setLens l x).nextPkt = s.nextPkt := rfl
@[simp] theorem State.setLens_cores : (s.setLens l x).cores = s.cores := rfl
@[simp] theorem State.setLens_clusters : (s.setLens l x).clusters = s.clusters := rfl
@[simp] theorem State.setLens_banks : (s.setLens l x).banks = s.banks := rfl
@[simp] theorem State.setLens_mem : (s.setLens l x).mem = s.mem := rfl
@[simp] theorem State.setLens_memErr : (s.setLens l x).memErr = s.memErr := rfl
@[simp] theorem State.setLens_packets : (s.setLens l x).packets = s.packets := rfl
@[simp] theorem State.setLens_lenses : (s.setLens l x).lenses = Tab.put s.lenses l x := rfl
@[simp] theorem State.setLens_chans : (s.setLens l x).chans = s.chans := rfl
@[simp] theorem State.setLens_fe : (s.setLens l x).fe = s.fe := rfl
@[simp] theorem State.setLens_links : (s.setLens l x).links = s.links := rfl
@[simp] theorem State.setLens_defects : (s.setLens l x).defects = s.defects := rfl
@[simp] theorem State.setLens_pbeat : (s.setLens l x).pbeat = s.pbeat := rfl
@[simp] theorem State.setLens_fw : (s.setLens l x).fw = s.fw := rfl

end

/-! ### State.modLens -/

section

variable (s : State) (l : Nat) (f : Lens → Lens)

@[simp] theorem State.modLens_now : (s.modLens l f).now = s.now := rfl
@[simp] theorem State.modLens_coming : (s.modLens l f).coming = s.coming := rfl
@[simp] theorem State.modLens_works : (s.modLens l f).works = s.works := rfl
@[simp] theorem State.modLens_agenda : (s.modLens l f).agenda = s.agenda := rfl
@[simp] theorem State.modLens_back : (s.modLens l f).back = s.back := rfl
@[simp] theorem State.modLens_phase : (s.modLens l f).phase = s.phase := rfl
@[simp] theorem State.modLens_cur : (s.modLens l f).cur = s.cur := rfl
@[simp] theorem State.modLens_extra : (s.modLens l f).extra = s.extra := rfl
@[simp] theorem State.modLens_free : (s.modLens l f).free = s.free := rfl
@[simp] theorem State.modLens_nextPkt : (s.modLens l f).nextPkt = s.nextPkt := rfl
@[simp] theorem State.modLens_cores : (s.modLens l f).cores = s.cores := rfl
@[simp] theorem State.modLens_clusters : (s.modLens l f).clusters = s.clusters := rfl
@[simp] theorem State.modLens_banks : (s.modLens l f).banks = s.banks := rfl
@[simp] theorem State.modLens_mem : (s.modLens l f).mem = s.mem := rfl
@[simp] theorem State.modLens_memErr : (s.modLens l f).memErr = s.memErr := rfl
@[simp] theorem State.modLens_packets : (s.modLens l f).packets = s.packets := rfl
@[simp] theorem State.modLens_lenses : (s.modLens l f).lenses = Tab.put s.lenses l (f (s.lens l)) := rfl
@[simp] theorem State.modLens_chans : (s.modLens l f).chans = s.chans := rfl
@[simp] theorem State.modLens_fe : (s.modLens l f).fe = s.fe := rfl
@[simp] theorem State.modLens_links : (s.modLens l f).links = s.links := rfl
@[simp] theorem State.modLens_defects : (s.modLens l f).defects = s.defects := rfl
@[simp] theorem State.modLens_pbeat : (s.modLens l f).pbeat = s.pbeat := rfl
@[simp] theorem State.modLens_fw : (s.modLens l f).fw = s.fw := rfl

end

/-! ### State.modChan -/

section

variable (s : State) (k : Nat) (f : Channel → Channel)

@[simp] theorem State.modChan_now : (s.modChan k f).now = s.now := rfl
@[simp] theorem State.modChan_coming : (s.modChan k f).coming = s.coming := rfl
@[simp] theorem State.modChan_works : (s.modChan k f).works = s.works := rfl
@[simp] theorem State.modChan_agenda : (s.modChan k f).agenda = s.agenda := rfl
@[simp] theorem State.modChan_back : (s.modChan k f).back = s.back := rfl
@[simp] theorem State.modChan_phase : (s.modChan k f).phase = s.phase := rfl
@[simp] theorem State.modChan_cur : (s.modChan k f).cur = s.cur := rfl
@[simp] theorem State.modChan_extra : (s.modChan k f).extra = s.extra := rfl
@[simp] theorem State.modChan_free : (s.modChan k f).free = s.free := rfl
@[simp] theorem State.modChan_nextPkt : (s.modChan k f).nextPkt = s.nextPkt := rfl
@[simp] theorem State.modChan_cores : (s.modChan k f).cores = s.cores := rfl
@[simp] theorem State.modChan_clusters : (s.modChan k f).clusters = s.clusters := rfl
@[simp] theorem State.modChan_banks : (s.modChan k f).banks = s.banks := rfl
@[simp] theorem State.modChan_mem : (s.modChan k f).mem = s.mem := rfl
@[simp] theorem State.modChan_memErr : (s.modChan k f).memErr = s.memErr := rfl
@[simp] theorem State.modChan_packets : (s.modChan k f).packets = s.packets := rfl
@[simp] theorem State.modChan_lenses : (s.modChan k f).lenses = s.lenses := rfl
@[simp] theorem State.modChan_chans : (s.modChan k f).chans = Tab.put s.chans k (f (s.chan k)) := rfl
@[simp] theorem State.modChan_fe : (s.modChan k f).fe = s.fe := rfl
@[simp] theorem State.modChan_links : (s.modChan k f).links = s.links := rfl
@[simp] theorem State.modChan_defects : (s.modChan k f).defects = s.defects := rfl
@[simp] theorem State.modChan_pbeat : (s.modChan k f).pbeat = s.pbeat := rfl
@[simp] theorem State.modChan_fw : (s.modChan k f).fw = s.fw := rfl

end

/-! ### State.modFe -/

section

variable (s : State) (f : FrontEnd → FrontEnd)

@[simp] theorem State.modFe_now : (s.modFe f).now = s.now := rfl
@[simp] theorem State.modFe_coming : (s.modFe f).coming = s.coming := rfl
@[simp] theorem State.modFe_works : (s.modFe f).works = s.works := rfl
@[simp] theorem State.modFe_agenda : (s.modFe f).agenda = s.agenda := rfl
@[simp] theorem State.modFe_back : (s.modFe f).back = s.back := rfl
@[simp] theorem State.modFe_phase : (s.modFe f).phase = s.phase := rfl
@[simp] theorem State.modFe_cur : (s.modFe f).cur = s.cur := rfl
@[simp] theorem State.modFe_extra : (s.modFe f).extra = s.extra := rfl
@[simp] theorem State.modFe_free : (s.modFe f).free = s.free := rfl
@[simp] theorem State.modFe_nextPkt : (s.modFe f).nextPkt = s.nextPkt := rfl
@[simp] theorem State.modFe_cores : (s.modFe f).cores = s.cores := rfl
@[simp] theorem State.modFe_clusters : (s.modFe f).clusters = s.clusters := rfl
@[simp] theorem State.modFe_banks : (s.modFe f).banks = s.banks := rfl
@[simp] theorem State.modFe_mem : (s.modFe f).mem = s.mem := rfl
@[simp] theorem State.modFe_memErr : (s.modFe f).memErr = s.memErr := rfl
@[simp] theorem State.modFe_packets : (s.modFe f).packets = s.packets := rfl
@[simp] theorem State.modFe_lenses : (s.modFe f).lenses = s.lenses := rfl
@[simp] theorem State.modFe_chans : (s.modFe f).chans = s.chans := rfl
@[simp] theorem State.modFe_fe : (s.modFe f).fe = f s.fe := rfl
@[simp] theorem State.modFe_links : (s.modFe f).links = s.links := rfl
@[simp] theorem State.modFe_defects : (s.modFe f).defects = s.defects := rfl
@[simp] theorem State.modFe_pbeat : (s.modFe f).pbeat = s.pbeat := rfl
@[simp] theorem State.modFe_fw : (s.modFe f).fw = s.fw := rfl

end

/-! ### State.modFw -/

section

variable (s : State) (f : Firmware → Firmware)

@[simp] theorem State.modFw_now : (s.modFw f).now = s.now := rfl
@[simp] theorem State.modFw_coming : (s.modFw f).coming = s.coming := rfl
@[simp] theorem State.modFw_works : (s.modFw f).works = s.works := rfl
@[simp] theorem State.modFw_agenda : (s.modFw f).agenda = s.agenda := rfl
@[simp] theorem State.modFw_back : (s.modFw f).back = s.back := rfl
@[simp] theorem State.modFw_phase : (s.modFw f).phase = s.phase := rfl
@[simp] theorem State.modFw_cur : (s.modFw f).cur = s.cur := rfl
@[simp] theorem State.modFw_extra : (s.modFw f).extra = s.extra := rfl
@[simp] theorem State.modFw_free : (s.modFw f).free = s.free := rfl
@[simp] theorem State.modFw_nextPkt : (s.modFw f).nextPkt = s.nextPkt := rfl
@[simp] theorem State.modFw_cores : (s.modFw f).cores = s.cores := rfl
@[simp] theorem State.modFw_clusters : (s.modFw f).clusters = s.clusters := rfl
@[simp] theorem State.modFw_banks : (s.modFw f).banks = s.banks := rfl
@[simp] theorem State.modFw_mem : (s.modFw f).mem = s.mem := rfl
@[simp] theorem State.modFw_memErr : (s.modFw f).memErr = s.memErr := rfl
@[simp] theorem State.modFw_packets : (s.modFw f).packets = s.packets := rfl
@[simp] theorem State.modFw_lenses : (s.modFw f).lenses = s.lenses := rfl
@[simp] theorem State.modFw_chans : (s.modFw f).chans = s.chans := rfl
@[simp] theorem State.modFw_fe : (s.modFw f).fe = s.fe := rfl
@[simp] theorem State.modFw_links : (s.modFw f).links = s.links := rfl
@[simp] theorem State.modFw_defects : (s.modFw f).defects = s.defects := rfl
@[simp] theorem State.modFw_pbeat : (s.modFw f).pbeat = s.pbeat := rfl
@[simp] theorem State.modFw_fw : (s.modFw f).fw = f s.fw := rfl

end

/-! ### State.modTask -/

section

variable (s : State) (n : Nat) (f : Task → Task)

@[simp] theorem State.modTask_now : (s.modTask n f).now = s.now := rfl
@[simp] theorem State.modTask_coming : (s.modTask n f).coming = s.coming := rfl
@[simp] theorem State.modTask_works : (s.modTask n f).works = s.works := rfl
@[simp] theorem State.modTask_agenda : (s.modTask n f).agenda = s.agenda := rfl
@[simp] theorem State.modTask_back : (s.modTask n f).back = s.back := rfl
@[simp] theorem State.modTask_phase : (s.modTask n f).phase = s.phase := rfl
@[simp] theorem State.modTask_cur : (s.modTask n f).cur = s.cur := rfl
@[simp] theorem State.modTask_extra : (s.modTask n f).extra = s.extra := rfl
@[simp] theorem State.modTask_free : (s.modTask n f).free = s.free := rfl
@[simp] theorem State.modTask_nextPkt : (s.modTask n f).nextPkt = s.nextPkt := rfl
@[simp] theorem State.modTask_cores : (s.modTask n f).cores = s.cores := rfl
@[simp] theorem State.modTask_clusters : (s.modTask n f).clusters = s.clusters := rfl
@[simp] theorem State.modTask_banks : (s.modTask n f).banks = s.banks := rfl
@[simp] theorem State.modTask_mem : (s.modTask n f).mem = s.mem := rfl
@[simp] theorem State.modTask_memErr : (s.modTask n f).memErr = s.memErr := rfl
@[simp] theorem State.modTask_packets : (s.modTask n f).packets = s.packets := rfl
@[simp] theorem State.modTask_lenses : (s.modTask n f).lenses = s.lenses := rfl
@[simp] theorem State.modTask_chans : (s.modTask n f).chans = s.chans := rfl
@[simp] theorem State.modTask_fe : (s.modTask n f).fe = { s.fe with tasks := Tab.put s.fe.tasks n (f (s.task n)) } := rfl
@[simp] theorem State.modTask_links : (s.modTask n f).links = s.links := rfl
@[simp] theorem State.modTask_defects : (s.modTask n f).defects = s.defects := rfl
@[simp] theorem State.modTask_pbeat : (s.modTask n f).pbeat = s.pbeat := rfl
@[simp] theorem State.modTask_fw : (s.modTask n f).fw = s.fw := rfl

end

/-! ### State.later -/

section

variable (s : State) (d : Nat) (i : Instr)

@[simp] theorem State.later_now : (s.later d i).now = s.now := rfl
@[simp] theorem State.later_coming : (s.later d i).coming = insertBy (fun x => x.1) (s.now + d, i) s.coming := rfl
@[simp] theorem State.later_works : (s.later d i).works = s.works := rfl
@[simp] theorem State.later_agenda : (s.later d i).agenda = s.agenda := rfl
@[simp] theorem State.later_back : (s.later d i).back = s.back := rfl
@[simp] theorem State.later_phase : (s.later d i).phase = s.phase := rfl
@[simp] theorem State.later_cur : (s.later d i).cur = s.cur := rfl
@[simp] theorem State.later_extra : (s.later d i).extra = s.extra := rfl
@[simp] theorem State.later_free : (s.later d i).free = s.free := rfl
@[simp] theorem State.later_nextPkt : (s.later d i).nextPkt = s.nextPkt := rfl
@[simp] theorem State.later_cores : (s.later d i).cores = s.cores := rfl
@[simp] theorem State.later_clusters : (s.later d i).clusters = s.clusters := rfl
@[simp] theorem State.later_banks : (s.later d i).banks = s.banks := rfl
@[simp] theorem State.later_mem : (s.later d i).mem = s.mem := rfl
@[simp] theorem State.later_memErr : (s.later d i).memErr = s.memErr := rfl
@[simp] theorem State.later_packets : (s.later d i).packets = s.packets := rfl
@[simp] theorem State.later_lenses : (s.later d i).lenses = s.lenses := rfl
@[simp] theorem State.later_chans : (s.later d i).chans = s.chans := rfl
@[simp] theorem State.later_fe : (s.later d i).fe = s.fe := rfl
@[simp] theorem State.later_links : (s.later d i).links = s.links := rfl
@[simp] theorem State.later_defects : (s.later d i).defects = s.defects := rfl
@[simp] theorem State.later_pbeat : (s.later d i).pbeat = s.pbeat := rfl
@[simp] theorem State.later_fw : (s.later d i).fw = s.fw := rfl

end

/-! ### State.work -/

section

variable (s : State) (d : Nat) (w : Due)

@[simp] theorem State.work_now : (s.work d w).now = s.now := rfl
@[simp] theorem State.work_coming : (s.work d w).coming = s.coming := rfl
@[simp] theorem State.work_works : (s.work d w).works = insertBy (fun x => x.1) (s.now + d, w) s.works := rfl
@[simp] theorem State.work_agenda : (s.work d w).agenda = s.agenda := rfl
@[simp] theorem State.work_back : (s.work d w).back = s.back := rfl
@[simp] theorem State.work_phase : (s.work d w).phase = s.phase := rfl
@[simp] theorem State.work_cur : (s.work d w).cur = s.cur := rfl
@[simp] theorem State.work_extra : (s.work d w).extra = s.extra := rfl
@[simp] theorem State.work_free : (s.work d w).free = s.free := rfl
@[simp] theorem State.work_nextPkt : (s.work d w).nextPkt = s.nextPkt := rfl
@[simp] theorem State.work_cores : (s.work d w).cores = s.cores := rfl
@[simp] theorem State.work_clusters : (s.work d w).clusters = s.clusters := rfl
@[simp] theorem State.work_banks : (s.work d w).banks = s.banks := rfl
@[simp] theorem State.work_mem : (s.work d w).mem = s.mem := rfl
@[simp] theorem State.work_memErr : (s.work d w).memErr = s.memErr := rfl
@[simp] theorem State.work_packets : (s.work d w).packets = s.packets := rfl
@[simp] theorem State.work_lenses : (s.work d w).lenses = s.lenses := rfl
@[simp] theorem State.work_chans : (s.work d w).chans = s.chans := rfl
@[simp] theorem State.work_fe : (s.work d w).fe = s.fe := rfl
@[simp] theorem State.work_links : (s.work d w).links = s.links := rfl
@[simp] theorem State.work_defects : (s.work d w).defects = s.defects := rfl
@[simp] theorem State.work_pbeat : (s.work d w).pbeat = s.pbeat := rfl
@[simp] theorem State.work_fw : (s.work d w).fw = s.fw := rfl

end

/-! ### State.soon -/

section

variable (s : State) (i : Instr)

@[simp] theorem State.soon_now : (s.soon i).now = s.now := rfl
@[simp] theorem State.soon_coming : (s.soon i).coming = s.coming := rfl
@[simp] theorem State.soon_works : (s.soon i).works = s.works := rfl
@[simp] theorem State.soon_agenda : (s.soon i).agenda = s.agenda ++ [.ev i] := rfl
@[simp] theorem State.soon_back : (s.soon i).back = s.back := rfl
@[simp] theorem State.soon_phase : (s.soon i).phase = s.phase := rfl
@[simp] theorem State.soon_cur : (s.soon i).cur = s.cur := rfl
@[simp] theorem State.soon_extra : (s.soon i).extra = s.extra := rfl
@[simp] theorem State.soon_free : (s.soon i).free = s.free := rfl
@[simp] theorem State.soon_nextPkt : (s.soon i).nextPkt = s.nextPkt := rfl
@[simp] theorem State.soon_cores : (s.soon i).cores = s.cores := rfl
@[simp] theorem State.soon_clusters : (s.soon i).clusters = s.clusters := rfl
@[simp] theorem State.soon_banks : (s.soon i).banks = s.banks := rfl
@[simp] theorem State.soon_mem : (s.soon i).mem = s.mem := rfl
@[simp] theorem State.soon_memErr : (s.soon i).memErr = s.memErr := rfl
@[simp] theorem State.soon_packets : (s.soon i).packets = s.packets := rfl
@[simp] theorem State.soon_lenses : (s.soon i).lenses = s.lenses := rfl
@[simp] theorem State.soon_chans : (s.soon i).chans = s.chans := rfl
@[simp] theorem State.soon_fe : (s.soon i).fe = s.fe := rfl
@[simp] theorem State.soon_links : (s.soon i).links = s.links := rfl
@[simp] theorem State.soon_defects : (s.soon i).defects = s.defects := rfl
@[simp] theorem State.soon_pbeat : (s.soon i).pbeat = s.pbeat := rfl
@[simp] theorem State.soon_fw : (s.soon i).fw = s.fw := rfl

end

/-! ### State.first -/

section

variable (s : State) (l : List Due)

@[simp] theorem State.first_now : (s.first l).now = s.now := rfl
@[simp] theorem State.first_coming : (s.first l).coming = s.coming := rfl
@[simp] theorem State.first_works : (s.first l).works = s.works := rfl
@[simp] theorem State.first_agenda : (s.first l).agenda = l ++ s.agenda := rfl
@[simp] theorem State.first_back : (s.first l).back = s.back := rfl
@[simp] theorem State.first_phase : (s.first l).phase = s.phase := rfl
@[simp] theorem State.first_cur : (s.first l).cur = s.cur := rfl
@[simp] theorem State.first_extra : (s.first l).extra = s.extra := rfl
@[simp] theorem State.first_free : (s.first l).free = s.free := rfl
@[simp] theorem State.first_nextPkt : (s.first l).nextPkt = s.nextPkt := rfl
@[simp] theorem State.first_cores : (s.first l).cores = s.cores := rfl
@[simp] theorem State.first_clusters : (s.first l).clusters = s.clusters := rfl
@[simp] theorem State.first_banks : (s.first l).banks = s.banks := rfl
@[simp] theorem State.first_mem : (s.first l).mem = s.mem := rfl
@[simp] theorem State.first_memErr : (s.first l).memErr = s.memErr := rfl
@[simp] theorem State.first_packets : (s.first l).packets = s.packets := rfl
@[simp] theorem State.first_lenses : (s.first l).lenses = s.lenses := rfl
@[simp] theorem State.first_chans : (s.first l).chans = s.chans := rfl
@[simp] theorem State.first_fe : (s.first l).fe = s.fe := rfl
@[simp] theorem State.first_links : (s.first l).links = s.links := rfl
@[simp] theorem State.first_defects : (s.first l).defects = s.defects := rfl
@[simp] theorem State.first_pbeat : (s.first l).pbeat = s.pbeat := rfl
@[simp] theorem State.first_fw : (s.first l).fw = s.fw := rfl

end

/-! ### State.next1 -/

section

variable (s : State) (i : Instr)

@[simp] theorem State.next1_now : (s.next1 i).now = s.now := rfl
@[simp] theorem State.next1_coming : (s.next1 i).coming = s.coming := rfl
@[simp] theorem State.next1_works : (s.next1 i).works = s.works := rfl
@[simp] theorem State.next1_agenda : (s.next1 i).agenda = [.ev i] ++ s.agenda := rfl
@[simp] theorem State.next1_back : (s.next1 i).back = s.back := rfl
@[simp] theorem State.next1_phase : (s.next1 i).phase = s.phase := rfl
@[simp] theorem State.next1_cur : (s.next1 i).cur = s.cur := rfl
@[simp] theorem State.next1_extra : (s.next1 i).extra = s.extra := rfl
@[simp] theorem State.next1_free : (s.next1 i).free = s.free := rfl
@[simp] theorem State.next1_nextPkt : (s.next1 i).nextPkt = s.nextPkt := rfl
@[simp] theorem State.next1_cores : (s.next1 i).cores = s.cores := rfl
@[simp] theorem State.next1_clusters : (s.next1 i).clusters = s.clusters := rfl
@[simp] theorem State.next1_banks : (s.next1 i).banks = s.banks := rfl
@[simp] theorem State.next1_mem : (s.next1 i).mem = s.mem := rfl
@[simp] theorem State.next1_memErr : (s.next1 i).memErr = s.memErr := rfl
@[simp] theorem State.next1_packets : (s.next1 i).packets = s.packets := rfl
@[simp] theorem State.next1_lenses : (s.next1 i).lenses = s.lenses := rfl
@[simp] theorem State.next1_chans : (s.next1 i).chans = s.chans := rfl
@[simp] theorem State.next1_fe : (s.next1 i).fe = s.fe := rfl
@[simp] theorem State.next1_links : (s.next1 i).links = s.links := rfl
@[simp] theorem State.next1_defects : (s.next1 i).defects = s.defects := rfl
@[simp] theorem State.next1_pbeat : (s.next1 i).pbeat = s.pbeat := rfl
@[simp] theorem State.next1_fw : (s.next1 i).fw = s.fw := rfl

end

/-! ### State.emitAt -/

section

variable (s : State) (lat cyc : Nat) (ws : List Write)

@[simp] theorem State.emitAt_now : (s.emitAt lat cyc ws).now = s.now := rfl
@[simp] theorem State.emitAt_coming : (s.emitAt lat cyc ws).coming = s.coming := rfl
@[simp] theorem State.emitAt_works : (s.emitAt lat cyc ws).works = s.works := rfl
@[simp] theorem State.emitAt_agenda : (s.emitAt lat cyc ws).agenda = s.agenda := rfl
@[simp] theorem State.emitAt_back : (s.emitAt lat cyc ws).back = s.back := rfl
@[simp] theorem State.emitAt_phase : (s.emitAt lat cyc ws).phase = s.phase := rfl
@[simp] theorem State.emitAt_cur : (s.emitAt lat cyc ws).cur = s.cur := rfl
@[simp] theorem State.emitAt_extra : (s.emitAt lat cyc ws).extra = s.extra := rfl
@[simp] theorem State.emitAt_free : (s.emitAt lat cyc ws).free = s.free := rfl
@[simp] theorem State.emitAt_nextPkt : (s.emitAt lat cyc ws).nextPkt = s.nextPkt := rfl
@[simp] theorem State.emitAt_clusters : (s.emitAt lat cyc ws).clusters = s.clusters := rfl
@[simp] theorem State.emitAt_banks : (s.emitAt lat cyc ws).banks = s.banks := rfl
@[simp] theorem State.emitAt_mem : (s.emitAt lat cyc ws).mem = s.mem := rfl
@[simp] theorem State.emitAt_memErr : (s.emitAt lat cyc ws).memErr = s.memErr := rfl
@[simp] theorem State.emitAt_packets : (s.emitAt lat cyc ws).packets = s.packets := rfl
@[simp] theorem State.emitAt_lenses : (s.emitAt lat cyc ws).lenses = s.lenses := rfl
@[simp] theorem State.emitAt_chans : (s.emitAt lat cyc ws).chans = s.chans := rfl
@[simp] theorem State.emitAt_fe : (s.emitAt lat cyc ws).fe = s.fe := rfl
@[simp] theorem State.emitAt_links : (s.emitAt lat cyc ws).links = s.links := rfl
@[simp] theorem State.emitAt_defects : (s.emitAt lat cyc ws).defects = s.defects := rfl
@[simp] theorem State.emitAt_pbeat : (s.emitAt lat cyc ws).pbeat = s.pbeat := rfl
@[simp] theorem State.emitAt_fw : (s.emitAt lat cyc ws).fw = s.fw := rfl

end

/-! ### State.emit -/

section

variable (s : State) (lat : Nat) (ws : List Write)

@[simp] theorem State.emit_now : (s.emit lat ws).now = s.now := rfl
@[simp] theorem State.emit_coming : (s.emit lat ws).coming = s.coming := rfl
@[simp] theorem State.emit_works : (s.emit lat ws).works = s.works := rfl
@[simp] theorem State.emit_agenda : (s.emit lat ws).agenda = s.agenda := rfl
@[simp] theorem State.emit_back : (s.emit lat ws).back = s.back := rfl
@[simp] theorem State.emit_phase : (s.emit lat ws).phase = s.phase := rfl
@[simp] theorem State.emit_cur : (s.emit lat ws).cur = s.cur := rfl
@[simp] theorem State.emit_extra : (s.emit lat ws).extra = s.extra := rfl
@[simp] theorem State.emit_free : (s.emit lat ws).free = s.free := rfl
@[simp] theorem State.emit_nextPkt : (s.emit lat ws).nextPkt = s.nextPkt := rfl
@[simp] theorem State.emit_clusters : (s.emit lat ws).clusters = s.clusters := rfl
@[simp] theorem State.emit_banks : (s.emit lat ws).banks = s.banks := rfl
@[simp] theorem State.emit_mem : (s.emit lat ws).mem = s.mem := rfl
@[simp] theorem State.emit_memErr : (s.emit lat ws).memErr = s.memErr := rfl
@[simp] theorem State.emit_packets : (s.emit lat ws).packets = s.packets := rfl
@[simp] theorem State.emit_lenses : (s.emit lat ws).lenses = s.lenses := rfl
@[simp] theorem State.emit_chans : (s.emit lat ws).chans = s.chans := rfl
@[simp] theorem State.emit_fe : (s.emit lat ws).fe = s.fe := rfl
@[simp] theorem State.emit_links : (s.emit lat ws).links = s.links := rfl
@[simp] theorem State.emit_defects : (s.emit lat ws).defects = s.defects := rfl
@[simp] theorem State.emit_pbeat : (s.emit lat ws).pbeat = s.pbeat := rfl
@[simp] theorem State.emit_fw : (s.emit lat ws).fw = s.fw := rfl

end

/-! ### State.retire -/

section

variable (s : State) 

@[simp] theorem State.retire_now : (s.retire).now = s.now := rfl
@[simp] theorem State.retire_coming : (s.retire).coming = s.coming := rfl
@[simp] theorem State.retire_works : (s.retire).works = s.works := rfl
@[simp] theorem State.retire_agenda : (s.retire).agenda = s.agenda := rfl
@[simp] theorem State.retire_back : (s.retire).back = s.back := rfl
@[simp] theorem State.retire_phase : (s.retire).phase = s.phase := rfl
@[simp] theorem State.retire_cur : (s.retire).cur = s.cur := rfl
@[simp] theorem State.retire_extra : (s.retire).extra = s.extra := rfl
@[simp] theorem State.retire_free : (s.retire).free = s.free := rfl
@[simp] theorem State.retire_nextPkt : (s.retire).nextPkt = s.nextPkt := rfl
@[simp] theorem State.retire_clusters : (s.retire).clusters = s.clusters := rfl
@[simp] theorem State.retire_banks : (s.retire).banks = s.banks := rfl
@[simp] theorem State.retire_mem : (s.retire).mem = s.mem := rfl
@[simp] theorem State.retire_memErr : (s.retire).memErr = s.memErr := rfl
@[simp] theorem State.retire_packets : (s.retire).packets = s.packets := rfl
@[simp] theorem State.retire_lenses : (s.retire).lenses = s.lenses := rfl
@[simp] theorem State.retire_chans : (s.retire).chans = s.chans := rfl
@[simp] theorem State.retire_fe : (s.retire).fe = s.fe := rfl
@[simp] theorem State.retire_links : (s.retire).links = s.links := rfl
@[simp] theorem State.retire_defects : (s.retire).defects = s.defects := rfl
@[simp] theorem State.retire_pbeat : (s.retire).pbeat = s.pbeat := rfl
@[simp] theorem State.retire_fw : (s.retire).fw = s.fw := rfl

end

/-! ### State.transfer -/

section

variable (s : State) (tgt : BitVec 14)

@[simp] theorem State.transfer_now : (s.transfer tgt).now = s.now := rfl
@[simp] theorem State.transfer_coming : (s.transfer tgt).coming = s.coming := rfl
@[simp] theorem State.transfer_works : (s.transfer tgt).works = s.works := rfl
@[simp] theorem State.transfer_agenda : (s.transfer tgt).agenda = s.agenda := rfl
@[simp] theorem State.transfer_back : (s.transfer tgt).back = s.back := rfl
@[simp] theorem State.transfer_phase : (s.transfer tgt).phase = s.phase := rfl
@[simp] theorem State.transfer_cur : (s.transfer tgt).cur = s.cur := rfl
@[simp] theorem State.transfer_extra : (s.transfer tgt).extra = s.extra := rfl
@[simp] theorem State.transfer_free : (s.transfer tgt).free = s.free := rfl
@[simp] theorem State.transfer_nextPkt : (s.transfer tgt).nextPkt = s.nextPkt := rfl
@[simp] theorem State.transfer_clusters : (s.transfer tgt).clusters = s.clusters := rfl
@[simp] theorem State.transfer_banks : (s.transfer tgt).banks = s.banks := rfl
@[simp] theorem State.transfer_mem : (s.transfer tgt).mem = s.mem := rfl
@[simp] theorem State.transfer_memErr : (s.transfer tgt).memErr = s.memErr := rfl
@[simp] theorem State.transfer_packets : (s.transfer tgt).packets = s.packets := rfl
@[simp] theorem State.transfer_lenses : (s.transfer tgt).lenses = s.lenses := rfl
@[simp] theorem State.transfer_chans : (s.transfer tgt).chans = s.chans := rfl
@[simp] theorem State.transfer_fe : (s.transfer tgt).fe = s.fe := rfl
@[simp] theorem State.transfer_links : (s.transfer tgt).links = s.links := rfl
@[simp] theorem State.transfer_defects : (s.transfer tgt).defects = s.defects := rfl
@[simp] theorem State.transfer_pbeat : (s.transfer tgt).pbeat = s.pbeat := rfl
@[simp] theorem State.transfer_fw : (s.transfer tgt).fw = s.fw := rfl

end

/-! ### State.result -/

section

variable (s : State) (lat : Nat) (ws : List Write)

@[simp] theorem State.result_now : (s.result lat ws).now = s.now := rfl
@[simp] theorem State.result_coming : (s.result lat ws).coming = s.coming := rfl
@[simp] theorem State.result_works : (s.result lat ws).works = s.works := rfl
@[simp] theorem State.result_agenda : (s.result lat ws).agenda = s.agenda := rfl
@[simp] theorem State.result_back : (s.result lat ws).back = s.back := rfl
@[simp] theorem State.result_phase : (s.result lat ws).phase = s.phase := rfl
@[simp] theorem State.result_cur : (s.result lat ws).cur = s.cur := rfl
@[simp] theorem State.result_extra : (s.result lat ws).extra = s.extra := rfl
@[simp] theorem State.result_free : (s.result lat ws).free = s.free := rfl
@[simp] theorem State.result_nextPkt : (s.result lat ws).nextPkt = s.nextPkt := rfl
@[simp] theorem State.result_clusters : (s.result lat ws).clusters = s.clusters := rfl
@[simp] theorem State.result_banks : (s.result lat ws).banks = s.banks := rfl
@[simp] theorem State.result_mem : (s.result lat ws).mem = s.mem := rfl
@[simp] theorem State.result_memErr : (s.result lat ws).memErr = s.memErr := rfl
@[simp] theorem State.result_packets : (s.result lat ws).packets = s.packets := rfl
@[simp] theorem State.result_lenses : (s.result lat ws).lenses = s.lenses := rfl
@[simp] theorem State.result_chans : (s.result lat ws).chans = s.chans := rfl
@[simp] theorem State.result_fe : (s.result lat ws).fe = s.fe := rfl
@[simp] theorem State.result_links : (s.result lat ws).links = s.links := rfl
@[simp] theorem State.result_defects : (s.result lat ws).defects = s.defects := rfl
@[simp] theorem State.result_pbeat : (s.result lat ws).pbeat = s.pbeat := rfl
@[simp] theorem State.result_fw : (s.result lat ws).fw = s.fw := rfl

end

/-! ### State.returnTo -/

section

variable (s : State) (tgt : BitVec 14)

@[simp] theorem State.returnTo_now : (s.returnTo tgt).now = s.now := rfl
@[simp] theorem State.returnTo_coming : (s.returnTo tgt).coming = s.coming := rfl
@[simp] theorem State.returnTo_works : (s.returnTo tgt).works = s.works := rfl
@[simp] theorem State.returnTo_agenda : (s.returnTo tgt).agenda = s.agenda := rfl
@[simp] theorem State.returnTo_back : (s.returnTo tgt).back = s.back := rfl
@[simp] theorem State.returnTo_phase : (s.returnTo tgt).phase = s.phase := rfl
@[simp] theorem State.returnTo_cur : (s.returnTo tgt).cur = s.cur := rfl
@[simp] theorem State.returnTo_extra : (s.returnTo tgt).extra = s.extra := rfl
@[simp] theorem State.returnTo_free : (s.returnTo tgt).free = s.free := rfl
@[simp] theorem State.returnTo_nextPkt : (s.returnTo tgt).nextPkt = s.nextPkt := rfl
@[simp] theorem State.returnTo_clusters : (s.returnTo tgt).clusters = s.clusters := rfl
@[simp] theorem State.returnTo_banks : (s.returnTo tgt).banks = s.banks := rfl
@[simp] theorem State.returnTo_mem : (s.returnTo tgt).mem = s.mem := rfl
@[simp] theorem State.returnTo_memErr : (s.returnTo tgt).memErr = s.memErr := rfl
@[simp] theorem State.returnTo_packets : (s.returnTo tgt).packets = s.packets := rfl
@[simp] theorem State.returnTo_lenses : (s.returnTo tgt).lenses = s.lenses := rfl
@[simp] theorem State.returnTo_chans : (s.returnTo tgt).chans = s.chans := rfl
@[simp] theorem State.returnTo_fe : (s.returnTo tgt).fe = s.fe := rfl
@[simp] theorem State.returnTo_links : (s.returnTo tgt).links = s.links := rfl
@[simp] theorem State.returnTo_defects : (s.returnTo tgt).defects = s.defects := rfl
@[simp] theorem State.returnTo_pbeat : (s.returnTo tgt).pbeat = s.pbeat := rfl
@[simp] theorem State.returnTo_fw : (s.returnTo tgt).fw = s.fw := rfl

end

/-! ### State.defer -/

section

variable (s : State) (r : SlotRef) (acc : Option Nat) (cause : BitVec 8) (own : Option (BitVec 14)) (addr info : Word) (rank : Nat) (dist : Option Nat)

@[simp] theorem State.defer_now : (s.defer r acc cause own addr info rank dist).now = s.now := rfl
@[simp] theorem State.defer_coming : (s.defer r acc cause own addr info rank dist).coming = s.coming := rfl
@[simp] theorem State.defer_works : (s.defer r acc cause own addr info rank dist).works = s.works := rfl
@[simp] theorem State.defer_agenda : (s.defer r acc cause own addr info rank dist).agenda = s.agenda := rfl
@[simp] theorem State.defer_back : (s.defer r acc cause own addr info rank dist).back = s.back := rfl
@[simp] theorem State.defer_phase : (s.defer r acc cause own addr info rank dist).phase = s.phase := rfl
@[simp] theorem State.defer_cur : (s.defer r acc cause own addr info rank dist).cur = s.cur := rfl
@[simp] theorem State.defer_extra : (s.defer r acc cause own addr info rank dist).extra = s.extra := rfl
@[simp] theorem State.defer_free : (s.defer r acc cause own addr info rank dist).free = s.free := rfl
@[simp] theorem State.defer_nextPkt : (s.defer r acc cause own addr info rank dist).nextPkt = s.nextPkt := rfl
@[simp] theorem State.defer_clusters : (s.defer r acc cause own addr info rank dist).clusters = s.clusters := rfl
@[simp] theorem State.defer_banks : (s.defer r acc cause own addr info rank dist).banks = s.banks := rfl
@[simp] theorem State.defer_mem : (s.defer r acc cause own addr info rank dist).mem = s.mem := rfl
@[simp] theorem State.defer_memErr : (s.defer r acc cause own addr info rank dist).memErr = s.memErr := rfl
@[simp] theorem State.defer_packets : (s.defer r acc cause own addr info rank dist).packets = s.packets := rfl
@[simp] theorem State.defer_lenses : (s.defer r acc cause own addr info rank dist).lenses = s.lenses := rfl
@[simp] theorem State.defer_chans : (s.defer r acc cause own addr info rank dist).chans = s.chans := rfl
@[simp] theorem State.defer_fe : (s.defer r acc cause own addr info rank dist).fe = s.fe := rfl
@[simp] theorem State.defer_links : (s.defer r acc cause own addr info rank dist).links = s.links := rfl
@[simp] theorem State.defer_defects : (s.defer r acc cause own addr info rank dist).defects = s.defects := rfl
@[simp] theorem State.defer_pbeat : (s.defer r acc cause own addr info rank dist).pbeat = s.pbeat := rfl
@[simp] theorem State.defer_fw : (s.defer r acc cause own addr info rank dist).fw = s.fw := rfl

end

/-! ### State.record -/

section

variable (s : State) (r : SlotRef) (a b c d : Word)

@[simp] theorem State.record_now : (s.record r a b c d).now = s.now := rfl
@[simp] theorem State.record_coming : (s.record r a b c d).coming = s.coming := rfl
@[simp] theorem State.record_works : (s.record r a b c d).works = s.works := rfl
@[simp] theorem State.record_agenda : (s.record r a b c d).agenda = s.agenda := rfl
@[simp] theorem State.record_back : (s.record r a b c d).back = s.back := rfl
@[simp] theorem State.record_phase : (s.record r a b c d).phase = s.phase := rfl
@[simp] theorem State.record_cur : (s.record r a b c d).cur = s.cur := rfl
@[simp] theorem State.record_extra : (s.record r a b c d).extra = s.extra := rfl
@[simp] theorem State.record_free : (s.record r a b c d).free = s.free := rfl
@[simp] theorem State.record_nextPkt : (s.record r a b c d).nextPkt = s.nextPkt := rfl
@[simp] theorem State.record_cores : (s.record r a b c d).cores = s.cores := rfl
@[simp] theorem State.record_clusters : (s.record r a b c d).clusters = s.clusters := rfl
@[simp] theorem State.record_banks : (s.record r a b c d).banks = s.banks := rfl
@[simp] theorem State.record_mem : (s.record r a b c d).mem = s.mem := rfl
@[simp] theorem State.record_memErr : (s.record r a b c d).memErr = s.memErr := rfl
@[simp] theorem State.record_packets : (s.record r a b c d).packets = s.packets := rfl
@[simp] theorem State.record_lenses : (s.record r a b c d).lenses = s.lenses := rfl
@[simp] theorem State.record_chans : (s.record r a b c d).chans = s.chans := rfl
@[simp] theorem State.record_links : (s.record r a b c d).links = s.links := rfl
@[simp] theorem State.record_defects : (s.record r a b c d).defects = s.defects := rfl
@[simp] theorem State.record_pbeat : (s.record r a b c d).pbeat = s.pbeat := rfl
@[simp] theorem State.record_fw : (s.record r a b c d).fw = s.fw := rfl

end

/-! ### State.poke -/

section

variable (s : State) (a : Nat) (bs : List Byte)

@[simp] theorem State.poke_now : (s.poke a bs).now = s.now := rfl
@[simp] theorem State.poke_coming : (s.poke a bs).coming = s.coming := rfl
@[simp] theorem State.poke_works : (s.poke a bs).works = s.works := rfl
@[simp] theorem State.poke_agenda : (s.poke a bs).agenda = s.agenda := rfl
@[simp] theorem State.poke_back : (s.poke a bs).back = s.back := rfl
@[simp] theorem State.poke_phase : (s.poke a bs).phase = s.phase := rfl
@[simp] theorem State.poke_cur : (s.poke a bs).cur = s.cur := rfl
@[simp] theorem State.poke_extra : (s.poke a bs).extra = s.extra := rfl
@[simp] theorem State.poke_free : (s.poke a bs).free = s.free := rfl
@[simp] theorem State.poke_nextPkt : (s.poke a bs).nextPkt = s.nextPkt := rfl
@[simp] theorem State.poke_cores : (s.poke a bs).cores = s.cores := rfl
@[simp] theorem State.poke_clusters : (s.poke a bs).clusters = s.clusters := rfl
@[simp] theorem State.poke_banks : (s.poke a bs).banks = s.banks := rfl
@[simp] theorem State.poke_mem : (s.poke a bs).mem = memWriteAll s.mem a bs := rfl
@[simp] theorem State.poke_memErr : (s.poke a bs).memErr = clearErr s.memErr a bs.length := rfl
@[simp] theorem State.poke_packets : (s.poke a bs).packets = s.packets := rfl
@[simp] theorem State.poke_lenses : (s.poke a bs).lenses = s.lenses := rfl
@[simp] theorem State.poke_chans : (s.poke a bs).chans = s.chans := rfl
@[simp] theorem State.poke_fe : (s.poke a bs).fe = s.fe := rfl
@[simp] theorem State.poke_links : (s.poke a bs).links = s.links := rfl
@[simp] theorem State.poke_defects : (s.poke a bs).defects = s.defects := rfl
@[simp] theorem State.poke_pbeat : (s.poke a bs).pbeat = s.pbeat := rfl
@[simp] theorem State.poke_fw : (s.poke a bs).fw = s.fw := rfl

end

/-! ### State.zeroBank -/

section

variable (s : State) (b : Nat)

@[simp] theorem State.zeroBank_now : (s.zeroBank b).now = s.now := rfl
@[simp] theorem State.zeroBank_coming : (s.zeroBank b).coming = s.coming := rfl
@[simp] theorem State.zeroBank_works : (s.zeroBank b).works = s.works := rfl
@[simp] theorem State.zeroBank_agenda : (s.zeroBank b).agenda = s.agenda := rfl
@[simp] theorem State.zeroBank_back : (s.zeroBank b).back = s.back := rfl
@[simp] theorem State.zeroBank_phase : (s.zeroBank b).phase = s.phase := rfl
@[simp] theorem State.zeroBank_cur : (s.zeroBank b).cur = s.cur := rfl
@[simp] theorem State.zeroBank_extra : (s.zeroBank b).extra = s.extra := rfl
@[simp] theorem State.zeroBank_free : (s.zeroBank b).free = s.free := rfl
@[simp] theorem State.zeroBank_nextPkt : (s.zeroBank b).nextPkt = s.nextPkt := rfl
@[simp] theorem State.zeroBank_cores : (s.zeroBank b).cores = s.cores := rfl
@[simp] theorem State.zeroBank_clusters : (s.zeroBank b).clusters = s.clusters := rfl
@[simp] theorem State.zeroBank_banks : (s.zeroBank b).banks = s.banks := rfl
@[simp] theorem State.zeroBank_packets : (s.zeroBank b).packets = s.packets := rfl
@[simp] theorem State.zeroBank_lenses : (s.zeroBank b).lenses = s.lenses := rfl
@[simp] theorem State.zeroBank_chans : (s.zeroBank b).chans = s.chans := rfl
@[simp] theorem State.zeroBank_fe : (s.zeroBank b).fe = s.fe := rfl
@[simp] theorem State.zeroBank_links : (s.zeroBank b).links = s.links := rfl
@[simp] theorem State.zeroBank_defects : (s.zeroBank b).defects = s.defects := rfl
@[simp] theorem State.zeroBank_pbeat : (s.zeroBank b).pbeat = s.pbeat := rfl
@[simp] theorem State.zeroBank_fw : (s.zeroBank b).fw = s.fw := rfl

end

/-! ### Reading back what was set -/

@[simp] theorem State.core_setCore (s : State) (c : Nat) (x : Core) : (s.setCore c x).core c = x := by
  simp [State.core]

theorem State.core_setCore_ne (s : State) (c d : Nat) (x : Core) (h : d ≠ c) : (s.setCore c x).core d = s.core d := by
  simp [State.core, Tab.at_put_ne _ _ _ _ _ h]

@[simp] theorem State.core_modCore (s : State) (c : Nat) (f : Core → Core) : (s.modCore c f).core c = f (s.core c) := by
  simp [State.core]

theorem State.core_modCore_ne (s : State) (c d : Nat) (f : Core → Core) (h : d ≠ c) :
    (s.modCore c f).core d = s.core d := State.core_setCore_ne s c d _ h

@[simp] theorem Core.slot_setSlot (x : Core) (k : Nat) (sl : Slot) : (x.setSlot k sl).slot k = sl := by
  simp [Core.slot, Core.setSlot]

theorem Core.slot_setSlot_ne (x : Core) (k j : Nat) (sl : Slot) (h : j ≠ k) : (x.setSlot k sl).slot j = x.slot j := by
  simp [Core.slot, Core.setSlot, Tab.at_put_ne _ _ _ _ _ h]

@[simp] theorem State.slot_setSlot (s : State) (r : SlotRef) (x : Slot) : (s.setSlot r x).slot r = x := by
  simp [State.slot, State.setSlot]

theorem State.slot_setSlot_ne (s : State) (r q : SlotRef) (x : Slot) (h : q ≠ r) : (s.setSlot r x).slot q = s.slot q := by
  unfold State.slot State.setSlot
  by_cases hc : q.core = r.core
  · have hk : q.slot ≠ r.slot := fun e => h (by cases q; cases r; simp_all)
    rw [hc, State.core_modCore, Core.slot_setSlot_ne _ _ _ _ hk]
  · rw [State.core_modCore_ne _ _ _ _ hc]

@[simp] theorem State.slot_modSlot (s : State) (r : SlotRef) (f : Slot → Slot) : (s.modSlot r f).slot r = f (s.slot r) := by
  simp [State.modSlot]

@[simp] theorem State.me_modMe (s : State) (f : Slot → Slot) : (s.modMe f).me = f s.me := by
  show (s.modSlot s.cur f).slot s.cur = _
  simp [State.me]

@[simp] theorem State.me_setSlot_cur (s : State) (x : Slot) : (s.setSlot s.cur x).me = x := by
  show (s.setSlot s.cur x).slot s.cur = _
  simp

@[simp] theorem State.setSlot_setSlot (s : State) (r : SlotRef) (x y : Slot) : (s.setSlot r x).setSlot r y = s.setSlot r y := by
  simp [State.setSlot, State.modCore, State.setCore, State.core, Core.setSlot]

@[simp] theorem State.modSlot_modSlot (s : State) (r : SlotRef) (f g : Slot → Slot) :
    (s.modSlot r f).modSlot r g = s.modSlot r (fun x => g (f x)) := by
  simp [State.modSlot]

@[simp] theorem State.modMe_modMe (s : State) (f g : Slot → Slot) : (s.modMe f).modMe g = s.modMe (fun x => g (f x)) := by
  simp [State.modMe]

/-! ### The core of a slot -/

section

variable (x : Core) (k : Nat) (sl : Slot)

@[simp] theorem Core.setSlot_istore : (x.setSlot k sl).istore = x.istore := rfl
@[simp] theorem Core.setSlot_ibad : (x.setSlot k sl).ibad = x.ibad := rfl
@[simp] theorem Core.setSlot_slots : (x.setSlot k sl).slots = Tab.put x.slots k sl := rfl
@[simp] theorem Core.setSlot_task : (x.setSlot k sl).task = x.task := rfl
@[simp] theorem Core.setSlot_retired : (x.setSlot k sl).retired = x.retired := rfl
@[simp] theorem Core.setSlot_retiring : (x.setSlot k sl).retiring = x.retiring := rfl
@[simp] theorem Core.setSlot_skew : (x.setSlot k sl).skew = x.skew := rfl
@[simp] theorem Core.setSlot_wheel : (x.setSlot k sl).wheel = x.wheel := rfl
@[simp] theorem Core.setSlot_wheelNext : (x.setSlot k sl).wheelNext = x.wheelNext := rfl
@[simp] theorem Core.setSlot_wheelDue : (x.setSlot k sl).wheelDue = x.wheelDue := rfl
@[simp] theorem Core.setSlot_hbeat : (x.setSlot k sl).hbeat = x.hbeat := rfl
@[simp] theorem Core.setSlot_syncref : (x.setSlot k sl).syncref = x.syncref := rfl
@[simp] theorem Core.setSlot_boundCls : (x.setSlot k sl).boundCls = x.boundCls := rfl
@[simp] theorem Core.setSlot_issued : (x.setSlot k sl).issued = x.issued := rfl
@[simp] theorem Core.setSlot_done : (x.setSlot k sl).done = x.done := rfl
@[simp] theorem Core.setSlot_bmap : (x.setSlot k sl).bmap = x.bmap := rfl
@[simp] theorem Core.setSlot_bnslot : (x.setSlot k sl).bnslot = x.bnslot := rfl
@[simp] theorem Core.setSlot_lastlat : (x.setSlot k sl).lastlat = x.lastlat := rfl
@[simp] theorem Core.setSlot_miss : (x.setSlot k sl).miss = x.miss := rfl
@[simp] theorem Core.setSlot_namebase : (x.setSlot k sl).namebase = x.namebase := rfl
@[simp] theorem Core.setSlot_purged : (x.setSlot k sl).purged = x.purged := rfl
@[simp] theorem Core.setSlot_stale : (x.setSlot k sl).stale = x.stale := rfl
@[simp] theorem Core.setSlot_ncache : (x.setSlot k sl).ncache = x.ncache := rfl
@[simp] theorem Core.setSlot_walks : (x.setSlot k sl).walks = x.walks := rfl
@[simp] theorem Core.setSlot_sendq : (x.setSlot k sl).sendq = x.sendq := rfl
@[simp] theorem Core.setSlot_recv : (x.setSlot k sl).recv = x.recv := rfl
@[simp] theorem Core.setSlot_seqTo : (x.setSlot k sl).seqTo = x.seqTo := rfl
@[simp] theorem Core.setSlot_seqFrom : (x.setSlot k sl).seqFrom = x.seqFrom := rfl
@[simp] theorem Core.setSlot_reorder : (x.setSlot k sl).reorder = x.reorder := rfl
@[simp] theorem Core.setSlot_gives : (x.setSlot k sl).gives = x.gives := rfl
@[simp] theorem Core.setSlot_latch : (x.setSlot k sl).latch = x.latch := rfl
@[simp] theorem Core.setSlot_gens : (x.setSlot k sl).gens = x.gens := rfl
@[simp] theorem Core.setSlot_nodes : (x.setSlot k sl).nodes = x.nodes := rfl
@[simp] theorem Core.setSlot_fins : (x.setSlot k sl).fins = x.fins := rfl
@[simp] theorem Core.setSlot_cseq : (x.setSlot k sl).cseq = x.cseq := rfl
@[simp] theorem Core.setSlot_eng0 : (x.setSlot k sl).eng0 = x.eng0 := rfl
@[simp] theorem Core.setSlot_eng1 : (x.setSlot k sl).eng1 = x.eng1 := rfl
@[simp] theorem Core.setSlot_guq : (x.setSlot k sl).guq = x.guq := rfl
@[simp] theorem Core.setSlot_ags : (x.setSlot k sl).ags = x.ags := rfl
@[simp] theorem Core.setSlot_gates : (x.setSlot k sl).gates = x.gates := rfl
@[simp] theorem Core.setSlot_lanes : (x.setSlot k sl).lanes = x.lanes := rfl
@[simp] theorem Core.setSlot_frontBusy : (x.setSlot k sl).frontBusy = x.frontBusy := rfl
@[simp] theorem Core.setSlot_tlb : (x.setSlot k sl).tlb = x.tlb := rfl

end

/-! ### Slot.setG -/

section

variable (sl : Slot) (r : BitVec 5) (v : Word)

@[simp] theorem Slot.setG_life : (sl.setG r v).life = sl.life := by unfold Slot.setG; split <;> rfl
@[simp] theorem Slot.setG_h : (sl.setG r v).h = sl.h := by unfold Slot.setG; split <;> rfl
@[simp] theorem Slot.setG_task : (sl.setG r v).task = sl.task := by unfold Slot.setG; split <;> rfl
@[simp] theorem Slot.setG_pc : (sl.setG r v).pc = sl.pc := by unfold Slot.setG; split <;> rfl
@[simp] theorem Slot.setG_p : (sl.setG r v).p = sl.p := by unfold Slot.setG; split <;> rfl
@[simp] theorem Slot.setG_v : (sl.setG r v).v = sl.v := by unfold Slot.setG; split <;> rfl
@[simp] theorem Slot.setG_m : (sl.setG r v).m = sl.m := by unfold Slot.setG; split <;> rfl
@[simp] theorem Slot.setG_loop1 : (sl.setG r v).loop1 = sl.loop1 := by unfold Slot.setG; split <;> rfl
@[simp] theorem Slot.setG_loop2 : (sl.setG r v).loop2 = sl.loop2 := by unfold Slot.setG; split <;> rfl
@[simp] theorem Slot.setG_fvec : (sl.setG r v).fvec = sl.fvec := by unfold Slot.setG; split <;> rfl
@[simp] theorem Slot.setG_epc : (sl.setG r v).epc = sl.epc := by unfold Slot.setG; split <;> rfl
@[simp] theorem Slot.setG_fcause : (sl.setG r v).fcause = sl.fcause := by unfold Slot.setG; split <;> rfl
@[simp] theorem Slot.setG_faddr : (sl.setG r v).faddr = sl.faddr := by unfold Slot.setG; split <;> rfl
@[simp] theorem Slot.setG_finfo : (sl.setG r v).finfo = sl.finfo := by unfold Slot.setG; split <;> rfl
@[simp] theorem Slot.setG_fhen : (sl.setG r v).fhen = sl.fhen := by unfold Slot.setG; split <;> rfl
@[simp] theorem Slot.setG_fpctl : (sl.setG r v).fpctl = sl.fpctl := by unfold Slot.setG; split <;> rfl
@[simp] theorem Slot.setG_istat : (sl.setG r v).istat = sl.istat := by unfold Slot.setG; split <;> rfl
@[simp] theorem Slot.setG_vstat : (sl.setG r v).vstat = sl.vstat := by unfold Slot.setG; split <;> rfl
@[simp] theorem Slot.setG_turn : (sl.setG r v).turn = sl.turn := by unfold Slot.setG; split <;> rfl
@[simp] theorem Slot.setG_reload : (sl.setG r v).reload = sl.reload := by unfold Slot.setG; split <;> rfl
@[simp] theorem Slot.setG_left : (sl.setG r v).left = sl.left := by unfold Slot.setG; split <;> rfl
@[simp] theorem Slot.setG_est : (sl.setG r v).est = sl.est := by unfold Slot.setG; split <;> rfl
@[simp] theorem Slot.setG_bstat : (sl.setG r v).bstat = sl.bstat := by unfold Slot.setG; split <;> rfl
@[simp] theorem Slot.setG_notify : (sl.setG r v).notify = sl.notify := by unfold Slot.setG; split <;> rfl
@[simp] theorem Slot.setG_wovf : (sl.setG r v).wovf = sl.wovf := by unfold Slot.setG; split <;> rfl
@[simp] theorem Slot.setG_rngkey : (sl.setG r v).rngkey = sl.rngkey := by unfold Slot.setG; split <;> rfl
@[simp] theorem Slot.setG_lstate : (sl.setG r v).lstate = sl.lstate := by unfold Slot.setG; split <;> rfl
@[simp] theorem Slot.setG_gate : (sl.setG r v).gate = sl.gate := by unfold Slot.setG; split <;> rfl
@[simp] theorem Slot.setG_wait : (sl.setG r v).wait = sl.wait := by unfold Slot.setG; split <;> rfl
@[simp] theorem Slot.setG_gfail : (sl.setG r v).gfail = sl.gfail := by unfold Slot.setG; split <;> rfl
@[simp] theorem Slot.setG_divFree : (sl.setG r v).divFree = sl.divFree := by unfold Slot.setG; split <;> rfl
@[simp] theorem Slot.setG_vecFree : (sl.setG r v).vecFree = sl.vecFree := by unfold Slot.setG; split <;> rfl
@[simp] theorem Slot.setG_flights : (sl.setG r v).flights = sl.flights := by unfold Slot.setG; split <;> rfl
@[simp] theorem Slot.setG_vloads : (sl.setG r v).vloads = sl.vloads := by unfold Slot.setG; split <;> rfl
@[simp] theorem Slot.setG_accs : (sl.setG r v).accs = sl.accs := by unfold Slot.setG; split <;> rfl
@[simp] theorem Slot.setG_pends : (sl.setG r v).pends = sl.pends := by unfold Slot.setG; split <;> rfl
@[simp] theorem Slot.setG_due : (sl.setG r v).due = sl.due := by unfold Slot.setG; split <;> rfl
@[simp] theorem Slot.setG_budgetDue : (sl.setG r v).budgetDue = sl.budgetDue := by unfold Slot.setG; split <;> rfl
@[simp] theorem Slot.setG_hold : (sl.setG r v).hold = sl.hold := by unfold Slot.setG; split <;> rfl
@[simp] theorem Slot.setG_nextId : (sl.setG r v).nextId = sl.nextId := by unfold Slot.setG; split <;> rfl
@[simp] theorem Slot.setG_claimed : (sl.setG r v).claimed = sl.claimed := by unfold Slot.setG; split <;> rfl
@[simp] theorem Slot.setG_oneStep : (sl.setG r v).oneStep = sl.oneStep := by unfold Slot.setG; split <;> rfl
@[simp] theorem Slot.setG_vbad : (sl.setG r v).vbad = sl.vbad := by unfold Slot.setG; split <;> rfl
@[simp] theorem Slot.setG_beats : (sl.setG r v).beats = sl.beats := by unfold Slot.setG; split <;> rfl

end

/-! ### Slot.setP -/

section

variable (sl : Slot) (r : BitVec 3) (b : Bool)

@[simp] theorem Slot.setP_life : (sl.setP r b).life = sl.life := by unfold Slot.setP; split <;> rfl
@[simp] theorem Slot.setP_h : (sl.setP r b).h = sl.h := by unfold Slot.setP; split <;> rfl
@[simp] theorem Slot.setP_task : (sl.setP r b).task = sl.task := by unfold Slot.setP; split <;> rfl
@[simp] theorem Slot.setP_pc : (sl.setP r b).pc = sl.pc := by unfold Slot.setP; split <;> rfl
@[simp] theorem Slot.setP_g : (sl.setP r b).g = sl.g := by unfold Slot.setP; split <;> rfl
@[simp] theorem Slot.setP_v : (sl.setP r b).v = sl.v := by unfold Slot.setP; split <;> rfl
@[simp] theorem Slot.setP_m : (sl.setP r b).m = sl.m := by unfold Slot.setP; split <;> rfl
@[simp] theorem Slot.setP_loop1 : (sl.setP r b).loop1 = sl.loop1 := by unfold Slot.setP; split <;> rfl
@[simp] theorem Slot.setP_loop2 : (sl.setP r b).loop2 = sl.loop2 := by unfold Slot.setP; split <;> rfl
@[simp] theorem Slot.setP_fvec : (sl.setP r b).fvec = sl.fvec := by unfold Slot.setP; split <;> rfl
@[simp] theorem Slot.setP_epc : (sl.setP r b).epc = sl.epc := by unfold Slot.setP; split <;> rfl
@[simp] theorem Slot.setP_fcause : (sl.setP r b).fcause = sl.fcause := by unfold Slot.setP; split <;> rfl
@[simp] theorem Slot.setP_faddr : (sl.setP r b).faddr = sl.faddr := by unfold Slot.setP; split <;> rfl
@[simp] theorem Slot.setP_finfo : (sl.setP r b).finfo = sl.finfo := by unfold Slot.setP; split <;> rfl
@[simp] theorem Slot.setP_fhen : (sl.setP r b).fhen = sl.fhen := by unfold Slot.setP; split <;> rfl
@[simp] theorem Slot.setP_fpctl : (sl.setP r b).fpctl = sl.fpctl := by unfold Slot.setP; split <;> rfl
@[simp] theorem Slot.setP_istat : (sl.setP r b).istat = sl.istat := by unfold Slot.setP; split <;> rfl
@[simp] theorem Slot.setP_vstat : (sl.setP r b).vstat = sl.vstat := by unfold Slot.setP; split <;> rfl
@[simp] theorem Slot.setP_turn : (sl.setP r b).turn = sl.turn := by unfold Slot.setP; split <;> rfl
@[simp] theorem Slot.setP_reload : (sl.setP r b).reload = sl.reload := by unfold Slot.setP; split <;> rfl
@[simp] theorem Slot.setP_left : (sl.setP r b).left = sl.left := by unfold Slot.setP; split <;> rfl
@[simp] theorem Slot.setP_est : (sl.setP r b).est = sl.est := by unfold Slot.setP; split <;> rfl
@[simp] theorem Slot.setP_bstat : (sl.setP r b).bstat = sl.bstat := by unfold Slot.setP; split <;> rfl
@[simp] theorem Slot.setP_notify : (sl.setP r b).notify = sl.notify := by unfold Slot.setP; split <;> rfl
@[simp] theorem Slot.setP_wovf : (sl.setP r b).wovf = sl.wovf := by unfold Slot.setP; split <;> rfl
@[simp] theorem Slot.setP_rngkey : (sl.setP r b).rngkey = sl.rngkey := by unfold Slot.setP; split <;> rfl
@[simp] theorem Slot.setP_lstate : (sl.setP r b).lstate = sl.lstate := by unfold Slot.setP; split <;> rfl
@[simp] theorem Slot.setP_gate : (sl.setP r b).gate = sl.gate := by unfold Slot.setP; split <;> rfl
@[simp] theorem Slot.setP_wait : (sl.setP r b).wait = sl.wait := by unfold Slot.setP; split <;> rfl
@[simp] theorem Slot.setP_gfail : (sl.setP r b).gfail = sl.gfail := by unfold Slot.setP; split <;> rfl
@[simp] theorem Slot.setP_divFree : (sl.setP r b).divFree = sl.divFree := by unfold Slot.setP; split <;> rfl
@[simp] theorem Slot.setP_vecFree : (sl.setP r b).vecFree = sl.vecFree := by unfold Slot.setP; split <;> rfl
@[simp] theorem Slot.setP_flights : (sl.setP r b).flights = sl.flights := by unfold Slot.setP; split <;> rfl
@[simp] theorem Slot.setP_vloads : (sl.setP r b).vloads = sl.vloads := by unfold Slot.setP; split <;> rfl
@[simp] theorem Slot.setP_accs : (sl.setP r b).accs = sl.accs := by unfold Slot.setP; split <;> rfl
@[simp] theorem Slot.setP_pends : (sl.setP r b).pends = sl.pends := by unfold Slot.setP; split <;> rfl
@[simp] theorem Slot.setP_due : (sl.setP r b).due = sl.due := by unfold Slot.setP; split <;> rfl
@[simp] theorem Slot.setP_budgetDue : (sl.setP r b).budgetDue = sl.budgetDue := by unfold Slot.setP; split <;> rfl
@[simp] theorem Slot.setP_hold : (sl.setP r b).hold = sl.hold := by unfold Slot.setP; split <;> rfl
@[simp] theorem Slot.setP_nextId : (sl.setP r b).nextId = sl.nextId := by unfold Slot.setP; split <;> rfl
@[simp] theorem Slot.setP_claimed : (sl.setP r b).claimed = sl.claimed := by unfold Slot.setP; split <;> rfl
@[simp] theorem Slot.setP_oneStep : (sl.setP r b).oneStep = sl.oneStep := by unfold Slot.setP; split <;> rfl
@[simp] theorem Slot.setP_vbad : (sl.setP r b).vbad = sl.vbad := by unfold Slot.setP; split <;> rfl
@[simp] theorem Slot.setP_beats : (sl.setP r b).beats = sl.beats := by unfold Slot.setP; split <;> rfl

end

/-! ### Slot.setV -/

section

variable (sl : Slot) (r : BitVec 4) (lanes : Word) (v : VReg)

@[simp] theorem Slot.setV_life : (sl.setV r lanes v).life = sl.life := rfl
@[simp] theorem Slot.setV_h : (sl.setV r lanes v).h = sl.h := rfl
@[simp] theorem Slot.setV_task : (sl.setV r lanes v).task = sl.task := rfl
@[simp] theorem Slot.setV_pc : (sl.setV r lanes v).pc = sl.pc := rfl
@[simp] theorem Slot.setV_g : (sl.setV r lanes v).g = sl.g := rfl
@[simp] theorem Slot.setV_p : (sl.setV r lanes v).p = sl.p := rfl
@[simp] theorem Slot.setV_m : (sl.setV r lanes v).m = sl.m := rfl
@[simp] theorem Slot.setV_loop1 : (sl.setV r lanes v).loop1 = sl.loop1 := rfl
@[simp] theorem Slot.setV_loop2 : (sl.setV r lanes v).loop2 = sl.loop2 := rfl
@[simp] theorem Slot.setV_fvec : (sl.setV r lanes v).fvec = sl.fvec := rfl
@[simp] theorem Slot.setV_epc : (sl.setV r lanes v).epc = sl.epc := rfl
@[simp] theorem Slot.setV_fcause : (sl.setV r lanes v).fcause = sl.fcause := rfl
@[simp] theorem Slot.setV_faddr : (sl.setV r lanes v).faddr = sl.faddr := rfl
@[simp] theorem Slot.setV_finfo : (sl.setV r lanes v).finfo = sl.finfo := rfl
@[simp] theorem Slot.setV_fhen : (sl.setV r lanes v).fhen = sl.fhen := rfl
@[simp] theorem Slot.setV_fpctl : (sl.setV r lanes v).fpctl = sl.fpctl := rfl
@[simp] theorem Slot.setV_istat : (sl.setV r lanes v).istat = sl.istat := rfl
@[simp] theorem Slot.setV_vstat : (sl.setV r lanes v).vstat = sl.vstat := rfl
@[simp] theorem Slot.setV_turn : (sl.setV r lanes v).turn = sl.turn := rfl
@[simp] theorem Slot.setV_reload : (sl.setV r lanes v).reload = sl.reload := rfl
@[simp] theorem Slot.setV_left : (sl.setV r lanes v).left = sl.left := rfl
@[simp] theorem Slot.setV_est : (sl.setV r lanes v).est = sl.est := rfl
@[simp] theorem Slot.setV_bstat : (sl.setV r lanes v).bstat = sl.bstat := rfl
@[simp] theorem Slot.setV_notify : (sl.setV r lanes v).notify = sl.notify := rfl
@[simp] theorem Slot.setV_wovf : (sl.setV r lanes v).wovf = sl.wovf := rfl
@[simp] theorem Slot.setV_rngkey : (sl.setV r lanes v).rngkey = sl.rngkey := rfl
@[simp] theorem Slot.setV_lstate : (sl.setV r lanes v).lstate = sl.lstate := rfl
@[simp] theorem Slot.setV_gate : (sl.setV r lanes v).gate = sl.gate := rfl
@[simp] theorem Slot.setV_wait : (sl.setV r lanes v).wait = sl.wait := rfl
@[simp] theorem Slot.setV_gfail : (sl.setV r lanes v).gfail = sl.gfail := rfl
@[simp] theorem Slot.setV_divFree : (sl.setV r lanes v).divFree = sl.divFree := rfl
@[simp] theorem Slot.setV_vecFree : (sl.setV r lanes v).vecFree = sl.vecFree := rfl
@[simp] theorem Slot.setV_flights : (sl.setV r lanes v).flights = sl.flights := rfl
@[simp] theorem Slot.setV_vloads : (sl.setV r lanes v).vloads = sl.vloads := rfl
@[simp] theorem Slot.setV_accs : (sl.setV r lanes v).accs = sl.accs := rfl
@[simp] theorem Slot.setV_pends : (sl.setV r lanes v).pends = sl.pends := rfl
@[simp] theorem Slot.setV_due : (sl.setV r lanes v).due = sl.due := rfl
@[simp] theorem Slot.setV_budgetDue : (sl.setV r lanes v).budgetDue = sl.budgetDue := rfl
@[simp] theorem Slot.setV_hold : (sl.setV r lanes v).hold = sl.hold := rfl
@[simp] theorem Slot.setV_nextId : (sl.setV r lanes v).nextId = sl.nextId := rfl
@[simp] theorem Slot.setV_claimed : (sl.setV r lanes v).claimed = sl.claimed := rfl
@[simp] theorem Slot.setV_oneStep : (sl.setV r lanes v).oneStep = sl.oneStep := rfl
@[simp] theorem Slot.setV_beats : (sl.setV r lanes v).beats = sl.beats := rfl

end

/-! ### Slot.setM -/

section

variable (sl : Slot) (r : BitVec 3) (lanes v : Word)

@[simp] theorem Slot.setM_life : (sl.setM r lanes v).life = sl.life := by unfold Slot.setM; split <;> rfl
@[simp] theorem Slot.setM_h : (sl.setM r lanes v).h = sl.h := by unfold Slot.setM; split <;> rfl
@[simp] theorem Slot.setM_task : (sl.setM r lanes v).task = sl.task := by unfold Slot.setM; split <;> rfl
@[simp] theorem Slot.setM_pc : (sl.setM r lanes v).pc = sl.pc := by unfold Slot.setM; split <;> rfl
@[simp] theorem Slot.setM_g : (sl.setM r lanes v).g = sl.g := by unfold Slot.setM; split <;> rfl
@[simp] theorem Slot.setM_p : (sl.setM r lanes v).p = sl.p := by unfold Slot.setM; split <;> rfl
@[simp] theorem Slot.setM_v : (sl.setM r lanes v).v = sl.v := by unfold Slot.setM; split <;> rfl
@[simp] theorem Slot.setM_loop1 : (sl.setM r lanes v).loop1 = sl.loop1 := by unfold Slot.setM; split <;> rfl
@[simp] theorem Slot.setM_loop2 : (sl.setM r lanes v).loop2 = sl.loop2 := by unfold Slot.setM; split <;> rfl
@[simp] theorem Slot.setM_fvec : (sl.setM r lanes v).fvec = sl.fvec := by unfold Slot.setM; split <;> rfl
@[simp] theorem Slot.setM_epc : (sl.setM r lanes v).epc = sl.epc := by unfold Slot.setM; split <;> rfl
@[simp] theorem Slot.setM_fcause : (sl.setM r lanes v).fcause = sl.fcause := by unfold Slot.setM; split <;> rfl
@[simp] theorem Slot.setM_faddr : (sl.setM r lanes v).faddr = sl.faddr := by unfold Slot.setM; split <;> rfl
@[simp] theorem Slot.setM_finfo : (sl.setM r lanes v).finfo = sl.finfo := by unfold Slot.setM; split <;> rfl
@[simp] theorem Slot.setM_fhen : (sl.setM r lanes v).fhen = sl.fhen := by unfold Slot.setM; split <;> rfl
@[simp] theorem Slot.setM_fpctl : (sl.setM r lanes v).fpctl = sl.fpctl := by unfold Slot.setM; split <;> rfl
@[simp] theorem Slot.setM_istat : (sl.setM r lanes v).istat = sl.istat := by unfold Slot.setM; split <;> rfl
@[simp] theorem Slot.setM_vstat : (sl.setM r lanes v).vstat = sl.vstat := by unfold Slot.setM; split <;> rfl
@[simp] theorem Slot.setM_turn : (sl.setM r lanes v).turn = sl.turn := by unfold Slot.setM; split <;> rfl
@[simp] theorem Slot.setM_reload : (sl.setM r lanes v).reload = sl.reload := by unfold Slot.setM; split <;> rfl
@[simp] theorem Slot.setM_left : (sl.setM r lanes v).left = sl.left := by unfold Slot.setM; split <;> rfl
@[simp] theorem Slot.setM_est : (sl.setM r lanes v).est = sl.est := by unfold Slot.setM; split <;> rfl
@[simp] theorem Slot.setM_bstat : (sl.setM r lanes v).bstat = sl.bstat := by unfold Slot.setM; split <;> rfl
@[simp] theorem Slot.setM_notify : (sl.setM r lanes v).notify = sl.notify := by unfold Slot.setM; split <;> rfl
@[simp] theorem Slot.setM_wovf : (sl.setM r lanes v).wovf = sl.wovf := by unfold Slot.setM; split <;> rfl
@[simp] theorem Slot.setM_rngkey : (sl.setM r lanes v).rngkey = sl.rngkey := by unfold Slot.setM; split <;> rfl
@[simp] theorem Slot.setM_lstate : (sl.setM r lanes v).lstate = sl.lstate := by unfold Slot.setM; split <;> rfl
@[simp] theorem Slot.setM_gate : (sl.setM r lanes v).gate = sl.gate := by unfold Slot.setM; split <;> rfl
@[simp] theorem Slot.setM_wait : (sl.setM r lanes v).wait = sl.wait := by unfold Slot.setM; split <;> rfl
@[simp] theorem Slot.setM_gfail : (sl.setM r lanes v).gfail = sl.gfail := by unfold Slot.setM; split <;> rfl
@[simp] theorem Slot.setM_divFree : (sl.setM r lanes v).divFree = sl.divFree := by unfold Slot.setM; split <;> rfl
@[simp] theorem Slot.setM_vecFree : (sl.setM r lanes v).vecFree = sl.vecFree := by unfold Slot.setM; split <;> rfl
@[simp] theorem Slot.setM_flights : (sl.setM r lanes v).flights = sl.flights := by unfold Slot.setM; split <;> rfl
@[simp] theorem Slot.setM_vloads : (sl.setM r lanes v).vloads = sl.vloads := by unfold Slot.setM; split <;> rfl
@[simp] theorem Slot.setM_accs : (sl.setM r lanes v).accs = sl.accs := by unfold Slot.setM; split <;> rfl
@[simp] theorem Slot.setM_pends : (sl.setM r lanes v).pends = sl.pends := by unfold Slot.setM; split <;> rfl
@[simp] theorem Slot.setM_due : (sl.setM r lanes v).due = sl.due := by unfold Slot.setM; split <;> rfl
@[simp] theorem Slot.setM_budgetDue : (sl.setM r lanes v).budgetDue = sl.budgetDue := by unfold Slot.setM; split <;> rfl
@[simp] theorem Slot.setM_hold : (sl.setM r lanes v).hold = sl.hold := by unfold Slot.setM; split <;> rfl
@[simp] theorem Slot.setM_nextId : (sl.setM r lanes v).nextId = sl.nextId := by unfold Slot.setM; split <;> rfl
@[simp] theorem Slot.setM_claimed : (sl.setM r lanes v).claimed = sl.claimed := by unfold Slot.setM; split <;> rfl
@[simp] theorem Slot.setM_oneStep : (sl.setM r lanes v).oneStep = sl.oneStep := by unfold Slot.setM; split <;> rfl
@[simp] theorem Slot.setM_vbad : (sl.setM r lanes v).vbad = sl.vbad := by unfold Slot.setM; split <;> rfl
@[simp] theorem Slot.setM_beats : (sl.setM r lanes v).beats = sl.beats := by unfold Slot.setM; split <;> rfl

end

/-! ### Slot.stopAs -/

section

variable (sl : Slot) (l : Life)

@[simp] theorem Slot.stopAs_h : (sl.stopAs l).h = sl.h := rfl
@[simp] theorem Slot.stopAs_task : (sl.stopAs l).task = sl.task := rfl
@[simp] theorem Slot.stopAs_pc : (sl.stopAs l).pc = sl.pc := rfl
@[simp] theorem Slot.stopAs_g : (sl.stopAs l).g = sl.g := rfl
@[simp] theorem Slot.stopAs_p : (sl.stopAs l).p = sl.p := rfl
@[simp] theorem Slot.stopAs_v : (sl.stopAs l).v = sl.v := rfl
@[simp] theorem Slot.stopAs_m : (sl.stopAs l).m = sl.m := rfl
@[simp] theorem Slot.stopAs_loop1 : (sl.stopAs l).loop1 = sl.loop1 := rfl
@[simp] theorem Slot.stopAs_loop2 : (sl.stopAs l).loop2 = sl.loop2 := rfl
@[simp] theorem Slot.stopAs_fvec : (sl.stopAs l).fvec = sl.fvec := rfl
@[simp] theorem Slot.stopAs_epc : (sl.stopAs l).epc = sl.epc := rfl
@[simp] theorem Slot.stopAs_fcause : (sl.stopAs l).fcause = sl.fcause := rfl
@[simp] theorem Slot.stopAs_faddr : (sl.stopAs l).faddr = sl.faddr := rfl
@[simp] theorem Slot.stopAs_finfo : (sl.stopAs l).finfo = sl.finfo := rfl
@[simp] theorem Slot.stopAs_fhen : (sl.stopAs l).fhen = sl.fhen := rfl
@[simp] theorem Slot.stopAs_fpctl : (sl.stopAs l).fpctl = sl.fpctl := rfl
@[simp] theorem Slot.stopAs_istat : (sl.stopAs l).istat = sl.istat := rfl
@[simp] theorem Slot.stopAs_vstat : (sl.stopAs l).vstat = sl.vstat := rfl
@[simp] theorem Slot.stopAs_turn : (sl.stopAs l).turn = sl.turn := rfl
@[simp] theorem Slot.stopAs_reload : (sl.stopAs l).reload = sl.reload := rfl
@[simp] theorem Slot.stopAs_left : (sl.stopAs l).left = sl.left := rfl
@[simp] theorem Slot.stopAs_est : (sl.stopAs l).est = sl.est := rfl
@[simp] theorem Slot.stopAs_bstat : (sl.stopAs l).bstat = sl.bstat := rfl
@[simp] theorem Slot.stopAs_notify : (sl.stopAs l).notify = sl.notify := rfl
@[simp] theorem Slot.stopAs_wovf : (sl.stopAs l).wovf = sl.wovf := rfl
@[simp] theorem Slot.stopAs_rngkey : (sl.stopAs l).rngkey = sl.rngkey := rfl
@[simp] theorem Slot.stopAs_lstate : (sl.stopAs l).lstate = sl.lstate := rfl
@[simp] theorem Slot.stopAs_gfail : (sl.stopAs l).gfail = sl.gfail := rfl
@[simp] theorem Slot.stopAs_divFree : (sl.stopAs l).divFree = sl.divFree := rfl
@[simp] theorem Slot.stopAs_vecFree : (sl.stopAs l).vecFree = sl.vecFree := rfl
@[simp] theorem Slot.stopAs_flights : (sl.stopAs l).flights = sl.flights := rfl
@[simp] theorem Slot.stopAs_vloads : (sl.stopAs l).vloads = sl.vloads := rfl
@[simp] theorem Slot.stopAs_accs : (sl.stopAs l).accs = sl.accs := rfl
@[simp] theorem Slot.stopAs_pends : (sl.stopAs l).pends = sl.pends := rfl
@[simp] theorem Slot.stopAs_due : (sl.stopAs l).due = sl.due := rfl
@[simp] theorem Slot.stopAs_budgetDue : (sl.stopAs l).budgetDue = sl.budgetDue := rfl
@[simp] theorem Slot.stopAs_nextId : (sl.stopAs l).nextId = sl.nextId := rfl
@[simp] theorem Slot.stopAs_claimed : (sl.stopAs l).claimed = sl.claimed := rfl
@[simp] theorem Slot.stopAs_vbad : (sl.stopAs l).vbad = sl.vbad := rfl
@[simp] theorem Slot.stopAs_beats : (sl.stopAs l).beats = sl.beats := rfl

end

/-! ### Slot.setLevel -/

section

variable (sl : Slot) (two : Bool) (l : LoopLevel)

@[simp] theorem Slot.setLevel_life : (sl.setLevel two l).life = sl.life := by unfold Slot.setLevel; split <;> rfl
@[simp] theorem Slot.setLevel_h : (sl.setLevel two l).h = sl.h := by unfold Slot.setLevel; split <;> rfl
@[simp] theorem Slot.setLevel_task : (sl.setLevel two l).task = sl.task := by unfold Slot.setLevel; split <;> rfl
@[simp] theorem Slot.setLevel_pc : (sl.setLevel two l).pc = sl.pc := by unfold Slot.setLevel; split <;> rfl
@[simp] theorem Slot.setLevel_g : (sl.setLevel two l).g = sl.g := by unfold Slot.setLevel; split <;> rfl
@[simp] theorem Slot.setLevel_p : (sl.setLevel two l).p = sl.p := by unfold Slot.setLevel; split <;> rfl
@[simp] theorem Slot.setLevel_v : (sl.setLevel two l).v = sl.v := by unfold Slot.setLevel; split <;> rfl
@[simp] theorem Slot.setLevel_m : (sl.setLevel two l).m = sl.m := by unfold Slot.setLevel; split <;> rfl
@[simp] theorem Slot.setLevel_fvec : (sl.setLevel two l).fvec = sl.fvec := by unfold Slot.setLevel; split <;> rfl
@[simp] theorem Slot.setLevel_epc : (sl.setLevel two l).epc = sl.epc := by unfold Slot.setLevel; split <;> rfl
@[simp] theorem Slot.setLevel_fcause : (sl.setLevel two l).fcause = sl.fcause := by unfold Slot.setLevel; split <;> rfl
@[simp] theorem Slot.setLevel_faddr : (sl.setLevel two l).faddr = sl.faddr := by unfold Slot.setLevel; split <;> rfl
@[simp] theorem Slot.setLevel_finfo : (sl.setLevel two l).finfo = sl.finfo := by unfold Slot.setLevel; split <;> rfl
@[simp] theorem Slot.setLevel_fhen : (sl.setLevel two l).fhen = sl.fhen := by unfold Slot.setLevel; split <;> rfl
@[simp] theorem Slot.setLevel_fpctl : (sl.setLevel two l).fpctl = sl.fpctl := by unfold Slot.setLevel; split <;> rfl
@[simp] theorem Slot.setLevel_istat : (sl.setLevel two l).istat = sl.istat := by unfold Slot.setLevel; split <;> rfl
@[simp] theorem Slot.setLevel_vstat : (sl.setLevel two l).vstat = sl.vstat := by unfold Slot.setLevel; split <;> rfl
@[simp] theorem Slot.setLevel_turn : (sl.setLevel two l).turn = sl.turn := by unfold Slot.setLevel; split <;> rfl
@[simp] theorem Slot.setLevel_reload : (sl.setLevel two l).reload = sl.reload := by unfold Slot.setLevel; split <;> rfl
@[simp] theorem Slot.setLevel_left : (sl.setLevel two l).left = sl.left := by unfold Slot.setLevel; split <;> rfl
@[simp] theorem Slot.setLevel_est : (sl.setLevel two l).est = sl.est := by unfold Slot.setLevel; split <;> rfl
@[simp] theorem Slot.setLevel_bstat : (sl.setLevel two l).bstat = sl.bstat := by unfold Slot.setLevel; split <;> rfl
@[simp] theorem Slot.setLevel_notify : (sl.setLevel two l).notify = sl.notify := by unfold Slot.setLevel; split <;> rfl
@[simp] theorem Slot.setLevel_wovf : (sl.setLevel two l).wovf = sl.wovf := by unfold Slot.setLevel; split <;> rfl
@[simp] theorem Slot.setLevel_rngkey : (sl.setLevel two l).rngkey = sl.rngkey := by unfold Slot.setLevel; split <;> rfl
@[simp] theorem Slot.setLevel_lstate : (sl.setLevel two l).lstate = sl.lstate := by unfold Slot.setLevel; split <;> rfl
@[simp] theorem Slot.setLevel_gate : (sl.setLevel two l).gate = sl.gate := by unfold Slot.setLevel; split <;> rfl
@[simp] theorem Slot.setLevel_wait : (sl.setLevel two l).wait = sl.wait := by unfold Slot.setLevel; split <;> rfl
@[simp] theorem Slot.setLevel_gfail : (sl.setLevel two l).gfail = sl.gfail := by unfold Slot.setLevel; split <;> rfl
@[simp] theorem Slot.setLevel_divFree : (sl.setLevel two l).divFree = sl.divFree := by unfold Slot.setLevel; split <;> rfl
@[simp] theorem Slot.setLevel_vecFree : (sl.setLevel two l).vecFree = sl.vecFree := by unfold Slot.setLevel; split <;> rfl
@[simp] theorem Slot.setLevel_flights : (sl.setLevel two l).flights = sl.flights := by unfold Slot.setLevel; split <;> rfl
@[simp] theorem Slot.setLevel_vloads : (sl.setLevel two l).vloads = sl.vloads := by unfold Slot.setLevel; split <;> rfl
@[simp] theorem Slot.setLevel_accs : (sl.setLevel two l).accs = sl.accs := by unfold Slot.setLevel; split <;> rfl
@[simp] theorem Slot.setLevel_pends : (sl.setLevel two l).pends = sl.pends := by unfold Slot.setLevel; split <;> rfl
@[simp] theorem Slot.setLevel_due : (sl.setLevel two l).due = sl.due := by unfold Slot.setLevel; split <;> rfl
@[simp] theorem Slot.setLevel_budgetDue : (sl.setLevel two l).budgetDue = sl.budgetDue := by unfold Slot.setLevel; split <;> rfl
@[simp] theorem Slot.setLevel_hold : (sl.setLevel two l).hold = sl.hold := by unfold Slot.setLevel; split <;> rfl
@[simp] theorem Slot.setLevel_nextId : (sl.setLevel two l).nextId = sl.nextId := by unfold Slot.setLevel; split <;> rfl
@[simp] theorem Slot.setLevel_claimed : (sl.setLevel two l).claimed = sl.claimed := by unfold Slot.setLevel; split <;> rfl
@[simp] theorem Slot.setLevel_oneStep : (sl.setLevel two l).oneStep = sl.oneStep := by unfold Slot.setLevel; split <;> rfl
@[simp] theorem Slot.setLevel_vbad : (sl.setLevel two l).vbad = sl.vbad := by unfold Slot.setLevel; split <;> rfl
@[simp] theorem Slot.setLevel_beats : (sl.setLevel two l).beats = sl.beats := by unfold Slot.setLevel; split <;> rfl

end

/-! ### The next word (R94) -/

section

variable (n : Nat) (sl : Slot)

@[simp] theorem atEndWord_life : (atEndWord n sl).life = sl.life := by
  induction n generalizing sl with
  | zero => rfl
  | succ n ih => unfold atEndWord; split <;> (try rfl); split <;> (try rfl); split <;> simp [ih]
@[simp] theorem Slot.advance_life : sl.advance.life = sl.life := by unfold Slot.advance; split <;> simp
@[simp] theorem atEndWord_h : (atEndWord n sl).h = sl.h := by
  induction n generalizing sl with
  | zero => rfl
  | succ n ih => unfold atEndWord; split <;> (try rfl); split <;> (try rfl); split <;> simp [ih]
@[simp] theorem Slot.advance_h : sl.advance.h = sl.h := by unfold Slot.advance; split <;> simp
@[simp] theorem atEndWord_task : (atEndWord n sl).task = sl.task := by
  induction n generalizing sl with
  | zero => rfl
  | succ n ih => unfold atEndWord; split <;> (try rfl); split <;> (try rfl); split <;> simp [ih]
@[simp] theorem Slot.advance_task : sl.advance.task = sl.task := by unfold Slot.advance; split <;> simp
@[simp] theorem atEndWord_g : (atEndWord n sl).g = sl.g := by
  induction n generalizing sl with
  | zero => rfl
  | succ n ih => unfold atEndWord; split <;> (try rfl); split <;> (try rfl); split <;> simp [ih]
@[simp] theorem Slot.advance_g : sl.advance.g = sl.g := by unfold Slot.advance; split <;> simp
@[simp] theorem atEndWord_p : (atEndWord n sl).p = sl.p := by
  induction n generalizing sl with
  | zero => rfl
  | succ n ih => unfold atEndWord; split <;> (try rfl); split <;> (try rfl); split <;> simp [ih]
@[simp] theorem Slot.advance_p : sl.advance.p = sl.p := by unfold Slot.advance; split <;> simp
@[simp] theorem atEndWord_v : (atEndWord n sl).v = sl.v := by
  induction n generalizing sl with
  | zero => rfl
  | succ n ih => unfold atEndWord; split <;> (try rfl); split <;> (try rfl); split <;> simp [ih]
@[simp] theorem Slot.advance_v : sl.advance.v = sl.v := by unfold Slot.advance; split <;> simp
@[simp] theorem atEndWord_m : (atEndWord n sl).m = sl.m := by
  induction n generalizing sl with
  | zero => rfl
  | succ n ih => unfold atEndWord; split <;> (try rfl); split <;> (try rfl); split <;> simp [ih]
@[simp] theorem Slot.advance_m : sl.advance.m = sl.m := by unfold Slot.advance; split <;> simp
@[simp] theorem atEndWord_fvec : (atEndWord n sl).fvec = sl.fvec := by
  induction n generalizing sl with
  | zero => rfl
  | succ n ih => unfold atEndWord; split <;> (try rfl); split <;> (try rfl); split <;> simp [ih]
@[simp] theorem Slot.advance_fvec : sl.advance.fvec = sl.fvec := by unfold Slot.advance; split <;> simp
@[simp] theorem atEndWord_epc : (atEndWord n sl).epc = sl.epc := by
  induction n generalizing sl with
  | zero => rfl
  | succ n ih => unfold atEndWord; split <;> (try rfl); split <;> (try rfl); split <;> simp [ih]
@[simp] theorem Slot.advance_epc : sl.advance.epc = sl.epc := by unfold Slot.advance; split <;> simp
@[simp] theorem atEndWord_fcause : (atEndWord n sl).fcause = sl.fcause := by
  induction n generalizing sl with
  | zero => rfl
  | succ n ih => unfold atEndWord; split <;> (try rfl); split <;> (try rfl); split <;> simp [ih]
@[simp] theorem Slot.advance_fcause : sl.advance.fcause = sl.fcause := by unfold Slot.advance; split <;> simp
@[simp] theorem atEndWord_faddr : (atEndWord n sl).faddr = sl.faddr := by
  induction n generalizing sl with
  | zero => rfl
  | succ n ih => unfold atEndWord; split <;> (try rfl); split <;> (try rfl); split <;> simp [ih]
@[simp] theorem Slot.advance_faddr : sl.advance.faddr = sl.faddr := by unfold Slot.advance; split <;> simp
@[simp] theorem atEndWord_finfo : (atEndWord n sl).finfo = sl.finfo := by
  induction n generalizing sl with
  | zero => rfl
  | succ n ih => unfold atEndWord; split <;> (try rfl); split <;> (try rfl); split <;> simp [ih]
@[simp] theorem Slot.advance_finfo : sl.advance.finfo = sl.finfo := by unfold Slot.advance; split <;> simp
@[simp] theorem atEndWord_fhen : (atEndWord n sl).fhen = sl.fhen := by
  induction n generalizing sl with
  | zero => rfl
  | succ n ih => unfold atEndWord; split <;> (try rfl); split <;> (try rfl); split <;> simp [ih]
@[simp] theorem Slot.advance_fhen : sl.advance.fhen = sl.fhen := by unfold Slot.advance; split <;> simp
@[simp] theorem atEndWord_fpctl : (atEndWord n sl).fpctl = sl.fpctl := by
  induction n generalizing sl with
  | zero => rfl
  | succ n ih => unfold atEndWord; split <;> (try rfl); split <;> (try rfl); split <;> simp [ih]
@[simp] theorem Slot.advance_fpctl : sl.advance.fpctl = sl.fpctl := by unfold Slot.advance; split <;> simp
@[simp] theorem atEndWord_istat : (atEndWord n sl).istat = sl.istat := by
  induction n generalizing sl with
  | zero => rfl
  | succ n ih => unfold atEndWord; split <;> (try rfl); split <;> (try rfl); split <;> simp [ih]
@[simp] theorem Slot.advance_istat : sl.advance.istat = sl.istat := by unfold Slot.advance; split <;> simp
@[simp] theorem atEndWord_vstat : (atEndWord n sl).vstat = sl.vstat := by
  induction n generalizing sl with
  | zero => rfl
  | succ n ih => unfold atEndWord; split <;> (try rfl); split <;> (try rfl); split <;> simp [ih]
@[simp] theorem Slot.advance_vstat : sl.advance.vstat = sl.vstat := by unfold Slot.advance; split <;> simp
@[simp] theorem atEndWord_turn : (atEndWord n sl).turn = sl.turn := by
  induction n generalizing sl with
  | zero => rfl
  | succ n ih => unfold atEndWord; split <;> (try rfl); split <;> (try rfl); split <;> simp [ih]
@[simp] theorem Slot.advance_turn : sl.advance.turn = sl.turn := by unfold Slot.advance; split <;> simp
@[simp] theorem atEndWord_reload : (atEndWord n sl).reload = sl.reload := by
  induction n generalizing sl with
  | zero => rfl
  | succ n ih => unfold atEndWord; split <;> (try rfl); split <;> (try rfl); split <;> simp [ih]
@[simp] theorem Slot.advance_reload : sl.advance.reload = sl.reload := by unfold Slot.advance; split <;> simp
@[simp] theorem atEndWord_left : (atEndWord n sl).left = sl.left := by
  induction n generalizing sl with
  | zero => rfl
  | succ n ih => unfold atEndWord; split <;> (try rfl); split <;> (try rfl); split <;> simp [ih]
@[simp] theorem Slot.advance_left : sl.advance.left = sl.left := by unfold Slot.advance; split <;> simp
@[simp] theorem atEndWord_est : (atEndWord n sl).est = sl.est := by
  induction n generalizing sl with
  | zero => rfl
  | succ n ih => unfold atEndWord; split <;> (try rfl); split <;> (try rfl); split <;> simp [ih]
@[simp] theorem Slot.advance_est : sl.advance.est = sl.est := by unfold Slot.advance; split <;> simp
@[simp] theorem atEndWord_bstat : (atEndWord n sl).bstat = sl.bstat := by
  induction n generalizing sl with
  | zero => rfl
  | succ n ih => unfold atEndWord; split <;> (try rfl); split <;> (try rfl); split <;> simp [ih]
@[simp] theorem Slot.advance_bstat : sl.advance.bstat = sl.bstat := by unfold Slot.advance; split <;> simp
@[simp] theorem atEndWord_notify : (atEndWord n sl).notify = sl.notify := by
  induction n generalizing sl with
  | zero => rfl
  | succ n ih => unfold atEndWord; split <;> (try rfl); split <;> (try rfl); split <;> simp [ih]
@[simp] theorem Slot.advance_notify : sl.advance.notify = sl.notify := by unfold Slot.advance; split <;> simp
@[simp] theorem atEndWord_wovf : (atEndWord n sl).wovf = sl.wovf := by
  induction n generalizing sl with
  | zero => rfl
  | succ n ih => unfold atEndWord; split <;> (try rfl); split <;> (try rfl); split <;> simp [ih]
@[simp] theorem Slot.advance_wovf : sl.advance.wovf = sl.wovf := by unfold Slot.advance; split <;> simp
@[simp] theorem atEndWord_rngkey : (atEndWord n sl).rngkey = sl.rngkey := by
  induction n generalizing sl with
  | zero => rfl
  | succ n ih => unfold atEndWord; split <;> (try rfl); split <;> (try rfl); split <;> simp [ih]
@[simp] theorem Slot.advance_rngkey : sl.advance.rngkey = sl.rngkey := by unfold Slot.advance; split <;> simp
@[simp] theorem atEndWord_lstate : (atEndWord n sl).lstate = sl.lstate := by
  induction n generalizing sl with
  | zero => rfl
  | succ n ih => unfold atEndWord; split <;> (try rfl); split <;> (try rfl); split <;> simp [ih]
@[simp] theorem Slot.advance_lstate : sl.advance.lstate = sl.lstate := by unfold Slot.advance; split <;> simp
@[simp] theorem atEndWord_gate : (atEndWord n sl).gate = sl.gate := by
  induction n generalizing sl with
  | zero => rfl
  | succ n ih => unfold atEndWord; split <;> (try rfl); split <;> (try rfl); split <;> simp [ih]
@[simp] theorem Slot.advance_gate : sl.advance.gate = sl.gate := by unfold Slot.advance; split <;> simp
@[simp] theorem atEndWord_wait : (atEndWord n sl).wait = sl.wait := by
  induction n generalizing sl with
  | zero => rfl
  | succ n ih => unfold atEndWord; split <;> (try rfl); split <;> (try rfl); split <;> simp [ih]
@[simp] theorem Slot.advance_wait : sl.advance.wait = sl.wait := by unfold Slot.advance; split <;> simp
@[simp] theorem atEndWord_gfail : (atEndWord n sl).gfail = sl.gfail := by
  induction n generalizing sl with
  | zero => rfl
  | succ n ih => unfold atEndWord; split <;> (try rfl); split <;> (try rfl); split <;> simp [ih]
@[simp] theorem Slot.advance_gfail : sl.advance.gfail = sl.gfail := by unfold Slot.advance; split <;> simp
@[simp] theorem atEndWord_divFree : (atEndWord n sl).divFree = sl.divFree := by
  induction n generalizing sl with
  | zero => rfl
  | succ n ih => unfold atEndWord; split <;> (try rfl); split <;> (try rfl); split <;> simp [ih]
@[simp] theorem Slot.advance_divFree : sl.advance.divFree = sl.divFree := by unfold Slot.advance; split <;> simp
@[simp] theorem atEndWord_vecFree : (atEndWord n sl).vecFree = sl.vecFree := by
  induction n generalizing sl with
  | zero => rfl
  | succ n ih => unfold atEndWord; split <;> (try rfl); split <;> (try rfl); split <;> simp [ih]
@[simp] theorem Slot.advance_vecFree : sl.advance.vecFree = sl.vecFree := by unfold Slot.advance; split <;> simp
@[simp] theorem atEndWord_flights : (atEndWord n sl).flights = sl.flights := by
  induction n generalizing sl with
  | zero => rfl
  | succ n ih => unfold atEndWord; split <;> (try rfl); split <;> (try rfl); split <;> simp [ih]
@[simp] theorem Slot.advance_flights : sl.advance.flights = sl.flights := by unfold Slot.advance; split <;> simp
@[simp] theorem atEndWord_vloads : (atEndWord n sl).vloads = sl.vloads := by
  induction n generalizing sl with
  | zero => rfl
  | succ n ih => unfold atEndWord; split <;> (try rfl); split <;> (try rfl); split <;> simp [ih]
@[simp] theorem Slot.advance_vloads : sl.advance.vloads = sl.vloads := by unfold Slot.advance; split <;> simp
@[simp] theorem atEndWord_accs : (atEndWord n sl).accs = sl.accs := by
  induction n generalizing sl with
  | zero => rfl
  | succ n ih => unfold atEndWord; split <;> (try rfl); split <;> (try rfl); split <;> simp [ih]
@[simp] theorem Slot.advance_accs : sl.advance.accs = sl.accs := by unfold Slot.advance; split <;> simp
@[simp] theorem atEndWord_pends : (atEndWord n sl).pends = sl.pends := by
  induction n generalizing sl with
  | zero => rfl
  | succ n ih => unfold atEndWord; split <;> (try rfl); split <;> (try rfl); split <;> simp [ih]
@[simp] theorem Slot.advance_pends : sl.advance.pends = sl.pends := by unfold Slot.advance; split <;> simp
@[simp] theorem atEndWord_due : (atEndWord n sl).due = sl.due := by
  induction n generalizing sl with
  | zero => rfl
  | succ n ih => unfold atEndWord; split <;> (try rfl); split <;> (try rfl); split <;> simp [ih]
@[simp] theorem Slot.advance_due : sl.advance.due = sl.due := by unfold Slot.advance; split <;> simp
@[simp] theorem atEndWord_budgetDue : (atEndWord n sl).budgetDue = sl.budgetDue := by
  induction n generalizing sl with
  | zero => rfl
  | succ n ih => unfold atEndWord; split <;> (try rfl); split <;> (try rfl); split <;> simp [ih]
@[simp] theorem Slot.advance_budgetDue : sl.advance.budgetDue = sl.budgetDue := by unfold Slot.advance; split <;> simp
@[simp] theorem atEndWord_hold : (atEndWord n sl).hold = sl.hold := by
  induction n generalizing sl with
  | zero => rfl
  | succ n ih => unfold atEndWord; split <;> (try rfl); split <;> (try rfl); split <;> simp [ih]
@[simp] theorem Slot.advance_hold : sl.advance.hold = sl.hold := by unfold Slot.advance; split <;> simp
@[simp] theorem atEndWord_nextId : (atEndWord n sl).nextId = sl.nextId := by
  induction n generalizing sl with
  | zero => rfl
  | succ n ih => unfold atEndWord; split <;> (try rfl); split <;> (try rfl); split <;> simp [ih]
@[simp] theorem Slot.advance_nextId : sl.advance.nextId = sl.nextId := by unfold Slot.advance; split <;> simp
@[simp] theorem atEndWord_claimed : (atEndWord n sl).claimed = sl.claimed := by
  induction n generalizing sl with
  | zero => rfl
  | succ n ih => unfold atEndWord; split <;> (try rfl); split <;> (try rfl); split <;> simp [ih]
@[simp] theorem Slot.advance_claimed : sl.advance.claimed = sl.claimed := by unfold Slot.advance; split <;> simp
@[simp] theorem atEndWord_oneStep : (atEndWord n sl).oneStep = sl.oneStep := by
  induction n generalizing sl with
  | zero => rfl
  | succ n ih => unfold atEndWord; split <;> (try rfl); split <;> (try rfl); split <;> simp [ih]
@[simp] theorem Slot.advance_oneStep : sl.advance.oneStep = sl.oneStep := by unfold Slot.advance; split <;> simp
@[simp] theorem atEndWord_vbad : (atEndWord n sl).vbad = sl.vbad := by
  induction n generalizing sl with
  | zero => rfl
  | succ n ih => unfold atEndWord; split <;> (try rfl); split <;> (try rfl); split <;> simp [ih]
@[simp] theorem Slot.advance_vbad : sl.advance.vbad = sl.vbad := by unfold Slot.advance; split <;> simp
@[simp] theorem atEndWord_beats : (atEndWord n sl).beats = sl.beats := by
  induction n generalizing sl with
  | zero => rfl
  | succ n ih => unfold atEndWord; split <;> (try rfl); split <;> (try rfl); split <;> simp [ih]
@[simp] theorem Slot.advance_beats : sl.advance.beats = sl.beats := by unfold Slot.advance; split <;> simp

end

end Sys2Proof.Machine
end

