-- ==== Sys2Proof/Laws/Words.lean ====
section
/-! SUPPORT. What the shared ends of a word come to: the states that the statements speak of. -/

namespace Sys2Proof.Machine

/-- The next word depends on the loop levels and the PC only. -/
theorem atEndWord_congr (n : Nat) (a b : Slot) (hp : a.pc = b.pc) (h1 : a.loop1 = b.loop1) (h2 : a.loop2 = b.loop2) :
    (atEndWord n a).pc = (atEndWord n b).pc ∧ (atEndWord n a).loop1 = (atEndWord n b).loop1 ∧
      (atEndWord n a).loop2 = (atEndWord n b).loop2 := by
  induction n generalizing a b with
  | zero => simp [atEndWord, hp, h1, h2]
  | succ n ih =>
    have hi : a.innermost = b.innermost := by simp [Slot.innermost, h1, h2]
    unfold atEndWord
    rw [← hi, hp]
    cases a.innermost with
    | none => simp [h1, h2]
    | some p =>
      obtain ⟨two, l⟩ := p
      by_cases e : l.stop = b.pc
      · simp only [e, if_true]
        by_cases g : l.remaining.toNat > 1
        · cases two <;> simp [g, Slot.setLevel, h1, h2]
        · simp only [g, if_false]
          apply ih <;> cases two <;> simp [Slot.setLevel, hp, h1, h2]
      · simp [e, h1, h2]

/-- The slot after its next word was found differs in PC and loop levels only. -/
theorem Slot.advance_eq (sl : Slot) :
    sl.advance = { sl with pc := sl.advance.pc, loop1 := sl.advance.loop1, loop2 := sl.advance.loop2 } := by
  have key (n : Nat) (a : Slot) : atEndWord n a =
      { a with pc := (atEndWord n a).pc, loop1 := (atEndWord n a).loop1, loop2 := (atEndWord n a).loop2 } := by
    induction n generalizing a with
    | zero => rfl
    | succ n ih =>
      unfold atEndWord
      split
      · rfl
      · rename_i two l _
        split
        · split
          · cases two <;> rfl
          · rw [ih]; cases two <;> rfl
        · rfl
  unfold Slot.advance
  split
  · rfl
  · exact key 2 sl

theorem Slot.advance_congr (a b : Slot) (hh : a.h = b.h) (hp : a.pc = b.pc) (h1 : a.loop1 = b.loop1)
    (h2 : a.loop2 = b.loop2) :
    a.advance.pc = b.advance.pc ∧ a.advance.loop1 = b.advance.loop1 ∧ a.advance.loop2 = b.advance.loop2 := by
  unfold Slot.advance
  rw [hh]
  split
  · simp [hp, h1, h2]
  · exact atEndWord_congr 2 a b hp h1 h2

theorem State.modMe_eq (s : State) (f : Slot → Slot) : s.modMe f = s.setSlot s.cur (f s.me) := rfl

@[simp] theorem State.modMe_setSlot (s : State) (x : Slot) (f : Slot → Slot) :
    (s.setSlot s.cur x).modMe f = s.setSlot s.cur (f x) := by
  rw [State.modMe_eq, State.me_setSlot_cur, State.setSlot_cur, State.setSlot_setSlot]

/-- A word that passes after its slot was changed elsewhere than at what finds the next word. -/
theorem State.passed_setSlot (s : State) (x : Slot) (hh : x.h = s.me.h) (hp : x.pc = s.me.pc) (h1 : x.loop1 = s.me.loop1)
    (h2 : x.loop2 = s.me.loop2) :
    (s.setSlot s.cur x).passed = s.setSlot s.cur { x with
      pc := s.me.advance.pc, loop1 := s.me.advance.loop1, loop2 := s.me.advance.loop2, gate := .fromTurn (x.turn + 1) } := by
  unfold State.passed
  rw [State.me_setSlot_cur, State.setSlot_cur, State.setSlot_setSlot]
  congr 1
  obtain ⟨a, b, c⟩ := Slot.advance_congr x s.me hh hp h1 h2
  rw [Slot.advance_eq x]
  simp only [a, b, c]

@[simp] theorem State.retire_eq (s : State) : s.retire = s.passed := rfl

/-- A result and the end of its word. -/
@[simp] theorem State.result_eq (s : State) (lat : Nat) (ws : List Write) : s.result lat ws = s.issued lat ws := by
  unfold State.result State.emit State.emitAt
  rw [State.retire_eq, State.passed, State.issued, State.me_modMe, State.modMe_eq]
  simp only [State.setSlot_cur, State.setSlot_setSlot]
  congr 1
  rw [Slot.advance_eq]
  conv_rhs => rw [Slot.advance_eq]
  obtain ⟨a, b, c⟩ := Slot.advance_congr { s.me with
      flights := s.me.flights ++ [⟨s.me.nextId, s.me.turn + lat, 0, ws⟩], nextId := s.me.nextId + 1 } s.me rfl rfl rfl rfl
  simp only [a, b, c]

@[simp] theorem State.transfer_eq (s : State) (tgt : BitVec 14) : s.transfer tgt = s.jumped tgt := rfl

theorem Slot.fault_handler (sl : Slot) (d : Bool) (c : BitVec 8) (pc : BitVec 14) (a i : Word) (h : sl.h = false)
    (f : sl.fhen.getLsbD c.toNat = true) : sl.fault d c pc a i = sl.inHandler d c pc a i := by
  simp [Slot.fault, h, f, Slot.inHandler]

theorem Slot.fault_stop (sl : Slot) (d : Bool) (c : BitVec 8) (pc : BitVec 14) (a i : Word) (h : sl.h = false)
    (f : sl.fhen.getLsbD c.toNat = false) : sl.fault d c pc a i = sl.leftFaulted d c pc a i := by
  simp [Slot.fault, h, f, Slot.leftFaulted, Slot.stopAs]

theorem zero_append_setWidth (c : BitVec 8) : (0#1 ++ c).setWidth 64 = c.setWidth 64 := by
  apply BitVec.eq_of_getLsbD_eq
  intro i hi
  simp only [BitVec.getLsbD_setWidth, BitVec.getLsbD_append]
  by_cases h : i < 8
  · simp [h]
  · simp [h, BitVec.getLsbD_of_ge c i (by omega)]

/-- A precise fault outside a handler. -/
theorem State.precise_eq (s : State) (cause : BitVec 8) (addr info : Word) (h : s.me.h = false) :
    s.precise cause addr info = s.faulted cause addr info := by
  unfold State.precise State.takeFault State.faulted
  have g : s.slot s.cur = s.me := rfl
  by_cases f : s.me.fhen.getLsbD cause.toNat = true
  · simp only [f, if_true, State.modSlot, g, Slot.fault_handler _ _ _ _ _ _ h f, State.slot_setSlot]
    simp [Slot.inHandler]
  · simp only [f, State.modSlot, g, Slot.fault_stop _ _ _ _ _ _ h (by simpa using f), State.slot_setSlot]
    simp [Slot.leftFaulted, State.sendRecord, State.record, State.modFe, zero_append_setWidth]

end Sys2Proof.Machine
end

