-- ==== Sys2Proof/Laws/Events.lean ====
section
/-! SUPPORT. What putting an event in the list of events to come does: the state with that event to come, and no more. -/

namespace Sys2Proof.Machine

theorem mem_insertBy (key : α → Nat) (a x : α) (l : List α) : x ∈ insertBy key a l ↔ x = a ∨ x ∈ l := by
  induction l with
  | nil => simp [insertBy]
  | cons b r ih =>
    unfold insertBy
    split
    · simp only [List.mem_cons, ih]; tauto
    · simp

theorem State.later_scheduled (s : State) (d : Nat) (i : Instr) : Scheduled s (s.later d i) d d i :=
  ⟨rfl, fun _ h => (mem_insertBy _ _ _ _).2 (.inr h), d, le_rfl, le_rfl, (mem_insertBy _ _ _ _).2 (.inl rfl)⟩

theorem State.takeExtra_eq (s : State) : s.takeExtra.2 = { s with extra := s.extra.drop 1 } := by
  unfold State.takeExtra
  cases h : s.extra with
  | nil => simp; rw [← h]
  | cons a r => simp

theorem State.laterX_scheduled (s : State) (d : Nat) (i : Instr) : ∃ hi, Scheduled s (s.laterX d i) d hi i := by
  refine ⟨d + s.takeExtra.1, ?_, ?_, d + s.takeExtra.1, Nat.le_add_right _ _, le_rfl, ?_⟩
  · simp [State.laterX, State.takeExtra_eq, State.later]
  · intro e h; simp [State.laterX, State.takeExtra_eq, State.later, mem_insertBy, h]
  · simp [State.laterX, State.takeExtra_eq, State.later, mem_insertBy]

theorem State.laterWithin_scheduled (s : State) (lo hi : Nat) (i : Instr) (h : lo ≤ hi) :
    Scheduled s (s.laterWithin lo hi i) lo hi i := by
  refine ⟨?_, ?_, Nat.max lo (Nat.min (lo + s.takeExtra.1) hi), ?_, ?_, ?_⟩
  · simp [State.laterWithin, State.takeExtra_eq, State.later]
  · intro e he; simp [State.laterWithin, State.takeExtra_eq, State.later, mem_insertBy, he]
  · exact Nat.le_max_left _ _
  · exact Nat.max_le.2 ⟨h, Nat.min_le_right _ _⟩
  · simp [State.laterWithin, State.takeExtra_eq, State.later, mem_insertBy]

/-- A slot put at a word. -/
def Slot.stood (sl : Slot) (pc : BitVec 14) (a b : LoopLevel) (g : Gate) : Slot :=
  { sl with pc := pc, loop1 := a, loop2 := b, gate := g }

theorem Slot.advance_stood (sl : Slot) (g : Gate) :
    { sl.advance with gate := g } = sl.stood sl.advance.pc sl.advance.loop1 sl.advance.loop2 g := by
  conv_lhs => rw [Slot.advance_eq]
  rfl

/-- What a word leaves in its slot may as well be left after it has passed, where it does not concern the next word. -/
theorem State.retire_modMe (s : State) (f : Slot → Slot) (hh : (f s.me).h = s.me.h) (ht : (f s.me).turn = s.me.turn)
    (hp : (f s.me).pc = s.me.pc) (h1 : (f s.me).loop1 = s.me.loop1) (h2 : (f s.me).loop2 = s.me.loop2)
    (hf : ∀ pc a b g, f (s.me.stood pc a b g) = (f s.me).stood pc a b g) : (s.modMe f).retire = s.passed.modMe f := by
  rw [State.retire_eq, State.modMe_eq, State.passed_setSlot s (f s.me) hh hp h1 h2, State.passed, State.modMe_setSlot,
    Slot.advance_stood, hf]
  simp only [Slot.stood, ht]

/-- A word that leaves its status. -/
theorem State.setL_retire (s : State) (b : Bool) (opc unit code : Nat) :
    (s.modMe fun sl => sl.setL b opc unit code).retire = s.passed.modMe fun sl => { sl with lstate := lstateValue b opc unit code } :=
  State.retire_modMe s (fun sl => sl.setL b opc unit code) rfl rfl rfl rfl rfl fun _ _ _ _ => rfl

@[simp] theorem State.report_eq (s : State) (opc unit code : Nat) : s.report opc unit code = s.reported opc unit code :=
  s.setL_retire false opc unit code

theorem Slot.finishL_eq (sl : Slot) (opc unit code : Nat) : sl.finishL opc unit code = sl.told opc unit code := by
  have e (b : Bool) (a u c : Nat) : lstateWord b a u c = lstateValue b a u c := rfl
  unfold Slot.finishL Slot.told
  rw [e]
  split
  · rfl
  · rfl

end Sys2Proof.Machine
end

