-- ==== Sys2Proof/Laws/Memory.lean ====
section
/-! SUPPORT. Memory: every operation keeps the canonical form, and a read after a write. -/

namespace Sys2Proof.Machine

theorem memCanonFrom_mono {lo hi : Nat} (h : lo ≤ hi) {m : List Host.Cell} (w : memCanonFrom hi m) : memCanonFrom lo m := by
  cases m with
  | nil => rfl
  | cons p r => obtain ⟨a, v⟩ := p; simp_all [memCanonFrom]; omega

theorem memCanonFrom_write {lo a : Nat} (v : Byte) (h : lo ≤ a) {m : List Host.Cell} (w : memCanonFrom lo m) :
    memCanonFrom lo (memWrite m a v) := by
  induction m generalizing lo with
  | nil => by_cases e : v = emptyByte <;> simp [memWrite, memCanonFrom, e, h]
  | cons p r ih =>
    obtain ⟨b, u⟩ := p
    simp only [memCanonFrom, Bool.and_eq_true, decide_eq_true_eq] at w
    obtain ⟨⟨wb, wu⟩, wr⟩ := w
    unfold memWrite
    split
    · split
      · simp [memCanonFrom, wb, wr]; simpa using wu
      · rename_i e; simp [memCanonFrom, h, wr, e]; exact ⟨by omega, by simpa using wu⟩
    · split
      · subst_vars
        split
        · exact memCanonFrom_mono (by omega) wr
        · rename_i e; simp [memCanonFrom, h, e, wr]
      · simp only [memCanonFrom, wb, wu, decide_true, Bool.true_and]; exact ih (by omega) wr

/-- Writing one byte keeps the canonical form. -/
theorem Memory.wf_write {m : List Host.Cell} (a : Nat) (v : Byte) (w : Memory.wf m) : Memory.wf (memWrite m a v) :=
  memCanonFrom_write v (Nat.zero_le a) w

/-- Writing bytes keeps the canonical form. -/
theorem Memory.wf_writeAll {m : List Host.Cell} (a : Nat) (bs : List Byte) (w : Memory.wf m) :
    Memory.wf (memWriteAll m a bs) := by
  induction bs generalizing m a with
  | nil => exact w
  | cons b r ih => exact ih _ (Memory.wf_write a b w)

theorem memCanonFrom_filter {lo : Nat} (f : Host.Cell → Bool) {m : List Host.Cell} (w : memCanonFrom lo m) :
    memCanonFrom lo (m.filter f) := by
  induction m generalizing lo with
  | nil => rfl
  | cons p r ih =>
    obtain ⟨b, u⟩ := p
    simp only [memCanonFrom, Bool.and_eq_true, decide_eq_true_eq] at w
    obtain ⟨⟨wb, wu⟩, wr⟩ := w
    by_cases h : f (b, u)
    · simp only [List.filter_cons, h, if_true, memCanonFrom, wb, wu, decide_true, Bool.true_and]; exact ih wr
    · simp only [List.filter_cons, h]; exact memCanonFrom_mono (by omega) (ih wr)

/-- Dropping cells keeps the canonical form. -/
theorem Memory.wf_filter {m : List Host.Cell} (f : Host.Cell → Bool) (w : Memory.wf m) : Memory.wf (m.filter f) :=
  memCanonFrom_filter f w

theorem State.poke_wf (s : State) (a : Nat) (bs : List Byte) (w : Memory.wf s.mem) : Memory.wf (s.poke a bs).mem :=
  Memory.wf_writeAll a bs w

theorem State.winPoke_wf (s : State) (c : Nat) (ea : Word) (bs : List Byte) (w : Memory.wf s.mem) :
    Memory.wf (s.winPoke c ea bs).mem := Memory.wf_writeAll _ bs w

theorem State.zeroBank_wf (s : State) (b : Nat) (w : Memory.wf s.mem) : Memory.wf (s.zeroBank b).mem :=
  Memory.wf_filter _ w

/-! ### Reading -/

/-- Below its first address a canonical memory reads as unlisted. -/
theorem memRead_below {lo a : Nat} (h : a < lo) {m : List Host.Cell} (w : memCanonFrom lo m) : memRead m a = emptyByte := by
  induction m generalizing lo with
  | nil => rfl
  | cons p r ih =>
    obtain ⟨b, u⟩ := p
    simp only [memCanonFrom, Bool.and_eq_true, decide_eq_true_eq] at w
    obtain ⟨⟨wb, wu⟩, wr⟩ := w
    have : b ≠ a := by omega
    simp only [memRead, this, if_false]; exact ih (by omega) wr

theorem memRead_write_from {lo a : Nat} (v : Byte) {m : List Host.Cell} (w : memCanonFrom lo m) :
    memRead (memWrite m a v) a = v := by
  induction m generalizing lo with
  | nil => by_cases e : v = emptyByte <;> simp [memWrite, memRead, e]
  | cons p r ih =>
    obtain ⟨b, u⟩ := p
    simp only [memCanonFrom, Bool.and_eq_true, decide_eq_true_eq] at w
    obtain ⟨⟨wb, wu⟩, wr⟩ := w
    unfold memWrite
    split
    · split
      · rename_i e
        have : b ≠ a := by omega
        simp only [memRead, this, if_false, e]
        exact memRead_below (by omega) wr
      · simp [memRead]
    · split
      · subst_vars
        split
        · rename_i e; rw [e]; exact memRead_below (by omega) wr
        · simp [memRead]
      · have : b ≠ a := by omega
        simp only [memRead, this, if_false]; exact ih wr

/-- The byte written is the byte read. -/
theorem memRead_write {m : List Host.Cell} (a : Nat) (v : Byte) (w : Memory.wf m) : memRead (memWrite m a v) a = v :=
  memRead_write_from v w

/-- Every other byte stays. -/
theorem memRead_write_ne (m : List Host.Cell) (a b : Nat) (v : Byte) (h : b ≠ a) : memRead (memWrite m a v) b = memRead m b := by
  induction m with
  | nil => by_cases e : v = emptyByte <;> simp [memWrite, memRead, e, Ne.symm h]
  | cons p r ih =>
    obtain ⟨c, u⟩ := p
    unfold memWrite
    split
    · split <;> simp [memRead, Ne.symm h]
    · split
      · subst_vars; split <;> simp [memRead, Ne.symm h]
      · simp [memRead, ih]

/-- Bytes outside those written stay. -/
theorem memRead_writeAll_ne (m : List Host.Cell) (a : Nat) (bs : List Byte) (b : Nat) (h : b < a ∨ a + bs.length ≤ b) :
    memRead (memWriteAll m a bs) b = memRead m b := by
  induction bs generalizing m a with
  | nil => rfl
  | cons v r ih =>
    simp only [List.length_cons] at h
    rw [memWriteAll, ih _ _ (by omega), memRead_write_ne _ _ _ _ (by omega)]

/-- Byte i of those written is the byte read at place i. -/
theorem memRead_writeAll {m : List Host.Cell} (a : Nat) (bs : List Byte) (w : Memory.wf m) (i : Nat) (h : i < bs.length) :
    memRead (memWriteAll m a bs) (a + i) = bs[i] := by
  induction bs generalizing m a i with
  | nil => simp at h
  | cons v r ih =>
    cases i with
    | zero => rw [memWriteAll, memRead_writeAll_ne _ _ _ _ (by omega)]; exact memRead_write a v w
    | succ i =>
      simp only [List.length_cons] at h
      have := ih (a + 1) (Memory.wf_write a v w) i (by omega)
      rw [show a + 1 + i = a + (i + 1) by omega] at this
      simpa [memWriteAll] using this

end Sys2Proof.Machine
end

