-- ==== Sys2Proof/Laws/PerInstr.lean ====
section
/-! SUPPORT. Of every instruction: the row that its body selects is the instruction itself, so that no two rows share a
body (R74). Events have no word and no body. -/

namespace Sys2Proof.Laws

/- The proofs are elaborated one after another: each thread takes 256 MiB of the memory limit. -/
set_option Elab.async false

/-- The body of a word row picks that row. -/
def WordShape.Statement (i : Instr) : Prop := ∀ b, i.body = some b → i.rowSelected = true → b.pick = some i

theorem WordShape.nop (h : Hdr) (o : FmtC) : WordShape.Statement (.nop h o) := by
  intro b e r; cases e; rfl

theorem WordShape.br (h : Hdr) (o : FmtC) : WordShape.Statement (.br h o) := by
  intro b e r; cases e; rfl

theorem WordShape.jmp (h : Hdr) (o : FmtC) : WordShape.Statement (.jmp h o) := by
  intro b e r; cases e; rfl

theorem WordShape.call (h : Hdr) (o : FmtC) : WordShape.Statement (.call h o) := by
  intro b e r; cases e; rfl

theorem WordShape.callr (h : Hdr) (o : FmtC) : WordShape.Statement (.callr h o) := by
  intro b e r; cases e; rfl

theorem WordShape.ret (h : Hdr) (o : FmtC) : WordShape.Statement (.ret h o) := by
  intro b e r; cases e; rfl

theorem WordShape.loop (h : Hdr) (o : FmtC) : WordShape.Statement (.loop h o) := by
  intro b e r; cases e; cases o; simp only [Instr.rowSelected, beq_iff_eq] at r; subst r; rfl

theorem WordShape.loopImm (h : Hdr) (o : FmtC) : WordShape.Statement (.loopImm h o) := by
  intro b e r; cases e; cases o; simp only [Instr.rowSelected, beq_iff_eq] at r; subst r; rfl

theorem WordShape.waitc (h : Hdr) (o : FmtC) : WordShape.Statement (.waitc h o) := by
  intro b e r; cases e; cases o; simp only [Instr.rowSelected, beq_iff_eq] at r; subst r; rfl

theorem WordShape.waitcImm (h : Hdr) (o : FmtC) : WordShape.Statement (.waitcImm h o) := by
  intro b e r; cases e; cases o; simp only [Instr.rowSelected, beq_iff_eq] at r; subst r; rfl

theorem WordShape.endSlot (h : Hdr) (o : FmtC) : WordShape.Statement (.endSlot h o) := by
  intro b e r; cases e; rfl

theorem WordShape.trap (h : Hdr) (o : FmtC) : WordShape.Statement (.trap h o) := by
  intro b e r; cases e; rfl

theorem WordShape.brk (h : Hdr) (o : FmtC) : WordShape.Statement (.brk h o) := by
  intro b e r; cases e; rfl

theorem WordShape.rft (h : Hdr) (o : FmtC) : WordShape.Statement (.rft h o) := by
  intro b e r; cases e; cases o; simp only [Instr.rowSelected, beq_iff_eq] at r; subst r; rfl

theorem WordShape.rftNext (h : Hdr) (o : FmtC) : WordShape.Statement (.rftNext h o) := by
  intro b e r; cases e; cases o; simp only [Instr.rowSelected, beq_iff_eq] at r; subst r; rfl

theorem WordShape.chkp (h : Hdr) (o : FmtC) : WordShape.Statement (.chkp h o) := by
  intro b e r; cases e; cases o; simp only [Instr.rowSelected, beq_iff_eq] at r; subst r; rfl

theorem WordShape.chkpImm (h : Hdr) (o : FmtC) : WordShape.Statement (.chkpImm h o) := by
  intro b e r; cases e; cases o; simp only [Instr.rowSelected, beq_iff_eq] at r; subst r; rfl

theorem WordShape.add (h : Hdr) (o : FmtA) : WordShape.Statement (.add h o) := by
  intro b e r; cases e; rfl

theorem WordShape.sub (h : Hdr) (o : FmtA) : WordShape.Statement (.sub h o) := by
  intro b e r; cases e; rfl

theorem WordShape.mul (h : Hdr) (o : FmtA) : WordShape.Statement (.mul h o) := by
  intro b e r; cases e; rfl

theorem WordShape.mulh (h : Hdr) (o : FmtA) : WordShape.Statement (.mulh h o) := by
  intro b e r; cases e; rfl

theorem WordShape.div (h : Hdr) (o : FmtA) : WordShape.Statement (.div h o) := by
  intro b e r; cases e; rfl

theorem WordShape.rem (h : Hdr) (o : FmtA) : WordShape.Statement (.rem h o) := by
  intro b e r; cases e; rfl

theorem WordShape.andG (h : Hdr) (o : FmtA) : WordShape.Statement (.andG h o) := by
  intro b e r; cases e; rfl

theorem WordShape.orG (h : Hdr) (o : FmtA) : WordShape.Statement (.orG h o) := by
  intro b e r; cases e; rfl

theorem WordShape.xorG (h : Hdr) (o : FmtA) : WordShape.Statement (.xorG h o) := by
  intro b e r; cases e; rfl

theorem WordShape.andn (h : Hdr) (o : FmtA) : WordShape.Statement (.andn h o) := by
  intro b e r; cases e; rfl

theorem WordShape.shl (h : Hdr) (o : FmtA) : WordShape.Statement (.shl h o) := by
  intro b e r; cases e; rfl

theorem WordShape.shr (h : Hdr) (o : FmtA) : WordShape.Statement (.shr h o) := by
  intro b e r; cases e; rfl

theorem WordShape.sar (h : Hdr) (o : FmtA) : WordShape.Statement (.sar h o) := by
  intro b e r; cases e; rfl

theorem WordShape.rot (h : Hdr) (o : FmtA) : WordShape.Statement (.rot h o) := by
  intro b e r; cases e; rfl

theorem WordShape.minG (h : Hdr) (o : FmtA) : WordShape.Statement (.minG h o) := by
  intro b e r; cases e; rfl

theorem WordShape.maxG (h : Hdr) (o : FmtA) : WordShape.Statement (.maxG h o) := by
  intro b e r; cases e; rfl

theorem WordShape.clz (h : Hdr) (o : FmtA) : WordShape.Statement (.clz h o) := by
  intro b e r; cases e; rfl

theorem WordShape.ctz (h : Hdr) (o : FmtA) : WordShape.Statement (.ctz h o) := by
  intro b e r; cases e; rfl

theorem WordShape.popc (h : Hdr) (o : FmtA) : WordShape.Statement (.popc h o) := by
  intro b e r; cases e; rfl

theorem WordShape.ext (h : Hdr) (o : FmtA) : WordShape.Statement (.ext h o) := by
  intro b e r; cases e; rfl

theorem WordShape.bfx (h : Hdr) (o : FmtA) : WordShape.Statement (.bfx h o) := by
  intro b e r; cases e; rfl

theorem WordShape.bfi (h : Hdr) (o : FmtA) : WordShape.Statement (.bfi h o) := by
  intro b e r; cases e; rfl

theorem WordShape.sel (h : Hdr) (o : FmtA) : WordShape.Statement (.sel h o) := by
  intro b e r; cases e; rfl

theorem WordShape.lea (h : Hdr) (o : FmtA) : WordShape.Statement (.lea h o) := by
  intro b e r; cases e; rfl

theorem WordShape.cmp (h : Hdr) (o : FmtA) : WordShape.Statement (.cmp h o) := by
  intro b e r; cases e; rfl

theorem WordShape.plog (h : Hdr) (o : FmtA) : WordShape.Statement (.plog h o) := by
  intro b e r; cases e; rfl

theorem WordShape.addi (h : Hdr) (o : FmtB) : WordShape.Statement (.addi h o) := by
  intro b e r; cases e; rfl

theorem WordShape.andi (h : Hdr) (o : FmtB) : WordShape.Statement (.andi h o) := by
  intro b e r; cases e; rfl

theorem WordShape.ori (h : Hdr) (o : FmtB) : WordShape.Statement (.ori h o) := by
  intro b e r; cases e; rfl

theorem WordShape.xori (h : Hdr) (o : FmtB) : WordShape.Statement (.xori h o) := by
  intro b e r; cases e; rfl

theorem WordShape.shi (h : Hdr) (o : FmtB) : WordShape.Statement (.shi h o) := by
  intro b e r; cases e; rfl

theorem WordShape.li (h : Hdr) (o : FmtB) : WordShape.Statement (.li h o) := by
  intro b e r; cases e; cases o; simp only [Instr.rowSelected, beq_iff_eq] at r; subst r; rfl

theorem WordShape.liZ (h : Hdr) (o : FmtB) : WordShape.Statement (.liZ h o) := by
  intro b e r; cases e; cases o; simp only [Instr.rowSelected, beq_iff_eq] at r; subst r; rfl

theorem WordShape.liH (h : Hdr) (o : FmtB) : WordShape.Statement (.liH h o) := by
  intro b e r; cases e; cases o; simp only [Instr.rowSelected, beq_iff_eq] at r; subst r; rfl

theorem WordShape.cmpi (h : Hdr) (o : FmtB) : WordShape.Statement (.cmpi h o) := by
  intro b e r; cases e; rfl

theorem WordShape.fadd (h : Hdr) (o : FmtA) : WordShape.Statement (.fadd h o) := by
  intro b e r; cases e; rfl

theorem WordShape.fsub (h : Hdr) (o : FmtA) : WordShape.Statement (.fsub h o) := by
  intro b e r; cases e; rfl

theorem WordShape.fmul (h : Hdr) (o : FmtA) : WordShape.Statement (.fmul h o) := by
  intro b e r; cases e; rfl

theorem WordShape.ffma (h : Hdr) (o : FmtA) : WordShape.Statement (.ffma h o) := by
  intro b e r; cases e; rfl

theorem WordShape.fmin (h : Hdr) (o : FmtA) : WordShape.Statement (.fmin h o) := by
  intro b e r; cases e; rfl

theorem WordShape.fmax (h : Hdr) (o : FmtA) : WordShape.Statement (.fmax h o) := by
  intro b e r; cases e; rfl

theorem WordShape.fcmp (h : Hdr) (o : FmtA) : WordShape.Statement (.fcmp h o) := by
  intro b e r; cases e; rfl

theorem WordShape.fcvt (h : Hdr) (o : FmtA) : WordShape.Statement (.fcvt h o) := by
  intro b e r; cases e; rfl

theorem WordShape.fsf (h : Hdr) (o : FmtA) : WordShape.Statement (.fsf h o) := by
  intro b e r; cases e; rfl

theorem WordShape.fclass (h : Hdr) (o : FmtA) : WordShape.Statement (.fclass h o) := by
  intro b e r; cases e; rfl

theorem WordShape.fsgn (h : Hdr) (o : FmtA) : WordShape.Statement (.fsgn h o) := by
  intro b e r; cases e; rfl

theorem WordShape.mfsr (h : Hdr) (o : FmtX) : WordShape.Statement (.mfsr h o) := by
  intro b e r; cases e; rfl

theorem WordShape.mtsr (h : Hdr) (o : FmtX) : WordShape.Statement (.mtsr h o) := by
  intro b e r; cases e; exact congrArg some (if_neg (by simpa [Instr.rowSelected] using r))

theorem WordShape.srset (h : Hdr) (o : FmtX) : WordShape.Statement (.srset h o) := by
  intro b e r; cases e; exact congrArg some (if_neg (by simpa [Instr.rowSelected] using r))

theorem WordShape.srclr (h : Hdr) (o : FmtX) : WordShape.Statement (.srclr h o) := by
  intro b e r; cases e; exact congrArg some (if_neg (by simpa [Instr.rowSelected] using r))

theorem WordShape.wheelWrite (h : Hdr) (op : SrOp) (o : FmtX) : WordShape.Statement (.wheelWrite h op o) := by
  intro b e r; cases e; cases o; simp only [Instr.rowSelected, beq_iff_eq] at r; subst r; cases op <;> rfl

theorem WordShape.wheelSwitch (core : Nat) : WordShape.Statement (.wheelSwitch core) := fun _ e => nomatch e

theorem WordShape.ld (h : Hdr) (o : FmtM) : WordShape.Statement (.ld h o) := by
  intro b e r; cases e; rfl

theorem WordShape.st (h : Hdr) (o : FmtM) : WordShape.Statement (.st h o) := by
  intro b e r; cases e; rfl

theorem WordShape.amo (h : Hdr) (o : FmtM) : WordShape.Statement (.amo h o) := by
  intro b e r; cases e; rfl

theorem WordShape.fenceAcq (h : Hdr) (o : FmtM) : WordShape.Statement (.fenceAcq h o) := by
  intro b e r; cases e; cases o; simp only [Instr.rowSelected, Bool.and_eq_true, beq_iff_eq] at r; obtain ⟨r, q⟩ := r; subst q; subst r; rfl

theorem WordShape.fenceRel (h : Hdr) (o : FmtM) : WordShape.Statement (.fenceRel h o) := by
  intro b e r; cases e; cases o; simp only [Instr.rowSelected, Bool.and_eq_true, beq_iff_eq] at r; obtain ⟨r, q⟩ := r; subst q; subst r; rfl

theorem WordShape.fenceAr (h : Hdr) (o : FmtM) : WordShape.Statement (.fenceAr h o) := by
  intro b e r; cases e; cases o; simp only [Instr.rowSelected, Bool.and_eq_true, beq_iff_eq] at r; obtain ⟨r, q⟩ := r; subst q; subst r; rfl

theorem WordShape.fenceSc (h : Hdr) (o : FmtM) : WordShape.Statement (.fenceSc h o) := by
  intro b e r; cases e; cases o; simp only [Instr.rowSelected, beq_iff_eq] at r; subst r; rfl

theorem WordShape.fenceLayer (h : Hdr) (o : FmtM) : WordShape.Statement (.fenceLayer h o) := by
  intro b e r; cases e; cases o; simp only [Instr.rowSelected, beq_iff_eq] at r; subst r; rfl

theorem WordShape.give (h : Hdr) (o : FmtM) : WordShape.Statement (.give h o) := by
  intro b e r; cases e; rfl

theorem WordShape.giveAdmission (core id : Nat) : WordShape.Statement (.giveAdmission core id) := fun _ e => nomatch e

theorem WordShape.giveRepoint (core id : Nat) : WordShape.Statement (.giveRepoint core id) := fun _ e => nomatch e

theorem WordShape.batt (h : Hdr) (o : FmtM) : WordShape.Statement (.batt h o) := by
  intro b e r; cases e; rfl

theorem WordShape.battComplete (core k : Nat) : WordShape.Statement (.battComplete core k) := fun _ e => nomatch e

theorem WordShape.bdet (h : Hdr) (o : FmtM) : WordShape.Statement (.bdet h o) := by
  intro b e r; cases e; rfl

theorem WordShape.bdetComplete (core k : Nat) : WordShape.Statement (.bdetComplete core k) := fun _ e => nomatch e

theorem WordShape.bqry (h : Hdr) (o : FmtM) : WordShape.Statement (.bqry h o) := by
  intro b e r; cases e; rfl

theorem WordShape.bqryAnswer (core slot : Nat) : WordShape.Statement (.bqryAnswer core slot) := fun _ e => nomatch e

theorem WordShape.vadd (h : Hdr) (o : FmtV) : WordShape.Statement (.vadd h o) := by
  intro b e r; cases e; rfl

theorem WordShape.vsub (h : Hdr) (o : FmtV) : WordShape.Statement (.vsub h o) := by
  intro b e r; cases e; rfl

theorem WordShape.vmul (h : Hdr) (o : FmtV) : WordShape.Statement (.vmul h o) := by
  intro b e r; cases e; rfl

theorem WordShape.vfma (h : Hdr) (o : FmtV) : WordShape.Statement (.vfma h o) := by
  intro b e r; cases e; rfl

theorem WordShape.vmin (h : Hdr) (o : FmtV) : WordShape.Statement (.vmin h o) := by
  intro b e r; cases e; rfl

theorem WordShape.vmax (h : Hdr) (o : FmtV) : WordShape.Statement (.vmax h o) := by
  intro b e r; cases e; rfl

theorem WordShape.vsgn (h : Hdr) (o : FmtV) : WordShape.Statement (.vsgn h o) := by
  intro b e r; cases e; rfl

theorem WordShape.vcmp (h : Hdr) (o : FmtV) : WordShape.Statement (.vcmp h o) := by
  intro b e r; cases e; rfl

theorem WordShape.vsel (h : Hdr) (o : FmtV) : WordShape.Statement (.vsel h o) := by
  intro b e r; cases e; rfl

theorem WordShape.vand (h : Hdr) (o : FmtV) : WordShape.Statement (.vand h o) := by
  intro b e r; cases e; rfl

theorem WordShape.vor (h : Hdr) (o : FmtV) : WordShape.Statement (.vor h o) := by
  intro b e r; cases e; rfl

theorem WordShape.vxor (h : Hdr) (o : FmtV) : WordShape.Statement (.vxor h o) := by
  intro b e r; cases e; rfl

theorem WordShape.vsh (h : Hdr) (o : FmtV) : WordShape.Statement (.vsh h o) := by
  intro b e r; cases e; rfl

theorem WordShape.vcvt (h : Hdr) (o : FmtV) : WordShape.Statement (.vcvt h o) := by
  intro b e r; cases e; rfl

theorem WordShape.vsf (h : Hdr) (o : FmtV) : WordShape.Statement (.vsf h o) := by
  intro b e r; cases e; rfl

theorem WordShape.vred (h : Hdr) (o : FmtV) : WordShape.Statement (.vred h o) := by
  intro b e r; cases e; rfl

theorem WordShape.vscan (h : Hdr) (o : FmtV) : WordShape.Statement (.vscan h o) := by
  intro b e r; cases e; rfl

theorem WordShape.vperm (h : Hdr) (o : FmtV) : WordShape.Statement (.vperm h o) := by
  intro b e r; cases e; rfl

theorem WordShape.vbcast (h : Hdr) (o : FmtV) : WordShape.Statement (.vbcast h o) := by
  intro b e r; cases e; rfl

theorem WordShape.vext (h : Hdr) (o : FmtV) : WordShape.Statement (.vext h o) := by
  intro b e r; cases e; rfl

theorem WordShape.vins (h : Hdr) (o : FmtV) : WordShape.Statement (.vins h o) := by
  intro b e r; cases e; rfl

theorem WordShape.viota (h : Hdr) (o : FmtV) : WordShape.Statement (.viota h o) := by
  intro b e r; cases e; rfl

theorem WordShape.vslide (h : Hdr) (o : FmtV) : WordShape.Statement (.vslide h o) := by
  intro b e r; cases e; rfl

theorem WordShape.vld (h : Hdr) (o : FmtV) : WordShape.Statement (.vld h o) := by
  intro b e r; cases e; rfl

theorem WordShape.vst (h : Hdr) (o : FmtV) : WordShape.Statement (.vst h o) := by
  intro b e r; cases e; rfl

theorem WordShape.vgath (h : Hdr) (o : FmtV) : WordShape.Statement (.vgath h o) := by
  intro b e r; cases e; rfl

theorem WordShape.vscat (h : Hdr) (o : FmtV) : WordShape.Statement (.vscat h o) := by
  intro b e r; cases e; rfl

theorem WordShape.vqe8 (h : Hdr) (o : FmtV) : WordShape.Statement (.vqe8 h o) := by
  intro b e r; cases e; rfl

theorem WordShape.vde8 (h : Hdr) (o : FmtV) : WordShape.Statement (.vde8 h o) := by
  intro b e r; cases e; rfl

theorem WordShape.vsce8 (h : Hdr) (o : FmtV) : WordShape.Statement (.vsce8 h o) := by
  intro b e r; cases e; rfl

theorem WordShape.vqf4 (h : Hdr) (o : FmtV) : WordShape.Statement (.vqf4 h o) := by
  intro b e r; cases e; rfl

theorem WordShape.vdf4 (h : Hdr) (o : FmtV) : WordShape.Statement (.vdf4 h o) := by
  intro b e r; cases e; rfl

theorem WordShape.vscf4 (h : Hdr) (o : FmtV) : WordShape.Statement (.vscf4 h o) := by
  intro b e r; cases e; rfl

theorem WordShape.vrng (h : Hdr) (o : FmtV) : WordShape.Statement (.vrng h o) := by
  intro b e r; cases e; rfl

theorem WordShape.vmlog (h : Hdr) (o : FmtV) : WordShape.Statement (.vmlog h o) := by
  intro b e r; cases e; rfl

theorem WordShape.vmpop (h : Hdr) (o : FmtV) : WordShape.Statement (.vmpop h o) := by
  intro b e r; cases e; rfl

theorem WordShape.vmfst (h : Hdr) (o : FmtV) : WordShape.Statement (.vmfst h o) := by
  intro b e r; cases e; rfl

theorem WordShape.vmov (h : Hdr) (o : FmtV) : WordShape.Statement (.vmov h o) := by
  intro b e r; cases e; rfl

theorem WordShape.vpack (h : Hdr) (o : FmtV) : WordShape.Statement (.vpack h o) := by
  intro b e r; cases e; rfl

theorem WordShape.vunpk (h : Hdr) (o : FmtV) : WordShape.Statement (.vunpk h o) := by
  intro b e r; cases e; rfl

theorem WordShape.vclmp (h : Hdr) (o : FmtV) : WordShape.Statement (.vclmp h o) := by
  intro b e r; cases e; rfl

theorem WordShape.epop (h : Hdr) (o : FmtV) : WordShape.Statement (.epop h o) := by
  intro b e r; cases e; rfl

theorem WordShape.epush (h : Hdr) (o : FmtV) : WordShape.Statement (.epush h o) := by
  intro b e r; cases e; exact congrArg some (if_neg (by simpa [Instr.rowSelected] using r))

theorem WordShape.epushHdr (h : Hdr) (o : FmtV) : WordShape.Statement (.epushHdr h o) := by
  intro b e r; cases e; exact congrArg some (if_pos r)

theorem WordShape.fuse (h : Hdr) (o : FmtA) : WordShape.Statement (.fuse h o) := by
  intro b e r; cases e; rfl

theorem WordShape.fuseComplete (lens : Nat) : WordShape.Statement (.fuseComplete lens) := fun _ e => nomatch e

theorem WordShape.unfuse (h : Hdr) (o : FmtA) : WordShape.Statement (.unfuse h o) := by
  intro b e r; cases e; rfl

theorem WordShape.lgo (h : Hdr) (o : FmtA) : WordShape.Statement (.lgo h o) := by
  intro b e r; cases e; rfl

theorem WordShape.lensNodeStart (lens : Nat) : WordShape.Statement (.lensNodeStart lens) := fun _ e => nomatch e

theorem WordShape.lstop (h : Hdr) (o : FmtA) : WordShape.Statement (.lstop h o) := by
  intro b e r; cases e; cases o; simp only [Instr.rowSelected, beq_iff_eq] at r; subst r; rfl

theorem WordShape.lstopQ (h : Hdr) (o : FmtA) : WordShape.Statement (.lstopQ h o) := by
  intro b e r; cases e; cases o; simp only [Instr.rowSelected, beq_iff_eq] at r; subst r; rfl

theorem WordShape.lstat (h : Hdr) (o : FmtA) : WordShape.Statement (.lstat h o) := by
  intro b e r; cases e; rfl

theorem WordShape.agset (h : Hdr) (o : FmtA) : WordShape.Statement (.agset h o) := by
  intro b e r; cases e; rfl

theorem WordShape.aggo (h : Hdr) (o : FmtA) : WordShape.Statement (.aggo h o) := by
  intro b e r; cases e; rfl

theorem WordShape.agstat (h : Hdr) (o : FmtA) : WordShape.Statement (.agstat h o) := by
  intro b e r; cases e; rfl

theorem WordShape.gateClose (h : Hdr) (o : FmtA) : WordShape.Statement (.gateClose h o) := by
  intro b e r; cases e; cases o; simp only [Instr.rowSelected, beq_iff_eq] at r; subst r; rfl

theorem WordShape.gateOpen (h : Hdr) (o : FmtA) : WordShape.Statement (.gateOpen h o) := by
  intro b e r; cases e; cases o; simp only [Instr.rowSelected, beq_iff_eq] at r; subst r; rfl

theorem WordShape.bindCh (h : Hdr) (o : FmtA) : WordShape.Statement (.bindCh h o) := by
  intro b e r; cases e; cases o; simp only [Instr.rowSelected, beq_iff_eq] at r; subst r; rfl

theorem WordShape.bindComplete (task chan : Nat) : WordShape.Statement (.bindComplete task chan) := fun _ e => nomatch e

theorem WordShape.bindUn (h : Hdr) (o : FmtA) : WordShape.Statement (.bindUn h o) := by
  intro b e r; cases e; cases o; simp only [Instr.rowSelected, beq_iff_eq] at r; subst r; rfl

theorem WordShape.unbindComplete (task chan : Nat) : WordShape.Statement (.unbindComplete task chan) := fun _ e => nomatch e

theorem WordShape.skewRd (h : Hdr) (o : FmtA) : WordShape.Statement (.skewRd h o) := by
  intro b e r; cases e; cases o; simp only [Instr.rowSelected, beq_iff_eq] at r; subst r; rfl

theorem WordShape.skewWr (h : Hdr) (o : FmtA) : WordShape.Statement (.skewWr h o) := by
  intro b e r; cases e; cases o; simp only [Instr.rowSelected, beq_iff_eq] at r; subst r; rfl

theorem WordShape.ctab (h : Hdr) (o : FmtA) : WordShape.Statement (.ctab h o) := by
  intro b e r; cases e; rfl

theorem WordShape.ctabLand (lens id : Nat) : WordShape.Statement (.ctabLand lens id) := fun _ e => nomatch e

theorem WordShape.dmapFacet (h : Hdr) (o : FmtA) : WordShape.Statement (.dmapFacet h o) := by
  intro b e r; cases e; cases o; simp only [Instr.rowSelected, beq_iff_eq] at r; subst r; rfl

theorem WordShape.dmapCore (h : Hdr) (o : FmtA) : WordShape.Statement (.dmapCore h o) := by
  intro b e r; cases e; cases o; simp only [Instr.rowSelected, beq_iff_eq] at r; subst r; rfl

theorem WordShape.sendMsg (h : Hdr) (o : FmtA) : WordShape.Statement (.sendMsg h o) := by
  intro b e r; cases e; rfl

theorem WordShape.recv (h : Hdr) (o : FmtA) : WordShape.Statement (.recv h o) := by
  intro b e r; cases e; rfl

theorem WordShape.recva (h : Hdr) (o : FmtA) : WordShape.Statement (.recva h o) := by
  intro b e r; cases e; rfl

theorem WordShape.barAw (h : Hdr) (o : FmtA) : WordShape.Statement (.barAw h o) := by
  intro b e r; cases e; cases o; simp only [Instr.rowSelected, beq_iff_eq] at r; subst r; rfl

theorem WordShape.barA (h : Hdr) (o : FmtA) : WordShape.Statement (.barA h o) := by
  intro b e r; cases e; cases o; simp only [Instr.rowSelected, beq_iff_eq] at r; subst r; rfl

theorem WordShape.barW (h : Hdr) (o : FmtA) : WordShape.Statement (.barW h o) := by
  intro b e r; cases e; cases o; simp only [Instr.rowSelected, beq_iff_eq] at r; subst r; rfl

theorem WordShape.note (h : Hdr) (o : FmtA) : WordShape.Statement (.note h o) := by
  intro b e r; cases e; rfl

theorem WordShape.waitn (h : Hdr) (o : FmtA) : WordShape.Statement (.waitn h o) := by
  intro b e r; cases e; rfl

theorem WordShape.namePre (h : Hdr) (o : FmtA) : WordShape.Statement (.namePre h o) := by
  intro b e r; cases e; rfl

theorem WordShape.gnode (h : Hdr) (o : FmtA) : WordShape.Statement (.gnode h o) := by
  intro b e r; cases e; rfl

theorem WordShape.gdep (h : Hdr) (o : FmtA) : WordShape.Statement (.gdep h o) := by
  intro b e r; cases e; rfl

theorem WordShape.gwait (h : Hdr) (o : FmtA) : WordShape.Statement (.gwait h o) := by
  intro b e r; cases e; cases o; simp only [Instr.rowSelected, beq_iff_eq] at r; subst r; rfl

theorem WordShape.gwaitAll (h : Hdr) (o : FmtA) : WordShape.Statement (.gwaitAll h o) := by
  intro b e r; cases e; cases o; simp only [Instr.rowSelected, beq_iff_eq] at r; subst r; rfl

theorem WordShape.gpoll (h : Hdr) (o : FmtA) : WordShape.Statement (.gpoll h o) := by
  intro b e r; cases e; rfl

theorem WordShape.gkill (h : Hdr) (o : FmtA) : WordShape.Statement (.gkill h o) := by
  intro b e r; cases e; rfl

theorem WordShape.gstatFree (h : Hdr) (o : FmtA) : WordShape.Statement (.gstatFree h o) := by
  intro b e r; cases e; cases o; simp only [Instr.rowSelected, beq_iff_eq] at r; subst r; rfl

theorem WordShape.gstatDone (h : Hdr) (o : FmtA) : WordShape.Statement (.gstatDone h o) := by
  intro b e r; cases e; cases o; simp only [Instr.rowSelected, beq_iff_eq] at r; subst r; rfl

theorem WordShape.cpy (h : Hdr) (o : FmtA) : WordShape.Statement (.cpy h o) := by
  intro b e r; cases e; rfl

theorem WordShape.qntE8l (h : Hdr) (o : FmtA) : WordShape.Statement (.qntE8l h o) := by
  intro b e r; cases e; cases o; simp only [Instr.rowSelected, beq_iff_eq] at r; subst r; rfl

theorem WordShape.qntFq4 (h : Hdr) (o : FmtA) : WordShape.Statement (.qntFq4 h o) := by
  intro b e r; cases e; cases o; simp only [Instr.rowSelected, beq_iff_eq] at r; subst r; rfl

theorem WordShape.resultWriteback (core slot id : Nat) : WordShape.Statement (.resultWriteback core slot id) := fun _ e => nomatch e

theorem WordShape.deferredFault (core slot id : Nat) : WordShape.Statement (.deferredFault core slot id) := fun _ e => nomatch e

theorem WordShape.windowEnd (core slot id : Nat) : WordShape.Statement (.windowEnd core slot id) := fun _ e => nomatch e

theorem WordShape.budgetDeadline (core slot : Nat) : WordShape.Statement (.budgetDeadline core slot) := fun _ e => nomatch e

theorem WordShape.cellHold (lens row col : Nat) : WordShape.Statement (.cellHold lens row col) := fun _ e => nomatch e

theorem WordShape.cellPass (lens row col : Nat) : WordShape.Statement (.cellPass lens row col) := fun _ e => nomatch e

theorem WordShape.cellAcm (lens row col : Nat) : WordShape.Statement (.cellAcm lens row col) := fun _ e => nomatch e

theorem WordShape.cellAcmz (lens row col : Nat) : WordShape.Statement (.cellAcmz lens row col) := fun _ e => nomatch e

theorem WordShape.cellPsm (lens row col : Nat) : WordShape.Statement (.cellPsm lens row col) := fun _ e => nomatch e

theorem WordShape.cellWld (lens row col : Nat) : WordShape.Statement (.cellWld lens row col) := fun _ e => nomatch e

theorem WordShape.cellDrn (lens row col : Nat) : WordShape.Statement (.cellDrn lens row col) := fun _ e => nomatch e

theorem WordShape.cellCmpx (lens row col : Nat) : WordShape.Statement (.cellCmpx lens row col) := fun _ e => nomatch e

theorem WordShape.cellRec (lens row col : Nat) : WordShape.Statement (.cellRec lens row col) := fun _ e => nomatch e

theorem WordShape.cellGen (lens row col : Nat) : WordShape.Statement (.cellGen lens row col) := fun _ e => nomatch e

theorem WordShape.cellAdd (lens row col : Nat) : WordShape.Statement (.cellAdd lens row col) := fun _ e => nomatch e

theorem WordShape.cellMaxp (lens row col : Nat) : WordShape.Statement (.cellMaxp lens row col) := fun _ e => nomatch e

theorem WordShape.cellLdh (lens row col : Nat) : WordShape.Statement (.cellLdh lens row col) := fun _ e => nomatch e

theorem WordShape.cellSnap (lens row col : Nat) : WordShape.Statement (.cellSnap lens row col) := fun _ e => nomatch e

theorem WordShape.cellRestore (lens row col : Nat) : WordShape.Statement (.cellRestore lens row col) := fun _ e => nomatch e

theorem WordShape.cellZero (lens row col : Nat) : WordShape.Statement (.cellZero lens row col) := fun _ e => nomatch e

theorem WordShape.inputPresent (lens edge lane : Nat) : WordShape.Statement (.inputPresent lens edge lane) := fun _ e => nomatch e

theorem WordShape.edgeWaitEnd (lens : Nat) : WordShape.Statement (.edgeWaitEnd lens) := fun _ e => nomatch e

theorem WordShape.stepRow (lens : Nat) : WordShape.Statement (.stepRow lens) := fun _ e => nomatch e

theorem WordShape.tileLoopRow (lens : Nat) : WordShape.Statement (.tileLoopRow lens) := fun _ e => nomatch e

theorem WordShape.waitgRow (lens : Nat) : WordShape.Statement (.waitgRow lens) := fun _ e => nomatch e

theorem WordShape.signalRow (lens : Nat) : WordShape.Statement (.signalRow lens) := fun _ e => nomatch e

theorem WordShape.endRow (lens : Nat) : WordShape.Statement (.endRow lens) := fun _ e => nomatch e

theorem WordShape.syncRow (lens : Nat) : WordShape.Statement (.syncRow lens) := fun _ e => nomatch e

theorem WordShape.syncResume (lens : Nat) : WordShape.Statement (.syncResume lens) := fun _ e => nomatch e

theorem WordShape.invocationEnd (lens : Nat) : WordShape.Statement (.invocationEnd lens) := fun _ e => nomatch e

theorem WordShape.listFinish (lens : Nat) : WordShape.Statement (.listFinish lens) := fun _ e => nomatch e

theorem WordShape.rowBudgetDeadline (lens : Nat) : WordShape.Statement (.rowBudgetDeadline lens) := fun _ e => nomatch e

theorem WordShape.agFetch (core ag lane : Nat) : WordShape.Statement (.agFetch core ag lane) := fun _ e => nomatch e

theorem WordShape.channelForward (task chan lane : Nat) : WordShape.Statement (.channelForward task chan lane) := fun _ e => nomatch e

theorem WordShape.freezeLine (lens : Nat) : WordShape.Statement (.freezeLine lens) := fun _ e => nomatch e

theorem WordShape.freezeComplete (lens : Nat) : WordShape.Statement (.freezeComplete lens) := fun _ e => nomatch e

theorem WordShape.nodeComplete (core node : Nat) : WordShape.Statement (.nodeComplete core node) := fun _ e => nomatch e

theorem WordShape.copySegment (core chan : Nat) : WordShape.Statement (.copySegment core chan) := fun _ e => nomatch e

theorem WordShape.graphUnitRun (core : Nat) : WordShape.Statement (.graphUnitRun core) := fun _ e => nomatch e

theorem WordShape.remoteRelease (pkt : Nat) : WordShape.Statement (.remoteRelease pkt) := fun _ e => nomatch e

theorem WordShape.globalRequestArrive (pkt : Nat) : WordShape.Statement (.globalRequestArrive pkt) := fun _ e => nomatch e

theorem WordShape.globalResponseArrive (pkt : Nat) : WordShape.Statement (.globalResponseArrive pkt) := fun _ e => nomatch e

theorem WordShape.bulkTransferDone (core : Nat) : WordShape.Statement (.bulkTransferDone core) := fun _ e => nomatch e

theorem WordShape.messageArrive (pkt : Nat) : WordShape.Statement (.messageArrive pkt) := fun _ e => nomatch e

theorem WordShape.recvWindowExpire (core chan : Nat) : WordShape.Statement (.recvWindowExpire core chan) := fun _ e => nomatch e

theorem WordShape.notifyArrive (core slot : Nat) (mask : BitVec 16) : WordShape.Statement (.notifyArrive core slot mask) := fun _ e => nomatch e

theorem WordShape.nameWalkComplete (core name : Nat) : WordShape.Statement (.nameWalkComplete core name) := fun _ e => nomatch e

theorem WordShape.nameCacheInvalidate (task name : Nat) : WordShape.Statement (.nameCacheInvalidate task name) := fun _ e => nomatch e

theorem WordShape.barrierArrival (core bar : Nat) : WordShape.Statement (.barrierArrival core bar) := fun _ e => nomatch e

theorem WordShape.barrierRelease (core bar : Nat) : WordShape.Statement (.barrierRelease core bar) := fun _ e => nomatch e

theorem WordShape.deviceHeartbeat (core : Nat) : WordShape.Statement (.deviceHeartbeat core) := fun _ e => nomatch e

theorem WordShape.panelHeartbeat (core : Nat) : WordShape.Statement (.panelHeartbeat core) := fun _ e => nomatch e

theorem WordShape.packetRetransmit (pkt : Nat) : WordShape.Statement (.packetRetransmit pkt) := fun _ e => nomatch e

theorem WordShape.niGiveUp (pkt : Nat) : WordShape.Statement (.niGiveUp pkt) := fun _ e => nomatch e

theorem WordShape.walkComplete (id : Nat) : WordShape.Statement (.walkComplete id) := fun _ e => nomatch e

theorem WordShape.extentInstall (core ag : Nat) : WordShape.Statement (.extentInstall core ag) := fun _ e => nomatch e

theorem WordShape.tlbInvalidation (asid : Nat) (va : Word) (bytes : Nat) : WordShape.Statement (.tlbInvalidation asid va bytes) := fun _ e => nomatch e

theorem WordShape.migrationStart (asid : Nat) (va : Word) : WordShape.Statement (.migrationStart asid va) := fun _ e => nomatch e

theorem WordShape.migrationCommit (asid : Nat) (va : Word) : WordShape.Statement (.migrationCommit asid va) := fun _ e => nomatch e

theorem WordShape.coreRetire (core : Nat) (router : Bool) : WordShape.Statement (.coreRetire core router) := fun _ e => nomatch e

theorem WordShape.queueDoorbell (q : Nat) (tail : BitVec 32) : WordShape.Statement (.queueDoorbell q tail) := fun _ e => nomatch e

theorem WordShape.queueConfigWrite (q dword : Nat) (data : Word) : WordShape.Statement (.queueConfigWrite q dword data) := fun _ e => nomatch e

theorem WordShape.queueMap (q : Nat) : WordShape.Statement (.queueMap q) := fun _ e => nomatch e

theorem WordShape.pifoPush (q : Nat) : WordShape.Statement (.pifoPush q) := fun _ e => nomatch e

theorem WordShape.rankUpdate (entry : Nat) : WordShape.Statement (.rankUpdate entry) := fun _ e => nomatch e

theorem WordShape.placement : WordShape.Statement (.placement) := fun _ e => nomatch e

theorem WordShape.launchPacket (entry : Nat) : WordShape.Statement (.launchPacket entry) := fun _ e => nomatch e

theorem WordShape.waitPacket (q : Nat) : WordShape.Statement (.waitPacket q) := fun _ e => nomatch e

theorem WordShape.waitSatisfied (q : Nat) : WordShape.Statement (.waitSatisfied q) := fun _ e => nomatch e

theorem WordShape.signalPacket (entry : Nat) : WordShape.Statement (.signalPacket entry) := fun _ e => nomatch e

theorem WordShape.loadwPacket (entry : Nat) : WordShape.Statement (.loadwPacket entry) := fun _ e => nomatch e

theorem WordShape.loadwShardFetch (load shard : Nat) (result : FetchResult) : WordShape.Statement (.loadwShardFetch load shard result) := fun _ e => nomatch e

theorem WordShape.loadwCommit (load : Nat) : WordShape.Statement (.loadwCommit load) := fun _ e => nomatch e

theorem WordShape.copyPacket (entry : Nat) : WordShape.Statement (.copyPacket entry) := fun _ e => nomatch e

theorem WordShape.mapPacket (entry : Nat) : WordShape.Statement (.mapPacket entry) := fun _ e => nomatch e

theorem WordShape.fencePacket (entry : Nat) : WordShape.Statement (.fencePacket entry) := fun _ e => nomatch e

theorem WordShape.killPacket (entry : Nat) : WordShape.Statement (.killPacket entry) := fun _ e => nomatch e

theorem WordShape.preemptDrain (task : Nat) : WordShape.Statement (.preemptDrain task) := fun _ e => nomatch e

theorem WordShape.drainLimitExpire (task : Nat) : WordShape.Statement (.drainLimitExpire task) := fun _ e => nomatch e

theorem WordShape.preemptCheckpoint (task : Nat) : WordShape.Statement (.preemptCheckpoint task) := fun _ e => nomatch e

theorem WordShape.checkpointSave (task : Nat) : WordShape.Statement (.checkpointSave task) := fun _ e => nomatch e

theorem WordShape.preemptKill (task : Nat) : WordShape.Statement (.preemptKill task) := fun _ e => nomatch e

theorem WordShape.dispatchBind (task : Nat) : WordShape.Statement (.dispatchBind task) := fun _ e => nomatch e

theorem WordShape.gatesOpen (task : Nat) : WordShape.Statement (.gatesOpen task) := fun _ e => nomatch e

theorem WordShape.taskEnd (task : Nat) : WordShape.Statement (.taskEnd task) := fun _ e => nomatch e

theorem WordShape.taskResume (task : Nat) : WordShape.Statement (.taskResume task) := fun _ e => nomatch e

theorem WordShape.ingressOpen (port : Nat) (data : Word) : WordShape.Statement (.ingressOpen port data) := fun _ e => nomatch e

theorem WordShape.ingressData (port : Nat) (data : Word) : WordShape.Statement (.ingressData port data) := fun _ e => nomatch e

theorem WordShape.notifyApertureWrite (offset : Nat) (data : Word) : WordShape.Statement (.notifyApertureWrite offset data) := fun _ e => nomatch e

theorem WordShape.wakeMailboxDeliver (cluster : Nat) : WordShape.Statement (.wakeMailboxDeliver cluster) := fun _ e => nomatch e

theorem WordShape.clusterWake (cluster : Nat) : WordShape.Statement (.clusterWake cluster) := fun _ e => nomatch e

theorem WordShape.clockGate (cluster : Nat) : WordShape.Statement (.clockGate cluster) := fun _ e => nomatch e

theorem WordShape.powerGate (cluster : Nat) : WordShape.Statement (.powerGate cluster) := fun _ e => nomatch e

theorem WordShape.win4Write (data : Word) : WordShape.Statement (.win4Write data) := fun _ e => nomatch e

theorem WordShape.bar4Access (offset : Nat) (len : Nat) (write : Option Word) : WordShape.Statement (.bar4Access offset len write) := fun _ e => nomatch e

theorem WordShape.linkTraining (port width : Nat) : WordShape.Statement (.linkTraining port width) := fun _ e => nomatch e

theorem WordShape.linkFrameReceive (port : Nat) (seq : BitVec 12) (crcOk : Bool) (payload : Nat) : WordShape.Statement (.linkFrameReceive port seq crcOk payload) := fun _ e => nomatch e

theorem WordShape.linkReplay (port : Nat) (seq : BitVec 12) : WordShape.Statement (.linkReplay port seq) := fun _ e => nomatch e

theorem WordShape.linkRetrain (port : Nat) : WordShape.Statement (.linkRetrain port) := fun _ e => nomatch e

theorem WordShape.linkDown (port : Nat) : WordShape.Statement (.linkDown port) := fun _ e => nomatch e

theorem WordShape.deviceReset : WordShape.Statement (.deviceReset) := fun _ e => nomatch e

theorem WordShape.powerRailGood (rail : Nat) : WordShape.Statement (.powerRailGood rail) := fun _ e => nomatch e

theorem WordShape.temperatureSample (cluster temp : Nat) (hot : Bool) : WordShape.Statement (.temperatureSample cluster temp hot) := fun _ e => nomatch e

theorem WordShape.thermalTrip (cluster : Nat) : WordShape.Statement (.thermalTrip cluster) := fun _ e => nomatch e

theorem WordShape.droopStretch (lens : Nat) : WordShape.Statement (.droopStretch lens) := fun _ e => nomatch e

theorem WordShape.vtclassChange (cluster : Nat) (cls : Bool) : WordShape.Statement (.vtclassChange cluster cls) := fun _ e => nomatch e

theorem WordShape.patrolScrub (bank block : Nat) : WordShape.Statement (.patrolScrub bank block) := fun _ e => nomatch e

theorem WordShape.loupeLog : WordShape.Statement (.loupeLog) := fun _ e => nomatch e

theorem WordShape.loupeClaim (core slot : Nat) : WordShape.Statement (.loupeClaim core slot) := fun _ e => nomatch e

theorem WordShape.firmwareUpdate (img : FwImage) : WordShape.Statement (.firmwareUpdate img) := fun _ e => nomatch e

theorem WordShape.svnCommit : WordShape.Statement (.svnCommit) := fun _ e => nomatch e

theorem WordShape.ownershipRelease (serial nonce : Nat) (sigOk : Bool) : WordShape.Statement (.ownershipRelease serial nonce sigOk) := fun _ e => nomatch e

theorem WordShape.ownerClaim (key serial : Nat) (sigOk : Bool) : WordShape.Statement (.ownerClaim key serial sigOk) := fun _ e => nomatch e

theorem WordShape.getMeasurements : WordShape.Statement (.getMeasurements) := fun _ e => nomatch e

theorem WordShape.linkRetrainDone (port width : Nat) : WordShape.Statement (.linkRetrainDone port width) := fun _ e => nomatch e

theorem WordShape.thermalStep (lens : Nat) (up : Bool) : WordShape.Statement (.thermalStep lens up) := fun _ e => nomatch e

theorem WordShape.powerFail : WordShape.Statement (.powerFail) := fun _ e => nomatch e

theorem WordShape.rankProgramLoad (prog : List RankOp) (digest : Nat) : WordShape.Statement (.rankProgramLoad prog digest) := fun _ e => nomatch e

theorem WordShape.routineStoreLoad (digest : Nat) : WordShape.Statement (.routineStoreLoad digest) := fun _ e => nomatch e

theorem WordShape.loupeSingleStep (core slot : Nat) : WordShape.Statement (.loupeSingleStep core slot) := fun _ e => nomatch e

theorem WordShape.scOrderPlace (core slot : Nat) : WordShape.Statement (.scOrderPlace core slot) := fun _ e => nomatch e

theorem WordShape.headFlitLeaves (core : Nat) : WordShape.Statement (.headFlitLeaves core) := fun _ e => nomatch e

end Sys2Proof.Laws
end

