-- ==== Sys2Proof/Tests/Slice0.lean ====
section
/-! SUPPORT. Tests: ill-formed terms that the check refuses; words of the spec and what they decode to; one step on small
states against values of the spec; and for each obligation a witness that meets its hypotheses. -/

open Sys2Proof Sys2Proof.Machine

namespace Sys2Proof.Tests

/- The proofs are elaborated one after another: each thread takes 256 MiB of the memory limit. -/
set_option Elab.async false

/-! ### States for tests -/

/-- The header with no delay and the guard P(0). -/
def hdr0 : Hdr := ⟨0, 0, false⟩

/-- A running slot at its tenth turn. -/
def runs : Slot := { Slot.reset with life := .running, gate := .fromTurn 0, turn := 10, task := some 0 }

/-- The machine after reset with one core and one slot of it, whose turn it is, set. -/
def onCore0 (x : Core) (sl : Slot) : State := { State.reset with cores := [(0, { x with slots := [(0, sl)] })] }

def with0 (sl : Slot) : State := onCore0 Core.reset sl

/-- General registers 8 and 7. -/
def regs (a b : Word) : Slot := { runs with g := [(7, b), (8, a)] }

def fmtA (fn : BitVec 8) : FmtA := ⟨9, 8, 7, 0, fn, 0⟩

def fmtC (off : BitVec 32) : FmtC := ⟨0, 8, 0, 0, off⟩

def fmtM (sz : BitVec 3) : FmtM := ⟨9, 8, 0, sz, 0, 0, 0, 0, 0⟩

/-! ### Ill-formed terms (R63, R74) -/

/-- R89: FN of a BR is 0. -/
theorem test_illFormed_reserved_value : (Instr.br hdr0 ⟨0, 0, 0, 1, 5⟩).wellFormed = false := by decide

/-- R89: RD of a BR must be zero. -/
theorem test_illFormed_must_be_zero : (Instr.br hdr0 ⟨1, 0, 0, 0, 5⟩).wellFormed = false := by decide

/-- R97: FN 1 is the other row of WAITC. -/
theorem test_illFormed_other_row : (Instr.waitc hdr0 ⟨0, 15, 0, 1, 64⟩).wellFormed = false := by decide

/-- R265: core 768 does not exist. -/
theorem test_illFormed_agent : (Instr.wheelSwitch 768).wellFormed = false := by decide

theorem test_wellFormed : (Instr.br hdr0 ⟨0, 0, 0, 0, 5⟩).wellFormed = true ∧ (Instr.wheelSwitch 767).wellFormed = true := by
  decide

/-- R74: a defect of each kind, and the lower cause where both are there. -/
theorem test_defects : decodeWord 0x0100000100000005 = .error .illegal ∧
    decodeWord 0x0100080000000005 = .error .reserved ∧ decodeWord 0x0100080100000005 = .error .illegal ∧
    decodeWord 0x1001000000000000 = .error .reserved ∧ decodeWord 0xFF00000000000000 = .error .illegal :=
  ⟨rfl, rfl, rfl, rfl, rfl⟩

/-! ### Witnesses: steps and encoding -/

/-- A machine about to issue a word. -/
def fetching (w : Nat) : State := State.reset.withFetchWord 64 w

theorem witness_StepRunsDecodedInstruction :
    ((fetching 0x10004A0000000000).agenda = [] ∧ (fetching 0x10004A0000000000).phase = .ready [] ∧
      (fetching 0x10004A0000000000).mayIssue (fetching 0x10004A0000000000).cur = true ∧
      (fetching 0x10004A0000000000).me.gwaitFault = none ∧
      (fetching 0x10004A0000000000).me.pc.toNat ∉ (fetching 0x10004A0000000000).myCore.ibad) ∧
    decodeWord ((fetching 0x10004A0000000000).wordAt (fetching 0x10004A0000000000).cur) = .ok (.add hdr0 ⟨9, 8, 0, 0, 0, 0⟩) ∧
    ({ State.reset with agenda := [.ev (.deviceHeartbeat 0)] } : State).agenda = .ev (.deviceHeartbeat 0) :: [] :=
  ⟨by decide, rfl, rfl⟩

theorem witness_WordsThatDoNotExecute :
    ((fetching 0xFF00000000000000).agenda = [] ∧ (fetching 0xFF00000000000000).phase = .ready [] ∧
      (fetching 0xFF00000000000000).mayIssue (fetching 0xFF00000000000000).cur = true ∧
      (fetching 0xFF00000000000000).me.gwaitFault = none ∧ (fetching 0xFF00000000000000).me.h = false ∧
      (fetching 0xFF00000000000000).me.pc.toNat ∉ (fetching 0xFF00000000000000).myCore.ibad) ∧
    decodeWord ((fetching 0xFF00000000000000).wordAt (fetching 0xFF00000000000000).cur) = .error .illegal ∧
    decodeWord ((fetching 0x0100080000000005).wordAt (fetching 0x0100080000000005).cur) = .error .reserved ∧
    ((Instr.div ⟨0, 0, true⟩ (fmtA 0)).body = some ⟨0x14, ⟨0, 0, true⟩, .a (fmtA 0)⟩ ∧
      (with0 runs).me.guard ⟨0, 0, true⟩ = false) :=
  ⟨by decide, rfl, rfl, rfl, by decide⟩

theorem witness_DecodeInvertsEncode :
    (Instr.add hdr0 ⟨9, 8, 0, 0, 0, 0⟩).wellFormed = true ∧
      encode (.add hdr0 ⟨9, 8, 0, 0, 0, 0⟩) = some 0x10004A0000000000 := by decide

theorem witness_EncodeInvertsDecode : decodeWord 0x10004A0000000000 = .ok (.add hdr0 ⟨9, 8, 0, 0, 0, 0⟩) := rfl

/-! ### Witnesses: control -/

theorem witness_NopChkpWaitcComplete : (with0 runs).me.guard hdr0 = true := by decide

/-- Targets 0, 16,383 and 16,384; G(8) holds the target of JMP, CALLR and RET. -/
theorem witness_BranchesTransferControl :
    ((with0 (regs 16383 0)).me.guard hdr0 = true ∧ (16383 : Word).toNat ≤ 16383 ∧
      (with0 (regs 16383 0)).me.pc.setWidth 64 + (16383 : BitVec 32).signExtend 64 = (16383 : Word) ∧
      (with0 (regs 16383 0)).me.gr (fmtC 0).ra + (0 : BitVec 32).signExtend 64 = (16383 : Word) ∧
      (with0 (regs 16383 0)).me.gr (fmtC 0).ra = 16383) ∧
    ((with0 (regs 16384 0)).me.h = false ∧ 16383 < (16384 : Word).toNat ∧
      (with0 (regs 16384 0)).me.pc.setWidth 64 + (16384 : BitVec 32).signExtend 64 = (16384 : Word) ∧
      (with0 (regs 16384 0)).me.gr (fmtC 0).ra + (0 : BitVec 32).signExtend 64 = (16384 : Word) ∧
      (with0 (regs 16384 0)).me.gr (fmtC 0).ra = 16384) := by decide

/-- A slot at word 5 with two levels. -/
def loops (l1 l2 : LoopLevel) : Slot := { regs 7 0 with pc := 5, loop1 := l1, loop2 := l2 }

/-- Target 7, by BR +2, JMP and the others; levels that hold it and that do not. -/
theorem witness_TakenBranchLeavesLoops :
    ((with0 (loops ⟨3, 7, 2⟩ ⟨5, 6, 2⟩)).me.guard hdr0 = true ∧ (with0 (loops ⟨3, 7, 2⟩ ⟨5, 6, 2⟩)).me.h = false ∧
      (5 : BitVec 14).setWidth 64 + (2 : BitVec 32).signExtend 64 = (7 : Word) ∧
      (with0 (loops ⟨3, 7, 2⟩ ⟨5, 6, 2⟩)).me.gr (fmtC 0).ra = 7) ∧
    (¬((7 : Nat) < (5 : BitVec 14).toNat ∨ (7 : BitVec 14).toNat < 7) ∧ (6 : BitVec 14).toNat < 7 ∧
      ¬((7 : Nat) < (3 : BitVec 14).toNat ∨ (7 : BitVec 14).toNat < 7) ∧ (7 : Nat) < (8 : BitVec 14).toNat) ∧
    ((with0 (loops ⟨3, 6, 2⟩ ⟨5, 6, 2⟩)).me.loop1.remaining ≠ 0 ∧ (with0 (loops ⟨3, 6, 2⟩ ⟨5, 6, 2⟩)).me.loop2.remaining ≠ 0 ∧
      (with0 (loops ⟨3, 6, 2⟩ ⟨5, 6, 0⟩)).me.loop2.remaining = 0 ∧ (with0 (loops ⟨3, 6, 0⟩ ⟨5, 6, 0⟩)).me.loop1.remaining = 0) := by
  decide

/-- LOOP at word 5 with the end word 7, at the end of the store, and past it; inside and outside an active level. -/
theorem witness_LoopPushesALevel :
    ((with0 (loops ⟨0, 0, 0⟩ ⟨0, 0, 0⟩)).me.guard hdr0 = true ∧ 1 ≤ (fmtC 1).off.toNat ∧
      (with0 (loops ⟨0, 0, 0⟩ ⟨0, 0, 0⟩)).me.pc.toNat + (fmtC 16378).off.toNat ≤ 16383 ∧
      (with0 (loops ⟨0, 0, 0⟩ ⟨0, 0, 0⟩)).me.pc.toNat + (fmtC 16377).off.toNat < 16383 ∧
      16383 < (with0 (loops ⟨0, 0, 0⟩ ⟨0, 0, 0⟩)).me.pc.toNat + (fmtC 16379).off.toNat ∧
      (with0 (loops ⟨0, 0, 0⟩ ⟨0, 0, 0⟩)).me.gr (fmtC 1).ra ≠ 0 ∧ (with0 runs).me.gr (fmtC 1).ra = 0 ∧
      ((1 : BitVec 5) ++ (2 : BitVec 5)).setWidth 64 ≠ (0 : Word) ∧ ((0 : BitVec 5) ++ (0 : BitVec 5)).setWidth 64 = (0 : Word)) ∧
    ((with0 (loops ⟨5, 7, 2⟩ ⟨0, 0, 0⟩)).me.loop1.remaining ≠ 0 ∧ (with0 (loops ⟨5, 7, 2⟩ ⟨0, 0, 0⟩)).me.loop2.remaining = 0 ∧
      (5 : BitVec 14).toNat + (fmtC 2).off.toNat ≤ (7 : BitVec 14).toNat ∧
      (7 : BitVec 14).toNat < (5 : BitVec 14).toNat + (fmtC 3).off.toNat) ∧
    ((with0 (loops ⟨5, 7, 2⟩ ⟨5, 6, 1⟩)).me.loop1.remaining ≠ 0 ∧ (with0 (loops ⟨5, 7, 2⟩ ⟨5, 6, 1⟩)).me.loop2.remaining ≠ 0) := by
  decide

/-- The slot at word 5; the levels that end there are on their last pass or not. -/
theorem witness_EndWordsRepeatTheBody :
    (with0 (loops ⟨3, 7, 2⟩ ⟨4, 5, 2⟩)).me.h = false ∧
    ((with0 (loops ⟨3, 7, 2⟩ ⟨4, 6, 2⟩)).me.loop2.remaining ≠ 0 ∧ (with0 (loops ⟨3, 7, 2⟩ ⟨4, 6, 2⟩)).me.loop2.stop ≠ 5) ∧
    (1 < (with0 (loops ⟨3, 7, 2⟩ ⟨4, 5, 2⟩)).me.loop2.remaining.toNat ∧
      (with0 (loops ⟨3, 7, 2⟩ ⟨4, 5, 2⟩)).me.loop2.stop = (with0 (loops ⟨3, 7, 2⟩ ⟨4, 5, 2⟩)).me.pc) ∧
    ((with0 (loops ⟨3, 5, 2⟩ ⟨4, 5, 1⟩)).me.loop2.remaining = 1 ∧ 1 < (with0 (loops ⟨3, 5, 2⟩ ⟨4, 5, 1⟩)).me.loop1.remaining.toNat ∧
      (with0 (loops ⟨3, 5, 2⟩ ⟨4, 5, 1⟩)).me.loop1.stop = (with0 (loops ⟨3, 5, 2⟩ ⟨4, 5, 1⟩)).me.pc) ∧
    ((with0 (loops ⟨3, 7, 2⟩ ⟨4, 5, 1⟩)).me.loop1.stop ≠ (with0 (loops ⟨3, 7, 2⟩ ⟨4, 5, 1⟩)).me.pc) ∧
    ((with0 (loops ⟨3, 5, 2⟩ ⟨4, 5, 0⟩)).me.loop2.remaining = 0 ∧ (with0 (loops ⟨3, 5, 1⟩ ⟨4, 5, 0⟩)).me.loop1.remaining = 1 ∧
      (with0 (loops ⟨3, 5, 0⟩ ⟨4, 5, 0⟩)).me.loop1.remaining = 0) := by decide

theorem witness_EndTrapAndBreakStopTheSlot :
    (with0 runs).me.guard hdr0 = true ∧ (with0 runs).me.h = false ∧ (with0 runs).me.claimed = false ∧
      (with0 { runs with claimed := true }).me.claimed = true := by decide

theorem witness_FaultEntersHandlerOrStops :
    (with0 runs).me.guard hdr0 = true ∧ (with0 { runs with h := true }).me.h = true ∧ (with0 runs).me.h = false ∧
      (with0 { runs with fhen := 0x100000000 }).me.fhen.getLsbD (0x20 : BitVec 8).toNat = true ∧
      (with0 runs).me.fhen.getLsbD (0x20 : BitVec 8).toNat = false := by decide

theorem witness_ReturnFromFault :
    (with0 runs).me.guard hdr0 = true ∧ ((with0 runs).me.h = false ∧ (with0 runs).me.epc ≠ 16383) ∧
      (with0 { runs with epc := 16383 }).me.epc = 16383 ∧
      ((with0 { runs with h := true, epc := 5 }).me.h = true ∧ (with0 { runs with h := true, epc := 5 }).me.loop2.remaining = 0 ∧
        (with0 { runs with h := true, epc := 5 }).me.loop1.remaining = 0) ∧
      (1 < (with0 { runs with h := true, epc := 5, loop1 := ⟨3, 5, 2⟩ }).me.loop1.remaining.toNat ∧
        (with0 { runs with h := true, epc := 5, loop1 := ⟨3, 5, 2⟩ }).me.loop1.stop =
          (with0 { runs with h := true, epc := 5, loop1 := ⟨3, 5, 2⟩ }).me.epc) := by decide

/-! ### Witnesses: scalar integers -/

theorem witness_IntegerArithmetic :
    (with0 (regs 2 3)).me.guard hdr0 = true ∧ (fmtA 0).fn = 0 ∧ (fmtA 1).fn = 1 ∧ (fmtA 2).fn = 2 ∧ (fmtA 3).fn.toNat ≤ 3 := by
  decide

theorem witness_DivideGivesQuotientAndRemainder :
    (with0 (regs 7 2)).me.guard hdr0 = true ∧ (with0 (regs 7 2)).me.divFree ≤ (with0 (regs 7 2)).me.turn ∧
      (fmtA 0).fn = 0 ∧ (fmtA 1).fn = 1 ∧ (with0 (regs 7 2)).me.gr (fmtA 0).rb ≠ 0 ∧ (with0 (regs 7 0)).me.gr (fmtA 0).rb = 0 ∧
      (with0 (regs 7 0)).me.fpctl.getLsbD 12 = false ∧ (with0 { regs 7 0 with fpctl := 0x1000 }).me.fpctl.getLsbD 12 = true ∧
      (with0 { regs 7 2 with divFree := 11 }).me.turn < (with0 { regs 7 2 with divFree := 11 }).me.divFree ∧
      (with0 { regs 7 2 with divFree := 11 }).me.h = false := by decide

theorem witness_IntegerLogicAndShifts :
    (with0 (regs 2 3)).me.guard hdr0 = true ∧ (fmtA 0).fn = 0 ∧ (fmtA 1).fn = 1 := by decide

/-- A field of 64 bits at 0 and one of 1 bit at 63. -/
theorem witness_IntegerBitOperations :
    (with0 (regs 2 3)).me.guard hdr0 = true ∧ (fmtA 4).fn = 4 ∧
      (((0xFC0 : BitVec 20).extractLsb' 0 6).toNat + (((0xFC0 : BitVec 20).extractLsb' 6 6).toNat + 1) ≤ 64) ∧
      (((0x3F : BitVec 20).extractLsb' 0 6).toNat + (((0x3F : BitVec 20).extractLsb' 6 6).toNat + 1) ≤ 64) ∧
      (7 : BitVec 5).toNat < 8 := by decide

theorem witness_ComparisonsWriteAPredicate :
    (with0 (regs 2 3)).me.guard hdr0 = true ∧ (fmtA 9).fn.toNat = 9 ∧ (⟨5, 8, 9, 1⟩ : FmtB).fn.toNat = 9 := by decide

theorem witness_ImmediateForms :
    (with0 (regs 2 3)).me.guard hdr0 = true ∧ (⟨9, 8, 0, 1⟩ : FmtB).fn = 0 ∧ (⟨9, 8, 3, 63⟩ : FmtB).fn = 3 := by decide

/-! ### Words composed from the encoding tables of the spec (R59 to R71), a word for each instruction -/

/-- DLY 3 and the guard NOT P(2). -/
def hdr3 : Hdr := ⟨3, 2, true⟩

theorem test_decode_control :
    decodeWord 0x006A000000000000 = .ok (.nop hdr3 ⟨0, 0, 0, 0, 0⟩) ∧
    decodeWord 0x016A000000000005 = .ok (.br hdr3 ⟨0, 0, 0, 0, 5⟩) ∧
    decodeWord 0x026A020000000005 = .ok (.jmp hdr3 ⟨0, 8, 0, 0, 5⟩) ∧
    decodeWord 0x036AF80000000005 = .ok (.call hdr3 ⟨31, 0, 0, 0, 5⟩) ∧
    decodeWord 0x046AFA0000000005 = .ok (.callr hdr3 ⟨31, 8, 0, 0, 5⟩) ∧
    decodeWord 0x056A07C000000000 = .ok (.ret hdr3 ⟨0, 31, 0, 0, 0⟩) ∧
    decodeWord 0x066A020000000003 = .ok (.loop hdr3 ⟨0, 8, 0, 0, 3⟩) ∧
    decodeWord 0x066A004500000003 = .ok (.loopImm hdr3 ⟨0, 1, 2, 1, 3⟩) ∧
    decodeWord 0x076A03C000000040 = .ok (.waitc hdr3 ⟨0, 15, 0, 0, 64⟩) ∧
    decodeWord 0x076A00010000000C = .ok (.waitcImm hdr3 ⟨0, 0, 0, 1, 12⟩) ∧
    decodeWord 0x086A000000000000 = .ok (.endSlot hdr3 ⟨0, 0, 0, 0, 0⟩) ∧
    decodeWord 0x096A000000000005 = .ok (.trap hdr3 ⟨0, 0, 0, 0, 5⟩) ∧
    decodeWord 0x0A6A000000000000 = .ok (.rft hdr3 ⟨0, 0, 0, 0, 0⟩) ∧
    decodeWord 0x0A6A000100000000 = .ok (.rftNext hdr3 ⟨0, 0, 0, 1, 0⟩) ∧
    decodeWord 0x0B6A000000000005 = .ok (.brk hdr3 ⟨0, 0, 0, 0, 5⟩) ∧
    decodeWord 0x0C6A000000000000 = .ok (.chkp hdr3 ⟨0, 0, 0, 0, 0⟩) ∧
    decodeWord 0x0C6A000100000064 = .ok (.chkpImm hdr3 ⟨0, 0, 0, 1, 100⟩) :=
  ⟨rfl, rfl, rfl, rfl, rfl, rfl, rfl, rfl, rfl, rfl, rfl, rfl, rfl, rfl, rfl, rfl, rfl⟩

theorem test_decode_integer :
    decodeWord 0x106A4A0E00000000 = .ok (.add hdr3 ⟨9, 8, 7, 0, 0, 0⟩) ∧
    decodeWord 0x116A4A0E00000000 = .ok (.sub hdr3 ⟨9, 8, 7, 0, 0, 0⟩) ∧
    decodeWord 0x126A4A0E00000000 = .ok (.mul hdr3 ⟨9, 8, 7, 0, 0, 0⟩) ∧
    decodeWord 0x136A4A0E00200000 = .ok (.mulh hdr3 ⟨9, 8, 7, 0, 2, 0⟩) ∧
    decodeWord 0x146A4A0E00100000 = .ok (.div hdr3 ⟨9, 8, 7, 0, 1, 0⟩) ∧
    decodeWord 0x156A4A0E00100000 = .ok (.rem hdr3 ⟨9, 8, 7, 0, 1, 0⟩) ∧
    decodeWord 0x166A4A0E00000000 = .ok (.andG hdr3 ⟨9, 8, 7, 0, 0, 0⟩) ∧
    decodeWord 0x176A4A0E00000000 = .ok (.orG hdr3 ⟨9, 8, 7, 0, 0, 0⟩) ∧
    decodeWord 0x186A4A0E00000000 = .ok (.xorG hdr3 ⟨9, 8, 7, 0, 0, 0⟩) ∧
    decodeWord 0x196A4A0E00000000 = .ok (.andn hdr3 ⟨9, 8, 7, 0, 0, 0⟩) ∧
    decodeWord 0x1A6A4A0E00000000 = .ok (.shl hdr3 ⟨9, 8, 7, 0, 0, 0⟩) ∧
    decodeWord 0x1B6A4A0E00000000 = .ok (.shr hdr3 ⟨9, 8, 7, 0, 0, 0⟩) ∧
    decodeWord 0x1C6A4A0E00000000 = .ok (.sar hdr3 ⟨9, 8, 7, 0, 0, 0⟩) ∧
    decodeWord 0x1D6A4A0E00100000 = .ok (.rot hdr3 ⟨9, 8, 7, 0, 1, 0⟩) ∧
    decodeWord 0x1E6A4A0E00100000 = .ok (.minG hdr3 ⟨9, 8, 7, 0, 1, 0⟩) ∧
    decodeWord 0x1F6A4A0E00100000 = .ok (.maxG hdr3 ⟨9, 8, 7, 0, 1, 0⟩) :=
  ⟨rfl, rfl, rfl, rfl, rfl, rfl, rfl, rfl, rfl, rfl, rfl, rfl, rfl, rfl, rfl, rfl⟩

theorem test_decode_bits_and_immediates :
    decodeWord 0x206A4A0000000000 = .ok (.clz hdr3 ⟨9, 8, 0, 0, 0, 0⟩) ∧
    decodeWord 0x216A4A0000000000 = .ok (.ctz hdr3 ⟨9, 8, 0, 0, 0, 0⟩) ∧
    decodeWord 0x226A4A0000000000 = .ok (.popc hdr3 ⟨9, 8, 0, 0, 0, 0⟩) ∧
    decodeWord 0x236A4A0000600000 = .ok (.ext hdr3 ⟨9, 8, 0, 0, 6, 0⟩) ∧
    decodeWord 0x246A4A00001001C5 = .ok (.bfx hdr3 ⟨9, 8, 0, 0, 1, 453⟩) ∧
    decodeWord 0x256A4A00000001C5 = .ok (.bfi hdr3 ⟨9, 8, 0, 0, 0, 453⟩) ∧
    decodeWord 0x266A4A0E30000000 = .ok (.sel hdr3 ⟨9, 8, 7, 3, 0, 0⟩) ∧
    decodeWord 0x276A4A0E003FFFF0 = .ok (.lea hdr3 ⟨9, 8, 7, 0, 3, 1048560⟩) ∧
    decodeWord 0x286A2A0E00900000 = .ok (.cmp hdr3 ⟨5, 8, 7, 0, 9, 0⟩) ∧
    decodeWord 0x296A290600900000 = .ok (.plog hdr3 ⟨5, 4, 3, 0, 9, 0⟩) ∧
    decodeWord 0x2A6A4A0000012345 = .ok (.addi hdr3 ⟨9, 8, 0, 74565⟩) ∧
    decodeWord 0x2B6A4A0100012345 = .ok (.andi hdr3 ⟨9, 8, 1, 74565⟩) ∧
    decodeWord 0x2C6A4A0100012345 = .ok (.ori hdr3 ⟨9, 8, 1, 74565⟩) ∧
    decodeWord 0x2D6A4A0100012345 = .ok (.xori hdr3 ⟨9, 8, 1, 74565⟩) ∧
    decodeWord 0x2E6A4A0300000011 = .ok (.shi hdr3 ⟨9, 8, 3, 17⟩) ∧
    decodeWord 0x2F6A480000012345 = .ok (.li hdr3 ⟨9, 0, 0, 74565⟩) ∧
    decodeWord 0x2F6A4A0200012345 = .ok (.liH hdr3 ⟨9, 8, 2, 74565⟩) ∧
    decodeWord 0x2F6A480100012345 = .ok (.liZ hdr3 ⟨9, 0, 1, 74565⟩) :=
  ⟨rfl, rfl, rfl, rfl, rfl, rfl, rfl, rfl, rfl, rfl, rfl, rfl, rfl, rfl, rfl, rfl, rfl, rfl⟩

theorem test_decode_scalar_float_and_system :
    decodeWord 0x306A2A0900012345 = .ok (.cmpi hdr3 ⟨5, 8, 9, 74565⟩) ∧
    decodeWord 0x316A4A0E00300000 = .ok (.fadd hdr3 ⟨9, 8, 7, 0, 3, 0⟩) ∧
    decodeWord 0x326A4A0E00300000 = .ok (.fsub hdr3 ⟨9, 8, 7, 0, 3, 0⟩) ∧
    decodeWord 0x336A4A0E00300000 = .ok (.fmul hdr3 ⟨9, 8, 7, 0, 3, 0⟩) ∧
    decodeWord 0x346A4A0E61300000 = .ok (.ffma hdr3 ⟨9, 8, 7, 6, 19, 0⟩) ∧
    decodeWord 0x356A4A0E00100000 = .ok (.fmin hdr3 ⟨9, 8, 7, 0, 1, 0⟩) ∧
    decodeWord 0x366A4A0E00100000 = .ok (.fmax hdr3 ⟨9, 8, 7, 0, 1, 0⟩) ∧
    decodeWord 0x376A2A0E00500000 = .ok (.fcmp hdr3 ⟨5, 8, 7, 0, 5, 0⟩) ∧
    decodeWord 0x386A4A0000800001 = .ok (.fcvt hdr3 ⟨9, 8, 0, 0, 8, 1⟩) ∧
    decodeWord 0x396A4A0000500000 = .ok (.fsf hdr3 ⟨9, 8, 0, 0, 5, 0⟩) ∧
    decodeWord 0x3A6A4A0000000000 = .ok (.fclass hdr3 ⟨9, 8, 0, 0, 0, 0⟩) ∧
    decodeWord 0x3B6A4A0E00200000 = .ok (.fsgn hdr3 ⟨9, 8, 7, 0, 2, 0⟩) ∧
    decodeWord 0x3C6A480010000000 = .ok (.mfsr hdr3 ⟨9, 0, 4, 0, 0⟩) ∧
    decodeWord 0x3D6A000054100400 = .ok (.mtsr hdr3 ⟨0, 0, 21, 1, 1024⟩) ∧
    decodeWord 0x3D6A020020000000 = .ok (.wheelWrite hdr3 .move ⟨0, 8, 8, 0, 0⟩) ∧
    decodeWord 0x3E6A020054000000 = .ok (.srset hdr3 ⟨0, 8, 21, 0, 0⟩) ∧
    decodeWord 0x3F6A020054000000 = .ok (.srclr hdr3 ⟨0, 8, 21, 0, 0⟩) :=
  ⟨rfl, rfl, rfl, rfl, rfl, rfl, rfl, rfl, rfl, rfl, rfl, rfl, rfl, rfl, rfl, rfl, rfl⟩

theorem test_decode_memory_and_banks :
    decodeWord 0x406A298080200010 = .ok (.ld hdr3 ⟨5, 6, 0, 2, 0, 0, 1, 0, 16⟩) ∧
    decodeWord 0x416A5A80D4042008 = .ok (.st hdr3 ⟨11, 10, 0, 3, 2, 2, 0, 33, 8⟩) ∧
    decodeWord 0x426A198E9C1FE000 = .ok (.amo hdr3 ⟨3, 6, 7, 2, 3, 2, 0, 255, 0⟩) ∧
    decodeWord 0x436A000012000000 = .ok (.fenceAcq hdr3 ⟨0, 0, 0, 0, 2, 1, 0, 0, 0⟩) ∧
    decodeWord 0x436A000016000000 = .ok (.fenceAr hdr3 ⟨0, 0, 0, 0, 2, 3, 0, 0, 0⟩) ∧
    decodeWord 0x436A000000400000 = .ok (.fenceLayer hdr3 ⟨0, 0, 0, 0, 0, 0, 2, 0, 0⟩) ∧
    decodeWord 0x436A000014000000 = .ok (.fenceRel hdr3 ⟨0, 0, 0, 0, 2, 2, 0, 0, 0⟩) ∧
    decodeWord 0x436A00001E200000 = .ok (.fenceSc hdr3 ⟨0, 0, 0, 0, 3, 3, 1, 0, 0⟩) ∧
    decodeWord 0x446A024000000093 = .ok (.give hdr3 ⟨0, 9, 0, 0, 0, 0, 0, 0, 147⟩) ∧
    decodeWord 0x456A000000000006 = .ok (.batt hdr3 ⟨0, 0, 0, 0, 0, 0, 0, 0, 6⟩) ∧
    decodeWord 0x466A000000000006 = .ok (.bdet hdr3 ⟨0, 0, 0, 0, 0, 0, 0, 0, 6⟩) ∧
    decodeWord 0x476AB54000000000 = .ok (.bqry hdr3 ⟨22, 21, 0, 0, 0, 0, 0, 0, 0⟩) :=
  ⟨rfl, rfl, rfl, rfl, rfl, rfl, rfl, rfl, rfl, rfl, rfl, rfl⟩

theorem test_decode_vector_arithmetic :
    decodeWord 0x506A345048100000 = .ok (.vadd hdr3 ⟨3, 4, 5, 0, 2, 0, 2, 0, 64, 0, 0⟩) ∧
    decodeWord 0x516A34504A000000 = .ok (.vsub hdr3 ⟨3, 4, 5, 0, 2, 0, 2, 8, 0, 0, 0⟩) ∧
    decodeWord 0x526A34004A004E00 = .ok (.vmul hdr3 ⟨3, 4, 0, 0, 2, 0, 2, 8, 1, 7, 0⟩) ∧
    decodeWord 0x536A34564800C000 = .ok (.vfma hdr3 ⟨3, 4, 5, 6, 2, 0, 2, 0, 3, 0, 0⟩) ∧
    decodeWord 0x546A345048008000 = .ok (.vmin hdr3 ⟨3, 4, 5, 0, 2, 0, 2, 0, 2, 0, 0⟩) ∧
    decodeWord 0x556A34504AC00000 = .ok (.vmax hdr3 ⟨3, 4, 5, 0, 2, 0, 2, 11, 0, 0, 0⟩) ∧
    decodeWord 0x566A345048008000 = .ok (.vsgn hdr3 ⟨3, 4, 5, 0, 2, 0, 2, 0, 2, 0, 0⟩) ∧
    decodeWord 0x576A345048014000 = .ok (.vcmp hdr3 ⟨3, 4, 5, 0, 2, 0, 2, 0, 5, 0, 0⟩) ∧
    decodeWord 0x586A345348000000 = .ok (.vsel hdr3 ⟨3, 4, 5, 3, 2, 0, 2, 0, 0, 0, 0⟩) ∧
    decodeWord 0x596A34504BC08000 = .ok (.vand hdr3 ⟨3, 4, 5, 0, 2, 0, 2, 15, 2, 0, 0⟩) ∧
    decodeWord 0x5A6A34504BC00000 = .ok (.vor hdr3 ⟨3, 4, 5, 0, 2, 0, 2, 15, 0, 0, 0⟩) ∧
    decodeWord 0x5B6A34004BC04E00 = .ok (.vxor hdr3 ⟨3, 4, 0, 0, 2, 0, 2, 15, 1, 7, 0⟩) ∧
    decodeWord 0x5C6A34004A018009 = .ok (.vsh hdr3 ⟨3, 4, 0, 0, 2, 0, 2, 8, 6, 0, 9⟩) ∧
    decodeWord 0x5D6A340049820004 = .ok (.vcvt hdr3 ⟨3, 4, 0, 0, 2, 0, 2, 6, 8, 0, 4⟩) ∧
    decodeWord 0x5E6A340048014000 = .ok (.vsf hdr3 ⟨3, 4, 0, 0, 2, 0, 2, 0, 5, 0, 0⟩) ∧
    decodeWord 0x5F6A340048004000 = .ok (.vred hdr3 ⟨3, 4, 0, 0, 2, 0, 2, 0, 1, 0, 0⟩) :=
  ⟨rfl, rfl, rfl, rfl, rfl, rfl, rfl, rfl, rfl, rfl, rfl, rfl, rfl, rfl, rfl, rfl⟩

theorem test_decode_vector_moves_memory_codec :
    decodeWord 0x606A340048048000 = .ok (.vscan hdr3 ⟨3, 4, 0, 0, 2, 0, 2, 0, 18, 0, 0⟩) ∧
    decodeWord 0x616A34004BC04021 = .ok (.vperm hdr3 ⟨3, 4, 0, 0, 2, 0, 2, 15, 1, 0, 33⟩) ∧
    decodeWord 0x626A30004BC00E00 = .ok (.vbcast hdr3 ⟨3, 0, 0, 0, 2, 0, 2, 15, 0, 7, 0⟩) ∧
    decodeWord 0x636A04000A004E05 = .ok (.vext hdr3 ⟨0, 4, 0, 0, 0, 0, 2, 8, 1, 7, 5⟩) ∧
    decodeWord 0x646A30000A000E05 = .ok (.vins hdr3 ⟨3, 0, 0, 0, 0, 0, 2, 8, 0, 7, 5⟩) ∧
    decodeWord 0x656A32004A004000 = .ok (.viota hdr3 ⟨3, 2, 0, 0, 2, 0, 2, 8, 1, 0, 0⟩) ∧
    decodeWord 0x666A34504BC04007 = .ok (.vslide hdr3 ⟨3, 4, 5, 0, 2, 0, 2, 15, 1, 0, 7⟩) ∧
    decodeWord 0x676A400002400BFF = .ok (.vld hdr3 ⟨4, 0, 0, 0, 0, 0, 0, 9, 0, 5, 511⟩) ∧
    decodeWord 0x686A306048004A03 = .ok (.vst hdr3 ⟨3, 0, 6, 0, 2, 0, 2, 0, 1, 5, 3⟩) ∧
    decodeWord 0x696A345048000A00 = .ok (.vgath hdr3 ⟨3, 4, 5, 0, 2, 0, 2, 0, 0, 5, 0⟩) ∧
    decodeWord 0x6A6A345048000A00 = .ok (.vscat hdr3 ⟨3, 4, 5, 0, 2, 0, 2, 0, 0, 5, 0⟩) ∧
    decodeWord 0x6B6A21304E400000 = .ok (.vqe8 hdr3 ⟨2, 1, 3, 0, 2, 0, 3, 9, 0, 0, 0⟩) ∧
    decodeWord 0x6C6A64504E400000 = .ok (.vde8 hdr3 ⟨6, 4, 5, 0, 2, 0, 3, 9, 0, 0, 0⟩) ∧
    decodeWord 0x6D6A31005E400000 = .ok (.vsce8 hdr3 ⟨3, 1, 0, 0, 2, 1, 3, 9, 0, 0, 0⟩) ∧
    decodeWord 0x6E6A34504D400000 = .ok (.vqf4 hdr3 ⟨3, 4, 5, 0, 2, 0, 3, 5, 0, 0, 0⟩) ∧
    decodeWord 0x6F6A34004D400000 = .ok (.vdf4 hdr3 ⟨3, 4, 0, 0, 2, 0, 3, 5, 0, 0, 0⟩) :=
  ⟨rfl, rfl, rfl, rfl, rfl, rfl, rfl, rfl, rfl, rfl, rfl, rfl, rfl, rfl, rfl, rfl⟩

theorem test_decode_vector_masks_and_more :
    decodeWord 0x706A34004D400000 = .ok (.vscf4 hdr3 ⟨3, 4, 0, 0, 2, 0, 3, 5, 0, 0, 0⟩) ∧
    decodeWord 0x716A300048004E00 = .ok (.vrng hdr3 ⟨3, 0, 0, 0, 2, 0, 2, 0, 1, 7, 0⟩) ∧
    decodeWord 0x726A345048024000 = .ok (.vmlog hdr3 ⟨3, 4, 5, 0, 2, 0, 2, 0, 9, 0, 0⟩) ∧
    decodeWord 0x736A040048000E00 = .ok (.vmpop hdr3 ⟨0, 4, 0, 0, 2, 0, 2, 0, 0, 7, 0⟩) ∧
    decodeWord 0x746A040048000E00 = .ok (.vmfst hdr3 ⟨0, 4, 0, 0, 2, 0, 2, 0, 0, 7, 0⟩) ∧
    decodeWord 0x756A34004BC04000 = .ok (.vmov hdr3 ⟨3, 4, 0, 0, 2, 0, 2, 15, 1, 0, 0⟩) ∧
    decodeWord 0x766A345009800000 = .ok (.vpack hdr3 ⟨3, 4, 5, 0, 0, 0, 2, 6, 0, 0, 0⟩) ∧
    decodeWord 0x776A340049804000 = .ok (.vunpk hdr3 ⟨3, 4, 0, 0, 2, 0, 2, 6, 1, 0, 0⟩) ∧
    decodeWord 0x786A345648000000 = .ok (.vclmp hdr3 ⟨3, 4, 5, 6, 2, 0, 2, 0, 0, 0, 0⟩) :=
  ⟨rfl, rfl, rfl, rfl, rfl, rfl, rfl, rfl, rfl⟩

theorem test_decode_lens_and_streams :
    decodeWord 0x806A000000000005 = .ok (.fuse hdr3 ⟨0, 0, 0, 0, 0, 5⟩) ∧
    decodeWord 0x816A000000000005 = .ok (.unfuse hdr3 ⟨0, 0, 0, 0, 0, 5⟩) ∧
    decodeWord 0x826A4A0000000005 = .ok (.lgo hdr3 ⟨9, 8, 0, 0, 0, 5⟩) ∧
    decodeWord 0x836A000000000005 = .ok (.lstop hdr3 ⟨0, 0, 0, 0, 0, 5⟩) ∧
    decodeWord 0x836A000000100005 = .ok (.lstopQ hdr3 ⟨0, 0, 0, 0, 1, 5⟩) ∧
    decodeWord 0x846A480000000005 = .ok (.lstat hdr3 ⟨9, 0, 0, 0, 0, 5⟩) ∧
    decodeWord 0x856A020000000003 = .ok (.agset hdr3 ⟨0, 8, 0, 0, 0, 3⟩) ∧
    decodeWord 0x866A000000000009 = .ok (.aggo hdr3 ⟨0, 0, 0, 0, 0, 9⟩) ∧
    decodeWord 0x876A480000000003 = .ok (.agstat hdr3 ⟨9, 0, 0, 0, 0, 3⟩) ∧
    decodeWord 0x886A000000000009 = .ok (.gateClose hdr3 ⟨0, 0, 0, 0, 0, 9⟩) ∧
    decodeWord 0x886A000000100009 = .ok (.gateOpen hdr3 ⟨0, 0, 0, 0, 1, 9⟩) ∧
    decodeWord 0x896A000000000123 = .ok (.bindCh hdr3 ⟨0, 0, 0, 0, 0, 291⟩) ∧
    decodeWord 0x896A000000100123 = .ok (.bindUn hdr3 ⟨0, 0, 0, 0, 1, 291⟩) ∧
    decodeWord 0x8A6A480E00000045 = .ok (.skewRd hdr3 ⟨9, 0, 7, 0, 0, 69⟩) ∧
    decodeWord 0x8A6A020E00100045 = .ok (.skewWr hdr3 ⟨0, 8, 7, 0, 1, 69⟩) ∧
    decodeWord 0x8B6A30004C008000 = .ok (.epop hdr3 ⟨3, 0, 0, 0, 2, 0, 3, 0, 2, 0, 0⟩) ∧
    decodeWord 0x8C6A03004CC10000 = .ok (.epush hdr3 ⟨0, 3, 0, 0, 2, 0, 3, 3, 4, 0, 0⟩) ∧
    decodeWord 0x8C6A00000C025200 = .ok (.epushHdr hdr3 ⟨0, 0, 0, 0, 0, 0, 3, 0, 9, 9, 0⟩) ∧
    decodeWord 0x8D6A020E00000145 = .ok (.ctab hdr3 ⟨0, 8, 7, 0, 0, 325⟩) ∧
    decodeWord 0x8E6A4A0000100000 = .ok (.dmapCore hdr3 ⟨9, 8, 0, 0, 1, 0⟩) ∧
    decodeWord 0x8E6A4A0000000000 = .ok (.dmapFacet hdr3 ⟨9, 8, 0, 0, 0, 0⟩) :=
  ⟨rfl, rfl, rfl, rfl, rfl, rfl, rfl, rfl, rfl, rfl, rfl, rfl, rfl, rfl, rfl, rfl, rfl, rfl, rfl, rfl, rfl⟩

theorem test_decode_messages_barriers :
    decodeWord 0xA06A014C70300000 = .ok (.sendMsg hdr3 ⟨0, 5, 6, 7, 3, 0⟩) ∧
    decodeWord 0xA16A020E00202806 = .ok (.recv hdr3 ⟨0, 8, 7, 0, 2, 10246⟩) ∧
    decodeWord 0xA26A020E0020000B = .ok (.recva hdr3 ⟨0, 8, 7, 0, 2, 11⟩) ∧
    decodeWord 0xA36A000000100002 = .ok (.barA hdr3 ⟨0, 0, 0, 0, 1, 2⟩) ∧
    decodeWord 0xA36A000000000002 = .ok (.barAw hdr3 ⟨0, 0, 0, 0, 0, 2⟩) ∧
    decodeWord 0xA36A000000200001 = .ok (.barW hdr3 ⟨0, 0, 0, 0, 2, 1⟩) ∧
    decodeWord 0xA46A020E00000002 = .ok (.note hdr3 ⟨0, 8, 7, 0, 0, 2⟩) ∧
    decodeWord 0xA56A480000108003 = .ok (.waitn hdr3 ⟨9, 0, 0, 0, 1, 32771⟩) ∧
    decodeWord 0xA66A020000000000 = .ok (.namePre hdr3 ⟨0, 8, 0, 0, 0, 0⟩) :=
  ⟨rfl, rfl, rfl, rfl, rfl, rfl, rfl, rfl, rfl⟩

theorem test_decode_graph :
    decodeWord 0xB06A4A0000000000 = .ok (.gnode hdr3 ⟨9, 8, 0, 0, 0, 0⟩) ∧
    decodeWord 0xB16A020E00000000 = .ok (.gdep hdr3 ⟨0, 8, 7, 0, 0, 0⟩) ∧
    decodeWord 0xB26A020000000000 = .ok (.gwait hdr3 ⟨0, 8, 0, 0, 0, 0⟩) ∧
    decodeWord 0xB26A000000100000 = .ok (.gwaitAll hdr3 ⟨0, 0, 0, 0, 1, 0⟩) ∧
    decodeWord 0xB36A4A0000000000 = .ok (.gpoll hdr3 ⟨9, 8, 0, 0, 0, 0⟩) ∧
    decodeWord 0xB46A020000000000 = .ok (.gkill hdr3 ⟨0, 8, 0, 0, 0, 0⟩) ∧
    decodeWord 0xB56A480000100000 = .ok (.gstatDone hdr3 ⟨9, 0, 0, 0, 1, 0⟩) ∧
    decodeWord 0xB56A480000000000 = .ok (.gstatFree hdr3 ⟨9, 0, 0, 0, 0, 0⟩) ∧
    decodeWord 0xB66A4A0000100000 = .ok (.cpy hdr3 ⟨9, 8, 0, 0, 1, 0⟩) ∧
    decodeWord 0xB76A4A0000000000 = .ok (.qntE8l hdr3 ⟨9, 8, 0, 0, 0, 0⟩) ∧
    decodeWord 0xB76A4A0000100000 = .ok (.qntFq4 hdr3 ⟨9, 8, 0, 0, 1, 0⟩) :=
  ⟨rfl, rfl, rfl, rfl, rfl, rfl, rfl, rfl, rfl, rfl, rfl⟩

/-- Words that the spec assembles in its examples: GIVE 3, g9, 9; BDET 2; BQRY g22, g21; WAITN.all g12, #3; BAR.w #1; SEND.ch3 g5, g6, g7; RECV.ch3 g8, g9, 40, 6; WAITC g15, 64; AMO.add.w.rel.device.win510 g0, g7, 0(g6); LGO g9, g8, L0; EPOP.f32 v1, s; EPUSH.e4m3.pr v2, v3, w; LD.d.win64 g13, 0(g10); FENCE.SC.device; FENCE.LAYER. -/
theorem test_decode_examples :
    decodeWord 0x4400024000000093 = .ok (.give hdr0 ⟨0, 9, 0, 0, 0, 0, 0, 0, 0x93⟩) ∧
    decodeWord 0x4600000000000002 = .ok (.bdet hdr0 ⟨0, 0, 0, 0, 0, 0, 0, 0, 2⟩) ∧
    decodeWord 0x4700B54000000000 = .ok (.bqry hdr0 ⟨22, 21, 0, 0, 0, 0, 0, 0, 0⟩) ∧
    decodeWord 0xA500600000100003 = .ok (.waitn hdr0 ⟨12, 0, 0, 0, 1, 3⟩) ∧
    decodeWord 0xA300000000200001 = .ok (.barW hdr0 ⟨0, 0, 0, 0, 2, 1⟩) ∧
    decodeWord 0xA000014C70300000 = .ok (.sendMsg hdr0 ⟨0, 5, 6, 7, 3, 0⟩) ∧
    decodeWord 0xA100021200302806 = .ok (.recv hdr0 ⟨0, 8, 9, 0, 3, 0x2806⟩) ∧
    decodeWord 0x070003C000000040 = .ok (.waitc hdr0 ⟨0, 15, 0, 0, 64⟩) ∧
    decodeWord 0x4200018E9C5FE000 = .ok (.amo hdr0 ⟨0, 6, 7, 2, 3, 2, 2, 255, 0⟩) ∧
    decodeWord 0x82004A0000000000 = .ok (.lgo hdr0 ⟨9, 8, 0, 0, 0, 0⟩) ∧
    decodeWord 0x8B0010000C008000 = .ok (.epop hdr0 ⟨1, 0, 0, 0, 0, 0, 3, 0, 2, 0, 0⟩) ∧
    decodeWord 0x8C0002300CC10000 = .ok (.epush hdr0 ⟨0, 2, 3, 0, 0, 0, 3, 3, 4, 0, 0⟩) ∧
    decodeWord 0x40006A80C0040000 = .ok (.ld hdr0 ⟨13, 10, 0, 3, 0, 0, 0, 32, 0⟩) ∧
    decodeWord 0x430000001E200000 = .ok (.fenceSc hdr0 ⟨0, 0, 0, 0, 3, 3, 1, 0, 0⟩) ∧
    decodeWord 0x4300000000400000 = .ok (.fenceLayer hdr0 ⟨0, 0, 0, 0, 0, 0, 2, 0, 0⟩) :=
  ⟨rfl, rfl, rfl, rfl, rfl, rfl, rfl, rfl, rfl, rfl, rfl, rfl, rfl, rfl, rfl⟩

/-! ### One step on a small state: expected values from the spec's text and examples -/

/-- The writes that an instruction gives its slot. -/
def writesOf (i : Instr) (sl : Slot) : Option (List Write) :=
  match exec i (with0 sl) with
  | .next t => some (t.me.flights.flatMap Flight.writes)
  | _ => none

/-- The cause of the fault that an instruction takes. -/
def causeOf (i : Instr) (sl : Slot) : Option (BitVec 8) :=
  match exec i (with0 sl) with
  | .next t => if t.me.life = .faulted then some (t.me.fcause.setWidth 8) else none
  | _ => none

/-- R99: sums wrap. -/
theorem test_add_wraps : writesOf (.add hdr0 (fmtA 0)) (regs 0xFFFFFFFFFFFFFFFF 2) = some [.g 9 1] := by decide

theorem test_sub_order : writesOf (.sub hdr0 (fmtA 0)) (regs 5 7) = some [.g 9 0xFFFFFFFFFFFFFFFE] := by decide

/-- R101: quotients go toward zero and the remainder has the sign of the dividend; the signed overflow. -/
theorem test_div_signed : writesOf (.div hdr0 (fmtA 0)) (regs (-7) 2) = some [.g 9 (-3)] := by decide

theorem test_rem_signed : writesOf (.rem hdr0 (fmtA 0)) (regs (-7) 2) = some [.g 9 (-1)] := by decide

/-- R101: the bits of FN choose signed or unsigned. -/
theorem test_div_unsigned : writesOf (.div hdr0 (fmtA 1)) (regs (-7) 2) = some [.g 9 0x7FFFFFFFFFFFFFFC] := by decide

/-- R103: LT is signed and LTU is not. -/
theorem test_cmp_signed : writesOf (.cmp hdr0 ⟨2, 8, 7, 0, 2, 0⟩) (regs (-1) 1) = some [.p 2 true] ∧
    writesOf (.cmp hdr0 ⟨2, 8, 7, 0, 6, 0⟩) (regs (-1) 1) = some [.p 2 false] := by decide

/-- R102: BFX.s of 8 bits at 4, and BFI over the destination's old value. -/
theorem test_bfx_signed : writesOf (.bfx hdr0 ⟨9, 8, 0, 0, 1, 0x1C4⟩) (regs 0xF83 0) = some [.g 9 0xFFFFFFFFFFFFFFF8] := by decide

theorem test_bfi_merges : writesOf (.bfi hdr0 ⟨7, 8, 0, 0, 0, 0x1C4⟩) (regs 0xAB 0xFFFFF) = some [.g 7 0xFFABF] := by decide

/-- R103: LUT 0x4 is a AND NOT b. -/
theorem test_plog_order : writesOf (.plog hdr0 ⟨3, 1, 2, 0, 4, 0⟩) { runs with p := 2 } = some [.p 3 true] ∧
    writesOf (.plog hdr0 ⟨3, 1, 2, 0, 4, 0⟩) { runs with p := 4 } = some [.p 3 false] := by decide

/-- R104: LI.h keeps the low half. -/
theorem test_lih : writesOf (.liH hdr0 ⟨9, 8, 2, 0x12345678⟩) (regs 0xAAAAAAAA9ABCDEF0 0) = some [.g 9 0x123456789ABCDEF0] := by decide

/-- R109's examples: 470.0 as E4M3 with saturation, and without it with OF and NX. -/
theorem test_fcvt_e4m3 :
    writesOf (.fcvt hdr0 ⟨9, 8, 0, 0, 0x03, 8⟩) (regs 0x43EB0000 0) = some [.g 9 0x7E, .istat 0] ∧
    writesOf (.fcvt hdr0 ⟨9, 8, 0, 0, 0x03, 0⟩) (regs 0x43EB0000 0) = some [.g 9 0x7F, .istat 5] := by decide +kernel

/-- R45's examples, with sh = 4. -/
theorem test_fcvt_requantise :
    writesOf (.fcvt hdr0 ⟨9, 8, 0, 0, 0x86, 0x40⟩) (regs 0x38 0) = some [.g 9 4] ∧
    writesOf (.fcvt hdr0 ⟨9, 8, 0, 0, 0x86, 0x40⟩) (regs 0x28 0) = some [.g 9 2] ∧
    writesOf (.fcvt hdr0 ⟨9, 8, 0, 0, 0x86, 0x40⟩) (regs 0xFFFFF000 0) = some [.g 9 (-128), .istat 0] := by decide +kernel

/-- R43: 1 + 2^-24 is a tie that goes to the even 1, with NX; infinity less infinity is the canonical NaN, with NV. -/
theorem test_fadd_tie : writesOf (.fadd hdr0 ⟨9, 8, 7, 0, 0, 0⟩) (regs 0x3F800000 0x33800000) = some [.g 9 0x3F800000, .istat 1] := by decide +kernel

theorem test_fadd_nan : writesOf (.fadd hdr0 ⟨9, 8, 7, 0, 0, 0⟩) (regs 0x7F800000 0xFF800000) = some [.g 9 0x7FC00000, .istat 0x10] := by decide +kernel

/-- R110: the square root of -0 is -0, and the reciprocal of 2 is 1/2. -/
theorem test_fsf : writesOf (.fsf hdr0 ⟨9, 8, 0, 0, 2, 0⟩) (regs 0x80000000 0) = some [.g 9 0x80000000] ∧
    writesOf (.fsf hdr0 ⟨9, 8, 0, 0, 0, 0⟩) (regs 0x40000000 0) = some [.g 9 0x3F000000] := by decide +kernel

/-- R355, R101, R285, R89: TRAP, a division by zero without its trap, a misaligned load and a jump out of the store. -/
theorem test_causes : causeOf (.trap hdr0 ⟨0, 0, 0, 0, 5⟩) runs = some 0x20 ∧ causeOf (.div hdr0 (fmtA 0)) (regs 7 0) = none ∧
    causeOf (.ld hdr0 (fmtM 3)) (regs 4 0) = some 0x08 ∧ causeOf (.jmp hdr0 (fmtC 0)) (regs 16384 0) = some 0x09 := by decide

/-- R89: the word after a taken branch issues on the third turn after it. -/
theorem test_br_gate :
    (match exec (.br hdr0 ⟨0, 0, 0, 0, 5⟩) (with0 runs) with
      | .next t => decide (t.me.pc = 5 ∧ t.me.gate = .fromTurn 13)
      | _ => false) = true := by decide

/-- R263: offset 0x40 of core (fx 2, fy 1) on die 0, and the retry of the handoff example. -/
theorem test_global_address : eaName 0x0000010008800040 = nameOf 0 2 1 ∧ eaEntry (0x0000010000000000 + (0x21 <<< 22) + (9 <<< 18)) = 9 ∧
    eaName (0x0000010000000000 + (0x21 <<< 22) + (9 <<< 18)) = 0x21 := by decide

/-! ### Witnesses: scalar floating point and system registers -/

/-- 1.0, and the six kinds of FP32 image at their least and greatest fields. -/
theorem witness_ScalarFloatRowsComplete :
    (with0 (regs 0x3F800000 0x3F800000)).me.guard hdr0 = true ∧ (fmtA 0x12).fn.extractLsb' 4 4 ≠ (fmtA 0x12).fn.extractLsb' 0 4 ∧
      (fmtA 0x11).fn.extractLsb' 4 4 = (fmtA 0x11).fn.extractLsb' 0 4 ∧
      (0x7F800001 : BitVec 32).getLsbD 22 = false ∧ (0x7FC00000 : BitVec 32).getLsbD 22 = true ∧
      ((0x7F800001 : BitVec 32).extractLsb' 23 8).toNat = 255 ∧ ((0x7F800001 : BitVec 32).extractLsb' 0 23).toNat ≠ 0 ∧
      ((0x7F800000 : BitVec 32).extractLsb' 0 23).toNat = 0 ∧ ((0x00800000 : BitVec 32).extractLsb' 23 8).toNat = 1 ∧
      ((0x00000001 : BitVec 32).extractLsb' 23 8).toNat = 0 ∧ ((0x00000001 : BitVec 32).extractLsb' 0 23).toNat ≠ 0 := by decide

/-- FLOAT rows: no enabled condition, and TNV enabled with NV met. -/
theorem witness_FloatOutcome : trapCause (with0 runs).me.fpctl 0 = none ∧ trapCause 0x100 fNV = some 0x10 := by decide

/-- Register 0x7F may be reached, 0x80 and 0xFF may not. -/
theorem witness_SystemRegisterRowsComplete :
    (with0 runs).me.guard hdr0 = true ∧ ¬(0x80 ≤ (0x7F : BitVec 12).toNat ∧ (0x7F : BitVec 12).toNat ≤ 0xFF) ∧
      (with0 runs).me.h = false ∧ 0x80 ≤ (0x80 : BitVec 12).toNat ∧ (0xFF : BitVec 12).toNat ≤ 0xFF := by decide

/-- A WHEEL write of task 0 that passes, one that would take a slot's last position, and a boundary that has come. -/
def wheeled (w : Word) (due : List (Nat × Word)) : State :=
  { onCore0 { Core.reset with task := some 0, wheel := w, wheelNext := w, wheelDue := due } runs with now := 16 }

theorem witness_SystemRegisterWriteIsReadBack :
    (wheeled 0x8 []).me.guard hdr0 = true ∧
      (wheelCheck (wheeled 0x8 []) 0 (wheeled 0x8 []).me.task (wheeled 0x8 []).myCore.wheelNext 0x88).1 = false ∧
      ((wheelCheck (wheeled 0x8 []) 0 (wheeled 0x8 []).me.task (wheeled 0x8 []).myCore.wheelNext 0x90).1 = true ∧
        (wheeled 0x8 []).me.h = false) ∧
      ((wheeled 0x8 [(16, 0x88)]).cur.core < 768 ∧
        (wheeled 0x8 [(16, 0x88)]).myCore.wheelDue = [((wheeled 0x8 [(16, 0x88)]).now + (wheeled 0x8 [(16, 0x88)]).myCore.skew, 0x88)]) ∧
      ((5 : Word) &&& 7).toNat > 4 ∧ ((4 : Word) &&& 7).toNat ≤ 4 := by decide

/-! ### Witnesses: results and accesses -/

def flying (w : Write) : State := with0 { runs with flights := [⟨0, 10, 0, [w]⟩] }

theorem witness_ResultBecomesVisible :
    ((flying (.g 9 5)).slot ⟨0, 0⟩).flights = ⟨0, 10, 0, [.g 9 5]⟩ :: [] ∧ (10 : Nat) ≤ ((flying (.g 9 5)).slot ⟨0, 0⟩).turn ∧
      ((flying (.g 9 5)).slot ⟨0, 0⟩).gate = .fromTurn 0 ∧
      ((flying (.p 0 true)).slot ⟨0, 0⟩).flights = ⟨0, 10, 0, [.p 0 true]⟩ :: [] ∧
      ((flying (.v 15 (BitVec.allOnes 64) 0)).slot ⟨0, 0⟩).flights = ⟨0, 10, 0, [.v 15 (BitVec.allOnes 64) 0]⟩ :: [] ∧
      ((flying (.m 7 1 1)).slot ⟨0, 0⟩).flights = ⟨0, 10, 0, [.m 7 1 1]⟩ :: [] ∧
      ((flying (.istat 0x28)).slot ⟨0, 0⟩).flights = ⟨0, 10, 0, [.istat 0x28]⟩ :: [] ∧
      ((flying (.vstat 1)).slot ⟨0, 0⟩).flights = ⟨0, 10, 0, [.vstat 1]⟩ :: [] := ⟨rfl, by decide, rfl, rfl, rfl, rfl, rfl, rfl⟩

/-- A core whose entry 15 holds bank 5 of its cluster, its slot with G(8) = a and G(7) = b. -/
def banked (a b : Word) : State := onCore0 { Core.reset with bmap := [(15, bmMake true false false 0 5 1)] } (regs a b)

/-- The last eight bytes of the window. -/
theorem witness_LocalAccessesPerform :
    ((banked 0x3FFFF8 0).me.guard hdr0 = true ∧ (banked 0x3FFFF8 0).MemoryCanonical ∧ (banked 0x3FFFF8 0).me.accs = [] ∧
      (fmtM 3).ord = 0) ∧
    (((banked 0x3FFFF8 0).me.gr (fmtM 3).ra + (fmtM 3).off.signExtend 64 + (banked 0x3FFFF8 0).me.gr (fmtM 3).rb) = 0x3FFFF8 ∧
      (0x3FFFF8 : Word).toNat % Machine.sizeOf (fmtM 3).sz = 0 ∧ (0x3FFFF8 : Word).toNat < 4194304 ∧
      bmV ((banked 0x3FFFF8 0).myCore.bm (eaEntry 0x3FFFF8)) = true ∧
      bmPend ((banked 0x3FFFF8 0).myCore.bm (eaEntry 0x3FFFF8)) = false ∧
      bmWp ((banked 0x3FFFF8 0).myCore.bm (eaEntry 0x3FFFF8)) = false ∧ (banked 0x3FFFF8 0).myCore.frontBusy = [] ∧
      (banked 0x3FFFF8 0).me.beats = [] ∧
      (banked 0x3FFFF8 0).hasErr ((banked 0x3FFFF8 0).myCore.winKey 0x3FFFF8) (Machine.sizeOf (fmtM 3).sz) = false) := by
  unfold State.MemoryCanonical
  decide

/-- Addresses 4 (of eight bytes), 4 MiB, just below the aperture and just above it. -/
theorem witness_MisplacedAccessesFault :
    (with0 (regs 4 0)).me.guard hdr0 = true ∧ (with0 (regs 4 0)).me.h = false ∧
      ((with0 (regs 4 0)).me.gr (fmtM 3).ra + (fmtM 3).off.signExtend 64 + (with0 (regs 4 0)).me.gr (fmtM 3).rb).toNat %
        Machine.sizeOf (fmtM 3).sz ≠ 0 ∧
      ((0x400000 : Word).toNat % Machine.sizeOf (fmtM 3).sz = 0 ∧ 4194304 ≤ (0x400000 : Word).toNat ∧ (0x400000 : Word).toNat < 2 ^ 40) ∧
      ((0xFFFFFFFFF8 : Word).toNat % Machine.sizeOf (fmtM 3).sz = 0 ∧ 4194304 ≤ (0xFFFFFFFFF8 : Word).toNat ∧
        (0xFFFFFFFFF8 : Word).toNat < 2 ^ 40) ∧
      ((0x14000000000 : Word).toNat % Machine.sizeOf (fmtM 3).sz = 0 ∧ 2 ^ 40 + 2 ^ 38 ≤ (0x14000000000 : Word).toNat) := by decide

/-- An eight-byte load to G(9) at its window end. -/
def load0 (st : AccSt) (rt : BitVec 5) (size : Nat) : Access :=
  ⟨0, .load, 16, false, 0, size, false, 0, 0, 0, rt, none, 0, 0, 0, 3, 0, 0, 10, 0, 0, st, 7, false, []⟩

def loading (a : Access) : State := with0 { runs with accs := [a], nextId := 1 }

theorem witness_WindowEndDeliversOrFaults :
    ((loading (load0 .arrived 9 8)).slot ⟨0, 0⟩).accs = [load0 .arrived 9 8] ∧ ((loading (load0 .arrived 9 8)).slot ⟨0, 0⟩).pends = [] ∧
      ((loading (load0 .arrived 9 8)).slot ⟨0, 0⟩).gate = .fromTurn 0 ∧ ((loading (load0 .arrived 9 8)).slot ⟨0, 0⟩).life = .running ∧
      ((loading (load0 .arrived 9 8)).slot ⟨0, 0⟩).due = [] ∧ (load0 .arrived 9 8).ended = false ∧
      (load0 .arrived 9 8).minTurn ≤ ((loading (load0 .arrived 9 8)).slot ⟨0, 0⟩).turn ∧
      (load0 .arrived 9 8).minCycle ≤ (loading (load0 .arrived 9 8)).now ∧ (load0 .arrived 9 8).kind ≠ .store ∧
      (load0 .arrived 9 8).vdest = none ∧ (load0 .arrived 9 8).arrive ≤ (loading (load0 .arrived 9 8)).now ∧
      (load0 .arrived 9 8).size ≠ 16 ∧
      ((load0 .arrived 30 16).size = 16 ∧ (load0 .arrived 30 16).rt ≠ 0 ∧ (load0 .arrived 30 16).rt + 1 ≠ 0) ∧
      (load0 .sent 9 8).st = .sent ∧ (load0 (.refused 5) 9 8).st = .refused 5 := by decide

theorem witness_FencesStallAndComplete :
    (with0 runs).me.guard hdr0 = true ∧ (with0 runs).me.accs = [] ∧ (with0 runs).me.flights = [] ∧ (2 : BitVec 3).toNat < 3 ∧
      (with0 runs).myCore.done = (with0 runs).myCore.issued ∧
      ((loading (load0 .sent 9 8)).me.accs = [load0 .sent 9 8] ∧ (load0 .sent 9 8).kind ≠ .store ∧ (load0 .sent 9 8).ended = false) ∧
      ((with0 { runs with gate := .stalled ⟨none, [], [], .placed⟩ }).slot ⟨0, 0⟩).gate = .stalled ⟨none, [], [], .placed⟩ := by decide

/-! ### Witnesses: banks -/

/-- A core whose name 0 is cached as core 1, with an entry 0. -/
def giving (w : Word) : Core := { Core.reset with bmap := [(0, w)], ncache := [(0, 0x8000000000000001)] }

def held5 : Word := bmMake true false false 0 5 1

def pend5 : Word := bmMake true true false 0 5 1

/-- All banks of cluster 0 held by core 767. -/
def noneFree : List (Nat × Bank) := (List.range 128).map fun b => (b, ⟨0, .attached 767 0⟩)

theorem witness_BankCommandsIssue :
    (onCore0 (giving 0) runs).me.guard hdr0 = true ∧ ((onCore0 (giving 0) runs).me.gr (fmtM 0).ra).toNat < 65536 ∧
      (onCore0 (giving 0) runs).resolve 0 0 = .hit 1 ∧ (onCore0 (giving 0) runs).foreign 0 1 = false ∧
      (bmV 0 = false ∧ bmPend 0 = false ∧ bmV held5 = true ∧ bmPend held5 = false ∧ bmV pend5 = true ∧ bmPend pend5 = true) ∧
      (onCore0 (giving held5) runs).me.accs = [] ∧ (onCore0 (giving held5) runs).myCore.entryInUse 0 = false := by decide

theorem witness_BankCommandsIssue_pool :
    ({ onCore0 (giving 0) runs with banks := noneFree } : State).pooled 0 = none ∧ (onCore0 (giving 0) runs).pooled 0 = some 0 ∧
      (onCore0 (giving 0) runs).holding 0 none < ((onCore0 (giving 0) runs).recOf 0).quota := by decide

def aGive (st : GiveSt) : Give := ⟨4, 0, 0, 2, 0, 1, st, none, 0⟩

theorem witness_BankCommandsComplete :
    ({ onCore0 Core.reset runs with banks := [(5, ⟨0, .pending 0 3⟩)] } : State).pendingBank 0 3 = some 5 ∧
      (bmV ((onCore0 (giving pend5) runs).myCore.bm 0) = true ∧ bmPend ((onCore0 (giving pend5) runs).myCore.bm 0) = true ∧
        (onCore0 (giving pend5) runs).myCore.gives = []) ∧
      (({ giving pend5 with gives := [aGive .admitting] } : Core).gives = [aGive .admitting] ∧ (aGive .admitting).node = none ∧
        (aGive .admitting).tgt ≠ 0 ∧ ({ giving pend5 with gives := [aGive .admitting] } : Core).entryInUse 0 = false ∧
        ({ giving pend5 with gives := [aGive .admitting], ags := [(0, { AG.reset with st := .run, eset := 1 })] } : Core).entryInUse 0 = true ∧
        bmV ((onCore0 (giving pend5) runs).core 1 |>.bm 2) = false ∧ bmPend ((onCore0 (giving pend5) runs).core 1 |>.bm 2) = false) ∧
      (({ giving pend5 with gives := [aGive .releasing] } : Core).gives = [aGive .releasing] ∧ (aGive .releasing).st = .releasing) ∧
      ((with0 (regs 0x3FFFFF 0)).me.guard hdr0 = true ∧ ((with0 (regs 0x3FFFFF 0)).me.gr (fmtM 0).ra).toNat < 4194304) ∧
      (((with0 { runs with gate := .stalled ⟨none, [], [], .bqry 0x40000 9 0 (some 1)⟩ }).slot ⟨0, 0⟩).gate =
          .stalled ⟨none, [], [], .bqry 0x40000 9 0 (some 1)⟩ ∧ clusterOf 0 = clusterOf 1 ∧
        (with0 { runs with gate := .stalled ⟨none, [], [], .bqry 0x40000 9 0 (some 1)⟩ }).hint 1 (eaEntry 0x40000) = none) := by decide

/-! ### Witnesses: vectors -/

/-- A vector word of eight lanes with FT, FN, RS and IMM9. -/
def fmtV (ft : BitVec 4) (fn : BitVec 8) (imm : BitVec 9) : FmtV := ⟨3, 4, 5, 6, 0, 0, 0, ft, fn, 8, imm⟩

/-- Registers v4 and v5. -/
def vregs (a b : VReg) : Slot := { regs 0x3C0000 0 with v := [(4, a), (5, b)] }

/-- A word finds its datapath free. -/
theorem vectorReady : VectorReady (with0 (vregs 0 0)) hdr0 := by
  unfold VectorReady
  decide

/-- Nothing traps while no enable is set. -/
theorem laneTrap_disabled (fs : List (Nat × Flags)) : laneTrap 0 fs = none := by
  simp [laneTrap, trapCause]

theorem witness_VectorArithmeticLanes :
    VectorReady (with0 (vregs 0 0)) hdr0 ∧ (fmtV 8 0 0).ft = 8 ∧ (fmtV 8 0 0).fn = 0 ∧ (fmtV 8 16 0).fn = 16 ∧
      laneTrap (with0 (vregs 0 0)).me.fpctl [(0, fNV)] = none ∧ laneTrap 0x100 [(0, 0), (3, fNV), (5, fNV)] = some (0x10, 3) ∧
      (addF .rne (f32 0x7F800001) (f32 0)).2 = fNV :=
  ⟨vectorReady, rfl, rfl, rfl, laneTrap_disabled _, by decide, by decide⟩

theorem witness_ReductionsComplete :
    VectorReady (with0 (vregs 0 0)) hdr0 ∧ (fmtV 8 0 0).ft ≠ 11 ∧ (fmtV 11 1 0).ft = 11 ∧
      laneTrap (with0 (vregs 0 0)).me.fpctl [(0, fNV)] = none :=
  ⟨vectorReady, by decide, rfl, laneTrap_disabled _⟩

theorem witness_VectorMovesAndBits :
    VectorReady (with0 (vregs 0 0)) hdr0 ∧ (fmtV 8 0 0).ft = 8 ∧ (fmtV 8 0 0).fn = 0 ∧ (fmtV 8 1 0).fn = 1 ∧ (fmtV 8 2 0).fn = 2 ∧
      (fmtV 8 0 0).ft ≠ 11 ∧ (fmtV 11 0 0).ft = 11 :=
  ⟨vectorReady, rfl, rfl, rfl, rfl, by decide, rfl⟩

theorem witness_InsertExtractPackComplete :
    VectorReady (with0 (vregs 0 0)) hdr0 ∧ (fmtV 8 0 63).fn ≠ 1 ∧ (fmtV 8 1 0).fn = 1 ∧ (fmtV 8 0 0).ft ≠ 11 ∧ (fmtV 11 0 0).ft = 11 ∧
      laneTrap (with0 (vregs 0 0)).me.fpctl (packBytes (vregs 0 0) (fmtV 6 0 0)).2 = none :=
  ⟨vectorReady, by decide, rfl, by decide, rfl, laneTrap_disabled _⟩

/-- A comparison of eight equal integers, and one with a signalling NaN. -/
theorem witness_MaskRowsComplete :
    VectorReady (with0 (vregs 0 0)) hdr0 ∧ (fmtV 0 1 0).fn = 1 ∧
      allFlags ((activeLanes (vregs 0 0) (fmtV 8 0 0)).map fun k => (k, (compareLane 8 0 0 0 k).2)) = 0 ∧
      allFlags [(0, (compareLane 0 0 0x7F800001 0 0).2)] ≠ 0 ∧ laneTrap 0 [(0, (compareLane 0 0 0x7F800001 0 0).2)] = none :=
  ⟨vectorReady, rfl, by decide +kernel, by decide +kernel, laneTrap_disabled _⟩

theorem witness_CodecRowsComplete :
    VectorReady (with0 (vregs 0 0)) hdr0 ∧ ∀ fs, laneTrap (with0 (vregs 0 0)).me.fpctl fs = none :=
  ⟨vectorReady, laneTrap_disabled⟩

/-- Eight elements of four bytes at the start of entry 15. -/
def vmemState : State := onCore0 { Core.reset with bmap := [(15, bmMake true false false 0 5 1)] } (vregs 0 0)

def eight : List Elem := (List.range 8).map fun k => ⟨k, BitVec.ofNat 64 (0x3C0000 + 4 * k)⟩

theorem witness_VectorMemoryRowsComplete :
    vmemState.me.accs = [] ∧ vmemState.memErr = [] ∧ (fmtV 8 0 0).ft ≠ 11 ∧
      vmemFault vmemState (fmtV 8 0 0) false true eight = none ∧ vmemFault vmemState (fmtV 8 0 0) true false eight = none ∧
      ∀ e ∈ eight, (storeElem vmemState.me (fmtV 8 0 0) e.lane).2 = 0 := by decide +kernel

/-! ### Witnesses: lenses and streams -/

/-- A task of two cores whose kernel declares lenses 0 and 1 of one core each; route 0 goes from the east side of lens 0
to the west side of lens 1, route 1 to a lens that is not declared. -/
def lensKernel : Kernel :=
  { Kernel.none with
    lenses := [(0, 0, 1, 1), (1, 0, 1, 1)]
    routes := [⟨some ⟨0, 3, 0, 0⟩, [⟨1, 0, 0, 0⟩]⟩, ⟨none, [⟨5, 0, 0, 0⟩]⟩] }

def lensTask : Task := { Task.none with st := .running, rec_ := { BindRec.none with fw := 2 }, kernel := lensKernel }

/-- Lens 0 on core 0 and lens 1 on core 1. -/
def lens0 : Lens := { Lens.reset with ox := 0, oy := 0, w := 1, h := 1, st := .idle, acyc := 1000 }

def lens1 : Lens := { lens0 with num := 1, ox := 1 }

/-- The task with its lenses, core 0 and a slot of it. -/
def lensed (l m : Lens) (x : Core) (sl : Slot) : State :=
  { onCore0 { x with task := some 0 } sl with
    fe := { FrontEnd.reset with tasks := [(0, lensTask)] }
    lenses := [(0, l), (1, m)] }

def fused2 : State := lensed lens0 lens1 Core.reset runs

/-- CTAB names row and column in G(8) and the word in G(7). -/
theorem witness_LensCommandsComplete :
    (fused2.me.guard hdr0 = true ∧ fused2.namedLens (fmtA 0) = some (0, 0, 0, 1, 1) ∧ fused2.cur.core = coreAt 0 0) ∧
    ((lensed Lens.reset lens1 Core.reset runs).lens 0).st = .unfused ∧ ((lensed { lens0 with st := .failed } lens1 Core.reset runs).lens 0).st = .failed ∧
    (fused2.lens 0).fused = true ∧ ((lensed { lens0 with st := .fusing } lens1 Core.reset runs).placeLens 0 0 0 1 1 |>.lens 0).st = .fusing ∧
    ((fused2.placeLens 0 0 0 1 1).lens 0).fused = true ∧ (fused2.placeLens 0 0 0 1 1).lensInUse 0 = false ∧
    ((({ fused2 with chans := [(0, ⟨.bound, [], []⟩)] } : State).placeLens 0 0 0 1 1).lensInUse 0 = true) ∧
    ((fused2.placeLens 0 0 0 1 1).lens 0).freezing = false ∧ ((fused2.placeLens 0 0 0 1 1).lens 0).seq.active = false ∧
    ((fused2.placeLens 0 0 0 1 1).lens 0).queue = [] ∧
    (bits (fmtA 0).imm 6 1 = 0 ∧ 63 < (fused2.lens 0).lanesOn 0 ∧ (fused2.lens 0).lanesOn 0 ≤ 64) ∧
    ((fused2.lens 0).rows = 64 ∧ (fused2.lens 0).cols = 64 ∧ bits (0x3F003F : Word) 16 16 = 63 ∧ bits (0x40003F : Word) 16 16 = 64) ∧
    CtlWord.ok 0 = true ∧ CtlWord.ok 1 = false := by decide +kernel

/-- No lens 5 is declared; the origin of lens 1 is core 1. -/
theorem witness_LensCommandsComplete_elsewhere :
    fused2.namedLens ⟨9, 8, 7, 0, 0, 5⟩ = none ∧ (fused2.namedLens ⟨9, 8, 7, 0, 0, 1⟩ = some (64 * 0 + 1, 1, 0, 1, 1) ∧
      fused2.cur.core ≠ coreAt 1 0) ∧ fused2.me.h = false ∧
    ((fused2.me.gr 8).toNat % 16 = 0 ∧ rangeFault (giving held5) 0 16 = none ∧ (8 : Word).toNat % 16 ≠ 0) := by decide +kernel

def fusing0 : Lens := { lens0 with st := .fusing }

theorem witness_FuseAndCtabEnd :
    (((lensed fusing0 lens1 Core.reset runs).lens 0).st = .fusing ∧ ((lensed fusing0 lens1 Core.reset runs).lens 0).queue = [] ∧
      ((lensed fusing0 lens1 Core.reset runs).fuseResult 0).2 = 0) ∧
    ((lensed { fusing0 with w := 0 } lens1 Core.reset runs).geomOk { fusing0 with w := 0 } = false) ∧
    ((lensed fusing0 { lens1 with ox := 0 } Core.reset runs).geomOk fusing0 = true ∧
      (lensed fusing0 { lens1 with ox := 0 } Core.reset runs).facetTaken 0 fusing0 = true) ∧
    (({ lens0 with ctabs := [⟨3, false, 0, 0, 63, 1535, 15, 0⟩] } : Lens).ctabs = [⟨3, false, 0, 0, 63, 1535, 15, 0⟩]) := by decide +kernel

/-- The descriptor of an input AG on edge W with one lane and counts of 1, at window address 0. -/
def agMem : List Host.Cell :=
  [(bankKey 5 8, 1), (bankKey 5 10, 1), (bankKey 5 12, 1), (bankKey 5 30, 1)]

/-- The bytes of a core's entry 0. -/
def withBank0 (m : List Host.Cell) (x : Core) (sl : Slot) : State :=
  { lensed lens0 lens1 { x with bmap := [(0, held5)] } sl with mem := m }

def agIn : AgDesc := BitVec.ofNat 512 (2 ^ (64 + 32) + 2 ^ (64 + 16) + 2 ^ 64 + 2 ^ (192 + 48))

def agCore (g : AG) : Core := { Core.reset with ags := [(0, g)] }

theorem witness_AgCommandsComplete :
    ((withBank0 agMem Core.reset runs).me.guard hdr0 = true ∧ (withBank0 agMem Core.reset runs).me.h = false ∧ (8 : Word).toNat % 64 ≠ 0 ∧
      rangeFault (withBank0 agMem Core.reset runs).myCore 0x40000 64 = some (0x0A, 0x40000, detachInfo 0x40000 0 0 0) ∧
      rangeFault (withBank0 agMem Core.reset runs).myCore 0 64 = none ∧
      ((withBank0 agMem Core.reset runs).myCore.ag 0).active = false ∧ (withBank0 agMem Core.reset runs).me.accs = [] ∧
      (withBank0 agMem Core.reset runs).hasErr ((withBank0 agMem Core.reset runs).myCore.winKey 0) 64 = false) ∧
    AgDesc.ok (BitVec.ofNat 512 (leNat ((withBank0 agMem Core.reset runs).winBytes 0 0 64))) = true ∧
    AgDesc.ok (BitVec.ofNat 512 (leNat ((withBank0 [] Core.reset runs).winBytes 0 0 64))) = false ∧ agIn.space ≠ .va ∧
    ((withBank0 agMem (agCore { AG.reset with st := .run }) runs).myCore.ag 0).active = true ∧
    ((withBank0 [] (agCore { AG.reset with st := .loaded, desc := agIn }) runs).aggoStatus 0 [0] = 0 ∧
      (withBank0 [] (agCore { AG.reset with st := .bad }) runs).aggoStatus 0 [0] = 6 ∧
      (withBank0 [] (agCore { AG.reset with st := .run, desc := agIn }) runs).aggoStatus 0 [0] = 5 ∧
      (onCore0 (agCore { AG.reset with st := .loaded, desc := agIn }) runs).sideLens 0 agIn.edge = none) := by decide +kernel

def routed (ch : Channel) (l : Lens) : State := { lensed l lens1 Core.reset runs with chans := [(chanKey 0 0, ch)] }

theorem witness_ChannelAndMapCommandsComplete :
    (fused2.me.guard hdr0 = true ∧ fused2.myCore.task = some 0 ∧ fused2.routeOf 0 4095 = none ∧
      fused2.routeOf 0 0 = some ⟨some ⟨0, 3, 0, 0⟩, [⟨1, 0, 0, 0⟩]⟩ ∧ fused2.routeOf 0 1 = some ⟨none, [⟨5, 0, 0, 0⟩]⟩ ∧
      fused2.holdsEnd 0 0 ⟨none, [⟨5, 0, 0, 0⟩]⟩ = false ∧ fused2.holdsEnd 0 0 ⟨some ⟨0, 3, 0, 0⟩, [⟨1, 0, 0, 0⟩]⟩ = true) ∧
    ((routed Channel.reset Lens.reset).holdsEnd 0 0 ⟨some ⟨0, 3, 0, 0⟩, [⟨1, 0, 0, 0⟩]⟩ = true ∧
      (routed Channel.reset Lens.reset).routeFused 0 ⟨some ⟨0, 3, 0, 0⟩, [⟨1, 0, 0, 0⟩]⟩ = false) ∧
    (fused2.bindStatus 0 0 0 = 0 ∧ ((routed ⟨.bound, [], []⟩ lens0).chan (chanKey 0 0)).st = .bound ∧ (fused2.chan (chanKey 0 0)).st = .unbound) ∧
    ((routed ⟨.binding, [], []⟩ lens0).chan (chanKey 0 0)).st = .binding ∧
    ((routed ⟨.unbinding, [], []⟩ lens0).chan (chanKey 0 0)).st = .unbinding ∧ ((routed ⟨.unbinding, [], []⟩ lens0).chan (chanKey 0 0)).fly = [] ∧
    ((routed ⟨.unbinding, [], [⟨5, 0, 0, Token.idle⟩]⟩ lens0).chan (chanKey 0 0)).fly ≠ [] ∧
    (bits (0x1F17 : Word) 0 8 ≤ 23 ∧ bits (0x1F17 : Word) 8 8 ≤ 31 ∧ bits (0x1F17 : Word) 16 48 = 0) ∧
    ¬(bits (0x18 : Word) 0 8 ≤ 23 ∧ bits (0x18 : Word) 8 8 ≤ 31 ∧ bits (0x18 : Word) 16 48 = 0) := by decide +kernel

/-- EPOP.s32 from the west side, of 64 live lanes. -/
def popV : FmtV := ⟨3, 0, 0, 0, 0, 0, 3, 8, 0, 8, 0⟩

def token1 : Token := ⟨false, 8, 1⟩

def fullLane : Lane := { Lane.reset with fifo := List.replicate 31 Token.idle, inFlight := 1 }

theorem witness_EdgePopsAndPushes :
    (VectorReady fused2 hdr0 ∧ fused2.me.h = false) ∧ (with0 runs).prismSide 0 false = none ∧ (with0 runs).prismSide 0 true = none ∧
    fused2.prismSide 0 false = some (0, 64) ∧ fused2.prismSide 0 true = some (0, 64) ∧ fused2.popFault 0 = none ∧
    (popValue fused2.me 8 0 token1).2 = 0 ∧
    ((lensed lens0 lens1 { Core.reset with lanes := [(63, fullLane)] } runs).prismSide 0 false = some (0, 64) ∧
      32 ≤ ((lensed lens0 lens1 { Core.reset with lanes := [(63, fullLane)] } runs).myCore.lane 0 63).fifo.length +
        ((lensed lens0 lens1 { Core.reset with lanes := [(63, fullLane)] } runs).myCore.lane 0 63).inFlight) ∧
    (∀ k, k < 64 → (fused2.myCore.lane 0 k).fifo.length + (fused2.myCore.lane 0 k).inFlight < 32 ∧ (pushToken fused2.me popV k).2 = 0) ∧
    ((flying (.push 3 [(63, token1)])).slot ⟨0, 0⟩).flights = ⟨0, 10, 0, [.push 3 [(63, token1)]]⟩ :: [] := by
  unfold VectorReady
  decide +kernel

/-- A wave token at cell (0, 0), whose entry has operation op. -/
def waved (op : Nat) (c : Cell) : State :=
  let l : Lens :=
    { lens0 with
      table := [(entryKey 0 0 0, BitVec.ofNat 40 (op * 2 ^ 35))]
      waves := [⟨1000, 1000, 0, false, false, 0, 0, 0⟩]
      cells := [(cellKey 0 0, c)] }
  lensed l lens1 Core.reset runs

theorem witness_CellOperations :
    (((waved 15 Cell.reset).lens 0).waveAt 0 0 = some ⟨1000, 1000, 0, false, false, 0, 0, 0⟩ ∧ ((waved 15 Cell.reset).lens 0).rows = 64 ∧
      ((waved 15 Cell.reset).lens 0).cols = 64 ∧ ((waved 15 Cell.reset).lens 0).runs (((waved 15 Cell.reset).lens 0).cellCore 0 0) = true ∧
      ((waved 15 Cell.reset).lens 0).parity = []) ∧
    (∀ op, op < 16 → CtlWord.op (((waved op Cell.reset).lens 0).entry 0 0 0) = op) ∧
    ((((waved 7 Cell.reset).lens 0).cell 0 0).begin false false).pq = false ∧
    ((((waved 7 { Cell.reset with pq := true }).lens 0).cell 0 0).begin false false).pq = true := by decide +kernel

/-- A row of a kind, its other bits given. -/
def rowOf (kind rest : Nat) : BitVec 128 := BitVec.ofNat 128 (kind * 2 ^ 124 + rest)

/-- A lens that runs the row of a list at index 3. -/
def running (r : BitVec 128) (loops : List (Nat × Nat × Nat)) : Lens :=
  { lens0 with st := .run, seq := { Sequencer.reset with active := true, row := 3, cur := r, loops := loops } }

def inv0 : Invocation := ⟨3, 0, 999, none, 1, true, [], [], []⟩

def state3 (l : Lens) : State := lensed l lens1 Core.reset runs

def nodes64 : List (Nat × Node) := (List.range 64).map fun n => (n, { Node.reset with st := .done })

theorem witness_TileStepListsRun_lgo :
    ((withBank0 [] Core.reset runs).me.guard hdr0 = true ∧ ((withBank0 [] Core.reset runs).me.gr 8).toNat % 16 = 0 ∧
      rangeFault (withBank0 [] Core.reset runs).myCore 0 16 = none ∧ (withBank0 [] Core.reset runs).namedLens (fmtA 0) = some (0, 0, 0, 1, 1) ∧
      (withBank0 [] Core.reset runs).cur.core = coreAt 0 0) ∧
    ((withBank0 [] { Core.reset with nodes := nodes64 } runs).me.h = false ∧
      (withBank0 [] { Core.reset with nodes := nodes64 } runs).myCore.freeNode = none) ∧
    (withBank0 [] Core.reset runs).myCore.freeNode = some 0 ∧
    (({ lens0 with queue := [⟨0, 0, 0⟩] } : Lens).queue = [⟨0, 0, 0⟩] ∧ lens0.seq.active = false ∧ lens0.freezing = false ∧ lens0.st = .idle ∧
      Lens.reset.st = .unfused) := by decide +kernel

/-- STEP, LOOP back to 2 of 3, to 3 and out of order, WAITG, SIGNAL, END and SYNC. -/
theorem witness_TileStepListsRun_rows :
    (let l := { running (rowOf 0 0) [] with open_ := [inv0] };
      l.ready = true ∧ l.badRow = false ∧ Row.kind l.seq.cur = 0 ∧ Row.fence l.seq.cur = false ∧
      (((state3 l).startRow 0).countRow 0).starved 0 (Row.phase l.seq.cur l.seq.ofs) = none) ∧
    (let l := running (rowOf 0 1) [];
      l.ready = true ∧ l.seq.bad = 0 ∧ Row.ok l.seq.cur = false) ∧
    65535 < ({ running (rowOf 0 0) [] with seq := { Sequencer.reset with row := 65536 } } : Lens).seq.row ∧
    (let l := running (rowOf 1 (2 * 2 ^ 100)) [(3, 2, 1)];
      l.ready = true ∧ l.badRow = false ∧ Row.kind l.seq.cur = 1 ∧ Row.tgt l.seq.cur < l.seq.row) ∧
    (let l := running (rowOf 1 (2 * 2 ^ 100)) [(4, 2, 1), (5, 0, 1)];
      l.seq.row < 4 ∧ 2 ≤ Row.tgt l.seq.cur ∧ l.seq.loops.length < 4 ∧ (4 : Nat) ≠ l.seq.row ∧ (2 : Nat) ≤ l.seq.row) ∧
    (let l := running (rowOf 1 (3 * 2 ^ 100)) [];
      l.ready = true ∧ l.badRow = false ∧ l.seq.row ≤ Row.tgt l.seq.cur) ∧
    (let l := running (rowOf 2 0) [];
      l.ready = true ∧ l.badRow = false ∧ Row.kind l.seq.cur = 2 ∧ (((state3 l).core l.origin).node 0).st = .free) ∧
    (let l := running (rowOf 3 0) [];
      l.ready = true ∧ l.badRow = false ∧ Row.kind l.seq.cur = 3 ∧ Row.fence l.seq.cur = false) ∧
    (let l := running (rowOf 4 0) [];
      l.ready = true ∧ l.badRow = false ∧ Row.kind l.seq.cur = 4) ∧
    (let l := running (rowOf 5 0) [];
      l.ready = true ∧ l.badRow = false ∧ Row.kind l.seq.cur = 5 ∧ (state3 l).synced l = true) ∧
    (let l := running (rowOf 5 1) [];
      l.ready = true ∧ l.badRow = false ∧ (state3 l).synced l = false) := by decide +kernel

theorem witness_TileStepListsRun_ends :
    (let l := { running (rowOf 5 0) [] with seq := { Sequencer.reset with active := true, paused := true, cur := rowOf 5 0 } };
      l.seq.active = true ∧ l.seq.paused = true ∧ l.seq.ended = false ∧ l.freezing = false ∧ (state3 l).synced l = true) ∧
    (let l := { running (rowOf 0 0) [] with seq := { Sequencer.reset with active := true, fresh := false, budget := 1, cur := rowOf 0 (2 ^ 32) } };
      l.overBudget = true ∧ l.freezing = false) ∧
    (let l := { running (rowOf 4 0) [] with seq := { Sequencer.reset with active := true, ended := true, node := 5 } };
      (state3 l).listOver 0 = true ∧ (((state3 l).core l.origin).node l.seq.node).killed = false ∧ l.seq.stop = .none ∧ l.queue = []) := by
  decide +kernel

/-- A PASS entry of phase 0 at cell (0, 0) that takes a token from the west; the wave token reaches it at A-cycle 1000. -/
def takingLens : Lens :=
  { lens0 with
    table := [(entryKey 0 0 0, BitVec.ofNat 40 (1 * 2 ^ 35))]
    waves := [⟨1000, 1000, 0, false, false, 0, 0, 0⟩] }

def presenting : State := lensed takingLens lens1 { Core.reset with lanes := [(0, { Lane.reset with fifo := [token1] })] } runs

theorem witness_LensAgentsAct_lanes :
    (presenting.presents takingLens 0 0 = some ⟨1000, 1000, 0, false, false, 0, 0, 0⟩ ∧ 0 < takingLens.lanesOn 0 ∧ takingLens.laneAt 0 0 = (0, 0) ∧
      (presenting.core 0 |>.lane 0 0).fifo = token1 :: [] ∧ token1.hdr = false ∧ token1.ft ≠ 9 ∧ (presenting.core 0 |>.lane 0 0).att = .prism) ∧
    ({ lens0 with st := .edgeWait } : Lens).st = .edgeWait ∧ ({ Core.reset with gates := 1 } : Core).gates.getLsbD 0 = true := by decide +kernel

def forwarding : State :=
  { lensed lens0 lens1 { Core.reset with lanes := [(192, { Lane.reset with fifo := [token1], att := .chan (chanKey 0 0) })] } runs with
    chans := [(chanKey 0 0, ⟨.bound, [], []⟩)] }

theorem witness_LensAgentsAct_channel :
    forwarding.routeOf 0 0 = some ⟨some ⟨0, 3, 0, 0⟩, [⟨1, 0, 0, 0⟩]⟩ ∧ forwarding.mayForward 0 0 0 = true ∧
      forwarding.rangeLane 0 ⟨0, 3, 0, 0⟩ 0 = (0, 3, 0) ∧ (forwarding.core 0 |>.lane 3 0).fifo = token1 :: [] ∧
      (forwarding.chan (chanKey 0 0)).fly = [] ∧ 0 < forwarding.rangeLatency 0 ⟨0, 3, 0, 0⟩ ⟨1, 0, 0, 0⟩ := by decide +kernel

def event0E : RegionEvent := ⟨0x0E, 0, 500, (3, 0, 0), none, 0, 0, 0, 0, 0, 0, 0, 0, 0⟩

theorem witness_LensAgentsAct_freeze :
    (let l := { lens0 with open_ := [{ inv0 with last := some 500 }] };
      l.endedBy { inv0 with last := some 500 } l.endLimit = true ∧ (state3 l).outAgs 0 = []) ∧
    (firstEvent [event0E] = some event0E ∧ lens0.freezing = false ∧ lens0.fused = true) ∧
    (let l := { lens0 with kept := some event0E, freezing := true };
      event0E.fcyc + l.skMax event0E < l.acyc ∧ l.queue = []) := by decide +kernel

/-! ### Witnesses: messages, notifies, barriers -/

def fmtS : FmtA := ⟨9, 8, 7, 6, 0, 0⟩

/-- A slot that sends eight bytes at `src` to name 0, with the core's entry 15 valid and name 0 cached as core 1, unmapped
without bit 63. -/
def sending (src len entry : Word) (q : List Msg) : State :=
  onCore0 { Core.reset with bmap := [(15, bmMake true false false 0 5 1)], ncache := [(0, entry)], sendq := q }
    { runs with g := [(6, len), (7, src)] }

def msg1 : Msg := ⟨0, 0, false, 0, 0, 3, 0, [1], 0, 0, 0, 0, none⟩

theorem witness_MessagesComplete_send :
    (let s := sending 0x3C0000 8 0x8000000000000001 [];
      s.me.guard hdr0 = true ∧ s.me.accs = [] ∧ s.resolveReg (s.me.gr fmtS.ra) 16 = .hit 1 ∧
        (0x3C0000 : Word).toNat % 8 = 0 ∧ rangeFault s.myCore (s.me.gr fmtS.rb) (s.me.gr fmtS.rc).toNat = none ∧
        s.myCore.sendq.length < 16 ∧ rangeFault s.myCore 0x3C0000 256 = none) ∧
    16 ≤ (sending 0x3C0000 8 0 (List.replicate 16 msg1)).myCore.sendq.length ∧
    (let s := sending 0x3C0000 8 1 [];
      s.me.h = false ∧ (s.resolveReg (s.me.gr fmtS.ra) 16).fault ≠ none) ∧
    (sending 0 0 0 []).me.gr fmtS.rc = 0 ∧ 256 < ((sending 0 264 0 []).me.gr fmtS.rc).toNat ∧
    ((sending 4 8 0 []).me.gr fmtS.rb).toNat % 8 ≠ 0 ∧ rangeFault (sending 0 8 0 []).myCore 0 8 ≠ none := by decide

def recv1 (placed : Bool) (first last : Word) : Recv := ⟨0, 0x3C0000, 8, placed, first, last, 2⟩

/-- A core whose channel 0 is as given, with the message 1 from core 1 about to arrive. -/
def receiving (ch : RecvChan) (valid : Bool) (n : Nat) : State :=
  { onCore0 { Core.reset with bmap := [(15, bmMake valid false false 0 5 1)], recv := [(0, ch)] } runs with
    now := 100
    packets := [⟨7, 1, 0, 0, 0, 0, 0, .message 0 (List.replicate n 1) 0 5, false, false⟩] }

def receiveRow : FmtA := ⟨0, 8, 7, 0, 0, BitVec.ofNat 20 (40 * 256 + 6)⟩

theorem witness_MessagesComplete_receive :
    (let s := onCore0 { Core.reset with bmap := [(15, bmMake true false false 0 5 1)] } (regs 0x3C0000 8);
      s.me.guard hdr0 = true ∧ (s.myCore.recvChan 0).armed = none ∧ (s.me.gr 8).toNat % 8 = 0 ∧ (s.me.gr 7).toNat = 8 ∧
        rangeFault s.myCore (s.me.gr 8) (s.me.gr 7).toNat = none ∧ (s.cycle 0).toNat ≤
          (s.myCore.syncref + BitVec.ofNat 64 (bits receiveRow.imm 8 12) + BitVec.ofNat 64 (bits receiveRow.imm 0 8)).toNat) ∧
    (let s := receiving ⟨some (recv1 true 40 46), 0, false⟩ true 8;
      s.me.h = false ∧ (s.myCore.recvChan 0).armed ≠ none) ∧
    (let s := receiving RecvChan.reset true 8;
      s.me.h = false ∧ (s.myCore.recvChan 0).armed = none ∧
        (s.myCore.syncref + BitVec.ofNat 64 (bits receiveRow.imm 8 12) + BitVec.ofNat 64 (bits receiveRow.imm 0 8)).toNat <
          (s.cycle 0).toNat) := by decide

theorem witness_MessagesComplete_leave :
    (let s := sending 0 8 0x8000000000000001 [msg1];
      (s.core 0).sendq = msg1 :: [] ∧ s.resolve 0 msg1.name = .hit 1 ∧ msg1.isNotify = false) ∧
    (let s := sending 0 8 1 [msg1];
      (s.slot ⟨0, msg1.slot⟩).life ≠ .unbound ∧ ∃ r cut, s.resolve 0 msg1.name = .unmapped r cut) :=
  ⟨by decide, by decide, _, _, rfl⟩

theorem witness_MessagesComplete_arrive :
    (let s := receiving ⟨some (recv1 true 40 146), 0, false⟩ true 8;
      s.packets = [⟨7, 1, 0, 0, 0, 0, 0, .message 0 (List.replicate 8 1) 0 5, false, false⟩] ∧ (0 : BitVec 16) = Tab.at (s.core 0).seqFrom 1 0 ∧
        (s.core 0).reorder = [] ∧ ((s.core 0).recvChan 0).armed = some (recv1 true 40 146) ∧
        bmV ((s.core 0).bm (eaEntry 0x3C0000)) = true ∧ (40 : Word).toNat ≤ (s.cycle 0).toNat ∧ (s.slot ⟨0, 0⟩).wait = none ∧
        (s.slot ⟨0, 0⟩).flights = [] ∧ (s.slot ⟨0, 0⟩).life ≠ .unbound ∧ (s.cycle 0).toNat < (101 : Word).toNat) ∧
    bmV (((receiving RecvChan.reset false 8).core 0).bm (eaEntry 0x3C0000)) = false ∧
    (((receiving ⟨none, 0, true⟩ true 8).core 0).recvChan 0 = ⟨none, 0, true⟩ ∧
      ((receiving ⟨none, 0, false⟩ true 8).core 0).recvChan 0 = ⟨none, 0, false⟩) ∧
    (let s := receiving ⟨some (recv1 true 40 99), 0, false⟩ true 8;
      (99 : Word).toNat < (s.cycle 0).toNat ∧ (s.cycle 0).toNat ≤ (100 : Word).toNat) := by decide

theorem witness_NotifiesComplete :
    (let s := onCore0 { Core.reset with ncache := [(0, 0x8000000000000000)] } (regs 0 1);
      s.me.guard hdr0 = true ∧ s.me.accs = [] ∧ s.resolveReg (s.me.gr 8) 19 = .hit s.cur.core ∧
        (s.me.gr 7).setWidth 16 ≠ (0 : BitVec 16)) ∧
    (let s := onCore0 { Core.reset with ncache := [(0, 0x8000000000000001)] } (regs 0 0);
      s.resolveReg (s.me.gr 8) 19 = .hit 1 ∧ (s.me.gr 7).setWidth 16 = (0 : BitVec 16) ∧ s.resolveReg 0 16 ≠ .miss) ∧
    (let s := onCore0 { Core.reset with ncache := [(0, 1)] } (regs 0 1);
      s.me.h = false ∧ (s.resolveReg (s.me.gr 8) 19).fault ≠ none) ∧
    (let s := with0 (regs 0 1);
      s.resolveReg (s.me.gr 8) 19 = .miss ∧ s.resolveReg (s.me.gr 8) 16 = .miss ∧
        (s.resolveReg (s.me.gr 8) 19).fault = none ∧ s.resolveReg (s.me.gr 8) 19 ≠ .hit s.cur.core) ∧
    (let s := onCore0 Core.reset { runs with wait := some (.waitn true 3 5), notify := 1 };
      (s.slot ⟨0, 0⟩).flights = [] ∧ (s.slot ⟨0, 0⟩).wait = some (.waitn true 3 5) ∧
        ((s.slot ⟨0, 0⟩).notify ||| 2) &&& 3 = 3 ∧ ((s.slot ⟨0, 0⟩).notify ||| 4) &&& 3 ≠ 3) ∧
    (with0 { runs with notify := 1 }).me.notify &&& 3 ≠ 0 ∧
    (let s := onCore0 { Core.reset with walks := [0] } runs;
      0 ∈ (s.core 0).walks ∧ (s.core 0).sendq = [] ∧ (s.core 0).gives = [] ∧ s.packets = []) := by decide

theorem onCore0_slot (x : Core) (sl : Slot) (k : Nat) :
    ((onCore0 x sl).slot ⟨0, k⟩) = if k = 0 then sl else Slot.reset := by
  cases k <;> rfl

theorem witness_NotifiesComplete_walk :
    let s := onCore0 { Core.reset with walks := [0] } runs
    ∀ k, (s.slot ⟨0, k⟩).accs = [] ∧ ∀ st, (s.slot ⟨0, k⟩).gate ≠ .stalled st := by
  intro s k
  simp only [s, onCore0_slot]
  split <;> exact ⟨rfl, fun st h => by cases h⟩

def taskOf (r : BindRec) : Tab Task := [(0, { Task.none with st := .running, rec_ := r })]

/-- A core of a running task that is alone in its frame. -/
def lone (x : Core) : State :=
  { onCore0 { x with task := some 0 } runs with fe := { FrontEnd.reset with tasks := taskOf BindRec.none } }

theorem witness_BarriersAndHeartbeats :
    ((with0 runs).me.guard hdr0 = true ∧ (with0 runs).me.accs = [] ∧ (with0 runs).myCore.latch.getLsbD 1 = false ∧
      (onCore0 { Core.reset with latch := 2 } runs).myCore.latch.getLsbD 1 = true) ∧
    (let s := lone { Core.reset with latch := 2 };
      (s.core 0).arrived 1 = true ∧ s.manyDies 0 1 = false ∧ (s.core 0).task ≠ none ∧
        s.groupDone 1 (groupCores (s.recOf 0) 1 0) = true) ∧
    (lone Core.reset |>.core 0).arrived 1 = false ∧
    ((with0 { runs with gate := .stalled ⟨none, [], [], .device (some 0)⟩ }).slot ⟨0, 0⟩).gate =
      .stalled ⟨none, [], [], .device (some 0)⟩ := by decide

/-! ### Witnesses: the graph unit -/

/-- A core whose window address 0 holds the bytes of a descriptor; the node `n` and others as given. -/
def described (m : List Host.Cell) (nodes : Tab Node) (sl : Slot) : State :=
  { onCore0 { Core.reset with bmap := [(0, held5)], nodes := nodes } sl with mem := m }

/-- A WAKE node with the PRED of byte 1; a transfer of one word, and of groups to a format. -/
def wakeDesc (pred : BitVec 8) : List Host.Cell := memWriteAll [] (bankKey 5 0) [6, pred]

def copyDesc (n ft : BitVec 8) : List Host.Cell :=
  memWriteAll [] (bankKey 5 0) (List.replicate 16 0 ++ [n, 0, 0, 0, 1, 0, 1] ++ List.replicate 17 0 ++ [ft])

def descAt (s : State) : NodeDesc := BitVec.ofNat 256 (leNat (s.winBytes 0 0 32))

def copyAt (s : State) : Transfer := BitVec.ofNat 512 (leNat (s.winBytes 0 0 64))

theorem witness_GraphInstructionsComplete_arm :
    (let s := described (wakeDesc 2) [] runs;
      s.me.guard hdr0 = true ∧ s.me.accs = [] ∧ (s.me.gr 8).toNat % 32 = 0 ∧ rangeFault s.myCore (s.me.gr 8) 32 = none ∧
        s.myCore.freeNode = some 0 ∧ s.hasErr (s.myCore.winKey (s.me.gr 8)) 32 = false ∧ (descAt s).defect s.myCore = none ∧
        bits ((descAt s).dw 0) 8 8 = 2) ∧
    (let s := described (wakeDesc 0) [] runs;
      (descAt s).defect s.myCore = none ∧ bits ((descAt s).dw 0) 8 8 = 0) ∧
    (descAt (described [] [] runs)).defect Core.reset = some 0 ∧
    (let s := described (copyDesc 1 0xFF) [] runs;
      rangeFault s.myCore (s.me.gr 8) 72 = none ∧ s.hasErr (s.myCore.winKey (s.me.gr 8)) 64 = false ∧ (copyAt s).defect 1 = none) ∧
    (copyAt (described [] [] runs)).defect 1 = some 2 ∧
    ((copyAt (described (copyDesc 32 0x90) [] runs)).defect 2 = none ∧ (copyAt (described (copyDesc 32 0x90) [] runs)).dft = 9) ∧
    ((copyAt (described (copyDesc 32 0x50) [] runs)).defect 2 = none ∧ (copyAt (described (copyDesc 32 0x50) [] runs)).dft = 5) ∧
    ((with0 (regs 8 0)).me.h = false ∧ ((with0 (regs 8 0)).me.gr 8).toNat % 32 ≠ 0 ∧ ((with0 (regs 8 0)).me.gr 8).toNat % 64 ≠ 0) ∧
    (described [] nodes64 runs).myCore.freeNode = none := by decide +kernel

def nodeIn (st : NodeSt) : Node := { Node.reset with st := st, kind := 6 }

/-- The nodes 8 and 7 by the registers G(8) and G(7), in the given states. -/
def edges (a b : Node) : State := described [] [(7, b), (8, a)] (regs 8 7)

theorem witness_GraphInstructionsComplete_edges :
    ((edges (nodeIn .armed) (nodeIn .armed)).me.guard hdr0 = true ∧ (edges (nodeIn .armed) (nodeIn .armed)).me.h = false ∧
      64 ≤ ((with0 (regs 64 0)).me.gr 8).toNat ∧ 64 ≤ ((with0 (regs 0 64)).me.gr 7).toNat ∧
      ((with0 (regs 63 63)).me.gr 8).toNat < 64 ∧ ((with0 (regs 63 63)).me.gr 7).toNat < 64) ∧
    (let x := (edges (nodeIn .armed) (nodeIn .running)).myCore;
      (x.node 8).st = .armed ∧ (x.node 7).st = .running ∧ (x.node 8).succ.length < 4 ∧ (x.node 7).st ≠ .armed ∧
        (x.node 7).ending = false ∧ ((x.node 7).kind = 6 ∨ (x.node 7).kind = 7)) ∧
    (let x := (edges { nodeIn .running with succ := [1, 2, 3, 4] } (nodeIn .armed)).myCore;
      4 ≤ (x.node 8).succ.length ∧ (x.node 7).st = .armed ∧ (x.node 7).ending = false) ∧
    (let x := (edges (nodeIn .done) { nodeIn .free with freedBy := some 0 }).myCore;
      (x.node 8).st = .done ∧ (x.node 8).status = 0 ∧ (x.node 7).st = .free ∧ (x.node 7).freedBy = some 0 ∧ (x.node 6).freedBy = none) ∧
    ({ nodeIn .done with status := 0xF5 } : Node).status ≠ 0 ∧
    (∀ k, k < 64 → (((described [] [] runs).myCore.node k).owner = (described [] [] runs).cur.slot) →
      ((described [] [] runs).myCore.node k).st = .free) ∧
    (8 < 64 ∧ ((edges (nodeIn .armed) (nodeIn .done)).myCore.node 8).owner = (edges (nodeIn .armed) (nodeIn .done)).cur.slot ∧
      ((edges (nodeIn .armed) (nodeIn .done)).myCore.node 8).st = .armed) := by decide +kernel

def finOf (status : BitVec 8) (ntv : Option (Nat × Nat)) (succ : List Nat) : NodeFin := ⟨8, 0, status, 0, ntv, succ, none⟩

def finishing (f : NodeFin) (a b : Node) : State :=
  onCore0 { Core.reset with fins := [f], nodes := [(7, b), (8, a)] }
    { runs with
      life := if f.succ = [] then .waiting else .running
      wait := if f.succ = [] then some (.gwait [8] [] none) else none }

/-- A node that ends, with and without a completion object in a valid entry; served successors. -/
theorem witness_GraphWorkCompletes_completion :
    (let s := described [] [(8, { nodeIn .running with ending := true, comp := 8 })] runs;
      ((s.core 0).node 8).ending = true ∧ ((s.core 0).node 8).endAt ≤ s.now ∧ ((s.core 0).node 8).st = .running ∧ (s.core 0).fins = [] ∧
        bmV ((s.core 0).bm (eaEntry 8)) = true ∧ bmPend ((s.core 0).bm (eaEntry 8)) = false ∧ bmWp ((s.core 0).bm (eaEntry 8)) = false) ∧
    bmV ((described [] [] runs).myCore.bm (eaEntry 0x40000)) = false ∧
    (let s := finishing (finOf 0 none [7]) (nodeIn .done) (nodeIn .armed);
      (s.core 0).fins = [finOf 0 none [7]] ∧ ((s.core 0).node 8).ending = false ∧ ((s.core 0).node 7).st = .armed ∧
        ((s.core 0).node 7).ending = false ∧ (s.slot ⟨0, 0⟩).wait = none ∧ (s.slot ⟨0, 0⟩).flights = []) ∧
    (let s := finishing (finOf 0 none []) (nodeIn .done) (nodeIn .armed);
      (s.slot ⟨0, 0⟩).wait = some (.gwait [8] [] none) ∧ (s.slot ⟨0, 0⟩).life = .waiting ∧ ((s.core 0).node 8).st = .done) := by
  decide +kernel

theorem witness_GraphWorkCompletes_waits :
    (∀ k, ((finishing (finOf 0 none [7]) (nodeIn .done) (nodeIn .armed)).slot ⟨0, k⟩).wait = none) ∧
    ∀ j, j ≠ 0 → ((finishing (finOf 0 none []) (nodeIn .done) (nodeIn .armed)).slot ⟨0, j⟩).wait = none := by
  constructor <;> intro k
  · simp only [finishing, onCore0_slot]; split <;> rfl
  · intro h; simp only [finishing, onCore0_slot, h, if_false]; rfl

/-- A FILL or a copy of the bits of one word, to window address 4, on channel 0; destinations in the empty entry. -/
def wordMove (ft : Nat) : Transfer := BitVec.ofNat 512 (4 * 2 ^ 64 + 2 ^ 128 + 2 ^ 160 + 2 ^ 176 + ft * 2 ^ 320)

def engaged (kind : BitVec 8) (killed : Bool) : State :=
  let nd : Node := { nodeIn .running with kind := kind, killed := killed, td := some (wordMove 0xFF) }
  onCore0 { Core.reset with bmap := [(0, held5)], eng0 := [8], nodes := [(8, nd)] } runs

theorem witness_GraphWorkCompletes_transfer :
    (wordMove 0xFF).cnt0 = 1 ∧ (wordMove 0xFF).cnt1 = 1 ∧ (wordMove 0xFF).cnt2 = 1 ∧ (wordMove 0xFF).sft = 15 ∧ (wordMove 0xFF).dft = 15 ∧
      (wordMove 0xFF).dsp = .loc ∧ (wordMove 0xFF).ssp = .loc ∧ (wordMove 0xFF).dw 0 = 0 ∧ (wordMove 0xFF).dw 1 = 4 := by decide +kernel

theorem witness_GraphWorkCompletes_engine :
    (let s := engaged 1 false;
      let nd := (s.core 0).node 8;
      (s.core 0).engine 0 = [8] ∧ nd.st = .running ∧ nd.ending = false ∧ nd.killed = false ∧ nd.needs = [] ∧ nd.walk = none ∧
        nd.td = some (wordMove 0xFF) ∧ nd.pos = 0 ∧ nd.keepAll = false ∧ s.memErr = [] ∧ nd.kind = 1 ∧
        s.mayOverlap 0 (wordMove 0xFF) = false ∧
        (∀ i, i < 4 → isLocal (4 + BitVec.ofNat 64 i) = true ∧
          entryRefuses ((s.core 0).bm (eaEntry (4 + BitVec.ofNat 64 i))) true = none ∧
          (s.core 0).winKey (4 + BitVec.ofNat 64 i) / 64 = (s.core 0).winKey 4 / 64 ∧ isLocal (BitVec.ofNat 64 i) = true ∧
          entryRefuses ((s.core 0).bm (eaEntry (BitVec.ofNat 64 i))) false = none)) ∧
    ((engaged 3 false).core 0 |>.node 8).kind = 3 ∧ ((engaged 3 true).core 0 |>.node 8).killed = true := by decide +kernel

/-- A node in the queue of the graph unit, whose name 0 is core 0 or core 1. -/
def unitQueue (kind : BitVec 8) (entry : Word) : State :=
  let nd : Node := { nodeIn .running with kind := kind, arg0 := 0x300000000 }
  onCore0 { Core.reset with guq := [8], nodes := [(8, nd)], ncache := [(0, entry)] } runs

theorem witness_GraphWorkCompletes_unit :
    (let s := unitQueue 6 0x8000000000000000;
      let nd := (s.core 0).node 8;
      (s.core 0).guq = [8] ∧ nd.st = .running ∧ nd.ending = false ∧ nd.needs = [] ∧ nd.killed = false ∧ nd.kind = 6 ∧
        s.resolve 0 (nd.arg0.setWidth 16) = .hit 0 ∧ nd.arg0.extractLsb' 32 16 ≠ 0) ∧
    (let s := unitQueue 7 0x8000000000000001;
      ((s.core 0).node 8).kind = 7 ∧ s.resolve 0 (((s.core 0).node 8).arg0.setWidth 16) = .hit 1) ∧
    (let s := unitQueue 5 0x8000000000000001;
      ((s.core 0).node 8).kind = 5 ∧ (s.resolve 0 (((s.core 0).node 8).arg0.extractLsb' 16 16)).fault = none ∧
        bmV ((s.core 0).bm (bits ((s.core 0).node 8).arg0 0 4)) = false) := by decide +kernel

def releasing (performed : Bool) : State :=
  { onCore0 { Core.reset with nodes := [(8, { nodeIn .armed with pred := 1 })] } runs with
    packets := [⟨7, 1, 0, 0, 0, 0, 0, .release 8 3 true, performed, false⟩] }

theorem witness_GraphWorkCompletes_release :
    (let s := releasing false;
      s.packets = [⟨7, 1, 0, 0, 0, 0, 0, .release 8 3 true, false, false⟩] ∧ (0 : BitVec 16) = Tab.at (s.core 0).seqFrom 1 0 ∧
        (s.core 0).reorder = [] ∧ ((s.core 0).node 8).st = .armed ∧ ((s.core 0).node 8).ending = false) ∧
    (releasing true).packets = [⟨7, 1, 0, 0, 0, 0, 0, .release 8 3 true, true, false⟩] := by decide +kernel

/-! ### Witnesses: slots, the mesh and translation -/

def deferring (life : Life) (fhen : Word) : Slot :=
  { runs with life := life, fhen := fhen, due := [⟨0, none, 0x3A, none, 8, 2, 0, none, false⟩], budgetDue := true }

theorem witness_SlotAndMeshEvents_slot :
    ((with0 (deferring .running (1 <<< 58))).slot ⟨0, 0⟩).due = ⟨0, none, 0x3A, none, 8, 2, 0, none, false⟩ :: [] ∧ (0x3A : BitVec 8) ≠ 0x39 ∧
      ((with0 (deferring .running (1 <<< 58))).slot ⟨0, 0⟩).life = .running ∧ ((with0 (deferring .running 0)).slot ⟨0, 0⟩).h = false ∧
      ((with0 (deferring .running (1 <<< 58))).slot ⟨0, 0⟩).fhen.getLsbD 0x3A = true ∧
      ((with0 (deferring .waiting 0)).slot ⟨0, 0⟩).fhen.getLsbD 0x3A = false ∧ ((with0 (deferring .halted 0)).slot ⟨0, 0⟩).life = .halted ∧
      ((with0 (deferring .running 64)).slot ⟨0, 0⟩).budgetDue = true ∧ ((with0 (deferring .running 64)).slot ⟨0, 0⟩).fhen.getLsbD 6 = true ∧
      (with0 runs |>.slot ⟨0, 0⟩).budgetDue = false := by decide

/-- An access to the name of core 1. -/
def access1 (kind : AccKind) (st : AccSt) : Access :=
  ⟨0, kind, 0x10000000000, true, 1, 8, false, 5, 0, 0, 9, none, 0, 0, 0, 3, 0, 0, 10, 0, 0, st, 7, false, []⟩

/-- Its packet on the way to core 1, whose entry 0 is as given. -/
def packet1 (a : Access) (performed : Bool) : Packet := ⟨7, 0, 1, 0, 3, 1, 0, .access a, performed, false⟩

def meshed (a b : Access) (performed : Bool) (entry : Word) : State :=
  { State.reset with
    cores := [(0, { Core.reset with slots := [(0, { runs with accs := [a], nextId := 1 })] }), (1, { Core.reset with bmap := [(0, entry)] })]
    packets := [packet1 b performed] }

def readOnly5 : Word := bmMake true false true 0 5 1

theorem witness_SlotAndMeshEvents_request :
    (let s := meshed (access1 .load .sent) (access1 .load .sent) false held5;
      s.packets = [packet1 (access1 .load .sent) false] ∧ (s.slot ⟨0, 0⟩).accs = [access1 .load .sent] ∧ (s.slot ⟨0, 0⟩).pends = [] ∧
        (s.slot ⟨0, 0⟩).gate = .fromTurn 0 ∧ (s.core 1).reorder = [] ∧ (s.core 1).gives = [] ∧ (0 : BitVec 16) = Tab.at (s.core 1).seqFrom 0 0 ∧
        bmV ((s.core 1).bm (eaEntry 0x10000000000)) = true ∧ bmWp ((s.core 1).bm (eaEntry 0x10000000000)) = false ∧
        s.hasErr ((s.core 1).winKey 0x10000000000) 8 = false ∧ s.cutOff 0 1 = false) ∧
    (bmV 0 = false ∧ bmV readOnly5 = true ∧ bmWp readOnly5 = true ∧ (access1 .store .sent).kind = .store ∧
      (access1 .load .sent).ended = false ∧ (access1 .load .sent).kind ≠ .store) ∧
    (let s := { meshed (access1 .load .sent) (access1 .load .sent) false held5 with fw := { Firmware.reset with deadRouters := [1] } };
      s.cutOff 0 1 = true ∧ (s.slot ⟨0, 0⟩).life ≠ .unbound) := by decide +kernel

theorem witness_SlotAndMeshEvents_answer :
    (let s := meshed (access1 .load .performed) (access1 .load .performed) true held5;
      s.packets = [packet1 (access1 .load .performed) true] ∧ (s.slot ⟨0, 0⟩).accs = [access1 .load .performed] ∧
        (s.slot ⟨0, 0⟩).pends = [] ∧ (s.slot ⟨0, 0⟩).gate = .fromTurn 0 ∧ (s.slot ⟨0, 0⟩).life ≠ .unbound ∧
        (access1 .load .performed).id = (access1 .load (.refused 5)).id) ∧
    (access1 .store .performed).kind = .store ∧ (access1 .load (.refused 5)).st = .refused 5 ∧
    ((onCore0 { Core.reset with issued := 1 } runs).core 0).done ≠ ((onCore0 { Core.reset with issued := 1 } runs).core 0).issued := by
  decide +kernel

theorem witness_SlotAndMeshEvents_gates :
    ∀ k st, ((onCore0 { Core.reset with issued := 1 } runs).slot ⟨0, k⟩).gate ≠ .stalled st := by
  intro k st; rw [onCore0_slot]; split <;> nofun

/-- Tables at pages 0, 1 and 2 that map page 0 to a page, by the PTE given. -/
def tables (w1 w2 w3 : Nat) : List Host.Cell :=
  memWriteAll (memWriteAll (memWriteAll [] (dpaKey 0) (leBytes 8 w1)) (dpaKey 0x10000) (leBytes 8 w2)) (dpaKey 0x20000) (leBytes 8 w3)

def mapped (w3 : Nat) (sp : Space) (x : Core) (ws : List Walk) : State :=
  { onCore0 x runs with
    mem := tables 0x10001 0x20001 w3
    fe := { FrontEnd.reset with spaces := [(0, sp)], walks := ws } }

def nodeWalk (write : Bool) : Walk := ⟨3, 0, 0, 0, write, .node 0 8⟩

def walking : Core := { Core.reset with nodes := [(8, { nodeIn .running with walk := some 0 })], ags := [(0, { AG.reset with walk := some 0 })] }

def leafOf (w : Word) : Leaf := ⟨0x20000, w, 16⟩

theorem witness_TranslationAndRetirement_walk :
    (let s := mapped 0x3000D Space.reset Core.reset [];
      s.pteAt (0 + 8 * bits (0 : Word) 40 12) = 0x10001 ∧ s.pteAt (s.fw.die * 2 ^ 46 + 65536 + 8 * bits (0 : Word) 28 12) = 0x20001 ∧
        s.pteAt (s.fw.die * 2 ^ 46 + 131072 + 8 * bits (0 : Word) 16 12) = 0x3000D) ∧
    ((0x10001 : Word).getLsbD 0 = true ∧ bits (0x10001 : Word) 52 6 = 0 ∧ bits (0x10001 : Word) 8 8 = 0 ∧ (0x10001 : Word).getLsbD 6 = false ∧
      bits (0x10001 : Word) 16 28 * 65536 < 384 * 2 ^ 30 ∧ (0x3000D : Word).getLsbD 0 = true ∧ bits (0x3000D : Word) 52 4 = 0 ∧ bits (0x3000D : Word) 8 8 = 0 ∧
      bits (0x3000D : Word) 56 2 ≠ 3) := by decide +kernel

theorem witness_TranslationAndRetirement_ends :
    (let s := mapped 0x3000D Space.reset walking [nodeWalk true];
      s.fe.walks = [nodeWalk true] ∧ (s.space 0).routine = 0 ∧ (((s.core 0).node 8).walk).isSome = true ∧ ((s.core 0).ag 0).walk.isSome = true ∧
        s.findLeaf (s.space 0).root.toNat 0 = some (leafOf 0x3000D) ∧ s.pageDpa 0x3000D = 0x30000 ∧
        (0x3000D : Word).getLsbD 1 = false ∧ (0x3000D : Word).getLsbD 3 = true) ∧
    (let s := mapped 0x3000F Space.reset walking [nodeWalk true];
      s.findLeaf (s.space 0).root.toNat 0 = some (leafOf 0x3000F) ∧ s.pageDpa 0x3000F = 0x30000 ∧ (0x3000F : Word).getLsbD 1 = true) ∧
    (0x30005 : Word).getLsbD 3 = false ∧ (mapped 0x3000C Space.reset walking [nodeWalk true]).findLeaf 0 0 = none ∧
    ({ AG.reset with got := some 5 } : AG).got = some 5 := by decide +kernel

theorem witness_TranslationAndRetirement_migration :
    (let s := mapped 0x020000000003008D ⟨0, 0, [], 1, 1, [0x50000], []⟩ Core.reset [];
      s.findLeaf (s.space 0).root.toNat 0 = some (leafOf 0x020000000003008D) ∧ (0x020000000003008D : Word).getLsbD 7 = true ∧
        (0x020000000003008D : Word).getLsbD 1 = false ∧ bits (0x020000000003008D : Word) 56 2 = 2 ∧ (s.space 0).freePages = 0x50000 :: [] ∧
        (s.space 0).quota ≠ 0 ∧ (0 : Word) = w64 ((0xFFFF : Word).toNat / 65536 * 65536)) ∧
    (mapped 0x020000000003008D Space.reset Core.reset []).space 0 = Space.reset ∧ Space.reset.freePages = [] ∧ Space.reset.quota = 0 ∧
    (let s := mapped 0x0200000000030087 ⟨0, 0, [], 1, 0, [], [(0, 0x50001)]⟩ Core.reset [];
      (s.space 0).moving = [(0, 0x50001)] ∧ s.findLeaf (s.space 0).root.toNat 0 = some (leafOf 0x0200000000030087) ∧
        s.pageDpa 0x0200000000030087 = 2 * 2 ^ 44 + 0x30000) := by decide +kernel

theorem witness_TranslationAndRetirement_names :
    (let s := lone { Core.reset with ncache := [(3, 5)] };
      frameCores (s.task 0).rec_ = [0] ∧ (s.core 0).task = some 0 ∧ (s.core 0).sendq = [] ∧ (s.core 0).gives = [] ∧ s.packets = [] ∧
        (s.core 0).retired = false ∧ s.lenses = [] ∧ (s.queue (s.task 0).queue).notice = 0 ∧ (s.slot ⟨0, 0⟩).life ≠ .unbound) ∧
    ({ Firmware.reset with booted := true } : Firmware).booted = true ∧
    ∀ e, e < 16 → ((lone Core.reset).core 0 |>.bm e).getLsbD 63 = false := by decide +kernel

theorem witness_TranslationAndRetirement_cores :
    (∀ d, d ≠ 0 → ((lone Core.reset).core d).task = none) ∧
    ∀ k, ((lone Core.reset).slot ⟨0, k⟩).accs = [] ∧ ∀ st, ((lone Core.reset).slot ⟨0, k⟩).gate ≠ .stalled st := by
  constructor
  · intro d h; cases d with
    | zero => exact absurd rfl h
    | succ n => rfl
  · intro k
    cases k with
    | zero => exact ⟨rfl, nofun⟩
    | succ n => exact ⟨rfl, nofun⟩

/-! ### Witnesses: queues and packets -/

/-- A packet from its dwords. -/
def pkt (ds : List Nat) : FePacket := BitVec.ofNat 512 (leNat (ds.flatMap (leBytes 8)))

/-- Queue 0, the threads, the PIFO and a mapped page for virtual address 0. -/
def fronted (x : Queue) (threads : Tab (Nat × Nat)) (pifo : List PifoEntry) : State :=
  { State.reset with
    mem := tables 0x10001 0x20001 0x3000D
    fe := { FrontEnd.reset with queues := [(0, x)], threads := threads, pifo := pifo } }

def queueOf (tail head : BitVec 32) : Queue := { Queue.reset with en := true, tail := tail, head := head }

def busy : Tab (Nat × Nat) := (List.range 32).map fun k => (k, (2, 0))

def thread5 : Tab (Nat × Nat) := (List.range 32).map fun k => (k, (0, if k = 5 then 0 else 1))

def served0 : Tab (Nat × Nat) := [(0, (1, 0))]

/-- A read of virtual memory that answers bytes with a property. -/
def gets (r : Except (BitVec 8) (List Byte) × State) (f : List Byte → State → Bool) : Bool :=
  match r with
  | (.ok bs, u) => f bs u
  | _ => false

theorem witness_QueuesAndPifo_doorbell :
    (((fronted (queueOf 0 0) [] []).queue 0).en = true ∧ ((fronted (queueOf 0 0) [] []).queue 0).loc.toNat ≤ 1 ∧
      ((fronted (queueOf 0 0) [] []).queue 0).broken = false ∧ 16 < ((17 : BitVec 32) - 0).toNat ∧ ((16 : BitVec 32) - 0).toNat ≤ 16 ∧
      2 ^ Nat.min (Nat.max (queueOf 0 0).log2.toNat 4) 16 = 16) ∧
    ((State.reset.queue 0).en = false ∧ ({ queueOf 0 0 with broken := true } : Queue).broken = true) ∧
    ({ Firmware.reset with booted := true, infoUp := true } : Firmware).owner.isSome = true := by decide +kernel

theorem witness_QueuesAndPifo_map :
    (let s := fronted (queueOf 1 0) thread5 [];
      s.threadOf 0 = none ∧ (s.queue 0).tail ≠ (s.queue 0).head ∧ (s.queue 0).waiting = none ∧
        (Tab.at s.fe.threads 5 (0, 0)).1 = 0 ∧ ∀ k, k < 32 → k ≠ 5 → (Tab.at s.fe.threads k (0, 0)).1 = 0 →
          (Tab.at s.fe.threads 5 (0, 0)).2 < (Tab.at s.fe.threads k (0, 0)).2) ∧
    (let s := fronted (queueOf 1 0) busy [];
      s.threadOf 0 = none ∧ ∀ k, k < 32 → (Tab.at s.fe.threads k (0, 0)).1 ≠ 0) := by decide +kernel

def ringed (type : BitVec 8) : State := { fronted (queueOf 1 0) served0 [] with mem := memWriteAll [] (dpaKey (2 * 2 ^ 44)) [type] }

theorem witness_QueuesAndPifo_push :
    ((ringed 8).threadOf 0 = some 0 ∧ (ringed 8).fe.inside.length < 4096 ∧ FePacket.ok ((ringed 8).headPacket ((ringed 8).queue 0)) = false ∧
      FePacket.done ((ringed 8).headPacket ((ringed 8).queue 0)) = 0) ∧
    (FePacket.ok ((ringed 1).headPacket ((ringed 1).queue 0)) = true ∧ FePacket.type ((ringed 1).headPacket ((ringed 1).queue 0)) = 1) ∧
    (FePacket.ok ((ringed 3).headPacket ((ringed 3).queue 0)) = true ∧ FePacket.type ((ringed 3).headPacket ((ringed 3).queue 0)) ≠ 1) := by
  decide +kernel

def entryOf (p : FePacket) (leaving : Bool) : PifoEntry := ⟨4, 0, 9, p, 0, 0, 0, leaving, none⟩

theorem witness_QueuesAndPifo_rank :
    (fronted Queue.reset [] [entryOf (pkt [0]) false]).fe.pifo = [entryOf (pkt [0]) false] ∧
      (entryOf (pkt [0]) false).pushed ≤ (fronted Queue.reset [] []).now ∧ (fronted Queue.reset [] []).fe.rank = resetRank ∧
      FePacket.type (pkt [0]) = 0 ∧ FePacket.tokens (pkt [255 * 65536]) ≤ 255 ∧ FePacket.type (pkt [6]) ≠ 0 := by decide +kernel

/-- A WAIT packet for a value at virtual address 0. -/
def waitOn (cond value : Nat) : FePacket := pkt [1 + cond * 256, 0, value]

def waiting0 (now : Nat) (p : FePacket) : State := { fronted { queueOf 1 1 with waiting := some p } served0 [] with now := now }

/-- The value 0 is read there, and nothing that the WAIT rests on changes. -/
def waitReads (now : Nat) (p : FePacket) : Bool :=
  gets ((waiting0 now p).feRead ((waiting0 now p).queueSpace 0) (FePacket.dw p 1) 8) fun bs u => leNat bs == 0 &&
    u.threadOf 0 == some 0 && u.now == now && (u.queue 0).waiting == some p && (u.queue 0).waitSince == 0

theorem witness_QueuesAndPifo_wait :
    (waitReads 0 (waitOn 0 0) = true ∧ waitReads 0 (waitOn 1 5) = true ∧ waitReads 4096 (waitOn 2 5) = true ∧
      waitReads 4096 (waitOn 1 5) = true) ∧
    ((waiting0 0 (waitOn 0 0)).threadOf 0 = some 0 ∧ ((waiting0 0 (waitOn 0 0)).queue 0).waiting = some (waitOn 0 0) ∧
      ((waiting0 0 (waitOn 0 0)).queue 0).waitSince = 0) ∧
    (bits (FePacket.dw (waitOn 0 0) 0) 8 2 = 0 ∧ bits (FePacket.dw (waitOn 1 5) 0) 8 2 = 1 ∧ FePacket.dw (waitOn 1 5) 2 = 5 ∧
      bits (FePacket.dw (waitOn 2 5) 0) 8 2 = 2 ∧ FePacket.dw (waitOn 2 5) 2 = 5 ∧ FePacket.done (waitOn 0 0) = 0) := by decide +kernel

/-- Packets that are carried out: MAP, COPY, SIGNAL and KILL with and without a mapped page; first and second in their queue. -/
def carrying (p : FePacket) (out : List Nat) : State := fronted { queueOf 9 9 with outstanding := out } [] [entryOf p true]

theorem witness_PacketsAreCarriedOut_order :
    (carrying (pkt [6]) [9]).fe.pifo = [entryOf (pkt [6]) true] ∧ ((carrying (pkt [6]) [9]).queue 0).outstanding = 9 :: [] ∧
      ((carrying (pkt [6]) [8, 9]).queue 0).outstanding = 8 :: [9] ∧ (8 : Nat) ≠ (entryOf (pkt [6]) true).index ∧
      Tab.find (carrying (pkt [7]) [9]).fe.tasks 0 = none ∧ FePacket.done (pkt [6]) = 0 ∧ FePacket.done (pkt [6, 0, 0, 0, 0, 8]) ≠ 0 ∧
      (5 : Nat) < 256 ∧ (5 : Nat) < 65536 := by decide +kernel

theorem witness_PacketsAreCarriedOut_signal :
    ((FePacket.dw (pkt [2, 8, 7]) 0).getLsbD 8 = false ∧
      ((carrying (pkt [2, 8, 7]) [9]).feWrite 0 (FePacket.dw (pkt [2, 8, 7]) 1) (leBytes 8 7)).1 = none) ∧
    ((FePacket.dw (pkt [258, 8, 7]) 0).getLsbD 8 = true ∧
      gets ((carrying (pkt [258, 8, 7]) [9]).feRead 0 (FePacket.dw (pkt [258, 8, 7]) 1) 8)
        (fun bs u => (u.feWrite 0 8 (leBytes 8 (7 + leNat bs))).1 == none) = true) ∧
    ((carrying (pkt [2, 8, 7]) [9]).queueSpace 0 = 0) ∧
    gets ((carrying (pkt [4, 0, 8, 4]) [9]).feRead 0 (FePacket.dw (pkt [4, 0, 8, 4]) 1) (FePacket.dw (pkt [4, 0, 8, 4]) 3).toNat)
      (fun bs u => (u.feWrite 0 (FePacket.dw (pkt [4, 0, 8, 4]) 2) bs).1 == none) = true ∧
    gets ((carrying (pkt [4, 65536, 8, 4]) [9]).feRead 0 (FePacket.dw (pkt [4, 65536, 8, 4]) 1) 4) (fun _ _ => true) = false := by
  decide +kernel

theorem witness_PacketsAreCarriedOut_map :
    ((carrying (pkt [261, 0, 0, 1]) [9]).leafPlace ((carrying (pkt [261, 0, 0, 1]) [9]).space 0).root.toNat 0 = some 0x20000 ∧
      (FePacket.dw (pkt [261, 0, 0, 1]) 3).toNat = 1 ∧ (FePacket.dw (pkt [261, 0, 0, 1]) 0).getLsbD 8 = true ∧
      ((carrying (pkt [261, 0, 0, 1]) [9]).pteAt 0x20000).getLsbD 0 = true) ∧
    ((FePacket.dw (pkt [5, 0, 0, 1]) 0).getLsbD 8 = false ∧
      gets ((carrying (pkt [5, 0, 0, 1]) [9]).feRead 0 (FePacket.dw (pkt [5, 0, 0, 1]) 4) 8) (fun bs _ => bs.length == 8) = true) ∧
    (let s := mapped 0x30002 Space.reset Core.reset [];
      (s.pteAt 0x20000).getLsbD 0 = false ∧ (s.pteAt 0x20000).getLsbD 1 = true) := by decide +kernel

/-- A manifest at virtual address 0 for one shard of 8 bytes at page 1, with pages to spare or not. -/
def manifest (magic count : Nat) (page : Nat) (pages : List Word) : State :=
  { carrying (pkt [3]) [9] with
    mem := memWriteAll (tables 0x10001 0x20001 0x3000D) (dpaKey 0x30000)
      ([magic, count, 0, 0, 0, page * 65536, 8, 0].flatMap (leBytes 8))
    fe := { (carrying (pkt [3]) [9]).fe with spaces := [(0, ⟨0, 0, [], 1, pages.length, pages, []⟩)] } }

/-- What LOADW reads of it: header and shards. -/
def manifestRead (s : State) (f : BitVec 256 → List Shard → State → Bool) : Bool :=
  gets (s.feRead 0 0 32) fun hd u => gets (u.feRead 0 32 32) fun bs v => f (BitVec.ofNat 256 (leNat hd)) [BitVec.ofNat 256 (leNat bs)] v

theorem witness_PacketsAreCarriedOut_loadw :
    ((FePacket.dw (pkt [3, 4]) 1).toNat % 8 ≠ 0 ∧ (FePacket.dw (pkt [3]) 1).toNat % 8 = 0) ∧
    manifestRead (manifest 5 1 1 []) (fun h _ _ => !headerOk h) = true ∧
    manifestRead (manifest 0x157364145 1 0 []) (fun h l v => headerOk h && v.badShard 0 l [] 0 == some 0) = true ∧
    manifestRead (manifest 0x157364145 1 1 []) (fun h l v => headerOk h && v.badShard 0 l [] 0 == none &&
      Nat.min (v.space 0).quota (v.space 0).freePages.length == 0) = true ∧
    manifestRead (manifest 0x157364145 1 1 [0x50000]) (fun h l v => headerOk h && v.badShard 0 l [] 0 == none &&
      Nat.min (v.space 0).quota (v.space 0).freePages.length == 1 && (l.map Shard.pages == [1])) = true := by decide +kernel

/-- A load of a shard of no more than a page, its first fetch to come; CRC-32C of the byte 0x61 is 0xC1D04330. -/
def letterA : List Byte := [0x61]

def shard1 : Shard := BitVec.ofNat 256 (65536 * 2 ^ 64 + 2 ^ 128 + 0xC1D04330 * 2 ^ 160)

def load1 (fetched : List (Option (List Byte))) (tries : Nat) : Load := ⟨4, 4, 0, 9, pkt [3], 0, [shard1], [[0x50000]], fetched, [tries], 0⟩

theorem witness_PacketsAreCarriedOut_fetch :
    (load1 [none] 0).shards[0]? = some shard1 ∧ (load1 [none] 0).fetched[0]? = some none ∧ (load1 [none] 2).tries.getD 0 0 = 2 ∧
      letterA.length = Shard.size shard1 ∧ (crc32c letterA).toNat = Shard.crc shard1 ∧ (load1 [none] 0).pages.getD 0 [] = [0x50000] ∧
      letterA.length ≤ 65536 ∧ ([] : List Byte).length ≠ Shard.size shard1 ∧
      (∀ f ∈ (load1 [some []] 0).fetched, f.isSome = true) ∧ (∃ f ∈ (load1 [none] 0).fetched, f = none) :=
  ⟨rfl, rfl, rfl, by decide, by decide +kernel, rfl, by decide, by decide, by decide, none, by decide, rfl⟩

/-! ### Witnesses: placement, dispatch, pre-emption -/

/-- The kernel of one core whose image lies in the page that is mapped at virtual address 0. -/
def kernel0 (ok : Bool) : Kernel := { Kernel.none with header := if ok then imageHeader 0 else [], text := [(0, 0x0800000000000000)], slots := 1 }

/-- A LAUNCH pinned to core (0, 0), with its tokens and class. -/
def launchPkt (tokens cls : Nat) : FePacket := pkt [tokens * 65536 + cls * 256, 0, 0, 0xFFFFFFFF00000000, 1]

def launchEntry (tokens cls : Nat) (resume : Option Nat) : PifoEntry := ⟨4, 0, 9, launchPkt tokens cls, 0, 0, 0, false, resume⟩

def launching (images : List (Word × Kernel)) (e : PifoEntry) (tasks : Tab Task) (x : Core) (sl : Slot) : State :=
  { onCore0 x sl with
    mem := tables 0x10001 0x20001 0x3000D
    fe := { FrontEnd.reset with images := images, pifo := [e], tasks := tasks } }

def launched (images : List (Word × Kernel)) : State := launching images (launchEntry 255 0 none) [] Core.reset Slot.reset

theorem witness_PlacementAndDispatch_launch :
    (launched []).fe.pifo = [launchEntry 255 0 none] ∧ (launchEntry 255 0 none).leaving = false ∧ FePacket.type (launchPkt 255 0) = 0 ∧
      ((launched []).imageOf ((launched []).queueSpace 0) (launchPkt 255 0)).1 = none ∧
      ((launched [(0x30000, kernel0 false)]).imageOf 0 (launchPkt 255 0)).1 = some (0x30000, kernel0 false) ∧
      ((launched [(0x30000, kernel0 false)]).imageOf 0 (launchPkt 255 0)).2.launchRefusal 0 (launchPkt 255 0) (kernel0 false) ≠ 0 ∧
      ((launched [(0x30000, kernel0 true)]).imageOf 0 (launchPkt 255 0)).2.launchRefusal 0 (launchPkt 255 0) (kernel0 true) = 0 ∧
      Tab.find ((launched [(0x30000, kernel0 true)]).imageOf 0 (launchPkt 255 0)).2.fe.tasks 0 = none := by decide +kernel

def launched0 : State := launched [(0x30000, kernel0 true)]

def record0 (t : Nat) : BindRec := launched0.bindRecord (launchPkt 255 0) 0x30000 (kernel0 true) t 0 0

/-- A record without the two addresses that firmware chooses. -/
def blank (r : BindRec) : BindRec := { r with namebase := 0, save := 0 }

theorem fits_blank (s : State) (k : Kernel) (r : BindRec) : s.fits k (blank r) = s.fits k r := rfl

theorem itemsOk_blank (s : State) (k : Kernel) (r : BindRec) : s.itemsOk k (blank r) = s.itemsOk k r := rfl

theorem reserveOk_blank (s : State) (r : BindRec) : s.reserveOk (blank r) = s.reserveOk r := rfl

theorem blank_record0 (t : Nat) : blank (record0 t) = blank (record0 0) := by
  simp only [record0, State.bindRecord, blank, State.clusterLoads, State.liveCores, frameCores, frameCore]

/-- The record at core (0, 0) fits, for each number of a task. -/
theorem witness_PlacementAndDispatch_record (t : Nat) :
    record0 t ∈ launched0.recordsFor (launchPkt 255 0) 0x30000 (kernel0 true) t ∧ launched0.reserveOk (record0 t) = true ∧
      launched0.fits (kernel0 true) (record0 t) = true := by
  rw [← reserveOk_blank, ← fits_blank, blank_record0]
  refine ⟨List.mem_filter.2 ⟨List.mem_map.2 ⟨(0, 0), ?_, rfl⟩, ?_⟩, ?_, ?_⟩
  · decide +kernel
  · rw [← itemsOk_blank, blank_record0]; decide +kernel
  · decide +kernel
  · decide +kernel

def saved0 (x : Core) : Saved := ⟨5, [(0, x)], [], [], []⟩

def taskIn (st : TaskSt) (k : Kernel) (restart cls : Nat) (v : Option Saved) : Tab Task :=
  [(0, { Task.none with st := st, kernel := k, rec_ := { BindRec.none with restart := restart, cls := cls, text := 1 }, saved := v })]

/-- The bind record of task 0 stands in the slot table. -/
def tasked (st : TaskSt) (k : Kernel) (v : Option Saved) (x : Core) (sl : Slot) : State :=
  let s := launching [(0x30000, kernel0 true)] (launchEntry 255 0 (some 0)) (taskIn st k 2 2 v) { x with task := some 0 } sl
  { s with fe := { s.fe with slotTable := [(0, (s.task 0).rec_.word 0)] } }

theorem witness_PlacementAndDispatch_resume :
    (let s := tasked .suspended (kernel0 true) (some (saved0 Core.reset)) Core.reset runs;
      (launchEntry 255 0 (some 0)).resume = some 0 ∧ (s.task 0).saved = some (saved0 Core.reset) ∧
        (∀ p ∈ (saved0 Core.reset).cores, (s.core p.1).retired = false) ∧ ∀ c ∈ frameCores (s.task 0).rec_, s.holder c = none) := by
  decide +kernel

def word0 : BitVec 1024 := ({ BindRec.none with restart := 2, cls := 2, text := 1 } : BindRec).word 0

/-- The state in which dispatch weighs the image, and the status of dchld there. -/
def laid (s : State) (k : Kernel) : State :=
  ((s.modTask 0 fun x => { x with rec_ := bindOf word0 }).clearTask 0).layLenses 0 k (bindOf word0)

def dchld (s : State) (k : Kernel) : Nat :=
  (laid s k).dchldStatus 0 k ((laid s k).bindImage (s.groupOf 0) k (bindOf word0)) (bindOf word0)

theorem witness_PlacementAndDispatch_dispatch :
    (let s := tasked .placed (kernel0 true) none Core.reset Slot.reset;
      (Tab.find s.fe.tasks 0).isSome = true ∧ (s.task 0).st = .placed ∧ (s.task 0).saved = none ∧ Tab.at s.fe.slotTable 0 0 = word0 ∧
        s.bindOk 0 (kernel0 true) word0 = true ∧ s.bindOk 0 (kernel0 true) 0 = false ∧ s.liveCores (bindOf word0) = [0] ∧
        (s.cluster (clusterOf 0)).gating = .awake ∧ (s.core 0).sendq = [] ∧ dchld s (kernel0 true) = 0 ∧
        s.banksOk (kernel0 true) (bindOf word0) = true ∧
        ((laid s (kernel0 true)).bindImage (s.groupOf 0) (kernel0 true) (bindOf word0)).isSome = true ∧
        ({ s with banks := noneFree } : State).banksOk (kernel0 true) (bindOf word0) = false) ∧
    (let s := tasked .placed (kernel0 false) none Core.reset Slot.reset;
      s.bindOk 0 (kernel0 false) word0 = true ∧ dchld s (kernel0 false) ≠ 0) ∧
    ({ Cluster.reset with gating := .clockGated } : Cluster).gating ≠ .awake ∧ (onCore0 { Core.reset with sendq := [msg1] } runs).myCore.sendq ≠ [] := by
  decide +kernel

theorem witness_PlacementAndDispatch_ends :
    (let s := tasked .bound (kernel0 true) none Core.reset { Slot.reset with life := .boundIdle };
      (s.task 0).st = .bound ∧ (s.task 0).saved = none ∧ (s.slot ⟨0, 0⟩).life = .boundIdle ∧ s.stopped 0 = false) ∧
    (let s := tasked .running (kernel0 true) none Core.reset { runs with life := .halted };
      s.stopped 0 = true ∧ s.rebinds 0 = false ∧ s.lowestCause 0 = none ∧ (s.task 0).rec_.done = 0) ∧
    (let s := tasked .running (kernel0 true) none Core.reset { runs with life := .faulted, fcause := 0x14 };
      s.stopped 0 = true ∧ s.rebinds 0 = false ∧ s.lowestCause 0 = some 0x14) := by decide +kernel

/-- A draining task of class 2 with a restart policy, and a LAUNCH of class 0 that waits for its core. -/
def draining (restart tokens : Nat) : State :=
  launching [(0x30000, kernel0 true)] (launchEntry tokens 0 none) (taskIn (.draining 80000) (kernel0 true) restart 2 none)
    { Core.reset with task := some 0 } runs

/-- What the newcomer's plan says of the victim's save cost. -/
def planned (s : State) (f : Nat → Nat → Bool) : Bool :=
  match s.candidates (launchEntry 255 0 none) with
  | (rs, some k) => (s.plan k rs).any fun r => f (s.costFor k r 0) r.tokens
  | _ => false

theorem witness_PreemptionComplete_drain :
    ((draining 2 255).fe.order.find? fun e => FePacket.type e.packet == 0 && e.resume.isNone) = some (launchEntry 255 0 none) ∧
      ((draining 2 255).task 0).st = .draining 80000 ∧ ((draining 2 255).task 0).rec_.restart = 2 ∧
      planned (draining 2 255) (fun cost tokens => decide (cost ≤ tokens)) = true ∧ ((draining 1 255).task 0).rec_.restart = 1 ∧
      planned (draining 1 255) (fun _ _ => true) = true ∧ ((draining 0 255).task 0).rec_.restart = 0 ∧
      planned (draining 0 255) (fun _ _ => true) = true ∧
      ((fronted Queue.reset [] []).fe.order.find? fun e => FePacket.type e.packet == 0 && e.resume.isNone) = none := by decide +kernel

theorem witness_PreemptionComplete_checkpoint :
    ((tasked .running (kernel0 true) none Core.reset runs).task 0).st = .running ∧
    (let s := tasked .checkpointing (kernel0 true) none Core.reset runs;
      (s.task 0).st = .checkpointing ∧ s.drained 0 = true) ∧
    (let s := tasked .checkpointing (kernel0 true) none { Core.reset with guq := [8] } runs;
      (s.task 0).st = .checkpointing ∧ s.drained 0 = false) ∧
    ((tasked .suspended (kernel0 true) none Core.reset runs).task 0).st = .suspended := by decide +kernel

def resting : Core := { Core.reset with slots := [(0, runs)], task := some 0 }

theorem witness_PreemptionComplete_resume :
    (let s := tasked .placed (kernel0 true) (some (saved0 resting)) Core.reset Slot.reset;
      (Tab.find s.fe.tasks 0).isSome = true ∧ (s.task 0).st = .placed ∧ (s.task 0).saved = some (saved0 resting) ∧
        (∀ e, e < 16 → (resting.bm e).getLsbD 63 = false) ∧ (s.cluster (clusterOf 0)).gating = .awake ∧ (resting.slot 0).life ≠ .unbound) ∧
    (let s := tasked .bound (kernel0 true) (some (saved0 resting)) Core.reset { runs with life := .boundIdle };
      (s.task 0).st = .bound ∧ s.liveCores (s.task 0).rec_ = [0] ∧ (s.slot ⟨0, 0⟩).life = .boundIdle ∧
        (resting.slot 0).life ≠ .boundIdle) := by decide +kernel

/-! ### Witnesses: the host's ports, links, service, firmware -/

/-- Ports, configurations and tasks. -/
def ported (p : Ingress) (configs : Tab IngressCfg) (pifo : List PifoEntry) : State :=
  { State.reset with fe := { FrontEnd.reset with ports := [(0, p)], configs := configs, pifo := pifo, tasks := taskOf BindRec.none } }

theorem witness_HostPortsComplete_ports :
    State.reset.fw.powered = true ∧ Tab.find (ported Ingress.reset [] []).fe.configs 7 = none ∧
      (Tab.find (ported Ingress.reset [(7, ⟨0, 0, 0, some 0⟩)] []).fe.configs 7 = some ⟨0, 0, 0, some 0⟩ ∧
        ((ported Ingress.reset [(7, ⟨0, 0, 0, some 0⟩)] []).task 0).st = .running) ∧
      (Tab.find (ported Ingress.reset [(7, ⟨0, 0, 0, none⟩)] []).fe.configs 7 = some ⟨0, 0, 0, none⟩ ∧
        (ported Ingress.reset [(7, ⟨0, 0, 0, none⟩)] []).fe.pifo = []) ∧
      (((ported ⟨3, 0, 7, [], [], 0⟩ [] []).port 0).stat = 3 ∧ ((ported ⟨2, 0, 7, [], [], 0⟩ [] []).port 0).stat ≠ 3 ∧
        ((ported ⟨2, 0, 7, [], [], 0⟩ [] []).port 0).stat ≠ 0 ∧ ((ported ⟨2, 0, 7, [], [], 0⟩ [] []).port 0).held = [] ∧
        ((ported ⟨2, 0, 7, [], [], 0⟩ [] []).port 0).buffer.length < 512 ∧
        (ported ⟨2, 0, 7, [], [], 0⟩ [] []).portShut ⟨2, 0, 7, [], [], 0⟩ = false ∧ bits (0x2000000000 : Word) 37 27 ≠ 0 ∧
        bits (0x1FFFFFFFFF : Word) 37 27 = 0) := by decide +kernel

def cluster0 (k : Cluster) : State := { with0 runs with clusters := [(0, k)] }

def asleep (g : Gating) (m : List (Nat × Nat × BitVec 16)) : Cluster := { Cluster.reset with gating := g, mailbox := m }

theorem witness_HostPortsComplete_aperture :
    (4 % 64 ≠ 0 ∧ 768 ≤ 49152 / 64) ∧ bits (0x80000 : Word) 19 45 ≠ 0 ∧ bits (0x7FFFF : Word) 19 45 = 0 ∧
      ((with0 runs).cluster (clusterOf 0)).gating = .awake ∧ ((with0 runs).slot ⟨0, bits (0x70001 : Word) 16 3⟩).life = .unbound ∧
      ((with0 runs).slot ⟨0, bits (0x1 : Word) 16 3⟩).life ≠ .unbound ∧ ((with0 runs).slot ⟨0, 0⟩).wait = none ∧
      ((with0 runs).slot ⟨0, 0⟩).flights = [] ∧
      ((cluster0 (asleep .clockGated [])).cluster (clusterOf 0)).gating = .clockGated ∧
      ((cluster0 (asleep .powerGated [])).cluster (clusterOf 0)).mailbox = [] ∧
      (let k := asleep .clockGated (List.replicate 8 (1, 0, 1));
        k.mailbox.length = 8 ∧ ∀ m ∈ k.mailbox, m.1 ≠ 0) := by decide +kernel

/-- A core with nothing on it: cluster 0 has been idle since P-cycle 0. -/
def quiet (now : Nat) (g : Gating) : State := { State.reset with now := now, clusters := [(0, asleep g [])] }

theorem witness_HostPortsComplete_gating :
    (asleep .waking []).gating = .waking ∧
      (let s := cluster0 (asleep .awake [(0, 0, 1)]);
        (s.cluster 0).gating = .awake ∧ (s.cluster 0).mailbox = [(0, 0, 1)] ∧ (s.cluster 0).overflow = none) ∧
      (quiet 2000000 .awake).idleFor 0 2000000 = true ∧ (quiet 1999999 .awake).idleFor 0 2000000 = false ∧
      (quiet 200000000 .clockGated).idleFor 0 200000000 = true ∧ (quiet 200000000 .clockGated).mayPowerGate 0 = true := by decide +kernel

theorem witness_HostPortsComplete_window :
    bits State.reset.fe.win4 46 6 = State.reset.fw.die ∧ bits State.reset.fe.win4 30 16 * 2 ^ 30 + 0 + 8 ≤ 384 * 2 ^ 30 ∧
      (let w : Word := BitVec.ofNat 64 (383 * 2 ^ 30);
        384 * 2 ^ 30 < bits w 30 16 * 2 ^ 30 + (2 ^ 30 - 4) + 8) := by decide +kernel

def linked (l : Link) : State := { State.reset with links := [(0, l)] }

def linkIn (st : LinkSt) (recent : Nat) : Link := { Link.reset with st := st, recent := recent, rxSeq := 4 }

theorem witness_LinksAndServiceComplete_links :
    (State.reset.fw.powered = true ∧ (State.reset.link 0).st = .reset ∧ ∃ k, k < 4 ∧ k ≠ 0 ∧ (State.reset.link k).st = .reset) ∧
      ((linked (linkIn .up 14)).link 0).st = .up ∧ ((linked (linkIn .up 14)).link 0).recent < 15 ∧ (4 : BitVec 12) = (linkIn .up 0).rxSeq ∧
      (5 : BitVec 12) ≠ (linkIn .up 0).rxSeq ∧ 15 ≤ ((linked (linkIn .up 15)).link 0).recent ∧
      16 ≤ ((linked (linkIn .up 16)).link 0).recent ∧ ((linked (linkIn .retraining 0)).link 0).st = .retraining :=
  ⟨⟨rfl, rfl, 1, by decide⟩, by decide⟩

def railed (n : Nat) : State := { State.reset with fw := { Firmware.reset with rails := n, powered := n == 4 } }

theorem witness_LinksAndServiceComplete_power :
    (3 = (railed 2).fw.rails + 1 ∧ (railed 3).fw.rails = 3 ∧ 1 ≠ (railed 3).fw.rails + 1 ∧ (railed 0).fw.rails = 0 ∧
      (railed 4).fw.rails ≠ 0 ∧ (railed 4).fw.powered = true) := by decide +kernel

/-- A booted die with one lens on cluster 0, at a clock step, and the cluster cool since P-cycle 0. -/
def warmed (clock now : Nat) : State :=
  { State.reset with
    now := now
    fw := { Firmware.reset with booted := true, debug := true }
    clusters := [(0, { Cluster.reset with coolSince := some 0 })]
    lenses := [(3, { lens0 with clock := clock })] }

theorem witness_LinksAndServiceComplete_heat :
    (warmed 4 0).fw.booted = true ∧ (warmed 4 0).lenses = [(3, { lens0 with clock := 4 })] ∧ ({ lens0 with clock := 4 } : Lens).fused = true ∧
      ({ lens0 with clock := 4 } : Lens).clusters = [0] ∧ ({ lens0 with clock := 3 } : Lens).clock < 4 ∧
      ((warmed 3 2000000).cluster 0).coolSince = some 0 ∧ (0 + 2000000 ≤ (warmed 3 2000000).now) ∧ State.reset.lenses = [] ∧
      ((warmed 4 0).lens 3).fused = true ∧ ((warmed 4 0).lens 0).fused = false := by decide +kernel

theorem witness_LinksAndServiceComplete_service :
    ((warmed 4 0).cluster 0).cls = false ∧ State.reset.hasErr (bankKey 6143 (64 * 4095)) 64 = false ∧
      ({ State.reset with memErr := [0] } : State).hasErr (bankKey 0 (64 * 0)) 64 = true ∧ (warmed 4 0).fw.debug = true ∧
      State.reset.fw.debug = false ∧ ((with0 { runs with claimed := true }).slot ⟨0, 0⟩).claimed = true ∧
      ((with0 runs).slot ⟨0, 0⟩).claimed = false := by decide +kernel

/-- An image that is valid for the owner 0, or of an old version. -/
def image (svn : Nat) : FwImage := { FwImage.shipped with svn := svn }

def firm (a b : FwImage) : Firmware := { Firmware.reset with slotA := a, slotB := b, minSvn := 1, booted := true }

theorem witness_FirmwareComplete :
    ((firm (image 1) (image 0)).powered = true ∧ (firm (image 1) (image 0)).erasing = false ∧ State.reset.fe.loads = [] ∧
      (image 1).tagOk = true ∧ (image 1).digestOk = true ∧ (image 1).makerOk = true ∧
      (firm (image 1) (image 0)).owner = some (image 1).ownerKey ∧ (firm (image 1) (image 0)).minSvn ≤ (image 1).svn ∧
      ¬(firm (image 1) (image 0)).minSvn ≤ (image 0).svn ∧ (firm (image 1) (image 0)).owner.isSome = true ∧
      ({ firm (image 1) (image 0) with owner := none } : Firmware).owner = none ∧ Firmware.reset.log.length < 256 ∧
      256 ≤ ({ Firmware.reset with log := List.replicate 256 (1, 0) } : Firmware).log.length) ∧
    resetRank.length ≤ 16 ∧ (∀ o ∈ resetRank, RankOp.ok o = true) ∧ 16 < (List.replicate 17 (RankOp.ldi 0 0)).length := by decide +kernel

/-! ### Witnesses: reset and memory -/

theorem witness_StepKeepsMemoryCanonical :
    State.reset.MemoryCanonical ∧ ∃ t, step State.reset = .next t := by
  refine ⟨?_, _, rfl⟩
  unfold State.MemoryCanonical
  decide

/-! ### Witnesses: further clauses, statement by statement -/

/-- Inside and at the end of a level; a third level; in a handler. -/
theorem witness_LoopPushesALevel_refused :
    ((with0 (loops ⟨0, 0, 0⟩ ⟨5, 6, 1⟩)).me.loop2.remaining ≠ 0 ∧ (with0 (loops ⟨0, 0, 0⟩ ⟨5, 6, 1⟩)).me.loop2.start.toNat ≤ 5 ∧
      (6 : BitVec 14).toNat < 5 + (fmtC 2).off.toNat ∧ ¬(6 : BitVec 14).toNat < 5 + (fmtC 1).off.toNat) ∧
    (with0 (loops ⟨0, 0, 0⟩ ⟨0, 0, 0⟩)).me.h = false ∧
    (with0 { loops ⟨0, 0, 0⟩ ⟨0, 0, 0⟩ with h := true }).me.h = true := by decide

/-- A core whose own task may write its wheel: slot 0 keeps position 0, or loses it; and another slot of the task has no position. -/
def owning (w : Word) : State :=
  { onCore0 { Core.reset with task := some 0, wheel := w, wheelNext := w } runs with now := 16 }

theorem witness_SystemRegisterWriteIsReadBack_wheel :
    ((owning 0x8).me.guard hdr0 = true ∧ (owning 0x8).myCore.task = (owning 0x8).me.task ∧ (owning 0x8).me.life = .running ∧
      (∀ k, k < 7 → ((owning 0x8).myCore.slot (k + 1)).life = .unbound) ∧ wheelSlot 0x88 0 = some 0 ∧
      ∀ p, p < 16 → wheelSlot 0x88 p = none ∨ wheelSlot 0x88 p = some 0) ∧
    ((∀ p, p < 16 → wheelSlot 0x90 p ≠ some 0 ∨ p = 0) ∧ wheelSlot 0x90 1 = some 1 ∧
      ((owning 0x8).myCore.slot 1).life = .unbound ∧ (owning 0x8).me.h = false) ∧
    ((∀ p, p < 16 → wheelSlot 0 p ≠ some 0) ∧ wheelSlot (owning 0x8).myCore.wheelNext 0 = some 0) := by decide

/-- Fences that wait for sight, for performance and for a transfer; one about to end; one about to take its place. -/
theorem witness_FencesStallAndComplete_waits :
    (load0 .sent 9 8).isPerformed = false ∧ (loading (load0 .sent 9 8)).me.vectorLoads = [] ∧ 2 ≤ (2 : BitVec 3).toNat ∧
      2 ^ 31 ≤ ((0 : BitVec 32) - 1).toNat ∧
      (onCore0 { Core.reset with issued := 1 } runs).myCore.done - (onCore0 { Core.reset with issued := 1 } runs).myCore.issued = 0 - 1 ∧
      ((with0 { runs with gate := .stalled ⟨none, [3], [4], .plain⟩ }).slot ⟨0, 0⟩).gate = .stalled ⟨none, [3], [4], .plain⟩ ∧
      ((with0 { runs with gate := .stalled ⟨none, [3], [4], .plain⟩ }).slot ⟨0, 0⟩).accs = [] ∧
      ((with0 runs).slot ⟨0, 0⟩).gate = .fromTurn 0 := by decide

/-- An own bank; a name of the same die; a name of another die; no name. -/
theorem witness_MisplacedAccessesFault_kinds :
    ((with0 (regs 0x3FFFF8 0)).me.gr (fmtM 3).ra = 0x3FFFF8 ∧ bmV ((with0 (regs 0x3FFFF8 0)).myCore.bm (eaEntry 0x3FFFF8)) = false) ∧
    (bmV held5 = true ∧ bmPend pend5 = true ∧ bmWp (bmMake true false true 0 5 1) = true) ∧
    ((onCore0 (giving 0) runs).resolve 0 (eaName 0x10000000000) = .hit 1 ∧ (fmtM 3).win = 0 ∧
      (2 : Nat) ^ 40 ≤ (0x10000000000 : Word).toNat ∧ (0x10000000000 : Word).toNat < 2 ^ 40 + 2 ^ 38) ∧
    ((onCore0 { Core.reset with ncache := [(0, 1)] } (regs 0x10000000000 0)).resolve 0 (eaName 0x10000000000)).fault ≠ none := by
  decide

/-- A 16-byte access, a global access with a window, an AMO, each with its operand aligned. -/
theorem witness_LocalAccessesPerform_forms :
    ((banked 0x3FFFF0 0).me.gr (fmtM 4).ra + (fmtM 4).off.signExtend 64 + (banked 0x3FFFF0 0).me.gr (fmtM 4).rb = 0x3FFFF0 ∧
      Machine.sizeOf (fmtM 4).sz = 16 ∧ (0x3FFFF0 : Word).toNat % 16 = 0 ∧ bmV ((banked 0x3FFFF0 0).myCore.bm (eaEntry 0x3FFFF0)) = true ∧
      (banked 0x3FFFF0 0).extra = []) ∧
    ((banked 0x3FFFF8 0).me.gr (fmtM 3).ra + (fmtM 3).off.signExtend 64 = 0x3FFFF8 ∧ Machine.sizeOf (fmtM 3).sz ≠ 16) ∧
    ((onCore0 (giving 0) (regs 0x10000000000 0)).me.gr 8 + (fmtM 3).off.signExtend 64 + (onCore0 (giving 0) (regs 0x10000000000 0)).me.gr 0 =
        0x10000000000 ∧ (0x10000000000 : Word).toNat % Machine.sizeOf (fmtM 3).sz = 0 ∧ ({ fmtM 3 with win := 5 } : FmtM).win ≠ 0 ∧
      (onCore0 (giving 0) (regs 0x10000000000 0)).resolve 0 (eaName 0x10000000000) = .hit 1 ∧
      (onCore0 (giving 0) (regs 0x10000000000 0)).me.accs = []) := by decide

/-- A give of another die's name, of a name that is not there, and of a register that names nothing; a quota used up. -/
theorem witness_BankCommandsIssue_refused :
    ((onCore0 { Core.reset with ncache := [(0, 1)] } runs).resolve 0 0).fault ≠ none ∧ (onCore0 (giving held5) runs).me.h = false ∧
      65536 ≤ ((with0 (regs 65536 0)).me.gr (fmtM 0).ra).toNat ∧
      (onCore0 (giving 0) runs).foreign 0 1 = false := by decide

/-- A load admitted to entry 0 that has not completed. -/
def busyEntry : State := onCore0 (giving pend5) { runs with accs := [⟨0, .load, 16, false, 0, 8, false, 0, 0, 0, 9, none, 0, 0, 0, 3, 0, 0, 10, 0, 30, .arrived, 7, false, []⟩] }

def givePkt (seq : BitVec 16) : Packet := ⟨7, 0, 1, 0, 3, 0, seq, .give 4, false, false⟩

/-- Entries with accesses under way; a give whose request is out of sequence; queries of global addresses, of a name that is
not there and of no address. -/
theorem witness_BankCommandsComplete_waits :
    (busyEntry.admitted 0 0 = true ∧ (onCore0 (giving pend5) runs).admitted 0 0 = false ∧ (busyEntry.core 0).gives = []) ∧
    (({ onCore0 { giving pend5 with gives := [aGive .admitting] } runs with packets := [givePkt 5] } : State).givePacket 0 4 = some (givePkt 5) ∧
      ({ onCore0 { giving pend5 with gives := [aGive .admitting] } runs with packets := [givePkt 5] } : State).seqFate (givePkt 5) ≠ .perform ∧
      ({ onCore0 { giving pend5 with gives := [aGive .admitting] } runs with packets := [givePkt 0] } : State).seqFate (givePkt 0) = .perform ∧
      ({ giving pend5 with gives := [aGive .admitting] } : Core).give? 4 = some (aGive .admitting) ∧
      ((onCore0 { giving pend5 with gives := [aGive .admitting] } runs).slot ⟨0, 0⟩).pends = [] ∧
      (aGive .releasing).node = none) ∧
    ((onCore0 (giving 0) (regs 0x10000000000 0)).me.gr (fmtM 0).ra = 0x10000000000 ∧
      (onCore0 (giving 0) (regs 0x10000000000 0)).resolve 0 (eaName 0x10000000000) = .hit 1 ∧ clusterOf 0 = clusterOf 1 ∧
      ((onCore0 { Core.reset with ncache := [(0, 1)] } runs).resolve 0 (eaName 0x10000000000)).fault ≠ none ∧
      ¬(0x400000 : Word).toNat < 4194304 ∧ ¬(2 : Nat) ^ 40 ≤ (0x400000 : Word).toNat ∧ (with0 runs).me.h = false) ∧
    ((with0 runs).slot ⟨0, 0⟩).gate = .fromTurn 0 := by decide

/-- Beside a lens of the task whose UNFUSE waits; an UNFUSE whose writes are in flight or have performed; a landed word
already told of. -/
theorem witness_FuseAndCtabEnd_waits :
    ((lensed fusing0 lens1 Core.reset runs).unfuseFirst fusing0 = false ∧
      (lensed fusing0 { lens1 with ox := 0, unfusing := some (0, 0) } Core.reset runs).unfuseFirst fusing0 = true) ∧
    ((lensed { lens0 with st := .unfused, unfusing := some (0, 9) } lens1 Core.reset runs).lens 0).unfusing = some (0, 9) ∧
    (lensed { lens0 with st := .unfused, unfusing := some (0, 9) } lens1 Core.reset runs).writing lens0 = false ∧
    (lensed { lens0 with st := .unfused, unfusing := some (0, 9) } lens1 (agCore { AG.reset with pending := 1 }) runs).writing lens0 = true ∧
    ({ lens0 with ctabs := [⟨3, true, 0, 0, 63, 1535, 15, 0⟩] } : Lens).ctabs.find? (fun i => i.id == 3) =
      some ⟨3, true, 0, 0, 63, 1535, 15, 0⟩ := by decide +kernel

/-- A lane, an A-cycle and a counter out of range; tokens left on an edge; a control word that is refused. -/
theorem witness_LensCommandsComplete_ranges :
    (fused2.lens 0).lanesOn 0 ≤ 64 ∧ (63 : Nat) < (fused2.lens 0).lanesOn 0 ∧ 63 < (64 : Word).toNat ∧ (63 : Word).toNat ≤ 63 ∧
    ((lensed { lens0 with freezing := true } lens1 Core.reset runs).lens 0).freezing = true ∧
    ((lensed { lens0 with st := .failed } lens1 Core.reset runs).placeLens 0 0 0 1 1 |>.lens 0).fused = false ∧
    (fused2.writing lens0 = false ∧ (lensed lens0 lens1 (agCore { AG.reset with pending := 1 }) runs).writing lens0 = true) ∧
    (({ lens0 with seq := { Sequencer.reset with active := true } } : Lens).seq.active = true ∧
      ({ lens0 with seq := { Sequencer.reset with active := true } } : Lens).seq.ended = false) ∧
    (0 ≤ coreX fused2.cur.core ∧ coreX fused2.cur.core < 0 + 1 ∧ coreY fused2.cur.core < 0 + 1) := by decide +kernel

/-- An extent list at window address 64; an AMO of the slot to the descriptor; AGs that are idle, stopped or without a side. -/
theorem witness_AgCommandsComplete_reads :
    ((withBank0 agMem Core.reset runs).descriptor 0 64 = some ((withBank0 agMem Core.reset runs).winBytes 0 0 64)) ∧
    ((withBank0 agMem Core.reset { runs with accs := [⟨0, .amo, 16, false, 0, 8, false, 0, 0, 0, 9, none, 0, 0, 0, 3, 0, 0, 10, 0, 0, .held, 7, false, []⟩] }).descriptor
      0 64 = none) ∧
    ((withBank0 agMem Core.reset runs).readExtents 0 64 16 = some [] ∧
      (withBank0 agMem Core.reset runs).readExtents 0 0x40000 16 = none) ∧
    ((onCore0 (agCore { AG.reset with st := .loaded, desc := agIn }) runs).aggoStatus 0 [0] = 7 ∧
      ((onCore0 (agCore { AG.reset with st := .loaded, desc := agIn }) runs).myCore.ag 0).active = false) := by decide +kernel

/-- Commands queued at a channel: a BIND, then a BIND.un of another core; a BIND at a channel not fused. -/
theorem witness_ChannelAndMapCommandsComplete_queues :
    ((routed ⟨.binding, [⟨0, 0, false, false⟩], []⟩ lens0).chan (chanKey 0 0)).cmds = [⟨0, 0, false, false⟩] ∧
    ((routed ⟨.unbinding, [⟨0, 0, true, true⟩], []⟩ lens0).chan (chanKey 0 0)).cmds = [⟨0, 0, true, true⟩] ∧
    ((routed ⟨.bound, [⟨0, 1, true, false⟩], []⟩ lens0).chan (chanKey 0 0)).cmds ≠ [] ∧
    (routed ⟨.bound, [], []⟩ lens0).bindStatus 0 0 0 = 0 ∧ (routed ⟨.bound, [], []⟩ lens0).routeFused 0 ⟨some ⟨0, 3, 0, 0⟩, [⟨1, 0, 0, 0⟩]⟩ = true ∧
    (fused2.routeLanes 0 ⟨some ⟨0, 3, 0, 0⟩, [⟨1, 0, 0, 0⟩]⟩) = [(0, 3, 0), (1, 0, 0)] := by decide +kernel

/-- The lanes below a full one; a push of an exponent that may trap. -/
theorem witness_EdgePopsAndPushes_full :
    (∀ j, j < 63 → ((lensed lens0 lens1 { Core.reset with lanes := [(63, fullLane)] } runs).myCore.lane 0 j).fifo.length +
      ((lensed lens0 lens1 { Core.reset with lanes := [(63, fullLane)] } runs).myCore.lane 0 j).inFlight < 32) ∧
    laneTrap fused2.me.fpctl ((List.range 64).map fun k => (k, (0 : Flags))) = none ∧
    ((flying (.push 3 [(63, token1)])).slot ⟨0, 0⟩).gate = .fromTurn 0 := by decide +kernel

/-- A loop that nests badly, a node that runs, a side that is not synchronised, and a list that waits. -/
theorem witness_TileStepListsRun_waits :
    (let l := running (rowOf 1 (2 * 2 ^ 100)) [(2, 0, 1)];
      l.seq.loops = [(2, 0, 1)] ∧ (2 : Nat) ≠ l.seq.row ∧ (2 : Nat) ≤ l.seq.row ∧ Row.tgt l.seq.cur < l.seq.row) ∧
    (running (rowOf 1 (2 * 2 ^ 100)) []).seq.loops = [] ∧
    (let s := { state3 (running (rowOf 2 0) []) with cores := [(0, { Core.reset with nodes := [(0, { Node.reset with st := .armed })] })] };
      ((s.core (s.lens 0).origin).node 0).st = .armed ∧ (s.lens 0).ready = true) ∧
    (state3 { lens0 with queue := [⟨0, 0, 0⟩] } |>.lens 0).queue = [⟨0, 0, 0⟩] := by decide +kernel

/-- A load to entry 0 of the own window that has not performed. -/
def unperformed : Access :=
  ⟨4, .store, 16, false, 0, 8, false, 0, 0, 0, 0, none, 0, 0, 0, 3, 0, 0, 10, 0, 0, .sent, 0, false, []⟩

def amoAt (ea : Word) : Access :=
  ⟨4, .amo, ea, false, 0, 8, false, 0, 0, 0, 0, none, 0, 0, 0, 3, 0, 0, 10, 0, 0, .held, 0, false, []⟩

/-- A SEND behind an AMO of its slot, and of bytes with an uncorrectable error. -/
theorem witness_MessagesComplete_source :
    (let s := sending 0x3C0000 8 0x8000000000000001 [];
      s.hasErr (s.myCore.winKey 0x3C0000) 8 = false ∧ s.me.life ≠ .unbound ∧
        ({ s with memErr := [s.myCore.winKey 0x3C0000] } : State).hasErr (s.myCore.winKey 0x3C0000) 8 = true) ∧
    ((amoAt 0x3C0000).overlaps ((sending 0x3C0000 8 0x8000000000000001 []).sourceAccess 0x3C0000 8) = true ∧
      (amoAt 0x3C0000).isPerformed = false) := by decide

/-- Heads of a send queue: with a route, with a name cached, unmapped, not known yet and frozen. -/
theorem witness_MessagesComplete_heads :
    (let s := sending 0 8 0x8000000000000001 [msg1];
      s.lookup 0 msg1.name = .hit 1 ∧ (∀ k, k < 8 → (s.slot ⟨0, k⟩).pends = []) ∧ s.cutOff 0 1 = false) ∧
    ({ sending 0 8 1 [msg1] with fw := { Firmware.reset with deadRouters := [1] } } : State).cutOff 0 1 = true ∧
    (let s := sending 0 8 1 [msg1];
      msg1.dst = none ∧ msg1.slot < 8 ∧ s.lookup 0 msg1.name ≠ .miss) ∧
    (let s := onCore0 { Core.reset with sendq := [msg1], walks := [0] } runs;
      s.lookup 0 msg1.name = .miss ∧ msg1.name ∈ (s.core 0).walks) ∧
    (lone { Core.reset with ncache := [(0, 0xC000000000000001)], sendq := [msg1] }).lookup 0 msg1.name = .frozen ∧
    ((with0 runs).core 0).sendq = [] := by decide

/-- A message longer than its buffer, too early, too late, and with no receive armed; receives that expire or not. -/
theorem witness_MessagesComplete_kinds :
    (let s := receiving ⟨some (recv1 true 40 146), 0, false⟩ true 9;
      s.packet? 7 = some ⟨7, 1, 0, 0, 0, 0, 0, .message 0 (List.replicate 9 1) 0 5, false, false⟩ ∧
        s.seqFate ⟨7, 1, 0, 0, 0, 0, 0, .message 0 (List.replicate 9 1) 0 5, false, false⟩ = .perform ∧
        (recv1 true 40 146).len < (List.replicate 9 (1 : Byte)).length ∧ (s.cycle 0).toNat ≤ (recv1 true 40 146).last.toNat) ∧
    ((receiving ⟨some (recv1 true 200 300), 0, false⟩ true 8).cycle 0).toNat < (200 : Word).toNat ∧
    ((recv1 false 0 0).placed = false ∧ (recv1 true 40 99).placed = true ∧
      (99 : Word).toNat < ((receiving ⟨some (recv1 true 40 99), 0, false⟩ true 8).cycle 0).toNat) := by decide

/-- Notes that wait for a store or for room; a name that walks to another core; slots that wait for both bits. -/
theorem witness_NotifiesComplete_waits :
    (unperformed.isPerformed = false ∧ 2 ≤ (2 : BitVec 3).toNat) ∧
    (sending 0 8 0x8000000000000001 (List.replicate 16 msg1)).myCore.sendq.length = 16 ∧
    (let s := onCore0 { Core.reset with ncache := [(0, 0x8000000000000001)] } (regs 0 1);
      (s.resolveReg (s.me.gr 8) 19).fault = none ∧ s.resolveReg (s.me.gr 8) 19 ≠ .hit s.cur.core ∧ s.myCore.sendq.length < 16 ∧
        s.resolveReg (s.me.gr 8) 16 ≠ .miss) ∧
    (let s := onCore0 Core.reset { runs with life := .waiting, wait := some (.waitn true 3 5), notify := 1 };
      (s.slot ⟨0, 0⟩).life = .waiting ∧ (s.slot ⟨0, 0⟩).flights = [] ∧ (s.slot ⟨0, 0⟩).wait = some (.waitn true 3 5)) ∧
    (0 : BitVec 16) ∉ ((with0 runs).core 0).walks ∧ ((with0 runs).slot ⟨0, 0⟩).wait = none := by decide

/-- The core of a task whose group 0 is all of its frame, on two dies; a store that its barrier must wait for. -/
def joint : State :=
  { onCore0 { Core.reset with task := some 0, latch := 1 } runs with
    fe := { FrontEnd.reset with
      tasks := taskOf { BindRec.none with bargrp := 0xFF }
      spaces := [(0, { Space.reset with dieset := 3 })] } }

theorem witness_BarriersAndHeartbeats_dies :
    ((joint.core 0).arrived 0 = true ∧ joint.manyDies 0 0 = true ∧ (joint.core 0).task = some 0 ∧
      joint.groupDone 0 (groupCores (joint.recOf 0) 0 0) = true ∧ joint.announced 0 (joint.groupOf 0).2 0 = false) ∧
    (unperformed.isPerformed = false ∧ 2 ≤ (groupScope (joint.manyDies 0 0) (groupCores (joint.recOf 0) 0 0)).toNat) ∧
    ((with0 { runs with gate := .stalled ⟨none, [], [], .panel (some 0)⟩ }).slot ⟨0, 0⟩).gate =
      .stalled ⟨none, [], [], .panel (some 0)⟩ := by decide

/-- Lenses and AGs of the other clauses: an AG that waits with its lens, a gate that is closed, a lens whose list runs. -/
theorem witness_LensAgentsAct_more :
    (let s := lensed takingLens lens1 { Core.reset with lanes := [(0, { Lane.reset with fifo := [⟨false, 7, 1⟩] })] } runs;
      s.presents takingLens 0 0 = some ⟨1000, 1000, 0, false, false, 0, 0, 0⟩ ∧ Lane.reset.conv.bad = false) ∧
    (state3 { lens0 with st := .edgeWait } |>.lens 0).st = .edgeWait ∧
    ({ agCore { AG.reset with st := .run, desc := agIn } with gates := 1 } : Core).gates.getLsbD agIn.edge = true ∧
    (let l := { running (rowOf 0 0) [] with kept := some event0E, freezing := true };
      l.seq.active = true ∧ l.kept = some event0E ∧ event0E.fcyc + l.skMax event0E < l.acyc ∧ l.queue = []) := by decide +kernel

/-- Descriptors that an AMO or a store of the slot has not reached yet; quantisers whose descriptor is refused. -/
theorem witness_GraphInstructionsComplete_opens :
    (let s := described (wakeDesc 2) [] { runs with accs := [amoAt 0] };
      (amoAt 0).overlaps (s.sourceAccess 0 32) = true ∧ (amoAt 0).isPerformed = false ∧ s.me.accs = [amoAt 0] ∧
        (s.me.gr 8).toNat % 32 = 0 ∧ s.myCore.freeNode = some 0) ∧
    ((copyAt (described (copyDesc 0 0x90) [] runs)).defect 2 ≠ none ∧ (copyAt (described (copyDesc 0 0x90) [] runs)).dft = 9) ∧
    ((copyAt (described (copyDesc 1 0x50) [] runs)).defect 2 ≠ none ∧ (copyAt (described (copyDesc 1 0x50) [] runs)).dft = 5) := by
  decide +kernel

/-- Edges from a node that is done, well or not, or freed, to one that is armed. -/
theorem witness_GraphInstructionsComplete_good :
    (let x := (edges (nodeIn .done) (nodeIn .armed)).myCore;
      (x.node 8).st = .done ∧ (x.node 8).status = 0 ∧ (8 : Nat) ≠ 7 ∧ (x.node 7).st = .armed ∧ (x.node 7).ending = false) ∧
    (let x := (edges { nodeIn .done with status := 0xF5 } (nodeIn .armed)).myCore;
      (x.node 8).st = .done ∧ (x.node 8).status ≠ 0 ∧ (x.node 7).st = .armed ∧ (x.node 7).ending = false) ∧
    (let x := (edges (nodeIn .armed) (nodeIn .armed)).myCore;
      (x.node 8).succ.length < 4 ∧ (x.node 7).st = .armed) := by decide +kernel

/-- A completion with no object; one that tells a slot; a killed copy; a queue of one node; a release by name. -/
theorem witness_GraphWorkCompletes_more :
    ({ nodeIn .running with ending := true, comp := 0 } : Node).comp = 0 ∧
    (let s := finishing (finOf 0 (some (0, 3)) []) (nodeIn .done) (nodeIn .armed);
      (s.core 0).fins = [finOf 0 (some (0, 3)) []] ∧ (s.slot ⟨0, 0⟩).flights = []) ∧
    (let s := onCore0 { Core.reset with fins := [finOf 0 (some (0, 3)) []], nodes := [(7, nodeIn .armed), (8, nodeIn .done)] } runs;
      (s.slot ⟨0, 0⟩).wait = none ∧ ((s.core 0).node 8).ending = false) ∧
    (finOf 0xF5 none [7]).status ≠ 0 ∧
    ((unitQueue 7 0x8000000000000001).resolve 0 0 = .hit 1) ∧
    ((releasing true).core 1 |>.node 3).st = .free ∧
    (({ releasing true with cores := [(1, { Core.reset with nodes := [(3, nodeIn .running)] })] } : State).core 1 |>.node 3).st ≠ .free := by
  decide +kernel

/-- A 16-byte access at a bank of core 1, in one part or in two. -/
def wide (k : AccKind) : Access := { access1 k .sent with size := 16 }

theorem witness_SlotAndMeshEvents_wide :
    (let s := meshed (wide .load) (wide .load) false held5;
      s.packets = [packet1 (wide .load) false] ∧ (s.slot ⟨0, 0⟩).accs = [wide .load] ∧ (wide .load).ea.toNat % 16 = 0 ∧
        s.hasErr ((s.core 1).winKey (wide .load).ea) 16 = false ∧ s.extra = [] ∧
        ({ s with extra := [3] } : State).extra = 3 :: []) ∧
    (wide .store).kind = .store ∧ bmWp ((meshed (wide .store) (wide .store) false held5).core 1 |>.bm (eaEntry (wide .store).ea)) = false ∧
    (meshed (wide .load) (wide .load) false held5).cutOff 0 1 = false ∧
    ((with0 runs).slot ⟨0, 0⟩).due = [] ∧ ({ deferring .running 0 with h := true } : Slot).h = true ∧
    ((with0 runs).core 0).done = ((with0 runs).core 0).issued := by decide +kernel

def agWalkOf (write : Bool) : Walk := ⟨3, 0, 0, 0, write, .ag 0 0⟩

/-- An extent of the page at virtual address 0 and one of the page above, in a core that holds both in its TLB. -/
def extents : Core :=
  { Core.reset with
    tlb := [⟨0, 0, 16, 0x30000, true, true⟩, ⟨0, 0x10000, 16, 0x40000, true, true⟩]
    ags := [(0, { AG.reset with walk := some 0, got := some (extentFor 0 0x30000 16),
                                ext := [extentFor 0 0x30000 16, extentFor 0x10000 0x40000 16, 0], st := .starve })] }

/-- Walks of an AG, allowed and not; a moved page read and written; extents and TLB entries inside a range and outside. -/
theorem witness_TranslationAndRetirement_ags :
    (let s := mapped 0x3000D Space.reset walking [agWalkOf true];
      s.fe.walks = [agWalkOf true] ∧ (agWalkOf true).who = .ag 0 0 ∧ ((s.core 0).ag 0).walk.isSome = true ∧
        s.findLeaf (s.space (agWalkOf true).asid).root.toNat (agWalkOf true).va = some (leafOf 0x3000D)) ∧
    ((mapped 0x30005 Space.reset walking [agWalkOf true]).findLeaf 0 0 = some (leafOf 0x30005) ∧ (0x30005 : Word).getLsbD 3 = false ∧
      (0x30005 : Word).getLsbD 1 = false ∧ (0x30005 : Word).getLsbD 2 = true ∧ (mapped 0x3000C Space.reset walking [agWalkOf false]).findLeaf 0 0 = none) ∧
    (((mapped 0x3000F Space.reset walking [nodeWalk true]).core 0).node 8).st ≠ .free ∧
    (let g := (onCore0 extents runs).core 0 |>.ag 0;
      g.got = some (extentFor 0 0x30000 16) ∧ (g.ext.filter fun x => x.getLsbD 127).length = 2 ∧ g.st = .starve ∧
        ({ g with ext := List.replicate 16 (extentFor 0 0x30000 16) } : AG).ext.length = 16) ∧
    (let e : TlbEntry := ⟨0, 0x10000, 16, 0x40000, true, true⟩;
      e ∈ extents.tlb ∧ 0x10000 < (0xFFFF : Word).toNat + 2 ∧ (0xFFFF : Word).toNat < e.va.toNat + 2 ^ e.bits ∧
        ¬e.va.toNat < (0xFFFF : Word).toNat + 1) ∧
    ((lone extents).core 0).task = some 0 := by decide +kernel

/-- A lens with a held write of its core's AG at virtual address 8. -/
def holding : State :=
  { lone Core.reset with lenses := [(3, { lens0 with open_ := [{ inv0 with segs := [⟨0, 0, 2, 8, [1], []⟩] }] })] }

theorem witness_TranslationAndRetirement_held :
    holding.heldSegs 0 0 65536 ≠ [] ∧ holding.heldSegs 0 0x10000 65536 = [] ∧ ((holding.space 0).moving = []) := by decide +kernel

/-- A booted die whose one task's core retires, at rest or within a vector word. -/
def retiring (sl : Slot) : State :=
  { onCore0 { Core.reset with task := some 0, wheel := 8 } sl with
    fe := { FrontEnd.reset with tasks := taskOf BindRec.none }
    fw := { Firmware.reset with booted := true } }

theorem witness_TranslationAndRetirement_retires :
    ((retiring runs).core 0).beatsLeft = false ∧ (retiring runs).fw.booted = true ∧ ((retiring runs).core 0).retired = false ∧
      ((retiring runs).core 0).task = some 0 ∧ ((retiring runs).queue ((retiring runs).task 0).queue).notice = 0 ∧
      ((retiring { runs with vecFree := 4096 }).core 0).beatsLeft = true ∧ State.reset.fw.booted = false := by decide +kernel

/-- An OPEN that waits before the PIFO; a configuration while a queue is enabled; an entry that leaves; the end of a WAIT's slice. -/
theorem witness_QueuesAndPifo_more :
    (let s := fronted (queueOf 1 0) served0 [];
      ({ s with fe := { s.fe with pushes := [(0, 0, 0, none)] } } : State).fe.pushes ≠ [] ∧ s.threadOf 0 = some 0 ∧ s.fe.pushes = []) ∧
    (queueOf 0 0).en = true ∧ Queue.reset.en = false ∧ ({ queueOf 0 0 with loc := 2 } : Queue).loc.toNat = 2 ∧
    ((0 : Word).getLsbD 0 = false ∧ (queueOf 0 0).tail = (queueOf 0 0).head) ∧
    ((fronted Queue.reset [] []).entry? 4 = none) ∧
    ((fronted Queue.reset [] [entryOf (pkt [6]) false]).fe.order.head? = some (entryOf (pkt [6]) false)) ∧
    (let s := fronted Queue.reset [] [entryOf (pkt [6]) true];
      s.entry? 4 = some (entryOf (pkt [6]) true) ∧ (entryOf (pkt [6]) true).leaving = true ∧ s.fe.pushes = []) ∧
    (4096 ≤ (waiting0 4096 (waitOn 1 5)).now - ((waiting0 4096 (waitOn 1 5)).queue 0).waitSince) := by decide +kernel

/-- A KILL of a task that has ended and of one that has not; writes of the old translation before MAP; words that do not name a load. -/
theorem witness_PacketsAreCarriedOut_more :
    (let s := carrying (pkt [7]) [9];
      (s.entry? 4 = some (entryOf (pkt [7]) true)) ∧ Tab.find (s.killTask 0).fe.tasks 0 = none) ∧
    (let s : State := { tasked .running (kernel0 true) none Core.reset runs with mem := [] };
      (Tab.find s.fe.tasks 0).isSome = true ∧ Tab.find (s.killTask 0).fe.tasks 0 ≠ none) ∧
    (State.reset.fe.loads.find? (fun k => k.id == 7) = none) ∧
    (let s := { State.reset with fe := { FrontEnd.reset with loads := [load1 [none] 1] } };
      s.fe.loads.find? (fun k => k.id == (load1 [none] 1).id) = some (load1 [none] 1) ∧ (load1 [none] 1).tries.getD 0 0 < 2 ∧
        (∀ f ∈ setNth (load1 [none] 1).fetched 0 (some []), f.isSome = true)) := by decide +kernel

/-- A LAUNCH behind another of its queue; a kernel that fits nowhere; a task that resumes, on a core that is retired or not. -/
theorem witness_PlacementAndDispatch_more :
    (let s := launching [] { launchEntry 255 0 none with id := 5, rank := 1 } [] Core.reset Slot.reset;
      let u : State := { s with fe := { s.fe with pifo := launchEntry 255 0 none :: s.fe.pifo } };
      (u.fe.order.takeWhile fun x => x.id != 5).map (·.queue) = [0] ∧ FePacket.type (launchPkt 255 0) = 0) ∧
    (originsFor (pkt [0]) 24 33 = [] ∧ FePacket.pin (pkt [0]) = false) ∧
    (let s := tasked .suspended (kernel0 true) (some (saved0 Core.reset)) { Core.reset with retired := true } Slot.reset;
      (s.task 0).saved = some (saved0 Core.reset) ∧ ∃ p ∈ (saved0 Core.reset).cores, (s.core p.1).retired = true) ∧
    (let s := tasked .suspended (kernel0 true) (some (saved0 Core.reset)) Core.reset Slot.reset;
      s.resumable 0 (saved0 Core.reset) = true ∧ ∀ c ∈ frameCores (s.task 0).rec_, s.holder c = none) ∧
    (let s := tasked .running (kernel0 true) none Core.reset { runs with life := .faulted, fcause := 5 };
      let u : State := { s with fe := { s.fe with tasks := taskIn .running (kernel0 true) 1 2 none },
                                clusters := [(0, { Cluster.reset with cls := true })] };
      u.stopped 0 = true ∧ u.rebinds 0 = true) := by decide +kernel

/-- Tasks in each state of a pre-emption, with the room of the PIFO and a victim whose vector word has beats left. -/
theorem witness_PreemptionComplete_more :
    ((draining 2 255).policy (kernel0 true) BindRec.none 0 true = .drain) ∧
    (let s := tasked .killing (kernel0 true) none Core.reset runs;
      (s.task 0).st = .killing ∧ s.killable 0 = true) ∧
    (let s := tasked .killing (kernel0 true) none { Core.reset with wheel := 8 } { runs with vecFree := 4096 };
      s.killable 0 = false) ∧
    ((tasked .placed (kernel0 true) none Core.reset runs).task 0).st = .placed ∧
    ((tasked .checkpointing (kernel0 true) none Core.reset runs).fe.inside.length < 4096) ∧
    (let s := tasked .placed (kernel0 true) (some (saved0 resting)) { Core.reset with sendq := [msg1] } Slot.reset;
      (s.core 0).sendq ≠ [] ∧ (s.task 0).saved = some (saved0 resting)) ∧
    ([(0, resting)].map (·.1)).Nodup := by decide +kernel

/-- An OPEN of a configuration whose LAUNCH is in the PIFO; a full buffer; a port whose task drains. -/
theorem witness_HostPortsComplete_more :
    (let e : PifoEntry := { entryOf 0 false with index := 2 ^ 32 };
      let s := ported Ingress.reset [(7, ⟨0, 0, 0, none⟩)] [e];
      (∃ e ∈ s.fe.pifo, e.queue = 0 ∧ e.packet = 0 ∧ e.index = 2 ^ 32) ∧ s.fe.inside.length < 4096) ∧
    (512 ≤ ({ Ingress.reset with buffer := List.replicate 512 ⟨false, 0, 0⟩ } : Ingress).buffer.length) ∧
    (let s := tasked (.draining 4) (kernel0 true) none Core.reset runs;
      ({ s with fe := { s.fe with configs := [(7, ⟨0, 0, 0, some 0⟩)] } } : State).portShut ⟨2, 0, 7, [], [], 0⟩ = true) ∧
    (with0 runs).turnToOpen ⟨0, 0⟩ = false ∧ (asleep .clockGated [(1, 0, 1)]).mailbox ≠ [] ∧
    (∀ m ∈ (asleep .clockGated [(1, 0, 1)]).mailbox, ¬(m.1 = 0 ∧ m.2.1 = bits (0x1 : Word) 16 3)) ∧
    ((quiet 200000000 .clockGated).idleFor 0 200000001 = false) ∧
    (2 ≠ State.reset.fw.die ∧ State.reset.dieKnown 2 = false) := by decide +kernel

/-- A frame to be sent again from a buffer, and one that it does not hold; a dead link beside a packet between two cores. -/
theorem witness_LinksAndServiceComplete_more :
    (let l : Link := { linkIn .up 14 with replay := [(3, 0), (4, 1)] };
      (∃ f ∈ l.replay, f.1 = 4) ∧ ¬∃ f ∈ l.replay, f.1 = 5) ∧
    (∀ k ∈ State.reset.packets, k.dst < 1024) ∧ (State.reset.cutOff 0 1 = false) ∧
    (let s := meshed (access1 .load .sent) (access1 .load .sent) false held5;
      ∀ k ∈ s.packets, k.src < 768 ∧ k.dst < 768) ∧
    (109 < 110 ∧ ((warmed 3 2000000).cluster 0).temp < 95) ∧ ((warmed 4 0).cluster 0).cls ≠ true := by decide +kernel

/-- A die that erases its secrets; one with no valid image; an owner's release and claim; a log of six entries. -/
theorem witness_FirmwareComplete_more :
    ({ firm (image 1) (image 0) with erasing := true } : Firmware).erasing = true ∧
    (¬(firm (image 0) (image 0)).minSvn ≤ (image 0).svn ∧ (firm (image 0) (image 1)).minSvn ≤ (image 1).svn) ∧
    (Firmware.reset.owner.isSome = true ∧ ({ Firmware.reset with owner := none } : Firmware).owner.isSome = false) ∧
    (({ Firmware.reset with log := [(1, 5), (6, 2), (6, 3)] } : Firmware).log = [(1, 5), (6, 2)] ++ (6, 3) :: []) := by decide +kernel

/-- An invocation that ends with no held write, with one of the own window and with one of a virtual address; a write that
reaches its bank; an AG without reads; a frozen list whose node runs and whose AGs have no write under way. -/
theorem witness_LensAgentsAct_stores :
    (let v : Invocation := { inv0 with last := some 500 };
      ({ lens0 with open_ := [v] } : Lens).endedBy v ({ lens0 with open_ := [v] } : Lens).endLimit = true ∧ v.segs = []) ∧
    (let g : Seg := ⟨0, 0, 0, 8, [1], []⟩;
      let v : Invocation := { inv0 with last := some 500, segs := [g] };
      ({ lens0 with open_ := [v] } : Lens).endedBy v ({ lens0 with open_ := [v] } : Lens).endLimit = true ∧ v.segs = [g] ∧ g.space = 0) ∧
    (let g : Seg := ⟨0, 0, 2, 8, [1], [0x30008]⟩;
      ({ inv0 with last := some 500, segs := [g] } : Invocation).segs = [g] ∧ g.space = 2) ∧
    (({ lone Core.reset with agenda := [.segment 0 0 [(8, [1])] 0] } : State).agenda = .segment 0 0 [(8, [1])] 0 :: []) ∧
    (((agCore { AG.reset with st := .run, desc := agIn }).ag 0).lane 0).reads = [] ∧
    (let s := { state3 { running (rowOf 0 0) [] with kept := some event0E, freezing := true } with
        cores := [(0, { Core.reset with nodes := [(0, { Node.reset with st := .running })] })] };
      s.storesWalk 0 ((s.lens 0).open_.map (·.first)) = false ∧ ((s.core (s.lens 0).origin).node (s.lens 0).seq.node).st ≠ .free ∧
        ∀ c ∈ (s.lens 0).cores, ∀ q ∈ (s.core c).ags, q.2.lens = 0 → q.2.pending = 0) := by decide +kernel

/-- An output AG that waits for a walk with a token of an ended invocation in its lane. -/
def storing : State :=
  lensed { lens0 with kept := some event0E, freezing := true } lens1
    { Core.reset with
      ags := [(0, { AG.reset with st := .run, desc := agIn ||| BitVec.ofNat 512 (2 ^ (64 + 53)), lens := 0, walk := some 0 })]
      lanes := [(128, { Lane.reset with fifo := [token1], tags := [(3, 0)] })] } runs

theorem witness_LensAgentsAct_walks : storing.storesWalk 0 ((storing.lens 0).open_.map (·.first)) = true := by decide +kernel

/-- Nodes that run, of a list about to start and of one that has run out; intervals with more to come and the last. -/
theorem witness_TileStepListsRun_nodes :
    (let s := { state3 { lens0 with st := .failed, queue := [⟨0, 0, 0⟩] } with
        cores := [(0, { Core.reset with nodes := [(0, { Node.reset with st := .running })] })] };
      (s.lens 0).queue = [⟨0, 0, 0⟩] ∧ (s.lens 0).st = .failed ∧ ((s.core (coreAt 0 0)).node 0).st ≠ .free) ∧
    (let s := { state3 { running (rowOf 4 0) [] with seq := { Sequencer.reset with active := true, ended := true, node := 5 } } with
        cores := [(0, { Core.reset with nodes := [(5, { Node.reset with st := .running })] })] };
      s.listOver 0 = true ∧ ((s.core (s.lens 0).origin).node 5).st ≠ .free ∧ ((s.core (s.lens 0).origin).node 5).killed = false) ∧
    (let l := running (rowOf 0 0) [];
      l.seq.rowDone = false ∧ l.seq.ofs + 1 = Row.len l.seq.cur ∧ l.seq.rep + 1 = Row.rep l.seq.cur) ∧
    (let l := running (rowOf 0 (2 ^ 84)) [];
      l.ready = true ∧ l.seq.ofs + 1 = Row.len l.seq.cur ∧ l.seq.rep + 1 < Row.rep l.seq.cur) ∧
    (let l := running (rowOf 0 (2 ^ 100)) [];
      l.ready = true ∧ l.seq.ofs + 1 < Row.len l.seq.cur) := by decide +kernel

end Sys2Proof.Tests
end

section
/-! SUPPORT. Which operations on the state leave memory as it is, and that those that write it do so by
`memWriteAll` or by moving lines whole, and so keep its canonical form (R20, R265). The lemmas stand in the
order of the definitions they are about. -/

namespace Sys2Proof.Machine

@[simp] theorem State.mem_ite (c : Prop) [Decidable c] (s t : State) :
    (if c then s else t).mem = if c then s.mem else t.mem := apply_ite State.mem c s t

@[simp] theorem State.foldl_mem {α : Type} {f : State → α → State} (hf : ∀ s a, (f s a).mem = s.mem)
    (l : List α) (s : State) : (l.foldl f s).mem = s.mem := by
  induction l generalizing s with
  | nil => rfl
  | cons a l ih => rw [List.foldl_cons, ih, hf]

theorem State.foldl_wf {α : Type} {f : State → α → State} (hf : ∀ s a, Memory.wf s.mem → Memory.wf (f s a).mem)
    (l : List α) {s : State} (w : Memory.wf s.mem) : Memory.wf (l.foldl f s).mem := by
  induction l generalizing s with
  | nil => exact w
  | cons a l ih => exact ih (hf s a w)

@[simp] theorem Memory.wf_ite (c : Prop) [Decidable c] (m n : List Host.Cell) :
    Memory.wf (if c then m else n) = if c then Memory.wf m else Memory.wf n := apply_ite Memory.wf c m n

@[simp] theorem State.passed_mem (s : State) : s.passed.mem = s.mem := rfl

@[simp] theorem State.issued_mem (s : State) (lat ws) : (s.issued lat ws).mem = s.mem := rfl

@[simp] theorem State.jumped_mem (s : State) (tgt) : (s.jumped tgt).mem = s.mem := rfl

@[simp] theorem State.reported_mem (s : State) (o u c) : (s.reported o u c).mem = s.mem := rfl

@[simp] theorem State.reporting_mem (s : State) (o u) : (s.reporting o u).mem = s.mem := rfl

theorem State.wf_of_pair {α : Type} {p : α × State} {a : α} {u : State} (h : p = (a, u))
    (w : Memory.wf p.2.mem) : Memory.wf u.mem := by
  rwa [h] at w

/-! ### Faults and operations of a slot -/

@[simp] theorem State.takeExtra_mem (s : State) : (s.takeExtra).2.mem = s.mem := by
  unfold State.takeExtra
  split <;> simp

@[simp] theorem State.draw_mem (s : State) : (s.draw).2.mem = s.mem := rfl

@[simp] theorem State.sendRecord_mem (s : State) (r) : (s.sendRecord r).mem = s.mem := rfl

@[simp] theorem State.takeFault_mem (s : State) (r dfr cause epc addr info) :
    (s.takeFault r dfr cause epc addr info).mem = s.mem := by
  simp [State.takeFault]

@[simp] theorem State.precise_mem (s : State) (cause addr info) : (s.precise cause addr info).mem = s.mem := by
  simp [State.precise]

@[simp] theorem State.countError_mem (s : State) (u) : (s.countError u).mem = s.mem := rfl

@[simp] theorem State.prismError_mem (s : State) (c u) : (s.prismError c u).mem = s.mem := rfl

@[simp] theorem State.guarded_mem (s : State) (h) {body : State → State} (hb : (body s).mem = s.mem) :
    (s.guarded h body).mem = s.mem := by simp [State.guarded, hb]

@[simp] theorem State.memoryError_mem (s : State) (a) : (s.memoryError a).mem = s.mem := by
  simp [State.memoryError]

@[simp] theorem State.winPoke_mem (s : State) (c ea bs) :
    (s.winPoke c ea bs).mem = memWriteAll s.mem ((s.core c).winKey ea) bs := rfl

/-! ### Transfers of control -/

@[simp] theorem State.goto_mem (s : State) (tgt link pops) : (s.goto tgt link pops).mem = s.mem := by
  unfold State.goto
  (repeat' split) <;> simp

@[simp] theorem State.loopWord_mem (s : State) (count off) : (s.loopWord count off).mem = s.mem := by
  simp [State.loopWord]

@[simp] theorem State.breakClaimed_mem (s : State) (info) : (s.breakClaimed info).mem = s.mem := rfl

/-! ### The turn of a slot -/

@[simp] theorem State.openTurn_mem (s : State) (r rest) : (s.openTurn r rest).mem = s.mem := by
  simp [State.openTurn]

@[simp] theorem State.weighFaults_mem (s : State) (r) : (s.weighFaults r).mem = s.mem := by
  unfold State.weighFaults
  dsimp only
  (repeat' split) <;> simp

@[simp] theorem State.issuing_mem (s : State) : (s.issuing).mem = s.mem := rfl

theorem State.fetch_error_mem {s u : State} (h : s.fetch = .error u) : u.mem = s.mem := by
  unfold State.fetch at h
  dsimp only at h
  split at h
  · simpa using congrArg State.mem (Except.error.inj h).symm
  · split at h
    · simpa using congrArg State.mem (Except.error.inj h).symm
    · split at h
      · cases h
      · simpa using congrArg State.mem (Except.error.inj h).symm

/-! ### System registers -/

@[simp] theorem State.writeSr_mem (s : State) (r n op v) : (s.writeSr r n op v).mem = s.mem := rfl

@[simp] theorem State.applyWrite_mem (s : State) (r w') : (s.applyWrite r w').mem = s.mem := by
  unfold State.applyWrite
  split <;> simp

@[simp] theorem State.applyWrites_mem (s : State) (r ws) : (s.applyWrites r ws).mem = s.mem := by
  simp [State.applyWrites]

@[simp] theorem State.setWheel_mem (s : State) (c new) : (s.setWheel c new).mem = s.mem := rfl

@[simp] theorem State.superWheel_mem (s : State) (c new) : (s.superWheel c new).mem = s.mem := by
  simp [State.superWheel]

@[simp] theorem State.notify_mem (s : State) (r mask) : (s.notify r mask).mem = s.mem := rfl

/-! ### Mesh and packets -/

@[simp] theorem State.modLink_mem (s : State) (p f) : (s.modLink p f).mem = s.mem := rfl

@[simp] theorem State.useName_mem (s : State) (c n) : (s.useName c n).mem = s.mem := rfl

@[simp] theorem State.laterX_mem (s : State) (d i) : (s.laterX d i).mem = s.mem := by
  simp [State.laterX]

@[simp] theorem State.laterWithin_mem (s : State) (lo hi i) : (s.laterWithin lo hi i).mem = s.mem := by
  simp [State.laterWithin]

@[simp] theorem State.newWalk_mem (s : State) (c n) : (s.newWalk c n).mem = s.mem := by
  simp [State.newWalk]

@[simp] theorem State.startWalk_mem (s : State) (c n) : (s.startWalk c n).mem = s.mem := by
  simp [State.startWalk]

@[simp] theorem State.nodeEndIn_mem (s : State) (d c n status detail) :
    (s.nodeEndIn d c n status detail).mem = s.mem := by
  simp [State.nodeEndIn]

@[simp] theorem State.nodeEnd_mem (s : State) (c n status detail) :
    (s.nodeEnd c n status detail).mem = s.mem := by
  simp [State.nodeEnd]

@[simp] theorem State.takeSeq_mem (s : State) (src dst) : (s.takeSeq src dst).2.mem = s.mem := rfl

@[simp] theorem State.sendFrame_mem (s : State) (die pkt) : (s.sendFrame die pkt).mem = s.mem := by
  unfold State.sendFrame
  split <;> simp

@[simp] theorem State.stage_mem (s : State) (src dst slot pc name g) :
    (s.stage src dst slot pc name g).2.mem = s.mem := by
  unfold State.stage
  dsimp only
  (repeat' split) <;> simp

@[simp] theorem State.modPacket_mem (s : State) (id f) : (s.modPacket id f).mem = s.mem := rfl

@[simp] theorem State.dropPacket_mem (s : State) (id) : (s.dropPacket id).mem = s.mem := rfl

@[simp] theorem State.backPort_mem (s : State) (bank d) : (s.backPort bank d).mem = s.mem := rfl

@[simp] theorem State.deliver_mem (s : State) (p) : (s.deliver p).mem = s.mem := by
  unfold State.deliver
  split <;> simp

@[simp] theorem State.park_mem (s : State) (p) : (s.park p).mem = s.mem := by
  simp [State.park]

@[simp] theorem State.accepted_mem (s : State) (p) : (s.accepted p).mem = s.mem := by
  unfold State.accepted
  dsimp only
  (repeat' split) <;> simp

/-! ### Floating words -/

@[simp] theorem State.fpResult_mem (s : State) (lat w' f) : (s.fpResult lat w' f).mem = s.mem := by
  unfold State.fpResult
  split <;> simp

/-! ### Events of a slot -/

@[simp] theorem State.takeDueFault_mem (s : State) (r f) : (s.takeDueFault r f).mem = s.mem := by
  simp [State.takeDueFault]

/-! ### Accesses to memory -/

@[simp] theorem State.useFront_mem (s : State) (r bank) : (s.useFront r bank).mem = s.mem := rfl

@[simp] theorem State.performAt_wf {s : State} (tgt earlier a) (w : Memory.wf s.mem) :
    Memory.wf (s.performAt tgt earlier a).1.mem := by
  unfold State.performAt
  dsimp only
  (repeat' split) <;> simp [w, Memory.wf_writeAll]

@[simp] theorem State.performHalf_wf {s : State} (tgt earlier a high) (w : Memory.wf s.mem) :
    Memory.wf (s.performHalf tgt earlier a high).1.mem := by
  unfold State.performHalf
  dsimp only
  (repeat' split) <;> simp [w]

@[simp] theorem State.performNext_wf {s : State} (tgt earlier a) (w : Memory.wf s.mem) :
    Memory.wf (s.performNext tgt earlier a).2.1.mem := by
  unfold State.performNext
  dsimp only
  (repeat' split) <;> simp [w]

@[simp] theorem State.deferAcc_mem (s : State) (r a cause addr info withDist) :
    (s.deferAcc r a cause addr info withDist).mem = s.mem := rfl

@[simp] theorem State.refuseAcc_mem (s : State) (r a info) : (s.refuseAcc r a info).mem = s.mem := rfl

@[simp] theorem State.sendAcc_mem (s : State) (r a dst) : (s.sendAcc r a dst).mem = s.mem := by
  simp [State.sendAcc]

@[simp] theorem State.routeAcc_mem (s : State) (r a) : (s.routeAcc r a).mem = s.mem := by
  unfold State.routeAcc
  split <;> simp

@[simp] theorem State.lateWrite_mem (s : State) (r a arrive) : (s.lateWrite r a arrive).mem = s.mem := rfl

@[simp] theorem State.landLocal_mem (s : State) (r a b) : (s.landLocal r a b).mem = s.mem := by
  unfold State.landLocal
  split <;> simp

@[simp] theorem State.performLocal_wf {s : State} (r a) (w : Memory.wf s.mem) :
    Memory.wf (s.performLocal r a).mem := by
  unfold State.performLocal
  dsimp only
  split
  · (repeat' split) <;> simp [w]
  · have hp := State.performNext_wf r.core ((s.slot r).accs.filter fun e => decide (e.id < a.id)) a w
    split <;> simp_all

@[simp] theorem State.launchAcc_wf {s : State} (r a) (w : Memory.wf s.mem) :
    Memory.wf (s.launchAcc r a).mem := by
  simp [w, State.launchAcc]

@[simp] theorem State.launchHeld_wf {s : State} (a a1) (w : Memory.wf s.mem) :
    Memory.wf (State.launchHeld a a1 s).mem := by
  fun_induction State.launchHeld a a1 s <;> simp_all

@[simp] theorem State.endStall_mem (s : State) (r) : (s.endStall r).mem = s.mem := rfl

@[simp] theorem State.stallStage_mem (s : State) (r e) : (s.stallStage r e).mem = s.mem := by
  unfold State.stallStage
  split <;> simp

@[simp] theorem State.settleStall_mem (s : State) (r) : (s.settleStall r).mem = s.mem := by
  unfold State.settleStall
  dsimp only
  (repeat' split) <;> simp

@[simp] theorem State.enqueue_mem (s : State) (c m) : (s.enqueue c m).mem = s.mem := by
  simp [State.enqueue]

@[simp] theorem State.sendNote_mem (s : State) (r name dst tslot mask scope stamp pc) :
    (s.sendNote r name dst tslot mask scope stamp pc).mem = s.mem := by
  simp [State.sendNote]

@[simp] theorem State.giveReleased_mem (s : State) (c id) : (s.giveReleased c id).mem = s.mem := by
  unfold State.giveReleased
  split <;> simp

@[simp] theorem State.doRelease_mem (s : State) (r a) : (s.doRelease r a).mem = s.mem := by
  unfold State.doRelease
  split <;> simp

@[simp] theorem State.settlePends_mem (s : State) (r) : (s.settlePends r).mem = s.mem := by
  simp [State.settlePends]

@[simp] theorem State.settle_wf {s : State} (r) (w : Memory.wf s.mem) : Memory.wf (s.settle r).mem := by
  unfold State.settle
  dsimp only
  (repeat' split) <;> simp [w]

@[simp] theorem State.releaseThen_mem (s : State) (scp act) : (s.releaseThen scp act).mem = s.mem := by
  simp [State.releaseThen]

@[simp] theorem State.otherHalf_wf {s : State} (core slot id) (w : Memory.wf s.mem) :
    Memory.wf (s.otherHalf core slot id).mem := by
  unfold State.otherHalf
  dsimp only
  (repeat' split) <;> simp [w]

@[simp] theorem State.issueAccess_wf {s : State} (a) (w : Memory.wf s.mem) :
    Memory.wf (s.issueAccess a).mem := by
  unfold State.issueAccess
  dsimp only
  (repeat' split) <;> simp [w]

@[simp] theorem State.endWindow_mem (s : State) (r a) : (s.endWindow r a).mem = s.mem := by
  unfold State.endWindow
  cases a.st with
  | arrived => dsimp only; split <;> simp
  | _ => simp

@[simp] theorem State.answer_wf {s : State} (r b) (w : Memory.wf s.mem) : Memory.wf (s.answer r b).mem := by
  unfold State.answer
  (repeat' split) <;> simp [w]

@[simp] theorem State.meetTarget_wf {s : State} (tgt earlier a) (w : Memory.wf s.mem) :
    Memory.wf (s.meetTarget tgt earlier a).2.1.mem := by
  unfold State.meetTarget
  dsimp only
  (repeat' split) <;> simp [w]

@[simp] theorem State.agRefused_mem (s : State) (c n detail a bank) :
    (s.agRefused c n detail a bank).mem = s.mem := rfl

@[simp] theorem State.meetSegment_wf {s : State} (tgt ea parts) (w : Memory.wf s.mem) :
    Memory.wf (s.meetSegment tgt ea parts).1.mem := by
  unfold State.meetSegment
  dsimp only
  split
  · exact w
  · exact State.foldl_wf (fun s p w => by simp [w, Memory.wf_writeAll]) _ w

@[simp] theorem State.retry_mem (s : State) (p) : (s.retry p).mem = s.mem := rfl

@[simp] theorem State.arriveAccess_wf {s : State} (p a) (w : Memory.wf s.mem) :
    Memory.wf (s.arriveAccess p a).mem := by
  unfold State.arriveAccess
  dsimp only
  (repeat' split) <;> simp [w]

@[simp] theorem State.arriveSegment_wf {s : State} (p ag ea parts) (w : Memory.wf s.mem) :
    Memory.wf (s.arriveSegment p ag ea parts).mem := by
  unfold State.arriveSegment
  dsimp only
  (repeat' split) <;> simp [w]

@[simp] theorem State.arriveRead_mem (s : State) (p ag lane rd ea n sc) :
    (s.arriveRead p ag lane rd ea n sc).mem = s.mem := by
  simp [State.arriveRead]

/-! ### Banks -/

@[simp] theorem State.startGive_mem (s : State) (c g res) : (s.startGive c g res).mem = s.mem := by
  unfold State.startGive
  split <;> simp

@[simp] theorem State.reserveGive_mem (s : State) (c k) : (s.reserveGive c k).mem = s.mem := rfl

@[simp] theorem State.freeGive_mem (s : State) (c g) : (s.freeGive c g).mem = s.mem := rfl

@[simp] theorem State.endGive_mem (s : State) (c g status) : (s.endGive c g status).mem = s.mem := by
  unfold State.endGive
  split <;> simp

@[simp] theorem State.refuseGive_mem (s : State) (c g status) : (s.refuseGive c g status).mem = s.mem := by
  simp [State.refuseGive]

@[simp] theorem State.admitGive_mem (s : State) (core g) : (s.admitGive core g).mem = s.mem := by
  simp [State.admitGive]

@[simp] theorem State.askQuery_mem (s : State) (r own ea rt pc) : (s.askQuery r own ea rt pc).mem = s.mem := by
  unfold State.askQuery
  split <;> simp

@[simp] theorem State.queryDone_mem (s : State) (r rt v at_) : (s.queryDone r rt v at_).mem = s.mem := rfl

@[simp] theorem State.farQuery_mem (s : State) (r v) : (s.farQuery r v).mem = s.mem := by
  unfold State.farQuery
  split <;> simp

/-! ### Messages and notifies -/

@[simp] theorem State.countMiss_mem (s : State) (res) : (s.countMiss res).mem = s.mem := by
  simp [State.countMiss]

@[simp] theorem State.useResolved_mem (s : State) (n res) : (s.useResolved n res).mem = s.mem := by
  unfold State.useResolved
  split <;> simp

@[simp] theorem State.discardMsg_mem (s : State) (c m info) : (s.discardMsg c m info).mem = s.mem := by
  simp [State.discardMsg]

@[simp] theorem State.settleNotes_mem (s : State) (c) : (s.settleNotes c).mem = s.mem := by
  simp [State.settleNotes]

@[simp] theorem State.leave_mem (s : State) (c dst m) : (s.leave c dst m).mem = s.mem := by
  simp [State.leave]

@[simp] theorem State.arm_mem (s : State) (n r) : (s.arm n r).mem = s.mem := rfl

@[simp] theorem State.fault07_mem (s : State) (c slot addr info) :
    (s.fault07 c slot addr info).mem = s.mem := by
  simp [State.fault07]

@[simp] theorem State.disarm_mem (s : State) (c n late) : (s.disarm c n late).mem = s.mem := rfl

@[simp] theorem State.expire_mem (s : State) (c n) : (s.expire c n).mem = s.mem := by
  unfold State.expire
  split <;> simp

@[simp] theorem State.arrive_wf {s : State} (p n bs stamp src) (w : Memory.wf s.mem) :
    Memory.wf (s.arrive p n bs stamp src).mem := by
  unfold State.arrive
  dsimp only
  (repeat' split) <;> simp [w, Memory.wf_writeAll]

@[simp] theorem State.wakeAccs_wf {s : State} (r n) (w : Memory.wf s.mem) : Memory.wf (s.wakeAccs r n).mem := by
  simp [w, State.wakeAccs]

@[simp] theorem State.wakeQuery_mem (s : State) (r n) : (s.wakeQuery r n).mem = s.mem := by
  unfold State.wakeQuery
  split <;> simp

@[simp] theorem State.wakeGive_mem (s : State) (c g) : (s.wakeGive c g).mem = s.mem := by
  unfold State.wakeGive
  (repeat' split) <;> simp

@[simp] theorem State.wakeSeg_mem (s : State) (p) : (s.wakeSeg p).mem = s.mem := by
  unfold State.wakeSeg
  (repeat' split) <;> simp

@[simp] theorem State.wakeName_wf {s : State} (c n) (w : Memory.wf s.mem) : Memory.wf (s.wakeName c n).mem := by
  have h8 : Memory.wf ((List.range 8).foldl (fun s k => (s.wakeAccs ⟨c, k⟩ n).wakeQuery ⟨c, k⟩ n) s).mem :=
    State.foldl_wf (fun s k w => by simp [w]) _ w
  unfold State.wakeName
  dsimp only
  (repeat' split) <;> simp [h8]

@[simp] theorem State.invalidateName_wf {s : State} (c n) (w : Memory.wf s.mem) :
    Memory.wf (s.invalidateName c n).mem := by
  simp [w, State.invalidateName]

@[simp] theorem State.invalidateTask_wf {s : State} (t n) (w : Memory.wf s.mem) :
    Memory.wf (s.invalidateTask t n).mem := by
  unfold State.invalidateTask
  exact State.foldl_wf (fun s a w => by simp [w]) _ (by simp [w])

@[simp] theorem State.resendAll_mem (s : State) : (s.resendAll).mem = s.mem := by
  simp [State.resendAll]

@[simp] theorem State.fault3A_mem (s : State) (p acc addr) : (s.fault3A p acc addr).mem = s.mem := rfl

@[simp] theorem State.readGivenUp_mem (s : State) (c ag lane rd sc) :
    (s.readGivenUp c ag lane rd sc).mem = s.mem := rfl

@[simp] theorem State.giveGivenUp_mem (s : State) (p id) : (s.giveGivenUp p id).mem = s.mem := by
  unfold State.giveGivenUp
  (repeat' split) <;> simp

/-! ### Barriers and heartbeats -/

@[simp] theorem State.releaseGroup_mem (s : State) (k group) : (s.releaseGroup k group).mem = s.mem := by
  simp [State.releaseGroup]

@[simp] theorem State.dieArrives_mem (s : State) (asid image bar die) :
    (s.dieArrives asid image bar die).mem = s.mem := rfl

@[simp] theorem State.checkBarrier_mem (s : State) (c k) : (s.checkBarrier c k).mem = s.mem := by
  unfold State.checkBarrier
  split <;> simp

@[simp] theorem State.releaseCores_mem (s : State) (t bar) : (s.releaseCores t bar).mem = s.mem := by
  simp [State.releaseCores]

@[simp] theorem State.releaseBars_mem (s : State) : (s.releaseBars).mem = s.mem := by
  simp [State.releaseBars]

@[simp] theorem State.checkBarriers_mem (s : State) (c) : (s.checkBarriers c).mem = s.mem := by
  simp [State.checkBarriers]

@[simp] theorem State.arriveAt_mem (s : State) (k) : (s.arriveAt k).mem = s.mem := by
  simp [State.arriveAt]

@[simp] theorem State.waitAt_mem (s : State) (k) : (s.waitAt k).mem = s.mem := by
  simp [State.waitAt]

@[simp] theorem State.panelTick_mem (s : State) : (s.panelTick).mem = s.mem := by
  simp [State.panelTick]

/-! ### Placement -/

@[simp] theorem State.pokeAt_wf {s : State} (ks bs) (w : Memory.wf s.mem) : Memory.wf (s.pokeAt ks bs).mem :=
  State.foldl_wf (fun _ p w => Memory.wf_write p.1 p.2 w) _ w

@[simp] theorem State.healAt_mem (s : State) (ks) : (s.healAt ks).mem = s.mem := rfl

@[simp] theorem State.writeAt_wf {s : State} (ks bs) (w : Memory.wf s.mem) :
    Memory.wf (s.writeAt ks bs).mem := by
  simp [w, State.writeAt]

/-! ### Edges and address generators -/

@[simp] theorem State.agWriteBack_wf {s : State} (c n) (w : Memory.wf s.mem) :
    Memory.wf (s.agWriteBack c n).mem := by
  unfold State.agWriteBack
  dsimp only
  (repeat' split) <;> simp [w, Memory.wf_writeAll]

@[simp] theorem State.modEdgeLane_mem (s : State) (l edge i f) : (s.modEdgeLane l edge i f).mem = s.mem := rfl

@[simp] theorem State.giveGroup_mem (s : State) (key edge i v a d ok) :
    (s.giveGroup key edge i v a d ok).mem = s.mem := by
  simp [State.giveGroup]

@[simp] theorem State.agPresented_mem (s : State) (c edge k a) : (s.agPresented c edge k a).mem = s.mem := by
  unfold State.agPresented
  split <;> simp

@[simp] theorem State.presentLane_mem (s : State) (key edge i v) :
    (s.presentLane key edge i v).mem = s.mem := by
  unfold State.presentLane
  dsimp only
  (repeat' split) <;> simp

@[simp] theorem State.requestWalk_mem (s : State) (asid va write who) :
    (s.requestWalk asid va write who).mem = s.mem := by
  simp [State.requestWalk]

@[simp] theorem State.agWalk_mem (s : State) (c n a write) : (s.agWalk c n a write).mem = s.mem := by
  simp [State.agWalk]

@[simp] theorem State.agConflict_mem (s : State) (c n m bank) : (s.agConflict c n m bank).mem = s.mem := rfl

theorem State.agPort_mem {s t : State} {c n timed used bank blk}
    (h : s.agPort c n timed used bank blk = some t) : t.mem = s.mem := by
  unfold State.agPort at h
  dsimp only at h
  repeat' split at h
  all_goals simp only [Option.some.injEq, reduceCtorEq] at h
  all_goals simp [← h]

@[simp] theorem State.laneErr_mem (s : State) (c n k e) : (s.laneErr c n k e).mem = s.mem := rfl

@[simp] theorem State.sendRead_mem (s : State) (c n k rd ea size sc dst) :
    (s.sendRead c n k rd ea size sc dst).mem = s.mem := by
  simp [State.sendRead]

theorem State.askRead_mem {s : State} {c n k al p addr used r} (h : s.askRead c n k al p addr used = some r) :
    r.1.mem = s.mem := by
  unfold State.askRead at h
  dsimp only at h
  repeat' split at h
  all_goals simp only [Option.some.injEq, reduceCtorEq] at h
  all_goals simp [← h]

@[simp] theorem State.landReads_mem (s : State) (c n k a) : (State.landReads c n k a s).mem = s.mem := by
  fun_induction State.landReads c n k a s <;> simp [*]

theorem State.agPorts_mem {s : State} {c n timed used l r} (h : s.agPorts c n timed used l = some r) :
    r.1.mem = s.mem := by
  fun_induction State.agPorts s c n timed used l with
  | case1 => cases h; rfl
  | case2 _ _ _ _ _ _ _ hp ih => rw [ih h, State.agPort_mem hp]
  | case3 => cases h

@[simp] theorem State.loseToken_mem (s : State) (c n a) : (s.loseToken c n a).mem = s.mem := rfl

theorem State.fetchToken_mem {s : State} {c n k used r} (h : s.fetchToken c n k used = some r) :
    r.1.mem = s.mem := by
  unfold State.fetchToken at h
  dsimp only at h
  split at h
  · cases h
  split at h
  · exact State.askRead_mem h
  split at h
  · split at h <;> simp [← Option.some.inj h]
  · simp [← Option.some.inj h]
  · cases h
  split at h
  · cases h
  next u used' hp =>
  have hu : u.mem = s.mem := by
    split at hp
    · exact State.agPorts_mem hp
    · rw [← (Prod.mk.inj (Option.some.inj hp)).1]
  repeat' split at h
  all_goals simp [← Option.some.inj h, hu]

@[simp] theorem State.fetchLane_mem (c n k m r) : (State.fetchLane c n k m r).1.mem = r.1.mem := by
  fun_induction State.fetchLane c n k m r with
  | case1 => rfl
  | case2 => rfl
  | case3 _ _ _ _ r hr ih => rw [ih, State.fetchToken_mem hr]
  | case4 => rfl

@[simp] theorem State.agInDone_wf {s : State} (c n) (w : Memory.wf s.mem) : Memory.wf (s.agInDone c n).mem := by
  simp [w, State.agInDone]

@[simp] theorem State.agFetchAll_wf {s : State} (c n lane) (w : Memory.wf s.mem) :
    Memory.wf (s.agFetchAll c n lane).mem := by
  have hf (l : List Nat) (r : State × List (Nat × Nat)) :
      (l.foldl (fun r k => State.fetchLane c n k 40 r) r).1.mem = r.1.mem := by
    induction l generalizing r with
    | nil => rfl
    | cons k l ih => rw [List.foldl_cons, ih, State.fetchLane_mem]
  unfold State.agFetchAll
  dsimp only
  split
  · exact w
  · simp [hf, w]

@[simp] theorem State.bulkStart_mem (s : State) (c) : (s.bulkStart c).mem = s.mem := rfl

@[simp] theorem State.bulk_mem (s : State) (c) : (s.bulk c).mem = s.mem := by
  simp [State.bulk]

@[simp] theorem State.segmentStart_mem (s : State) (c n) : (s.segmentStart c n).mem = s.mem := rfl

@[simp] theorem State.segmentBad_mem (s : State) (c n detail) : (s.segmentBad c n detail).mem = s.mem := rfl

@[simp] theorem State.sendSegment_mem (s : State) (c n ea parts) :
    (s.sendSegment c n ea parts).mem = s.mem := by
  unfold State.sendSegment
  (repeat' split) <;> simp

@[simp] theorem State.commitBlock_wf {s : State} (l) (w : Memory.wf s.mem) :
    Memory.wf (s.commitBlock l).mem := by
  unfold State.commitBlock
  dsimp only
  repeat' split
  · exact w
  · simp [w]
  · exact State.foldl_wf (fun s x w => by simp [w]) _ w
  · simp [w]

@[simp] theorem State.performSegment_wf {s : State} (c n parts left) (w : Memory.wf s.mem) :
    Memory.wf (s.performSegment c n parts left).mem := by
  have hp : Memory.wf (parts.foldl (fun s p => s.winPoke c p.1 p.2) s).mem :=
    State.foldl_wf (fun s p w => by simp [w, Memory.wf_writeAll]) _ w
  unfold State.performSegment
  split
  · exact w
  · simp [hp]

@[simp] theorem State.commitAll_wf {s : State} (l) (w : Memory.wf s.mem) : Memory.wf (s.commitAll l).mem := by
  unfold State.commitAll
  exact State.foldl_wf (fun s a w => by simp [w]) _ (by simp [w])

theorem State.storeToken_wf {s t : State} {key c n k} (w : Memory.wf s.mem)
    (h : s.storeToken key c n k = some t) : Memory.wf t.mem := by
  unfold State.storeToken at h
  dsimp only at h
  repeat' split at h
  all_goals simp only [Option.some.injEq, reduceCtorEq] at h
  all_goals simp [← h, w]

@[simp] theorem State.storeAll_wf {s : State} (key c n m) (w : Memory.wf s.mem) :
    Memory.wf (State.storeAll key c n m s).mem := by
  fun_induction State.storeAll key c n m s with
  | case1 => exact w
  | case2 => exact w
  | case3 _ _ _ _ _ ht _ => exact State.storeToken_wf w ht
  | case4 _ _ _ _ _ ht _ ih => exact ih (State.storeToken_wf w ht)
  | case5 => exact w

@[simp] theorem State.agOutDone_wf {s : State} (c n) (w : Memory.wf s.mem) :
    Memory.wf (s.agOutDone c n).mem := by
  simp [w, State.agOutDone]

@[simp] theorem State.drainAgs_wf {s : State} (key) (w : Memory.wf s.mem) : Memory.wf (s.drainAgs key).mem :=
  State.foldl_wf (fun _ c w => State.foldl_wf (fun s n w => by dsimp only; split <;> simp [w]) _ w) _ w

/-! ### Channels -/

@[simp] theorem State.earlyPush_mem (s : State) (c) : (s.earlyPush c).mem = s.mem := by
  unfold State.earlyPush
  split <;> simp

@[simp] theorem State.deliverChan_mem (s : State) (task chan r now) :
    (s.deliverChan task chan r now).mem = s.mem := by
  unfold State.deliverChan
  refine (State.foldl_mem (fun s a => ?_) _ _).trans (by simp)
  (repeat' split) <;> simp

@[simp] theorem State.forward_mem (s : State) (task chan k r a) : (s.forward task chan k r a).mem = s.mem := by
  unfold State.forward
  (repeat' split) <;> simp

@[simp] theorem State.channelsOf_mem (s : State) (key) : (s.channelsOf key).mem = s.mem := by
  simp [State.channelsOf]

/-! ### The graph unit -/

@[simp] theorem State.readTransfer_mem (s : State) (c n) : (s.readTransfer c n).mem = s.mem := by
  unfold State.readTransfer
  dsimp only
  (repeat' split) <;> simp

@[simp] theorem State.launchNode_mem (s : State) (c n) : (s.launchNode c n).mem = s.mem := by
  unfold State.launchNode
  dsimp only
  (repeat' split) <;> simp

@[simp] theorem State.armNode_mem (s : State) (c n nd bad) : (s.armNode c n nd bad).mem = s.mem := by
  unfold State.armNode
  split <;> simp

@[simp] theorem State.finishNode_wf {s : State} (c n) (w : Memory.wf s.mem) :
    Memory.wf (s.finishNode c n).mem := by
  simp [w, Memory.wf_writeAll, State.finishNode]

@[simp] theorem State.cancelNode_mem (s : State) (c n by_) : (s.cancelNode c n by_).mem = s.mem := by
  simp [State.cancelNode]

@[simp] theorem State.releaseNode_mem (s : State) (c n) : (s.releaseNode c n).mem = s.mem := by
  simp [State.releaseNode]

@[simp] theorem State.endGwait_mem (s : State) (r seen fail) : (s.endGwait r seen fail).mem = s.mem := rfl

@[simp] theorem State.tellWaiter_mem (s : State) (c k f) : (s.tellWaiter c k f).mem = s.mem := by
  unfold State.tellWaiter
  dsimp only
  (repeat' split) <;> simp

@[simp] theorem State.deliverFail_mem (s : State) (c f) : (s.deliverFail c f).mem = s.mem := by
  unfold State.deliverFail
  split <;> simp

@[simp] theorem State.serveFin_mem (s : State) (c f) : (s.serveFin c f).mem = s.mem := by
  unfold State.serveFin
  split <;> simp

@[simp] theorem State.popGuq_mem (s : State) (c) : (s.popGuq c).mem = s.mem := rfl

@[simp] theorem State.runGive_mem (s : State) (c n nd) : (s.runGive c n nd).mem = s.mem := by
  simp [State.runGive]

@[simp] theorem State.runWake_mem (s : State) (c n nd) : (s.runWake c n nd).mem = s.mem := by
  unfold State.runWake
  dsimp only
  (repeat' split) <;> simp

@[simp] theorem State.runRemote_mem (s : State) (c n nd) : (s.runRemote c n nd).mem = s.mem := by
  unfold State.runRemote
  dsimp only
  (repeat' split) <;> simp

@[simp] theorem State.runHead_mem (s : State) (c) : (s.runHead c).mem = s.mem := by
  unfold State.runHead
  dsimp only
  (repeat' split) <;> simp

@[simp] theorem State.waitNodes_mem (s : State) (l) : (s.waitNodes l).mem = s.mem := by
  unfold State.waitNodes
  dsimp only
  (repeat' split) <;> simp

@[simp] theorem State.killGive_mem (s : State) (c n) : (s.killGive c n).mem = s.mem := by
  unfold State.killGive
  split <;> simp

@[simp] theorem State.killLens_mem (s : State) (c n) : (s.killLens c n).mem = s.mem := by
  unfold State.killLens
  split <;> simp

@[simp] theorem State.killNode_mem (s : State) (c n) : (s.killNode c n).mem = s.mem := by
  unfold State.killNode
  dsimp only
  (repeat' split) <;> simp

/-! ### Translation -/

@[simp] theorem State.touchLeaf_wf {s : State} (l write) (w : Memory.wf s.mem) :
    Memory.wf (s.touchLeaf l write).mem := by
  simp [w, Memory.wf_writeAll, State.touchLeaf]

@[simp] theorem State.walk0_wf {s : State} (root va write) (w : Memory.wf s.mem) :
    Memory.wf (s.walk0 root va write).2.mem := by
  unfold State.walk0
  (repeat' split) <;> simp [w]

@[simp] theorem State.modSpace_mem (s : State) (a f) : (s.modSpace a f).mem = s.mem := rfl

@[simp] theorem State.walkVa_wf {s : State} (asid va write) (w : Memory.wf s.mem) :
    Memory.wf (s.walkVa asid va write).2.mem := by
  unfold State.walkVa
  dsimp only
  (repeat' split) <;> simp [w]

@[simp] theorem State.tlbInstall_mem (s : State) (c e) : (s.tlbInstall c e).mem = s.mem := rfl

@[simp] theorem State.dropWalk_mem (s : State) (id) : (s.dropWalk id).mem = s.mem := rfl

@[simp] theorem State.walkAgain_mem (s : State) (w') : (s.walkAgain w').mem = s.mem := by
  simp [State.walkAgain]

@[simp] theorem State.agWalked_mem (s : State) (w' c n r) : (s.agWalked w' c n r).mem = s.mem := by
  unfold State.agWalked
  split <;> simp

@[simp] theorem State.nodeWalked_mem (s : State) (w' c n r) : (s.nodeWalked w' c n r).mem = s.mem := by
  unfold State.nodeWalked
  split <;> simp

@[simp] theorem State.invalidate_mem (s : State) (asid va n) : (s.invalidate asid va n).mem = s.mem := rfl

@[simp] theorem State.startMigration_wf {s : State} (asid va) (w : Memory.wf s.mem) :
    Memory.wf (s.startMigration asid va).mem := by
  unfold State.startMigration
  dsimp only
  (repeat' split) <;> simp [w, Memory.wf_writeAll]

@[simp] theorem State.moveSegs_mem (s : State) (old new) : (s.moveSegs old new).mem = s.mem := rfl

@[simp] theorem State.commitMigration_wf {s : State} (asid va) (w : Memory.wf s.mem) :
    Memory.wf (s.commitMigration asid va).mem := by
  unfold State.commitMigration
  dsimp only
  (repeat' split) <;> simp [w, Memory.wf_writeAll]

@[simp] theorem State.countHost_wf {s : State} (c asid va dpa) (w : Memory.wf s.mem) :
    Memory.wf (s.countHost c asid va dpa).mem := by
  simp [w, State.countHost]

/-- The state that a unit of work leaves. -/
def UnitOut.state : UnitOut → State
  | .done s _ => s
  | .ended s => s
  | .wait s => s

/-! ### Engines -/

@[simp] theorem State.engineStop_mem (s : State) (c n write p) :
    (s.engineStop c n write p).state.mem = s.mem := by
  unfold State.engineStop
  split <;> simp [UnitOut.state]

@[simp] theorem State.countRuns_wf {s : State} (c sp l write) (w : Memory.wf s.mem) :
    Memory.wf (s.countRuns c sp l write).mem := by
  unfold State.countRuns
  split
  · exact w
  · exact State.foldl_wf (fun s p w => by split <;> simp [w]) _ w

theorem State.readUnit_wf {s : State} {c n t kind u r} (w : Memory.wf s.mem)
    (h : s.readUnit c n t kind u = .ok r) : Memory.wf r.1.mem := by
  unfold State.readUnit at h
  dsimp only at h
  repeat' split at h
  all_goals simp only [Except.ok.injEq, reduceCtorEq] at h
  simp [← h, w]

theorem State.readUnit_error_mem {s : State} {c n t kind u r} (h : s.readUnit c n t kind u = .error r) :
    r.state.mem = s.mem := by
  unfold State.readUnit at h
  dsimp only at h
  split at h
  · rw [← Except.error.inj h, State.engineStop_mem]
  · split at h
    · rw [← Except.error.inj h]; simp [UnitOut.state]
    · cases h

@[simp] theorem State.writeUnit_wf {s : State} (c n t kind u bs f) (w : Memory.wf s.mem) :
    Memory.wf (s.writeUnit c n t kind u bs f).state.mem := by
  unfold State.writeUnit
  dsimp only
  split
  · simp [w]
  · simp [w, UnitOut.state]

@[simp] theorem State.unitStep_wf {s : State} (c n nd t) (w : Memory.wf s.mem) :
    Memory.wf (s.unitStep c n nd t).state.mem := by
  unfold State.unitStep
  dsimp only
  split
  · split
    · split
      · next h => simp [State.readUnit_error_mem h, w]
      · next h => simpa [UnitOut.state] using State.readUnit_wf w h
    · simp [w]
  · split
    · next h => simp [State.readUnit_error_mem h, w]
    · next h => exact State.writeUnit_wf _ _ _ _ _ _ _ (State.readUnit_wf w h)

@[simp] theorem State.segment_wf {s : State} (c n t m at_ bl) (w : Memory.wf s.mem) :
    Memory.wf (State.segment c n t m at_ bl s).1.mem := by
  fun_induction State.segment c n t m at_ bl s with
  | case1 => exact w
  | case2 => simp [w]
  | case3 => exact w
  | case4 m at_ bl s nd _ _ s' b hu ih => 
    have hs := State.unitStep_wf c n nd t w
    rw [hu] at hs
    exact ih hs
  | case5 m at_ bl s nd _ _ s' hu =>     
    have hs := State.unitStep_wf c n nd t w
    rwa [hu] at hs
  | case6 m at_ bl s nd _ _ s' hu =>     
    have hs := State.unitStep_wf c n nd t w
    rwa [hu] at hs

@[simp] theorem State.runEngine_wf {s : State} (c n nd) (w : Memory.wf s.mem) :
    Memory.wf (s.runEngine c n nd).mem := by
  unfold State.runEngine
  (repeat' split) <;> simp [w]

@[simp] theorem State.readWaiting_mem (s : State) (c ch) : (s.readWaiting c ch).mem = s.mem := by
  simp [State.readWaiting]

/-! ### Vector operands -/

@[simp] theorem State.occupyV_mem (s : State) (beats) : (s.occupyV beats).mem = s.mem := rfl

@[simp] theorem State.vemit_mem (s : State) (lat v) : (s.vemit lat v).mem = s.mem := by
  simp [State.vemit]

/-! ### The sequencer of a lens -/

@[simp] theorem State.enterRow_mem (s : State) (key n) : (s.enterRow key n).mem = s.mem := rfl

@[simp] theorem State.startRow_mem (s : State) (key) : (s.startRow key).mem = s.mem := by
  simp [State.startRow]

@[simp] theorem State.nextRow_mem (s : State) (key n) : (s.nextRow key n).mem = s.mem := rfl

@[simp] theorem State.rowFault_mem (s : State) (key) : (s.rowFault key).mem = s.mem := rfl

@[simp] theorem State.countRow_mem (s : State) (key) : (s.countRow key).mem = s.mem := rfl

@[simp] theorem State.checkBudget_mem (s : State) (key) : (s.checkBudget key).mem = s.mem := by
  simp [State.checkBudget]

@[simp] theorem State.openInvocation_mem (s : State) (key) : (s.openInvocation key).mem = s.mem := by
  simp [State.openInvocation]

@[simp] theorem State.inject_mem (s : State) (key) : (s.inject key).mem = s.mem := by
  simp [State.inject]

@[simp] theorem State.noInject_mem (s : State) (key) : (s.noInject key).mem = s.mem := by
  simp [State.noInject]

@[simp] theorem State.starve_mem (s : State) (key m) : (s.starve key m).mem = s.mem := by
  simp [State.starve]

@[simp] theorem State.runStep_mem (s : State) (key) : (s.runStep key).mem = s.mem := by
  unfold State.runStep
  dsimp only
  (repeat' split) <;> simp -implicitDefEqProofs

@[simp] theorem State.toToken_mem (s : State) (key a) : (State.toToken key a s).mem = s.mem := by
  fun_induction State.toToken key a s <;> simp [*]

@[simp] theorem State.countHeld_mem (s : State) (key) : (s.countHeld key).mem = s.mem := by
  simp [State.countHeld]

@[simp] theorem State.openA_wf {s : State} (key) (w : Memory.wf s.mem) : Memory.wf (s.openA key).mem := by
  simp [w, State.openA]

@[simp] theorem State.popLone_mem (s : State) (l edge i) : (s.popLone l edge i).mem = s.mem := rfl

@[simp] theorem State.setAgent_mem (s : State) (l edge i f) : (s.setAgent l edge i f).mem = s.mem := by
  unfold State.setAgent
  split <;> simp

@[simp] theorem State.hold_mem (s : State) (key lanes) : (s.hold key lanes).mem = s.mem := by
  simp [State.hold]

@[simp] theorem State.lostEvent_mem (s : State) (key held) : (s.lostEvent key held).mem = s.mem := by
  unfold State.lostEvent
  split <;> simp

@[simp] theorem State.presentA_wf {s : State} (key) (w : Memory.wf s.mem) : Memory.wf (s.presentA key).mem := by
  simp [w, State.presentA]

@[simp] theorem State.portsIn_mem (s : State) (key) : (s.portsIn key).mem = s.mem := by
  simp [State.portsIn]

@[simp] theorem State.advanceAg_mem (s : State) (key p) : (s.advanceAg key p).mem = s.mem := by
  simp [State.advanceAg]

@[simp] theorem State.advanceAgs_mem (s : State) (key) : (s.advanceAgs key).mem = s.mem := by
  simp [State.advanceAgs]

@[simp] theorem State.closeA_wf {s : State} (key) (w : Memory.wf s.mem) : Memory.wf (s.closeA key).mem := by
  unfold State.closeA
  rw [State.first_mem]
  refine State.foldl_wf (fun s p w => by simp [w]) _ ?_
  simp [w]

@[simp] theorem State.writeRecord_wf {s : State} (l r) (w : Memory.wf s.mem) :
    Memory.wf (s.writeRecord l r).mem := by
  simp [w, Memory.wf_writeAll, State.writeRecord]

@[simp] theorem State.freeDone_mem (s : State) (key) : (s.freeDone key).mem = s.mem := by
  unfold State.freeDone
  refine (State.foldl_mem (fun s a => ?_) _ _).trans (by simp)
  simp

@[simp] theorem State.rewindAg_wf {s : State} (open_ e c n) (w : Memory.wf s.mem) :
    Memory.wf (s.rewindAg open_ e c n).mem := by
  unfold State.rewindAg
  dsimp only
  refine State.agWriteBack_wf _ _ ?_
  split
  · exact w
  · rw [State.foldl_mem (fun s k => by split <;> simp)]
    exact w

@[simp] theorem State.clearLanes_mem (s : State) (l firsts) : (s.clearLanes l firsts).mem = s.mem :=
  State.foldl_mem (fun s e => State.foldl_mem (fun s i => by simp) _ s) _ s

@[simp] theorem State.frozenEnd_mem (s : State) (key n cause detail) :
    (s.frozenEnd key n cause detail).mem = s.mem := by
  simp [State.frozenEnd]

@[simp] theorem State.cellError_mem (s : State) (key a b m) : (s.cellError key a b m).mem = s.mem := rfl

@[simp] theorem State.attachAg_mem (s : State) (key c n since) : (s.attachAg key c n since).mem = s.mem := rfl

@[simp] theorem State.reloadAg_mem (s : State) (c n) : (s.reloadAg c n).1.mem = s.mem := by
  unfold State.reloadAg
  dsimp only
  (repeat' split) <;> simp

@[simp] theorem State.resumeLens_mem (s : State) (key j) : (s.resumeLens key j).mem = s.mem := by
  have hf (l : List (Nat × Nat)) (r : State × Bool) :
      (l.foldl (fun (r : State × Bool) p => ((r.1.reloadAg p.1 p.2).1,
        r.2 && (r.1.reloadAg p.1 p.2).2)) r).1.mem = r.1.mem := by
    induction l generalizing r with
    | nil => rfl
    | cons p l ih => rw [List.foldl_cons, ih, State.reloadAg_mem]
  unfold State.resumeLens
  dsimp only
  split <;> simp -implicitDefEqProofs [hf]

@[simp] theorem State.freshLens_mem (s : State) (key j) : (s.freshLens key j).mem = s.mem := by
  simp -implicitDefEqProofs [State.freshLens]

/-! ### Commands to a lens -/

@[simp] theorem State.report_mem (s : State) (opc unit status) : (s.report opc unit status).mem = s.mem := rfl

@[simp] theorem State.placeLens_mem (s : State) (key ox oy w' h) :
    (s.placeLens key ox oy w' h).mem = s.mem := rfl

@[simp] theorem State.resetLanes_mem (s : State) (l) : (s.resetLanes l).mem = s.mem :=
  State.foldl_mem (fun s e => State.foldl_mem (fun s i => by simp) _ s) _ s

@[simp] theorem State.unfuseEnd_mem (s : State) (key) : (s.unfuseEnd key).mem = s.mem := by
  unfold State.unfuseEnd
  dsimp only
  (repeat' split) <;> simp

@[simp] theorem State.attachIngress_mem (s : State) (l) : (s.attachIngress l).mem = s.mem := by
  refine State.foldl_mem (fun s p => ?_) _ s
  dsimp only
  split
  · exact State.foldl_mem (fun s a => State.foldl_mem (fun s k => by simp) _ s) _ s
  · rfl

@[simp] theorem State.releaseLens_mem (s : State) (key) : (s.releaseLens key).1.mem = s.mem := by
  simp [State.releaseLens]

@[simp] theorem State.startAg_mem (s : State) (c n) : (s.startAg c n).mem = s.mem := by
  unfold State.startAg
  dsimp only
  (repeat' split) <;> simp

@[simp] theorem State.attachRoute_mem (s : State) (task n r) : (s.attachRoute task n r).mem = s.mem := by
  unfold State.attachRoute
  refine (State.foldl_mem (fun s a => ?_) _ _).trans (by simp)
  simp

@[simp] theorem State.detachRoute_mem (s : State) (task n r) : (s.detachRoute task n r).mem = s.mem := by
  unfold State.detachRoute
  refine (State.foldl_mem (fun s a => ?_) _ _).trans (by simp)
  simp

@[simp] theorem State.chanNext_mem (s : State) (task n) : (s.chanNext task n).mem = s.mem := by
  unfold State.chanNext
  dsimp only
  (repeat' split) <;> simp

@[simp] theorem State.chanDone_mem (s : State) (task n st un) : (s.chanDone task n st un).mem = s.mem := by
  simp [State.chanDone]

@[simp] theorem State.chanCommand_mem (s : State) (task n un) : (s.chanCommand task n un).mem = s.mem := by
  simp [State.chanCommand]

/-! ### Queues -/

@[simp] theorem State.feWalk_wf {s : State} (asid va write) (w : Memory.wf s.mem) :
    Memory.wf (s.feWalk asid va write).2.mem := by
  have hw := State.walkVa_wf asid va write w
  unfold State.feWalk
  split <;> simp_all

@[simp] theorem State.feKeys_wf {s : State} (asid write fuel va n) (w : Memory.wf s.mem) :
    Memory.wf (State.feKeys asid write fuel va n s).2.mem := by
  induction fuel generalizing va n s with
  | zero => exact w
  | succ fuel ih =>
    unfold State.feKeys
    dsimp only
    split
    · exact w
    split
    · next h =>
      have w := State.wf_of_pair h (State.feWalk_wf _ _ _ w)
      repeat' split
      · exact w
      · exact w
      · next h => exact State.wf_of_pair h (ih _ _ w)
      · exact ih _ _ w
    · next h => exact State.wf_of_pair h (State.feWalk_wf _ _ _ w)
    · next h => exact State.wf_of_pair h (State.feWalk_wf _ _ _ w)

@[simp] theorem State.feRead_wf {s : State} (asid va n) (w : Memory.wf s.mem) :
    Memory.wf (s.feRead asid va n).2.mem := by
  have hk := State.feKeys_wf asid false (n / 65536 + 2) va n w
  unfold State.feRead
  split <;> simp_all

@[simp] theorem State.feWrite_wf {s : State} (asid va bs) (w : Memory.wf s.mem) :
    Memory.wf (s.feWrite asid va bs).2.mem := by
  have hk := State.feKeys_wf asid true (bs.length / 65536 + 2) va bs.length w
  unfold State.feWrite
  split <;> simp_all

@[simp] theorem State.modQueue_mem (s : State) (q f) : (s.modQueue q f).mem = s.mem := rfl

@[simp] theorem State.raiseMsix_mem (s : State) (v) : (s.raiseMsix v).mem = s.mem := rfl

@[simp] theorem State.complete_wf {s : State} (q index status detail done) (w : Memory.wf s.mem) :
    Memory.wf (s.complete q index status detail done).mem := by
  simp [w, State.complete]

@[simp] theorem State.setThread_mem (s : State) (t v) : (s.setThread t v).mem = s.mem := rfl

@[simp] theorem State.releaseQueue_mem (s : State) (q) : (s.releaseQueue q).mem = s.mem := by
  unfold State.releaseQueue
  split <;> simp

@[simp] theorem State.mapQueue_mem (s : State) (q) : (s.mapQueue q).mem = s.mem := by
  unfold State.mapQueue
  split <;> simp

@[simp] theorem State.writeEn_mem (s : State) (q on) : (s.writeEn q on).mem = s.mem := rfl

@[simp] theorem State.writeConfig_mem (s : State) (q dword d) : (s.writeConfig q dword d).mem = s.mem := by
  unfold State.writeConfig
  split <;> simp

@[simp] theorem State.dropEntry_mem (s : State) (id) : (s.dropEntry id).mem = s.mem := rfl

@[simp] theorem State.modEntry_mem (s : State) (id g) : (s.modEntry id g).mem = s.mem := rfl

@[simp] theorem State.wakeManager_mem (s : State) : (s.wakeManager).mem = s.mem := by
  simp [State.wakeManager]

@[simp] theorem State.enter_mem (s : State) (q index p resume) : (s.enter q index p resume).mem = s.mem := by
  simp [State.enter]

@[simp] theorem State.push_mem (s : State) (q index p resume) : (s.push q index p resume).mem = s.mem := by
  simp [State.push]

@[simp] theorem State.enterPushes_mem (s : State) (a) : (State.enterPushes a s).mem = s.mem := by
  fun_induction State.enterPushes a s <;> simp [*]

@[simp] theorem State.servePacket_wf {s : State} (q) (w : Memory.wf s.mem) :
    Memory.wf (s.servePacket q).mem := by
  simp [w, State.servePacket]

@[simp] theorem State.endWait_wf {s : State} (q status detail p) (w : Memory.wf s.mem) :
    Memory.wf (s.endWait q status detail p).mem := by
  simp [w, State.endWait]

@[simp] theorem State.lookWait_wf {s : State} (q) (w : Memory.wf s.mem) : Memory.wf (s.lookWait q).mem := by
  unfold State.lookWait
  split
  · exact w
  · next p _ =>
    have hr := State.feRead_wf (s.queueSpace q) (FePacket.dw p 1) 8 w
    repeat' split
    all_goals simp_all

@[simp] theorem State.finishEntry_wf {s : State} (e status detail) (w : Memory.wf s.mem) :
    Memory.wf (s.finishEntry e status detail).mem := by
  simp [w, State.finishEntry]

theorem State.carry_wf {s : State} (entry) {f : PifoEntry → State → State} (hf : ∀ e, Memory.wf (f e s).mem)
    (w : Memory.wf s.mem) : Memory.wf (s.carry entry f).mem := by
  unfold State.carry
  repeat' split
  · exact hf _
  · exact w
  · exact w

@[simp] theorem State.signal_wf {s : State} (e) (w : Memory.wf s.mem) : Memory.wf (s.signal e).mem := by
  have hr : Memory.wf (if (FePacket.dw e.packet 0).getLsbD 8 then s.feRead (s.queueSpace e.queue)
    (FePacket.dw e.packet 1) 8
      else (.ok [], s)).2.mem := by split <;> simp [w]
  unfold State.signal
  dsimp only
  split
  · simp [w]
  split
  · next h => exact State.finishEntry_wf _ _ _ (State.wf_of_pair h hr)
  next h =>
  have w := State.wf_of_pair h hr
  split <;> next h => exact State.finishEntry_wf _ _ _ (State.wf_of_pair h (State.feWrite_wf _ _ _ w))

@[simp] theorem State.copyBytes_wf {s : State} (e) (w : Memory.wf s.mem) : Memory.wf (s.copyBytes e).mem := by
  have hr := State.feRead_wf (s.queueSpace e.queue) (FePacket.dw e.packet 1) (FePacket.dw e.packet 3).toNat w
  unfold State.copyBytes
  dsimp only
  split
  · simp_all
  · next bs u h =>
    rw [h] at hr
    have hw := State.feWrite_wf (s.queueSpace e.queue) (FePacket.dw e.packet 2) bs hr
    split <;> simp_all

@[simp] theorem State.writePtes_wf {s : State} (l) (w : Memory.wf s.mem) : Memory.wf (s.writePtes l).mem := by
  unfold State.writePtes
  exact State.foldl_wf (fun s a w => by simp [w, Memory.wf_writeAll]) _ (by simp [w])

@[simp] theorem State.mapDone_wf {s : State} (e asid va n) (w : Memory.wf s.mem) :
    Memory.wf (s.mapDone e asid va n).mem := by
  simp [w, State.mapDone]

@[simp] theorem State.mapPages_wf {s : State} (e) (w : Memory.wf s.mem) : Memory.wf (s.mapPages e).mem := by
  have hr := State.feRead_wf (s.queueSpace e.queue) (FePacket.dw e.packet 4) (8 *
    (FePacket.dw e.packet 3).toNat) w
  unfold State.mapPages
  dsimp only
  repeat' split
  all_goals simp_all

/-! ### Binding a task -/

@[simp] theorem State.choose_mem {α : Type} (s : State) (l : List α) : (s.choose l).2.mem = s.mem := by
  unfold State.choose
  split <;> simp

@[simp] theorem State.layLenses_mem (s : State) (t k r) : (s.layLenses t k r).mem = s.mem := by
  unfold State.layLenses
  refine (State.foldl_mem (fun s a => ?_) _ _).trans (by simp)
  split
  simp

@[simp] theorem State.clear_wf {s : State} (a n) (w : Memory.wf s.mem) :
    Memory.wf (s.clear a n).mem := Memory.wf_filter _ w

@[simp] theorem State.writeFarNames_wf {s : State} (t die) (w : Memory.wf s.mem) :
    Memory.wf (s.writeFarNames t die).mem := by
  unfold State.writeFarNames
  dsimp only
  split
  · simp [w]
  · exact State.foldl_wf (fun s y w => State.foldl_wf (fun s x w => by simp [w,
      Memory.wf_writeAll]) _ w) _ (by simp [w])

@[simp] theorem State.writeNames_wf {s : State} (t) (w : Memory.wf s.mem) : Memory.wf (s.writeNames t).mem := by
  unfold State.writeNames
  dsimp only
  exact State.foldl_wf (fun s d w => by simp [w]) _ (State.foldl_wf (fun s c w => by simp [w,
    Memory.wf_writeAll]) _ (by simp [w]))

@[simp] theorem State.freezeNames_wf {s : State} (t on) (w : Memory.wf s.mem) :
    Memory.wf (s.freezeNames t on).mem := by
  unfold State.freezeNames
  rw [State.foldl_mem (fun s c => by split <;> simp)]
  refine State.foldl_wf (fun s c w => ?_) _ w
  dsimp only
  split <;> simp [w, Memory.wf_writeAll]

@[simp] theorem State.setExcuse_mem (s : State) (c on) : (s.setExcuse c on).mem = s.mem := rfl

@[simp] theorem State.unpark_wf {s : State} (b) (w : Memory.wf s.mem) : Memory.wf (s.unpark b).mem := by
  unfold State.unpark
  dsimp only
  (repeat' split) <;> simp [w, Memory.wf_writeAll]

@[simp] theorem State.poolParked_wf {s : State} (cl n a) (w : Memory.wf s.mem) :
    Memory.wf (s.poolParked cl n a).mem := by
  fun_induction s.poolParked cl n a <;> simp_all

@[simp] theorem State.attach_wf {s : State} (c e) (w : Memory.wf s.mem) : Memory.wf (s.attach c e).mem := by
  unfold State.attach
  split <;> simp [w, State.zeroBank_wf]

@[simp] theorem State.attachAll_wf {s : State} (cs n) (w : Memory.wf s.mem) :
    Memory.wf (s.attachAll cs n).mem :=
  State.foldl_wf (fun _ c w => State.foldl_wf (fun s e w => by simp [w]) _ w) _ w

@[simp] theorem State.bindBanks_wf {s : State} (k r) (w : Memory.wf s.mem) :
    Memory.wf (s.bindBanks k r).mem := by
  unfold State.bindBanks
  exact State.foldl_wf (fun s a w => by simp [w]) _ (by simp [w])

@[simp] theorem State.loadPresets_wf {s : State} (k r) (w : Memory.wf s.mem) :
    Memory.wf (s.loadPresets k r).mem := by
  refine State.foldl_wf (fun s c w => ?_) _ w
  refine State.foldl_wf (fun s d w => ?_) _ (State.foldl_wf (fun s p w => ?_) _ w)
  · exact State.foldl_wf (fun s b w => Memory.wf_writeAll _ _ w) _ w
  · exact State.foldl_wf (fun s b w => Memory.wf_writeAll _ _ w) _ w

@[simp] theorem State.walkPages_wf {s : State} (asid write l) (w : Memory.wf s.mem) :
    Memory.wf (State.walkPages asid write l s).2.mem := by
  induction l generalizing s with
  | nil => exact w
  | cons va l ih =>
    have hw := State.feWalk_wf asid (w64 va) write w
    unfold State.walkPages
    dsimp only
    split <;> simp_all

@[simp] theorem State.writeExtents_wf {s : State} (asid c a) (w : Memory.wf s.mem) :
    Memory.wf (s.writeExtents asid c a).mem := by
  simp [w, Memory.wf_writeAll, State.writeExtents]

@[simp] theorem State.bindExtents_wf {s : State} (t k r) (w : Memory.wf s.mem) :
    Memory.wf (s.bindExtents t k r).mem := by
  unfold State.bindExtents
  exact State.foldl_wf (fun s a w => by simp [w]) _ (by simp [w])

@[simp] theorem State.loadCores_mem (s : State) (t k r) : (s.loadCores t k r).mem = s.mem :=
  State.foldl_mem (fun s c => by dsimp only; split <;> simp) _ s

@[simp] theorem State.clearTask_mem (s : State) (t) : (s.clearTask t).mem = s.mem := rfl

@[simp] theorem State.bindIngress_mem (s : State) (t k) : (s.bindIngress t k).mem = s.mem := by
  simp [State.bindIngress]

@[simp] theorem State.startWake_mem (s : State) (cl) : (s.startWake cl).mem = s.mem := by
  unfold State.startWake
  dsimp only
  (repeat' split) <;> simp

@[simp] theorem State.idlePorts_mem (s : State) (t) : (s.idlePorts t).mem = s.mem := rfl

@[simp] theorem State.endLaunch_wf {s : State} (t status detail) (w : Memory.wf s.mem) :
    Memory.wf (s.endLaunch t status detail).mem := by
  simp [w, State.endLaunch]

@[simp] theorem State.dispatch_wf {s : State} (t) (w : Memory.wf s.mem) : Memory.wf (s.dispatch t).mem := by
  unfold State.dispatch
  dsimp only
  repeat' split
  · simp [w]
  · simp [w]
  · simp [w]
  · simp [w]
  · simp [w]
  · simp only [State.laterX_mem, State.modTask_mem, State.bindIngress_mem, State.loadCores_mem]
    refine State.bindExtents_wf _ _ _ (State.loadPresets_wf _ _ (State.bindBanks_wf _ _ ?_))
    rw [State.foldl_mem fun s c => State.setExcuse_mem s c _]
    exact State.writeNames_wf _ (by simp [w])

@[simp] theorem State.openGates_mem (s : State) (t) : (s.openGates t).mem = s.mem := by
  simp -implicitDefEqProofs [State.openGates]

/-! ### The schedule -/

@[simp] theorem State.forget_mem (s : State) (cs ni) : (s.forget cs ni).mem = s.mem := rfl

@[simp] theorem State.leaveBanks_mem (s : State) (c f) : (s.leaveBanks c f).mem = s.mem :=
  State.foldl_mem (fun s e => by dsimp only; (repeat' split) <;> simp) _ s

@[simp] theorem State.markIdle_mem (s : State) (cl) : (s.markIdle cl).mem = s.mem := by
  simp [State.markIdle]

@[simp] theorem State.releaseTask_mem (s : State) (t left ni) : (s.releaseTask t left ni).mem = s.mem := by
  unfold State.releaseTask
  refine (State.foldl_mem (fun s a => ?_) _ _).trans (by simp)
  (repeat' split) <;> simp

@[simp] theorem State.teardown_wf {s : State} (t kill status detail) (w : Memory.wf s.mem) :
    Memory.wf (s.teardown t kill status detail).mem := by
  simp [w, State.teardown]

@[simp] theorem State.dropParked_mem (s : State) (t) : (s.dropParked t).mem = s.mem := rfl

@[simp] theorem State.killTask_wf {s : State} (t) (w : Memory.wf s.mem) : Memory.wf (s.killTask t).mem := by
  unfold State.killTask
  (repeat' split) <;> simp [w]

@[simp] theorem State.endTask_wf {s : State} (t) (w : Memory.wf s.mem) : Memory.wf (s.endTask t).mem := by
  unfold State.endTask
  (repeat' split) <;> simp [w]

@[simp] theorem State.imageOf_wf {s : State} (asid p) (w : Memory.wf s.mem) :
    Memory.wf (s.imageOf asid p).2.mem := by
  have hw := State.feWalk_wf asid (FePacket.dw p 1) false w
  unfold State.imageOf
  split <;> simp_all

@[simp] theorem State.fillConfigs_mem (s : State) (q t p k) : (s.fillConfigs q t p k).mem = s.mem := by
  refine State.foldl_mem (fun s x => ?_) _ s
  dsimp only
  (repeat' split) <;> simp

@[simp] theorem State.place_mem (s : State) (e asid t r k) : (s.place e asid t r k).mem = s.mem := by
  simp [State.place]

@[simp] theorem State.evict_mem (s : State) (r t p) : (s.evict r t p).mem = s.mem := by
  unfold State.evict
  split <;> simp

@[simp] theorem State.weighVictims_mem (s : State) (k rs) : (s.weighVictims k rs).mem = s.mem := by
  unfold State.weighVictims
  split <;> simp

@[simp] theorem State.tryResume_wf {s : State} (e t blocked) (w : Memory.wf s.mem) :
    Memory.wf (s.tryResume e t blocked).mem := by
  unfold State.tryResume
  split <;> simp [w]

@[simp] theorem State.launch_wf {s : State} (e) (w : Memory.wf s.mem) : Memory.wf (s.launch e).mem := by
  unfold State.launch
  dsimp only
  split
  · exact w
  split
  · exact State.tryResume_wf _ _ _ w
  split
  · next h => exact State.finishEntry_wf _ _ _ (State.wf_of_pair h (State.imageOf_wf _ _ w))
  next h =>
  have w := State.wf_of_pair h (State.imageOf_wf _ _ w)
  split
  · exact State.finishEntry_wf _ _ _ w
  split
  · next h => exact State.wf_of_pair h (by simpa using w)
  next h =>
  have w := State.wf_of_pair h (by simpa using w)
  split
  · next h => simpa using State.wf_of_pair h (by simpa using w)
  next h =>
  have w := State.wf_of_pair h (by simpa using w)
  (repeat' split) <;> simp [w]

@[simp] theorem State.startDrain_wf {s : State} (t) (w : Memory.wf s.mem) : Memory.wf (s.startDrain t).mem := by
  unfold State.startDrain
  split <;> simp [w]

@[simp] theorem State.expireDrain_mem (s : State) (t) : (s.expireDrain t).mem = s.mem := by
  unfold State.expireDrain
  split <;> simp

@[simp] theorem State.startCheckpoint_wf {s : State} (t) (w : Memory.wf s.mem) :
    Memory.wf (s.startCheckpoint t).mem := by
  unfold State.startCheckpoint
  split <;> simp [w]

@[simp] theorem State.put_wf {s : State} (base off n v) (w : Memory.wf s.mem) :
    Memory.wf (s.put base off n v).mem := by
  simp [w, Memory.wf_writeAll, State.put]

@[simp] theorem State.putAll_wf {s : State} (base n l) (w : Memory.wf s.mem) :
    Memory.wf (s.putAll base n l).mem := by
  simp [w, Memory.wf_writeAll, State.putAll]

@[simp] theorem State.saveSlot_wf {s : State} (base r) (w : Memory.wf s.mem) :
    Memory.wf (s.saveSlot base r).mem := by
  unfold State.saveSlot
  refine State.putAll_wf _ _ _ (State.putAll_wf _ _ _ (State.putAll_wf _ _ _ ?_))
  exact State.foldl_wf (fun s k w => State.put_wf _ _ _ _ w) _ (State.putAll_wf _ _ _ (State.putAll_wf _ _ _ w))

@[simp] theorem State.saveCoreState_wf {s : State} (base c) (w : Memory.wf s.mem) :
    Memory.wf (s.saveCoreState base c).mem := by
  unfold State.saveCoreState
  refine State.foldl_wf (fun s p w => State.putAll_wf _ _ _ w) _ (State.foldl_wf
    (fun s p w => State.putAll_wf _ _ _ w) _ ?_)
  exact State.putAll_wf _ _ _ (State.put_wf _ _ _ _
    (State.putAll_wf _ _ _ (State.put_wf _ _ _ _ (State.putAll_wf _ _ _ w))))

@[simp] theorem State.saveAgs_wf {s : State} (base t c) (w : Memory.wf s.mem) :
    Memory.wf (s.saveAgs base t c).mem := by
  have ha (l : List (Nat × AG)) : Memory.wf (l.foldl (fun s p =>
    let g := p.2
    let b := base + 1024 * p.1
    let s := s.put b 0 64 g.desc.toNat
    let s := s.putAll (b + 64) 8 [g.st.code, g.daddr.toNat, g.i2, g.lens, g.started, g.eset.toNat]
    let s := g.lanes.foldl (fun s q => s.put b (0x80 + 8 * q.1) 8 q.2.pos.code) s
    s.putAll (b + 0x300) 16 ((g.ext.take 16).map (·.toNat))) s).mem :=
    State.foldl_wf (fun s p w => State.putAll_wf _ _ _ (State.foldl_wf (fun s q w => State.put_wf _ _ _ _ w) _
      (State.putAll_wf _ _ _ (State.put_wf _ _ _ _ w)))) l w
  unfold State.saveAgs
  dsimp only
  split
  · exact ha _
  · exact State.putAll_wf _ _ _ (ha _)

@[simp] theorem State.saveLanes_wf {s : State} (base t c) (w : Memory.wf s.mem) :
    Memory.wf (s.saveLanes base t c).mem := by
  unfold State.saveLanes
  exact State.putAll_wf _ _ _ (State.foldl_wf (fun s p w => State.put_wf _ _ _ _ (State.putAll_wf _ _ _ w)) _ w)

@[simp] theorem State.saveCells_wf {s : State} (rec_ l) (w : Memory.wf s.mem) :
    Memory.wf (s.saveCells rec_ l).mem := by
  unfold State.saveCells
  exact State.foldl_wf (fun s p w => State.put_wf _ _ _ _ w) _
    (State.foldl_wf (fun s p w => State.putAll_wf _ _ _ (State.putAll_wf _ _ _ w)) _ w)

@[simp] theorem State.saveHeader_wf {s : State} (t) (w : Memory.wf s.mem) : Memory.wf (s.saveHeader t).mem := by
  simp [w, State.saveHeader]

@[simp] theorem State.saveArea_wf {s : State} (t) (w : Memory.wf s.mem) : Memory.wf (s.saveArea t).mem := by
  unfold State.saveArea
  refine State.foldl_wf (fun s p w => State.saveCells_wf _ _ w) _ (State.foldl_wf (fun s p w => ?_) _
    (State.saveHeader_wf _ (State.clear_wf _ _ w)))
  exact State.saveLanes_wf _ _ _ (State.saveAgs_wf _ _ _ (State.saveCoreState_wf _ _
    (State.foldl_wf (fun s k w => State.saveSlot_wf _ _ w) _ w)))

@[simp] theorem State.suspend_wf {s : State} (t) (w : Memory.wf s.mem) : Memory.wf (s.suspend t).mem := by
  simp [w, State.suspend]

@[simp] theorem State.unparkOwn_mem (s : State) (t c e w') : (s.unparkOwn t c e w').mem = s.mem := by
  simp [State.unparkOwn]

@[simp] theorem State.refill_wf {s : State} (t c e v w') (w : Memory.wf s.mem) :
    Memory.wf (s.refill t c e v w').mem := by
  have ha : Memory.wf ((s.poolParked (clusterOf c) 1 128).attach c e).mem := State.attach_wf _ _
    (State.poolParked_wf _ _ _ w)
  unfold State.refill
  (repeat' split) <;> simp [w, ha, Memory.wf_writeAll]

@[simp] theorem State.reattach_wf {s : State} (t v) (w : Memory.wf s.mem) : Memory.wf (s.reattach t v).mem := by
  unfold State.reattach
  refine State.foldl_wf (fun s p w => State.foldl_wf (fun s e w => State.refill_wf _ _ _ _ _ w) _ w) _ ?_
  rw [State.foldl_mem fun s p => State.foldl_mem (fun s e => State.unparkOwn_mem s _ _ _ _) _ s]
  exact w

@[simp] theorem State.rearm_mem (s : State) (c) : (s.rearm c).mem = s.mem := by
  unfold State.rearm
  have hf := State.foldl_mem (f := fun (s : State) (p : Nat × RecvChan) => match p.2.armed with
      | some r => if r.placed then s.later ((r.last + 1 - s.cycle c).toNat) (.recvWindowExpire c p.1) else s
      | none => s) (fun s p => by (repeat' split) <;> simp) (s.core c).recv s
  dsimp only
  split
  · exact hf
  · exact hf

@[simp] theorem State.resume_wf {s : State} (t v) (w : Memory.wf s.mem) : Memory.wf (s.resume t v).mem := by
  unfold State.resume
  dsimp only
  repeat' split
  · simp [w]
  · simp [w]
  · rw [State.laterX_mem, State.modTask_mem, State.foldl_mem fun s p => State.modChan_mem ..,
      State.foldl_mem fun s p => State.setLens_mem ..,
      State.foldl_mem fun s c => State.setExcuse_mem .., State.foldl_mem fun s p => State.rearm_mem ..]
    refine State.freezeNames_wf _ _ (State.reattach_wf _ _ ?_)
    rw [State.foldl_mem fun s p => State.setCore_mem ..]
    exact w

/-! ### The host port -/

@[simp] theorem State.modPort_mem (s : State) (p f) : (s.modPort p f).mem = s.mem := rfl

@[simp] theorem State.fillPort_mem (s : State) (p) : (s.fillPort p).mem = s.mem := by
  simp [State.fillPort]

@[simp] theorem State.streamPort_mem (s : State) (p) : (s.streamPort p).mem = s.mem := by
  unfold State.streamPort
  dsimp only
  (repeat' split) <;> simp

@[simp] theorem State.pumpPort_mem (s : State) (p) : (s.pumpPort p).mem = s.mem := by
  simp [State.pumpPort]

@[simp] theorem State.pumpPorts_mem (s : State) : (s.pumpPorts).mem = s.mem := by
  simp [State.pumpPorts]

@[simp] theorem State.openPort_mem (s : State) (p d) : (s.openPort p d).mem = s.mem := by
  unfold State.openPort
  dsimp only
  (repeat' split) <;> simp

@[simp] theorem State.portData_mem (s : State) (p d) : (s.portData p d).mem = s.mem := by
  simp [State.portData]

@[simp] theorem State.dropHost_mem (s : State) : (s.dropHost).mem = s.mem := rfl

@[simp] theorem State.hostNotify_mem (s : State) (r mask) : (s.hostNotify r mask).mem = s.mem := by
  simp [State.hostNotify]

@[simp] theorem State.aperture_mem (s : State) (c d) : (s.aperture c d).mem = s.mem := by
  simp [State.aperture]

@[simp] theorem State.deliverMailbox_mem (s : State) (cl) : (s.deliverMailbox cl).mem = s.mem := by
  unfold State.deliverMailbox
  dsimp only
  (repeat' split) <;> simp

@[simp] theorem State.bar4Read_mem (s : State) (off len) : (s.bar4Read off len).mem = s.mem := by
  simp [State.bar4Read]

@[simp] theorem State.bar4Write_wf {s : State} (off len v) (w : Memory.wf s.mem) :
    Memory.wf (s.bar4Write off len v).mem := by
  simp [w, Memory.wf_writeAll, State.bar4Write]

/-! ### Loading weights -/

@[simp] theorem State.endLoad_wf {s : State} (q index p status detail shard refetch pages)
    (w : Memory.wf s.mem) : Memory.wf (s.endLoad q index p status detail shard refetch pages).mem := by
  simp [w, State.endLoad]

@[simp] theorem State.fillPages_wf {s : State} (pages bs) (w : Memory.wf s.mem) :
    Memory.wf (s.fillPages pages bs).mem := by
  unfold State.fillPages
  exact State.foldl_wf (fun s a w => by simp [w, Memory.wf_writeAll]) _ (by simp [w])

@[simp] theorem State.putPtes_wf {s : State} (asid x pages f) (w : Memory.wf s.mem) :
    Memory.wf (s.putPtes asid x pages f).mem := by
  simp [w, State.putPtes]

@[simp] theorem State.startLoad_wf {s : State} (e asid shards) (w : Memory.wf s.mem) :
    Memory.wf (s.startLoad e asid shards).mem := by
  have hf (l : List (Shard × List Word)) {u : State} (w : Memory.wf u.mem) : Memory.wf ((l.foldl (fun s p =>
      if Shard.zero p.1 then s.fillPages p.2 [] else s) (l.foldl
        (fun s p => s.putPtes asid p.1 p.2 reservePte) u))).mem :=
    State.foldl_wf (fun s p w => by split <;> simp [w]) _ (State.foldl_wf
      (fun s p w => State.putPtes_wf _ _ _ _ w) _ w)
  unfold State.startLoad
  dsimp only
  split <;> exact hf _ (by simp [w])

@[simp] theorem State.loadw_wf {s : State} (e) (w : Memory.wf s.mem) : Memory.wf (s.loadw e).mem := by
  unfold State.loadw
  dsimp only
  split
  · exact State.finishEntry_wf _ _ _ w
  split
  · next h => exact State.finishEntry_wf _ _ _ (State.wf_of_pair h (State.feRead_wf _ _ _ w))
  next h =>
  have w := State.wf_of_pair h (State.feRead_wf _ _ _ w)
  split
  · simp [w]
  split
  · next h => exact State.finishEntry_wf _ _ _ (State.wf_of_pair h (State.feRead_wf _ _ _ w))
  next h =>
  have w := State.wf_of_pair h (State.feRead_wf _ _ _ w)
  (repeat' split) <;> simp [w]

@[simp] theorem State.modLoad_mem (s : State) (id f) : (s.modLoad id f).mem = s.mem := rfl

@[simp] theorem State.dropLoad_mem (s : State) (id) : (s.dropLoad id).mem = s.mem := rfl

@[simp] theorem State.loadFails_wf {s : State} (l shard code) (w : Memory.wf s.mem) :
    Memory.wf (s.loadFails l shard code).mem := by
  unfold State.loadFails
  exact State.endLoad_wf _ _ _ _ _ _ _ _ (State.foldl_wf (fun s p w => State.putPtes_wf _ _ _ _ w) _ w)

@[simp] theorem State.shardFetched_wf {s : State} (l i x result) (w : Memory.wf s.mem) :
    Memory.wf (s.shardFetched l i x result).mem := by
  unfold State.shardFetched
  (repeat' split) <;> simp [w]

@[simp] theorem State.commitLoad_wf {s : State} (l) (w : Memory.wf s.mem) : Memory.wf (s.commitLoad l).mem := by
  unfold State.commitLoad
  exact State.endLoad_wf _ _ _ _ _ _ _ _ (State.foldl_wf (fun s p w => State.putPtes_wf _ _ _ _ w) _ w)

/-! ### Service -/

@[simp] theorem State.postNotice_wf {s : State} (q n) (w : Memory.wf s.mem) :
    Memory.wf (s.postNotice q n).mem := by
  simp [w, Memory.wf_writeAll, State.postNotice]

@[simp] theorem State.retireRecords_mem (s : State) (c) : (s.retireRecords c).mem = s.mem := by
  simp [State.retireRecords]

@[simp] theorem State.freezeFor_mem (s : State) (c) : (s.freezeFor c).mem = s.mem := by
  simp [State.freezeFor]

@[simp] theorem State.poolBanks_wf {s : State} (c) (w : Memory.wf s.mem) : Memory.wf (s.poolBanks c).mem := by
  unfold State.poolBanks
  rw [State.leaveBanks_mem]
  exact State.foldl_wf (fun s b w => State.zeroBank_wf _ _ w) _ w

@[simp] theorem State.retireCore_wf {s : State} (c router) (w : Memory.wf s.mem) :
    Memory.wf (s.retireCore c router).mem := by
  have pooled (u : State) (w : Memory.wf u.mem) :
      Memory.wf ((((u.checkBarriers c).forget [c] false).poolBanks c).modCore c Core.retire).mem := by simp [w]
  unfold State.retireCore
  dsimp only
  split
  · rw [State.mem_ite, State.resendAll_mem, ite_self]
    exact pooled _ (by simp [w])
  · rw [State.modTask_mem, State.modFw_mem]
    refine State.postNotice_wf _ _ (State.invalidateTask_wf _ _ (State.poke_wf _ _ _ ?_))
    rw [State.mem_ite, State.resendAll_mem, ite_self]
    exact pooled _ (by simp [w])

@[simp] theorem State.startRetire_wf {s : State} (c router) (w : Memory.wf s.mem) :
    Memory.wf (s.startRetire c router).mem := by
  simp [w, State.startRetire]

@[simp] theorem State.retireAgain_wf {s : State} (c router) (w : Memory.wf s.mem) :
    Memory.wf (s.retireAgain c router).mem := by
  simp [w, State.retireAgain]

@[simp] theorem State.retireFailed_wf {s : State} (w : Memory.wf s.mem) : Memory.wf s.retireFailed.mem := by
  unfold State.retireFailed
  split
  · exact State.foldl_wf (fun s c w => by simp [w]) _ w
  · exact w

@[simp] theorem State.deviceEvent_mem (s : State) : (s.deviceEvent).mem = s.mem := rfl

/-- The canonical form in one line: every cell at or above `lo` and not empty, addresses strictly rising. -/
theorem memCanonFrom_iff (lo : Nat) (m : List Host.Cell) :
    memCanonFrom lo m = true ↔ (∀ c ∈ m, lo ≤ c.1 ∧ c.2 ≠ emptyByte) ∧ m.Pairwise fun a b => a.1 < b.1 := by
  induction m generalizing lo with
  | nil => simp [memCanonFrom]
  | cons c r ih =>
    obtain ⟨a, v⟩ := c
    simp only [memCanonFrom, Bool.and_eq_true, decide_eq_true_eq, bne_iff_ne, ne_eq, ih, List.mem_cons,
      forall_eq_or_imp,
      List.pairwise_cons]
    constructor
    · rintro ⟨⟨ha, hv⟩, hr, hp⟩
      exact ⟨⟨⟨ha, hv⟩, fun c hc => ⟨by have := (hr c hc).1; omega, (hr c hc).2⟩⟩, fun c hc => (hr c hc).1, hp⟩
    · rintro ⟨⟨⟨ha, hv⟩, hr⟩, hs, hp⟩
      exact ⟨⟨ha, hv⟩, fun c hc => ⟨hs c hc, (hr c hc).2⟩, hp⟩

theorem Memory.wf_iff (m : List Host.Cell) :
    Memory.wf m = true ↔ (∀ c ∈ m, c.2 ≠ emptyByte) ∧ m.Pairwise fun a b => a.1 < b.1 := by
  simp [Memory.wf, memCanonFrom_iff]

/-- Cells moved to a place that holds no others keep the canonical form. -/
theorem Memory.wf_move {m : List Host.Cell} (old new size : Nat) (w : Memory.wf m) :
    let in_ (lo : Nat) (c : Host.Cell) : Bool := decide (lo ≤ c.1) && decide (c.1 < lo + size)
    let rest := m.filter fun c => !in_ old c && !in_ new c
    let mine := (m.filter (in_ old)).map fun c => (c.1 - old + new, c.2)
    Memory.wf (rest.filter (fun c => decide (c.1 < new)) ++ mine ++ rest.filter fun c => decide
      (new ≤ c.1)) := by
  intro in_ rest mine
  obtain ⟨hv, hp⟩ := (Memory.wf_iff m).1 w
  have hrest : ∀ c ∈ rest, c ∈ m ∧ (c.1 < new ∨ new + size ≤ c.1) := by
    intro c hc
    obtain ⟨hm, hi⟩ := List.mem_filter.1 hc
    simp only [in_, Bool.and_eq_true, Bool.not_eq_true', Bool.and_eq_false_iff, decide_eq_false_iff_not] at hi
    exact ⟨hm, by omega⟩
  have hmine : ∀ c ∈ mine, c.2 ≠ emptyByte ∧ new ≤ c.1 ∧ c.1 < new + size := by
    intro c hc
    obtain ⟨b, hb, rfl⟩ := List.mem_map.1 hc
    obtain ⟨hm, hi⟩ := List.mem_filter.1 hb
    simp only [in_, Bool.and_eq_true, decide_eq_true_eq] at hi
    exact ⟨hv b hm, by dsimp only; omega, by dsimp only; omega⟩
  have hpm : mine.Pairwise fun a b => a.1 < b.1 := by
    refine List.pairwise_map.2 ((hp.filter _).imp_of_mem fun {a b} ha _ h => ?_)
    have hi := (List.mem_filter.1 ha).2
    simp only [in_, Bool.and_eq_true, decide_eq_true_eq] at hi
    dsimp only
    omega
  rw [Memory.wf_iff]
  constructor
  · intro c hc
    simp only [List.mem_append, List.mem_filter] at hc
    rcases hc with (hc | hc) | hc
    · exact hv c (hrest c hc.1).1
    · exact (hmine c hc).1
    · exact hv c (hrest c hc.1).1
  · refine List.pairwise_append.2 ⟨List.pairwise_append.2 ⟨(hp.filter _).filter _, hpm, ?_⟩,
      (hp.filter _).filter _, ?_⟩
    · intro a ha b hb
      have h1 := of_decide_eq_true (List.mem_filter.1 ha).2
      have h2 := hmine b hb
      omega
    · intro a ha b hb
      have h1 := of_decide_eq_true (List.mem_filter.1 hb).2
      have h2 := (hrest b (List.mem_filter.1 hb).1).2
      rcases List.mem_append.1 ha with ha | ha
      · have h3 := of_decide_eq_true (List.mem_filter.1 ha).2
        omega
      · have h3 := hmine a ha
        omega

@[simp] theorem State.setDie_wf {s : State} (die) (w : Memory.wf s.mem) : Memory.wf (s.setDie die).mem := by
  unfold State.setDie
  dsimp only
  split
  · exact w
  · exact Memory.wf_move (dpaKey (s.fw.die * 2 ^ 46)) (dpaKey (die * 2 ^ 46)) (2 ^ 44) w

@[simp] theorem State.remap_wf {s : State} (w : Memory.wf s.mem) : Memory.wf (s.remap).mem := by
  simp [w, State.remap]

@[simp] theorem State.trainLink_wf {s : State} (p width) (w : Memory.wf s.mem) :
    Memory.wf (s.trainLink p width).mem := by
  simp [w, State.trainLink]

@[simp] theorem State.retrain_mem (s : State) (p) : (s.retrain p).mem = s.mem := rfl

@[simp] theorem State.linkDown_mem (s : State) (p) : (s.linkDown p).mem = s.mem := by
  simp [State.linkDown]

@[simp] theorem State.sendWaiting_mem (s : State) (p) : (s.sendWaiting p).mem = s.mem := by
  unfold State.sendWaiting
  refine (State.foldl_mem (fun s a => ?_) _ _).trans (by simp)
  simp

@[simp] theorem State.retrainDone_mem (s : State) (p width) : (s.retrainDone p width).mem = s.mem := by
  simp [State.retrainDone]

@[simp] theorem State.linkTimers_wf {s : State} (w : Memory.wf s.mem) : Memory.wf s.linkTimers.mem :=
  State.foldl_wf (fun s p w => by (repeat' split) <;> simp [w]) _ w

@[simp] theorem State.freeLoads_wf {s : State} (w : Memory.wf s.mem) : Memory.wf s.freeLoads.mem :=
  State.foldl_wf (fun s l w => by
    simpa using State.foldl_wf (fun s p w => by simp [w]) _ w) _ w

@[simp] theorem State.afterReset_wf {s : State} (w : Memory.wf s.mem) : Memory.wf (s.afterReset).mem := by
  simp [w, State.afterReset]

@[simp] theorem State.deviceReset_wf {s : State} (w : Memory.wf s.mem) : Memory.wf (s.deviceReset).mem := by
  have hs : Memory.wf ((s.freeLoads.setDie 0).modFw Firmware.boot).afterReset.mem := 
    State.afterReset_wf (State.setDie_wf _ (State.freeLoads_wf w))
  unfold State.deviceReset
  dsimp only
  split <;> simp -implicitDefEqProofs [hs]

@[simp] theorem State.powerOff_wf {s : State} (w : Memory.wf s.mem) :
    Memory.wf (s.powerOff).mem := Memory.wf_filter _ w

@[simp] theorem State.trip_wf {s : State} (w : Memory.wf s.mem) : Memory.wf (s.trip).mem := by
  simp [w, State.trip]

@[simp] theorem State.modLoupe_mem (s : State) (f) : (s.modLoupe f).mem = s.mem := rfl

@[simp] theorem State.sample_wf {s : State} (cl t hot) (w : Memory.wf s.mem) :
    Memory.wf (s.sample cl t hot).mem := by
  unfold State.sample
  dsimp only
  split
  · exact State.trip_wf w
  · rw [State.foldl_mem fun s p => by split <;> simp]
    exact w

@[simp] theorem State.countClocks_mem (s : State) : (s.countClocks).mem = s.mem := by
  unfold State.countClocks
  refine (State.foldl_mem (fun s a => ?_) _ _).trans (by simp)
  simp

@[simp] theorem State.finishErase_mem (s : State) : (s.finishErase).mem = s.mem := by
  simp [State.finishErase]

/-! ### Vector arithmetic -/

@[simp] theorem State.drawTies_mem (s : State) (o) : (s.drawTies o).mem = s.mem := by
  simp [State.drawTies]

/-! ### Vector accesses -/

@[simp] theorem State.planBeats_mem (s : State) (o es) : (s.planBeats o es).mem = s.mem := by
  unfold State.planBeats
  refine (State.foldl_mem (fun s a => ?_) _ _).trans (by simp)
  simp

@[simp] theorem State.issueElem_wf {s : State} (a) (w : Memory.wf s.mem) : Memory.wf (s.issueElem a).mem := by
  simp [w, State.issueElem]

@[simp] theorem State.lastBeats_mem (s : State) (r) : (s.lastBeats r).mem = s.mem := rfl

@[simp] theorem State.beatConflict_mem (s : State) (r) : (s.beatConflict r).mem = s.mem := by
  unfold State.beatConflict
  dsimp only
  (repeat' split) <;> simp

@[simp] theorem State.runBeats_wf {s : State} (r) (w : Memory.wf s.mem) : Memory.wf (s.runBeats r).mem := by
  simp [w, State.runBeats]

@[simp] theorem State.vload_wf {s : State} (o es) (w : Memory.wf s.mem) : Memory.wf (s.vload o es).mem := by
  unfold State.vload
  exact State.foldl_wf (fun s a w => by simp [w]) _ (by simp [w])

/-! ### The panel -/

@[simp] theorem State.farAnswer_wf {s : State} (p ok info val bytes) (w : Memory.wf s.mem) :
    Memory.wf (s.farAnswer p ok info val bytes).mem := by
  unfold State.farAnswer
  (repeat' split) <;> simp [w]

@[simp] theorem State.farPacket_mem (s : State) (src dst seq g) : (s.farPacket src dst seq g).mem = s.mem := by
  simp [State.farPacket]

@[simp] theorem State.rewriteFar_wf {s : State} (t die) (w : Memory.wf s.mem) :
    Memory.wf (s.rewriteFar t die).mem := by
  unfold State.rewriteFar
  refine State.foldl_wf (fun s c w => ?_) _ (State.writeFarNames_wf _ _ w)
  split
  · exact State.foldl_wf (fun s n w => State.invalidateName_wf _ _ w) _ w
  · exact w

@[simp] theorem State.memberBinds_wf {s : State} (m) (w : Memory.wf s.mem) :
    Memory.wf (s.memberBinds m).mem := by
  unfold State.memberBinds
  exact State.foldl_wf (fun s a w => by simp [w]) _ (by simp [w])

@[simp] theorem State.memberEnds_wf {s : State} (asid image die) (w : Memory.wf s.mem) :
    Memory.wf (s.memberEnds asid image die).mem := by
  unfold State.memberEnds
  exact State.foldl_wf (fun s a w => by simp [w]) _ (by simp [w])

@[simp] theorem State.releaseAnnounced_mem (s : State) (asid image bar tick) :
    (s.releaseAnnounced asid image bar tick).mem = s.mem := rfl

@[simp] theorem State.farHeartbeat_mem (s : State) : (s.farHeartbeat).mem = s.mem := by
  simp [State.farHeartbeat]

@[simp] theorem State.hostReads_mem (s : State) (w') : (s.hostReads w').mem = s.mem := rfl

@[simp] theorem State.outside_wf {s : State} (a) (w : Memory.wf s.mem) : Memory.wf (s.outside a).mem := by
  unfold State.outside
  (repeat' split) <;> simp [w, Memory.wf_writeAll]

/-! ### The tick -/

@[simp] theorem State.panelInterval_mem (s : State) : (s.panelInterval).mem = s.mem := by
  simp [State.panelInterval]

@[simp] theorem State.openings_mem (s : State) : (s.openings).1.mem = s.mem := by
  unfold State.openings
  refine (State.foldl_mem (fun s a => ?_) _ _).trans (by simp)
  simp

@[simp] theorem State.freePorts_mem (s : State) : (s.freePorts).mem = s.mem := rfl

@[simp] theorem State.begins_mem (s : State) : (s.begins).mem = s.mem := rfl

@[simp] theorem State.housekeep_wf {s : State} (w : Memory.wf s.mem) : Memory.wf (s.housekeep).mem := by
  simp [w, State.housekeep]

@[simp] theorem State.tick_wf {s : State} (w : Memory.wf s.mem) : Memory.wf (s.tick).mem := by
  simp [w, State.tick]

end Sys2Proof.Machine
end

section
/-! SUPPORT. What it is for a word or an event to keep the canonical form of memory, and the shapes that
the instructions share: each shape keeps the form where its body does. -/

namespace Sys2Proof.Machine

/-- The outcome is a next state, and memory keeps its canonical form on the way to it. -/
def Completes (s : State) (x : Host.Outcome State Fault Refusal) : Prop :=
  ∃ t, x = .next t ∧ (Memory.wf s.mem → Memory.wf t.mem)

/-- Where the outcome is a next state, memory keeps its canonical form on the way to it. -/
def KeepsForm (s : State) (x : Host.Outcome State Fault Refusal) : Prop :=
  ∀ t, x = .next t → Memory.wf s.mem → Memory.wf t.mem

theorem Completes.keeps {s : State} {x} (h : Completes s x) : KeepsForm s x := by
  obtain ⟨t, rfl, ht⟩ := h
  rintro _ ⟨⟩
  exact ht

theorem next_completes {s t : State} (h : Memory.wf s.mem → Memory.wf t.mem) :
    Completes s (.next t) := ⟨t, rfl, h⟩

theorem next_keeps {s t : State} (h : Memory.wf s.mem → Memory.wf t.mem) :
    KeepsForm s (.next t) := (next_completes h).keeps

theorem fault_keeps {s : State} {u} : KeepsForm s (.fault u) := fun _ h => by cases h

theorem ite_keeps {s : State} {c : Prop} [Decidable c] {x y} (hx : KeepsForm s x) (hy : KeepsForm s y) :
    KeepsForm s (if c then x else y) := by
  split <;> assumption

theorem onCore_keeps {s t : State} {c : Nat} (h : Memory.wf s.mem → Memory.wf t.mem) :
    KeepsForm s (onCore c t) :=
  ite_keeps (next_keeps h) fault_keeps

theorem onSlot_keeps {s t : State} {c k : Nat} (h : Memory.wf s.mem → Memory.wf t.mem) :
    KeepsForm s (onSlot c k t) :=
  ite_keeps (next_keeps h) fault_keeps

theorem onQueue_keeps {s t : State} {q : Nat} (h : Memory.wf s.mem → Memory.wf t.mem) :
    KeepsForm s (onQueue q t) :=
  ite_keeps (next_keeps h) fault_keeps

theorem onCluster_keeps {s t : State} {c : Nat} (h : Memory.wf s.mem → Memory.wf t.mem) :
    KeepsForm s (onCluster c t) :=
  ite_keeps (next_keeps h) fault_keeps

theorem onPort_keeps {s t : State} {p : Nat} (h : Memory.wf s.mem → Memory.wf t.mem) :
    KeepsForm s (onPort p t) :=
  ite_keeps (next_keeps h) fault_keeps

theorem onTask_keeps {s t : State} {k : Nat} (h : Memory.wf s.mem → Memory.wf t.mem) :
    KeepsForm s (onTask k s t) :=
  next_keeps fun w => by split <;> simp [w, h]

theorem State.firmware_keeps {s t : State} (h : Memory.wf s.mem → Memory.wf t.mem) :
    KeepsForm s (s.firmware t) :=
  next_keeps fun w => by split <;> simp [w, h]

theorem State.guarded_wf {s : State} {h : Hdr} {body : State → State} (w : Memory.wf s.mem)
    (hb : Memory.wf (body s).mem) : Memory.wf (s.guarded h body).mem := by
  unfold State.guarded
  split
  · exact hb
  · exact w

theorem word_completes {s : State} {h : Hdr} {body : State → State}
    (hb : Memory.wf s.mem → Memory.wf (body s).mem) :
    Completes s (word h s body) := next_completes fun w => State.guarded_wf w (hb w)

theorem alu_completes {s : State} {lat : Nat} {h : Hdr} {o : FmtA} {f} : Completes s (alu lat h o s f) :=
  word_completes fun w => by simp [w]

theorem aluImm_completes {s : State} {h : Hdr} {o : FmtB} {f} : Completes s (aluImm h o s f) :=
  word_completes fun w => by simp [w]

theorem divWord_completes {s : State} {h : Hdr} {o : FmtA} {rem : Bool} : Completes s (divWord h o s rem) :=
  next_completes fun w => by
    dsimp only
    (repeat' split) <;> simp [w]

theorem srWord_completes {s : State} {h : Hdr} {o : FmtX} {body : State → State}
    (hb : Memory.wf s.mem → Memory.wf (body s).mem) : Completes s (srWord h o s body) :=
  next_completes fun w => by
    split
    · simp [w]
    · exact State.guarded_wf w (hb w)

theorem farith_completes {s : State} {h : Hdr} {o : FmtA} {f} : Completes s (farith h o s f) :=
  word_completes fun w => by
    dsimp only
    simp [w]

theorem accessWord_completes {s : State} {h : Hdr} {o : FmtM} {k op sx} :
    Completes s (accessWord h o s k op sx) :=
  word_completes fun w => by
    dsimp only
    split <;> simp [w]

theorem fenceWord_completes {s : State} {h : Hdr} {o : FmtM} {acq rel stage} :
    Completes s (fenceWord h o s acq rel stage) :=
  word_completes fun w => by simp [w]

theorem armWord_completes {s : State} {h : Hdr} {o : FmtA} {al len} {body : List Byte → Nat → State → State}
    (hb : ∀ bs n u, (body bs n u).mem = u.mem) : Completes s (armWord h o s al len body) :=
  word_completes fun w => by
    dsimp only
    (repeat' split) <;> simp [w, hb]

theorem qntWord_completes {s : State} {h : Hdr} {o : FmtA} {dft} : Completes s (qntWord h o s dft) := by
  unfold qntWord
  exact armWord_completes fun bs n u => by simp

theorem stopWord_completes {s : State} {h : Hdr} {o : FmtA} {r} : Completes s (stopWord h o s r) :=
  word_completes fun w => by
    split <;> simp [w]

theorem vectorWord_completes {s : State} {h : Hdr} {o : FmtV} {beats lat srcs whole body}
    {after : State → State} (ha : Memory.wf s.mem → Memory.wf (after s).mem) :
    Completes s (vectorWord h o s beats lat srcs whole body after) :=
  next_completes fun w => by
    dsimp only
    (repeat' split) <;> simp [w, ha]

theorem velem_completes {s : State} {h : Hdr} {o : FmtV} {srcs body} :
    Completes s (velem h o s srcs body) := vectorWord_completes id

theorem vmove_completes {s : State} {h : Hdr} {o : FmtV} {srcs body} :
    Completes s (vmove h o s srcs body) := vectorWord_completes id

theorem scaleGroups_completes {s : State} {h : Hdr} {o : FmtV} {f} :
    Completes s (scaleGroups h o s f) := vectorWord_completes id

theorem loadWord_completes {s : State} {h : Hdr} {o : FmtV} {srcs unit elems} :
    Completes s (loadWord h o s srcs unit elems) := vectorWord_completes fun w => by simp [w]

theorem storeWord_completes {s : State} {h : Hdr} {o : FmtV} {srcs unit elems} :
    Completes s (storeWord h o s srcs unit elems) :=
  vectorWord_completes fun w => State.foldl_wf (fun s e w => by simp [w]) _ (by simp [w])

end Sys2Proof.Machine
end

section
/-! SUPPORT. Each word answers a next state (R23), and each word and event keeps the canonical form of memory. -/

namespace Sys2Proof.Machine

/-! ### Transfers of control -/

theorem execNop_completes {s : State} {h : Hdr} {o : FmtC} : Completes s (execNop h o s) :=
  word_completes fun w => by simp [w]

theorem execBr_completes {s : State} {h : Hdr} {o : FmtC} : Completes s (execBr h o s) :=
  word_completes fun w => by simp [w]

theorem execJmp_completes {s : State} {h : Hdr} {o : FmtC} : Completes s (execJmp h o s) :=
  word_completes fun w => by simp [w]

theorem execCall_completes {s : State} {h : Hdr} {o : FmtC} : Completes s (execCall h o s) :=
  word_completes fun w => by simp [w]

theorem execCallr_completes {s : State} {h : Hdr} {o : FmtC} : Completes s (execCallr h o s) :=
  word_completes fun w => by simp [w]

theorem execRet_completes {s : State} {h : Hdr} {o : FmtC} : Completes s (execRet h o s) :=
  word_completes fun w => by simp [w]

theorem execLoop_completes {s : State} {h : Hdr} {o : FmtC} : Completes s (execLoop h o s) :=
  word_completes fun w => by simp [w]

theorem execLoopImm_completes {s : State} {h : Hdr} {o : FmtC} : Completes s (execLoopImm h o s) :=
  word_completes fun w => by simp [w]

theorem execWaitc_completes {s : State} {h : Hdr} {o : FmtC} : Completes s (execWaitc h o s) :=
  word_completes fun w => by simp [w]

theorem execWaitcImm_completes {s : State} {h : Hdr} {o : FmtC} : Completes s (execWaitcImm h o s) :=
  word_completes fun w => by simp [w]

theorem execEndSlot_completes {s : State} {h : Hdr} {o : FmtC} : Completes s (execEndSlot h o s) :=
  word_completes fun w => by simp [w]

theorem execTrap_completes {s : State} {h : Hdr} {o : FmtC} : Completes s (execTrap h o s) :=
  word_completes fun w => by simp [w]

theorem execBrk_completes {s : State} {h : Hdr} {o : FmtC} : Completes s (execBrk h o s) :=
  word_completes fun w => by simp [w]

theorem execRft_completes {s : State} {h : Hdr} {o : FmtC} : Completes s (execRft h o s) :=
  word_completes fun w => by simp [w]

theorem execRftNext_completes {s : State} {h : Hdr} {o : FmtC} : Completes s (execRftNext h o s) :=
  word_completes fun w => by simp [w]

theorem execChkp_completes {s : State} {h : Hdr} {o : FmtC} : Completes s (execChkp h o s) :=
  word_completes fun w => by simp [w]

theorem execChkpImm_completes {s : State} {h : Hdr} {o : FmtC} : Completes s (execChkpImm h o s) :=
  word_completes fun w => by simp [w]

/-! ### Integer words -/

theorem execAdd_completes {s : State} {h : Hdr} {o : FmtA} : Completes s (execAdd h o s) := alu_completes

theorem execSub_completes {s : State} {h : Hdr} {o : FmtA} : Completes s (execSub h o s) := alu_completes

theorem execMul_completes {s : State} {h : Hdr} {o : FmtA} : Completes s (execMul h o s) := alu_completes

theorem execMulh_completes {s : State} {h : Hdr} {o : FmtA} : Completes s (execMulh h o s) := alu_completes

theorem execDiv_completes {s : State} {h : Hdr} {o : FmtA} : Completes s (execDiv h o s) := divWord_completes

theorem execRem_completes {s : State} {h : Hdr} {o : FmtA} : Completes s (execRem h o s) := divWord_completes

theorem execAndG_completes {s : State} {h : Hdr} {o : FmtA} : Completes s (execAndG h o s) := alu_completes

theorem execOrG_completes {s : State} {h : Hdr} {o : FmtA} : Completes s (execOrG h o s) := alu_completes

theorem execXorG_completes {s : State} {h : Hdr} {o : FmtA} : Completes s (execXorG h o s) := alu_completes

theorem execAndn_completes {s : State} {h : Hdr} {o : FmtA} : Completes s (execAndn h o s) := alu_completes

theorem execShl_completes {s : State} {h : Hdr} {o : FmtA} : Completes s (execShl h o s) := alu_completes

theorem execShr_completes {s : State} {h : Hdr} {o : FmtA} : Completes s (execShr h o s) := alu_completes

theorem execSar_completes {s : State} {h : Hdr} {o : FmtA} : Completes s (execSar h o s) := alu_completes

theorem execRot_completes {s : State} {h : Hdr} {o : FmtA} : Completes s (execRot h o s) := alu_completes

theorem execMinG_completes {s : State} {h : Hdr} {o : FmtA} : Completes s (execMinG h o s) := alu_completes

theorem execMaxG_completes {s : State} {h : Hdr} {o : FmtA} : Completes s (execMaxG h o s) := alu_completes

theorem execClz_completes {s : State} {h : Hdr} {o : FmtA} : Completes s (execClz h o s) := alu_completes

theorem execCtz_completes {s : State} {h : Hdr} {o : FmtA} : Completes s (execCtz h o s) := alu_completes

theorem execPopc_completes {s : State} {h : Hdr} {o : FmtA} : Completes s (execPopc h o s) := alu_completes

theorem execExt_completes {s : State} {h : Hdr} {o : FmtA} : Completes s (execExt h o s) := alu_completes

theorem execBfx_completes {s : State} {h : Hdr} {o : FmtA} : Completes s (execBfx h o s) := alu_completes

theorem execBfi_completes {s : State} {h : Hdr} {o : FmtA} : Completes s (execBfi h o s) :=
  word_completes fun w => by simp [w]

theorem execSel_completes {s : State} {h : Hdr} {o : FmtA} : Completes s (execSel h o s) := alu_completes

theorem execLea_completes {s : State} {h : Hdr} {o : FmtA} : Completes s (execLea h o s) := alu_completes

theorem execCmp_completes {s : State} {h : Hdr} {o : FmtA} : Completes s (execCmp h o s) :=
  word_completes fun w => by simp [w]

theorem execPlog_completes {s : State} {h : Hdr} {o : FmtA} : Completes s (execPlog h o s) :=
  word_completes fun w => by simp [w]

theorem execAddi_completes {s : State} {h : Hdr} {o : FmtB} : Completes s (execAddi h o s) := aluImm_completes

theorem execAndi_completes {s : State} {h : Hdr} {o : FmtB} : Completes s (execAndi h o s) := aluImm_completes

theorem execOri_completes {s : State} {h : Hdr} {o : FmtB} : Completes s (execOri h o s) := aluImm_completes

theorem execXori_completes {s : State} {h : Hdr} {o : FmtB} : Completes s (execXori h o s) := aluImm_completes

theorem execShi_completes {s : State} {h : Hdr} {o : FmtB} : Completes s (execShi h o s) := aluImm_completes

theorem execLi_completes {s : State} {h : Hdr} {o : FmtB} : Completes s (execLi h o s) := aluImm_completes

theorem execLiZ_completes {s : State} {h : Hdr} {o : FmtB} : Completes s (execLiZ h o s) := aluImm_completes

theorem execLiH_completes {s : State} {h : Hdr} {o : FmtB} : Completes s (execLiH h o s) := aluImm_completes

theorem execCmpi_completes {s : State} {h : Hdr} {o : FmtB} : Completes s (execCmpi h o s) :=
  word_completes fun w => by simp [w]

/-! ### System registers -/

theorem execMfsr_completes {s : State} {h : Hdr} {o : FmtX} :
    Completes s (execMfsr h o s) := srWord_completes fun w => by simp [w]

theorem execMtsr_completes {s : State} {h : Hdr} {o : FmtX} :
    Completes s (execMtsr h o s) := srWord_completes fun w => by simp [w]

theorem execSrset_completes {s : State} {h : Hdr} {o : FmtX} :
    Completes s (execSrset h o s) := srWord_completes fun w => by simp [w]

theorem execSrclr_completes {s : State} {h : Hdr} {o : FmtX} :
    Completes s (execSrclr h o s) := srWord_completes fun w => by simp [w]

theorem execWheelWrite_completes {s : State} {h : Hdr} {op : SrOp} {o : FmtX} :
    Completes s (execWheelWrite h op o s) :=
  word_completes fun w => by simp [w]

theorem execWheelSwitch_keeps {s : State} {core : Nat} : KeepsForm s (execWheelSwitch core s) :=
  onCore_keeps fun w => by simp [w]

/-! ### Floating words -/

theorem execFadd_completes {s : State} {h : Hdr} {o : FmtA} : Completes s (execFadd h o s) := farith_completes

theorem execFsub_completes {s : State} {h : Hdr} {o : FmtA} : Completes s (execFsub h o s) := farith_completes

theorem execFmul_completes {s : State} {h : Hdr} {o : FmtA} : Completes s (execFmul h o s) := farith_completes

theorem execFfma_completes {s : State} {h : Hdr} {o : FmtA} : Completes s (execFfma h o s) := farith_completes

theorem execFmin_completes {s : State} {h : Hdr} {o : FmtA} : Completes s (execFmin h o s) :=
  word_completes fun w => by simp [w]

theorem execFmax_completes {s : State} {h : Hdr} {o : FmtA} : Completes s (execFmax h o s) :=
  word_completes fun w => by simp [w]

theorem execFcmp_completes {s : State} {h : Hdr} {o : FmtA} : Completes s (execFcmp h o s) :=
  word_completes fun w => by simp [w]

theorem execFcvt_completes {s : State} {h : Hdr} {o : FmtA} : Completes s (execFcvt h o s) :=
  word_completes fun w => by simp [w]

theorem execFsf_completes {s : State} {h : Hdr} {o : FmtA} : Completes s (execFsf h o s) :=
  word_completes fun w => by simp [w]

theorem execFclass_completes {s : State} {h : Hdr} {o : FmtA} : Completes s (execFclass h o s) :=
  word_completes fun w => by simp [w]

theorem execFsgn_completes {s : State} {h : Hdr} {o : FmtA} : Completes s (execFsgn h o s) :=
  word_completes fun w => by simp [w]

/-! ### The cells of a lens -/

theorem execCellHold_keeps {s : State} {lens : Nat} {row : Nat} {col : Nat} :
    KeepsForm s (execCellHold lens row col s) :=
  next_keeps fun w => by simp [w]

theorem execCellPass_keeps {s : State} {lens : Nat} {row : Nat} {col : Nat} :
    KeepsForm s (execCellPass lens row col s) :=
  next_keeps fun w => by simp [w]

theorem execCellAcm_keeps {s : State} {lens : Nat} {row : Nat} {col : Nat} :
    KeepsForm s (execCellAcm lens row col s) :=
  next_keeps fun w => by simp [w]

theorem execCellAcmz_keeps {s : State} {lens : Nat} {row : Nat} {col : Nat} :
    KeepsForm s (execCellAcmz lens row col s) :=
  next_keeps fun w => by simp [w]

theorem execCellPsm_keeps {s : State} {lens : Nat} {row : Nat} {col : Nat} :
    KeepsForm s (execCellPsm lens row col s) :=
  next_keeps fun w => by simp [w]

theorem execCellWld_keeps {s : State} {lens : Nat} {row : Nat} {col : Nat} :
    KeepsForm s (execCellWld lens row col s) :=
  next_keeps fun w => by simp [w]

theorem execCellDrn_keeps {s : State} {lens : Nat} {row : Nat} {col : Nat} :
    KeepsForm s (execCellDrn lens row col s) :=
  next_keeps fun w => by simp [w]

theorem execCellCmpx_keeps {s : State} {lens : Nat} {row : Nat} {col : Nat} :
    KeepsForm s (execCellCmpx lens row col s) :=
  next_keeps fun w => by simp [w]

theorem execCellRec_keeps {s : State} {lens : Nat} {row : Nat} {col : Nat} :
    KeepsForm s (execCellRec lens row col s) :=
  next_keeps fun w => by simp [w]

theorem execCellGen_keeps {s : State} {lens : Nat} {row : Nat} {col : Nat} :
    KeepsForm s (execCellGen lens row col s) :=
  next_keeps fun w => by simp [w]

theorem execCellAdd_keeps {s : State} {lens : Nat} {row : Nat} {col : Nat} :
    KeepsForm s (execCellAdd lens row col s) :=
  next_keeps fun w => by simp [w]

theorem execCellMaxp_keeps {s : State} {lens : Nat} {row : Nat} {col : Nat} :
    KeepsForm s (execCellMaxp lens row col s) :=
  next_keeps fun w => by simp [w]

theorem execCellLdh_keeps {s : State} {lens : Nat} {row : Nat} {col : Nat} :
    KeepsForm s (execCellLdh lens row col s) :=
  next_keeps fun w => by simp [w]

theorem execCellSnap_keeps {s : State} {lens : Nat} {row : Nat} {col : Nat} :
    KeepsForm s (execCellSnap lens row col s) :=
  next_keeps fun w => by simp [w]

theorem execCellRestore_keeps {s : State} {lens : Nat} {row : Nat} {col : Nat} :
    KeepsForm s (execCellRestore lens row col s) :=
  next_keeps fun w => by simp [w]

theorem execCellZero_keeps {s : State} {lens : Nat} {row : Nat} {col : Nat} :
    KeepsForm s (execCellZero lens row col s) :=
  next_keeps fun w => by simp [w]

/-! ### Events of a slot -/

theorem execDeferredFault_keeps {s : State} {core : Nat} {slot : Nat} {id : Nat} :
    KeepsForm s (execDeferredFault core slot id s) :=
  onSlot_keeps fun w => by split <;> simp [w]

theorem execBudgetDeadline_keeps {s : State} {core : Nat} {slot : Nat} :
    KeepsForm s (execBudgetDeadline core slot s) :=
  onSlot_keeps fun w => by simp [w]

/-! ### Accesses to memory -/

theorem execResultWriteback_keeps {s : State} {core : Nat} {slot : Nat} {id : Nat} :
    KeepsForm s (execResultWriteback core slot id s) :=
  onSlot_keeps fun w => by split <;> simp [w]

theorem execLd_completes {s : State} {h : Hdr} {o : FmtM} : Completes s (execLd h o s) := accessWord_completes

theorem execSt_completes {s : State} {h : Hdr} {o : FmtM} : Completes s (execSt h o s) := accessWord_completes

theorem execAmo_completes {s : State} {h : Hdr} {o : FmtM} : Completes s (execAmo h o s) := accessWord_completes

theorem execFenceAcq_completes {s : State} {h : Hdr} {o : FmtM} :
    Completes s (execFenceAcq h o s) := fenceWord_completes

theorem execFenceRel_completes {s : State} {h : Hdr} {o : FmtM} :
    Completes s (execFenceRel h o s) := fenceWord_completes

theorem execFenceAr_completes {s : State} {h : Hdr} {o : FmtM} :
    Completes s (execFenceAr h o s) := fenceWord_completes

theorem execFenceSc_completes {s : State} {h : Hdr} {o : FmtM} :
    Completes s (execFenceSc h o s) := fenceWord_completes

theorem execFenceLayer_completes {s : State} {h : Hdr} {o : FmtM} :
    Completes s (execFenceLayer h o s) := fenceWord_completes

theorem execScOrderPlace_keeps {s : State} {core : Nat} {slot : Nat} :
    KeepsForm s (execScOrderPlace core slot s) :=
  onSlot_keeps fun w => by split <;> simp [w]

theorem execWindowEnd_keeps {s : State} {core : Nat} {slot : Nat} {id : Nat} :
    KeepsForm s (execWindowEnd core slot id s) :=
  onSlot_keeps fun w => by split <;> simp [w]

theorem execGlobalRequestArrive_keeps {s : State} {pkt : Nat} : KeepsForm s (execGlobalRequestArrive pkt s) :=
  next_keeps fun w => by (repeat' split) <;> simp [w]

theorem execGlobalResponseArrive_keeps {s : State} {pkt : Nat} : KeepsForm s (execGlobalResponseArrive pkt s) :=
  next_keeps fun w => by (repeat' split) <;> simp [w]

/-! ### Banks -/

theorem execGive_completes {s : State} {h : Hdr} {o : FmtM} : Completes s (execGive h o s) :=
  word_completes fun w => by
    dsimp only
    (repeat' split) <;> simp -implicitDefEqProofs [w]

theorem execGiveAdmission_keeps {s : State} {core : Nat} {id : Nat} :
    KeepsForm s (execGiveAdmission core id s) :=
  onCore_keeps fun w => by (repeat' split) <;> simp [w]

theorem execGiveRepoint_keeps {s : State} {core : Nat} {id : Nat} : KeepsForm s (execGiveRepoint core id s) :=
  onCore_keeps fun w => by split <;> simp [w]

theorem execBatt_completes {s : State} {h : Hdr} {o : FmtM} : Completes s (execBatt h o s) :=
  word_completes fun w => by
    dsimp only
    (repeat' split) <;> simp [w]

theorem execBattComplete_keeps {s : State} {core : Nat} {k : Nat} : KeepsForm s (execBattComplete core k s) :=
  onCore_keeps fun w => by
    dsimp only
    (repeat' split) <;> simp [w, State.zeroBank_wf]

theorem execBdet_completes {s : State} {h : Hdr} {o : FmtM} : Completes s (execBdet h o s) :=
  word_completes fun w => by simp [w]

theorem execBdetComplete_keeps {s : State} {core : Nat} {k : Nat} : KeepsForm s (execBdetComplete core k s) :=
  onCore_keeps fun w => by simp [w]

theorem execBqry_completes {s : State} {h : Hdr} {o : FmtM} : Completes s (execBqry h o s) :=
  word_completes fun w => by
    dsimp only
    (repeat' split) <;> simp [w]

theorem execBqryAnswer_keeps {s : State} {core : Nat} {slot : Nat} : KeepsForm s (execBqryAnswer core slot s) :=
  onSlot_keeps fun w => by split <;> simp [w]

/-! ### Messages and notifies -/

theorem execSendMsg_completes {s : State} {h : Hdr} {o : FmtA} : Completes s (execSendMsg h o s) :=
  word_completes fun w => by
    dsimp only
    (repeat' split) <;> simp [w]

theorem execHeadFlitLeaves_keeps {s : State} {core : Nat} : KeepsForm s (execHeadFlitLeaves core s) :=
  onCore_keeps fun w => by (repeat' split) <;> simp [w]

theorem execRecv_completes {s : State} {h : Hdr} {o : FmtA} : Completes s (execRecv h o s) :=
  word_completes fun w => by
    dsimp only
    (repeat' split) <;> simp [w]

theorem execRecva_completes {s : State} {h : Hdr} {o : FmtA} : Completes s (execRecva h o s) :=
  word_completes fun w => by
    dsimp only
    (repeat' split) <;> simp [w]

theorem execMessageArrive_keeps {s : State} {pkt : Nat} : KeepsForm s (execMessageArrive pkt s) :=
  next_keeps fun w => by (repeat' split) <;> simp [w]

theorem execRecvWindowExpire_keeps {s : State} {core : Nat} {chan : Nat} :
    KeepsForm s (execRecvWindowExpire core chan s) :=
  onCore_keeps fun w => by simp [w]

theorem execNote_completes {s : State} {h : Hdr} {o : FmtA} : Completes s (execNote h o s) :=
  word_completes fun w => by
    dsimp only
    (repeat' split) <;> simp [w]

theorem execWaitn_completes {s : State} {h : Hdr} {o : FmtA} : Completes s (execWaitn h o s) :=
  word_completes fun w => by simp [w]

theorem execNotifyArrive_keeps {s : State} {core : Nat} {slot : Nat} {mask : BitVec 16} :
    KeepsForm s (execNotifyArrive core slot mask s) :=
  onSlot_keeps fun w => by simp [w]

theorem execNamePre_completes {s : State} {h : Hdr} {o : FmtA} : Completes s (execNamePre h o s) :=
  word_completes fun w => by simp [w]

theorem execNameWalkComplete_keeps {s : State} {core : Nat} {name : Nat} :
    KeepsForm s (execNameWalkComplete core name s) :=
  onCore_keeps fun w => by simp [w]

theorem execNameCacheInvalidate_keeps {s : State} {task : Nat} {name : Nat} :
    KeepsForm s (execNameCacheInvalidate task name s) :=
  next_keeps fun w => by simp [w]

theorem execPacketRetransmit_keeps {s : State} {pkt : Nat} : KeepsForm s (execPacketRetransmit pkt s) :=
  next_keeps fun w => by split <;> simp [w]

theorem execNiGiveUp_keeps {s : State} {pkt : Nat} : KeepsForm s (execNiGiveUp pkt s) :=
  next_keeps fun w => by
    dsimp only
    (repeat' split) <;> simp [w]

/-! ### Barriers and heartbeats -/

theorem execBarrierArrival_keeps {s : State} {core : Nat} {bar : Nat} :
    KeepsForm s (execBarrierArrival core bar s) :=
  onCore_keeps fun w => by simp [w]

theorem execBarAw_completes {s : State} {h : Hdr} {o : FmtA} : Completes s (execBarAw h o s) :=
  word_completes fun w => by simp [w]

theorem execBarA_completes {s : State} {h : Hdr} {o : FmtA} : Completes s (execBarA h o s) :=
  word_completes fun w => by simp [w]

theorem execBarW_completes {s : State} {h : Hdr} {o : FmtA} : Completes s (execBarW h o s) :=
  word_completes fun w => by simp [w]

theorem execBarrierRelease_keeps {s : State} {core : Nat} {bar : Nat} :
    KeepsForm s (execBarrierRelease core bar s) :=
  onCore_keeps fun w => by simp [w]

theorem execDeviceHeartbeat_keeps {s : State} {core : Nat} : KeepsForm s (execDeviceHeartbeat core s) :=
  onCore_keeps fun w => by simp [w]

theorem execPanelHeartbeat_keeps {s : State} {core : Nat} : KeepsForm s (execPanelHeartbeat core s) :=
  onCore_keeps fun w => by simp [w]

/-! ### Edges and address generators -/

theorem execInputPresent_keeps {s : State} {lens : Nat} {edge : Nat} {lane : Nat} :
    KeepsForm s (execInputPresent lens edge lane s) :=
  next_keeps fun w => by (repeat' split) <;> simp [w]

theorem execAgFetch_keeps {s : State} {core : Nat} {ag : Nat} {lane : Nat} :
    KeepsForm s (execAgFetch core ag lane s) :=
  onCore_keeps fun w => by simp [w]

/-! ### Channels -/

theorem execChannelForward_keeps {s : State} {task : Nat} {chan : Nat} {lane : Nat} :
    KeepsForm s (execChannelForward task chan lane s) :=
  next_keeps fun w => by (repeat' split) <;> simp [w]

/-! ### The graph unit -/

theorem execGnode_completes {s : State} {h : Hdr} {o : FmtA} :
    Completes s (execGnode h o s) := armWord_completes fun bs n u => by simp

theorem execCpy_completes {s : State} {h : Hdr} {o : FmtA} : Completes s (execCpy h o s) := by
  unfold execCpy
  exact armWord_completes fun bs n u => by simp

theorem execQntE8l_completes {s : State} {h : Hdr} {o : FmtA} :
    Completes s (execQntE8l h o s) := qntWord_completes

theorem execQntFq4_completes {s : State} {h : Hdr} {o : FmtA} :
    Completes s (execQntFq4 h o s) := qntWord_completes

theorem execNodeComplete_keeps {s : State} {core : Nat} {node : Nat} :
    KeepsForm s (execNodeComplete core node s) :=
  onCore_keeps fun w => by simp [w]

theorem execGraphUnitRun_keeps {s : State} {core : Nat} : KeepsForm s (execGraphUnitRun core s) :=
  onCore_keeps fun w => by simp [w]

theorem execRemoteRelease_keeps {s : State} {pkt : Nat} : KeepsForm s (execRemoteRelease pkt s) :=
  next_keeps fun w => by (repeat' split) <;> simp [w]

theorem execGdep_completes {s : State} {h : Hdr} {o : FmtA} : Completes s (execGdep h o s) :=
  word_completes fun w => by split <;> simp [w]

theorem execGwait_completes {s : State} {h : Hdr} {o : FmtA} : Completes s (execGwait h o s) :=
  word_completes fun w => by split <;> simp [w]

theorem execGwaitAll_completes {s : State} {h : Hdr} {o : FmtA} : Completes s (execGwaitAll h o s) :=
  word_completes fun w => by simp [w]

theorem execGpoll_completes {s : State} {h : Hdr} {o : FmtA} : Completes s (execGpoll h o s) :=
  word_completes fun w => by split <;> simp [w]

theorem execGstatFree_completes {s : State} {h : Hdr} {o : FmtA} : Completes s (execGstatFree h o s) :=
  word_completes fun w => by simp [w]

theorem execGstatDone_completes {s : State} {h : Hdr} {o : FmtA} : Completes s (execGstatDone h o s) :=
  word_completes fun w => by simp [w]

theorem execGkill_completes {s : State} {h : Hdr} {o : FmtA} : Completes s (execGkill h o s) :=
  word_completes fun w => by split <;> simp [w]

/-! ### Translation -/

theorem execWalkComplete_keeps {s : State} {id : Nat} : KeepsForm s (execWalkComplete id s) :=
  next_keeps fun w => by
    dsimp only
    (repeat' split) <;> simp [w]

theorem execExtentInstall_keeps {s : State} {core : Nat} {ag : Nat} :
    KeepsForm s (execExtentInstall core ag s) :=
  onCore_keeps fun w => by split <;> simp [w]

theorem execTlbInvalidation_keeps {s : State} {asid : Nat} {va : Word} {bytes : Nat} :
    KeepsForm s (execTlbInvalidation asid va bytes s) :=
  next_keeps fun w => by simp [w]

theorem execMigrationStart_keeps {s : State} {asid : Nat} {va : Word} :
    KeepsForm s (execMigrationStart asid va s) :=
  next_keeps fun w => by simp [w]

theorem execMigrationCommit_keeps {s : State} {asid : Nat} {va : Word} :
    KeepsForm s (execMigrationCommit asid va s) :=
  next_keeps fun w => by simp [w]

/-! ### Engines -/

theorem execCopySegment_keeps {s : State} {core : Nat} {chan : Nat} :
    KeepsForm s (execCopySegment core chan s) :=
  onCore_keeps fun w => by
    dsimp only
    (repeat' split) <;> simp [w]

theorem execBulkTransferDone_keeps {s : State} {core : Nat} : KeepsForm s (execBulkTransferDone core s) :=
  onCore_keeps fun w => by simp [w]

/-! ### The sequencer of a lens -/

theorem execRowBudgetDeadline_keeps {s : State} {lens : Nat} : KeepsForm s (execRowBudgetDeadline lens s) :=
  next_keeps fun w => by simp [w]

theorem execStepRow_keeps {s : State} {lens : Nat} : KeepsForm s (execStepRow lens s) :=
  next_keeps fun w => by simp [w]

theorem execTileLoopRow_keeps {s : State} {lens : Nat} : KeepsForm s (execTileLoopRow lens s) :=
  next_keeps fun w => by
    dsimp only
    (repeat' split) <;> simp [w]

theorem execWaitgRow_keeps {s : State} {lens : Nat} : KeepsForm s (execWaitgRow lens s) :=
  next_keeps fun w => by simp [w]

theorem execSignalRow_keeps {s : State} {lens : Nat} : KeepsForm s (execSignalRow lens s) :=
  next_keeps fun w => by simp [w]

theorem execEndRow_keeps {s : State} {lens : Nat} : KeepsForm s (execEndRow lens s) :=
  next_keeps fun w => by simp [w]

theorem execSyncRow_keeps {s : State} {lens : Nat} : KeepsForm s (execSyncRow lens s) :=
  next_keeps fun w => by simp [w]

theorem execSyncResume_keeps {s : State} {lens : Nat} : KeepsForm s (execSyncResume lens s) :=
  next_keeps fun w => by simp [w]

theorem execEdgeWaitEnd_keeps {s : State} {lens : Nat} : KeepsForm s (execEdgeWaitEnd lens s) :=
  next_keeps fun w => by simp -implicitDefEqProofs [w]

theorem execInvocationEnd_keeps {s : State} {lens : Nat} : KeepsForm s (execInvocationEnd lens s) :=
  next_keeps fun w => by
    dsimp only
    split
    · exact w
    · refine State.foldl_wf (fun s p w => by simp [w]) _ ?_
      rw [State.foldl_mem fun s p => State.modCore_mem ..]
      exact State.commitAll_wf _ w

theorem execListFinish_keeps {s : State} {lens : Nat} : KeepsForm s (execListFinish lens s) :=
  next_keeps fun w => by simp [w]

theorem execFreezeLine_keeps {s : State} {lens : Nat} : KeepsForm s (execFreezeLine lens s) :=
  next_keeps fun w => by
    dsimp only
    (repeat' split) <;> simp [w]

theorem execFreezeComplete_keeps {s : State} {lens : Nat} : KeepsForm s (execFreezeComplete lens s) := by
  have rewound (l : List (Nat × Nat)) (open_ e) (w : Memory.wf s.mem) :
      Memory.wf (l.foldl (fun s p => s.rewindAg open_ e p.1 p.2) s).mem :=
    State.foldl_wf (fun s p w => State.rewindAg_wf _ _ _ _ w) _ w
  refine next_keeps fun w => ?_
  dsimp only
  split
  · exact w
  split
  · exact w
  (repeat' split) <;> simp [rewound, w]

theorem execLensNodeStart_keeps {s : State} {lens : Nat} : KeepsForm s (execLensNodeStart lens s) :=
  next_keeps fun w => by
    dsimp only
    (repeat' split) <;> simp [w]

/-! ### Commands to a lens -/

theorem execFuse_completes {s : State} {h : Hdr} {o : FmtA} : Completes s (execFuse h o s) :=
  word_completes fun w => by split <;> simp [w]

theorem execFuseComplete_keeps {s : State} {lens : Nat} : KeepsForm s (execFuseComplete lens s) :=
  next_keeps fun w => by simp [w]

theorem execUnfuse_completes {s : State} {h : Hdr} {o : FmtA} : Completes s (execUnfuse h o s) :=
  word_completes fun w => by split <;> simp [w]

theorem execLgo_completes {s : State} {h : Hdr} {o : FmtA} : Completes s (execLgo h o s) :=
  word_completes fun w => by
    dsimp only
    (repeat' split) <;> simp [w]

theorem execLstop_completes {s : State} {h : Hdr} {o : FmtA} :
    Completes s (execLstop h o s) := stopWord_completes

theorem execLstopQ_completes {s : State} {h : Hdr} {o : FmtA} :
    Completes s (execLstopQ h o s) := stopWord_completes

theorem execLstat_completes {s : State} {h : Hdr} {o : FmtA} : Completes s (execLstat h o s) :=
  word_completes fun w => by split <;> simp [w]

theorem execAgset_completes {s : State} {h : Hdr} {o : FmtA} : Completes s (execAgset h o s) :=
  word_completes fun w => by
    dsimp only
    (repeat' split) <;> simp [w]

theorem execAggo_completes {s : State} {h : Hdr} {o : FmtA} : Completes s (execAggo h o s) :=
  word_completes fun w => by simp [w]

theorem execAgstat_completes {s : State} {h : Hdr} {o : FmtA} : Completes s (execAgstat h o s) :=
  word_completes fun w => by simp [w]

theorem execGateClose_completes {s : State} {h : Hdr} {o : FmtA} : Completes s (execGateClose h o s) :=
  word_completes fun w => by simp [w]

theorem execGateOpen_completes {s : State} {h : Hdr} {o : FmtA} : Completes s (execGateOpen h o s) :=
  word_completes fun w => by simp [w]

theorem execBindCh_completes {s : State} {h : Hdr} {o : FmtA} : Completes s (execBindCh h o s) :=
  word_completes fun w => by simp [w]

theorem execBindComplete_keeps {s : State} {task : Nat} {chan : Nat} :
    KeepsForm s (execBindComplete task chan s) :=
  next_keeps fun w => by simp [w]

theorem execBindUn_completes {s : State} {h : Hdr} {o : FmtA} : Completes s (execBindUn h o s) :=
  word_completes fun w => by
    dsimp only
    (repeat' split) <;> simp [w]

theorem execUnbindComplete_keeps {s : State} {task : Nat} {chan : Nat} :
    KeepsForm s (execUnbindComplete task chan s) :=
  next_keeps fun w => by split <;> simp [w]

theorem execSkewRd_completes {s : State} {h : Hdr} {o : FmtA} : Completes s (execSkewRd h o s) :=
  word_completes fun w => by split <;> simp [w]

theorem execSkewWr_completes {s : State} {h : Hdr} {o : FmtA} : Completes s (execSkewWr h o s) :=
  word_completes fun w => by split <;> simp [w]

theorem execCtab_completes {s : State} {h : Hdr} {o : FmtA} : Completes s (execCtab h o s) :=
  word_completes fun w => by split <;> simp [w]

theorem execCtabLand_keeps {s : State} {lens : Nat} {id : Nat} : KeepsForm s (execCtabLand lens id s) :=
  next_keeps fun w => by
    dsimp only
    (repeat' split) <;> simp [w]

theorem execDmapFacet_completes {s : State} {h : Hdr} {o : FmtA} : Completes s (execDmapFacet h o s) :=
  word_completes fun w => by simp [w]

theorem execDmapCore_completes {s : State} {h : Hdr} {o : FmtA} : Completes s (execDmapCore h o s) :=
  word_completes fun w => by simp [w]

theorem execEpop_completes {s : State} {h : Hdr} {o : FmtV} : Completes s (execEpop h o s) := by
  unfold execEpop
  exact vectorWord_completes id

theorem execEpush_completes {s : State} {h : Hdr} {o : FmtV} : Completes s (execEpush h o s) := by
  unfold execEpush
  exact vectorWord_completes id

theorem execEpushHdr_completes {s : State} {h : Hdr} {o : FmtV} : Completes s (execEpushHdr h o s) := by
  unfold execEpushHdr
  exact vectorWord_completes id

/-! ### Queues -/

theorem execQueueMap_keeps {s : State} {q : Nat} : KeepsForm s (execQueueMap q s) :=
  onQueue_keeps fun w => by simp [w]

theorem execQueueDoorbell_keeps {s : State} {q : Nat} {tail : BitVec 32} :
    KeepsForm s (execQueueDoorbell q tail s) :=
  onQueue_keeps fun w => by simp [w]

theorem execQueueConfigWrite_keeps {s : State} {q : Nat} {dword : Nat} {data : Word} :
    KeepsForm s (execQueueConfigWrite q dword data s) :=
  onQueue_keeps fun w => by simp [w]

theorem execRankUpdate_keeps {s : State} {entry : Nat} : KeepsForm s (execRankUpdate entry s) :=
  next_keeps fun w => by split <;> simp [w]

theorem execPifoPush_keeps {s : State} {q : Nat} : KeepsForm s (execPifoPush q s) :=
  onQueue_keeps fun w => by simp [w]

theorem execWaitPacket_keeps {s : State} {q : Nat} : KeepsForm s (execWaitPacket q s) :=
  onQueue_keeps fun w => by simp [w]

theorem execWaitSatisfied_keeps {s : State} {q : Nat} : KeepsForm s (execWaitSatisfied q s) :=
  onQueue_keeps fun w => by
    split
    · exact w
    split <;> next h =>
      have w := State.wf_of_pair h (State.feRead_wf _ _ _ w)
      (repeat' split) <;> simp [w]

theorem execSignalPacket_keeps {s : State} {entry : Nat} : KeepsForm s (execSignalPacket entry s) :=
  next_keeps fun w => State.carry_wf entry (fun _ => by simp [w]) w

theorem execCopyPacket_keeps {s : State} {entry : Nat} : KeepsForm s (execCopyPacket entry s) :=
  next_keeps fun w => State.carry_wf entry (fun _ => by simp [w]) w

theorem execMapPacket_keeps {s : State} {entry : Nat} : KeepsForm s (execMapPacket entry s) :=
  next_keeps fun w => State.carry_wf entry (fun _ => by simp [w]) w

theorem execFencePacket_keeps {s : State} {entry : Nat} : KeepsForm s (execFencePacket entry s) :=
  next_keeps fun w => State.carry_wf entry (fun _ => by split <;> simp [w]) w

/-! ### The schedule -/

theorem execTaskEnd_keeps {s : State} {task : Nat} : KeepsForm s (execTaskEnd task s) :=
  onTask_keeps fun w => by simp [w]

theorem execPlacement_keeps {s : State} : KeepsForm s (execPlacement s) :=
  next_keeps fun w => by simp [w]

theorem execLaunchPacket_keeps {s : State} {entry : Nat} : KeepsForm s (execLaunchPacket entry s) :=
  next_keeps fun w => by split <;> simp [w]

theorem execKillPacket_keeps {s : State} {entry : Nat} : KeepsForm s (execKillPacket entry s) :=
  next_keeps fun w => State.carry_wf entry (fun _ => by dsimp only; split <;> simp [w]) w

theorem execPreemptDrain_keeps {s : State} {task : Nat} : KeepsForm s (execPreemptDrain task s) :=
  onTask_keeps fun w => by simp [w]

theorem execDrainLimitExpire_keeps {s : State} {task : Nat} : KeepsForm s (execDrainLimitExpire task s) :=
  onTask_keeps fun w => by simp [w]

theorem execPreemptKill_keeps {s : State} {task : Nat} : KeepsForm s (execPreemptKill task s) :=
  onTask_keeps fun w => by simp [w]

theorem execPreemptCheckpoint_keeps {s : State} {task : Nat} : KeepsForm s (execPreemptCheckpoint task s) :=
  onTask_keeps fun w => by simp [w]

theorem execCheckpointSave_keeps {s : State} {task : Nat} : KeepsForm s (execCheckpointSave task s) :=
  onTask_keeps fun w => by simp [w]

theorem execTaskResume_keeps {s : State} {task : Nat} : KeepsForm s (execTaskResume task s) :=
  onTask_keeps fun w => by split <;> simp [w]

theorem execGatesOpen_keeps {s : State} {task : Nat} : KeepsForm s (execGatesOpen task s) :=
  onTask_keeps fun w => by
    dsimp only
    (repeat' split) <;> simp -implicitDefEqProofs [w]

theorem execDispatchBind_keeps {s : State} {task : Nat} : KeepsForm s (execDispatchBind task s) :=
  onTask_keeps fun w => by simp [w]

/-! ### The host port -/

theorem execIngressOpen_keeps {s : State} {port : Nat} {data : Word} :
    KeepsForm s (execIngressOpen port data s) :=
  ite_keeps fault_keeps (next_keeps fun w => by simp [w])

theorem execIngressData_keeps {s : State} {port : Nat} {data : Word} :
    KeepsForm s (execIngressData port data s) :=
  ite_keeps fault_keeps (next_keeps fun w => by simp [w])

theorem execNotifyApertureWrite_keeps {s : State} {offset : Nat} {data : Word} :
    KeepsForm s (execNotifyApertureWrite offset data s) :=
  next_keeps fun w => by simp [w]

theorem execWakeMailboxDeliver_keeps {s : State} {cluster : Nat} :
    KeepsForm s (execWakeMailboxDeliver cluster s) :=
  onCluster_keeps fun w => by simp [w]

theorem execClusterWake_keeps {s : State} {cluster : Nat} : KeepsForm s (execClusterWake cluster s) :=
  onCluster_keeps fun w => by simp [w]

theorem execClockGate_keeps {s : State} {cluster : Nat} : KeepsForm s (execClockGate cluster s) :=
  onCluster_keeps fun w => by simp [w]

theorem execPowerGate_keeps {s : State} {cluster : Nat} : KeepsForm s (execPowerGate cluster s) :=
  onCluster_keeps fun w => by
    split
    · exact State.foldl_wf (fun s i w => State.zeroBank_wf _ _ w) _ w
    · exact w

theorem execWin4Write_keeps {s : State} {data : Word} : KeepsForm s (execWin4Write data s) :=
  next_keeps fun w => by simp [w]

theorem execBar4Access_keeps {s : State} {offset : Nat} {len : Nat} {write : Option Word} :
    KeepsForm s (execBar4Access offset len write s) :=
  next_keeps fun w => by (repeat' split) <;> simp [w]

/-! ### Loading weights -/

theorem execLoadwPacket_keeps {s : State} {entry : Nat} : KeepsForm s (execLoadwPacket entry s) :=
  next_keeps fun w => State.carry_wf entry (fun _ => by simp [w]) w

theorem execLoadwShardFetch_keeps {s : State} {load : Nat} {shard : Nat} {result : FetchResult} :
    KeepsForm s (execLoadwShardFetch load shard result s) :=
  next_keeps fun w => by (repeat' split) <;> simp [w]

theorem execLoadwCommit_keeps {s : State} {load : Nat} : KeepsForm s (execLoadwCommit load s) :=
  next_keeps fun w => by split <;> simp [w]

/-! ### Service -/

theorem execCoreRetire_keeps {s : State} {core : Nat} {router : Bool} :
    KeepsForm s (execCoreRetire core router s) :=
  onCore_keeps fun w => by simp [w]

theorem execLinkTraining_keeps {s : State} {port : Nat} {width : Nat} :
    KeepsForm s (execLinkTraining port width s) :=
  onPort_keeps fun w => by simp [w]

theorem execLinkFrameReceive_keeps {s : State} {port : Nat} {seq : BitVec 12} {crcOk : Bool} {payload : Nat} :
    KeepsForm s (execLinkFrameReceive port seq crcOk payload s) :=
  onPort_keeps fun w => by simp [w]

theorem execLinkReplay_keeps {s : State} {port : Nat} {seq : BitVec 12} :
    KeepsForm s (execLinkReplay port seq s) :=
  onPort_keeps fun w => by simp [w]

theorem execLinkRetrain_keeps {s : State} {port : Nat} : KeepsForm s (execLinkRetrain port s) :=
  onPort_keeps fun w => by simp [w]

theorem execLinkDown_keeps {s : State} {port : Nat} : KeepsForm s (execLinkDown port s) :=
  onPort_keeps fun w => by simp [w]

theorem execLinkRetrainDone_keeps {s : State} {port : Nat} {width : Nat} :
    KeepsForm s (execLinkRetrainDone port width s) :=
  onPort_keeps fun w => by simp [w]

theorem execDeviceReset_keeps {s : State} : KeepsForm s (execDeviceReset s) :=
  next_keeps fun w => by simp [w]

theorem execPowerFail_keeps {s : State} : KeepsForm s (execPowerFail s) :=
  next_keeps fun w => by simp [w]

theorem execPowerRailGood_keeps {s : State} {rail : Nat} : KeepsForm s (execPowerRailGood rail s) :=
  next_keeps fun w => by simp [w]

theorem execThermalTrip_keeps {s : State} {cluster : Nat} : KeepsForm s (execThermalTrip cluster s) :=
  onCluster_keeps fun w => by simp [w]

theorem execTemperatureSample_keeps {s : State} {cluster : Nat} {temp : Nat} {hot : Bool} :
    KeepsForm s (execTemperatureSample cluster temp hot s) :=
  onCluster_keeps fun w => by simp [w]

theorem execThermalStep_keeps {s : State} {lens : Nat} {up : Bool} : KeepsForm s (execThermalStep lens up s) :=
  next_keeps fun w => by simp [w]

theorem execDroopStretch_keeps {s : State} {lens : Nat} : KeepsForm s (execDroopStretch lens s) :=
  next_keeps fun w => by simp [w]

theorem execVtclassChange_keeps {s : State} {cluster : Nat} {cls : Bool} :
    KeepsForm s (execVtclassChange cluster cls s) :=
  onCluster_keeps fun w => by simp [w]

theorem execPatrolScrub_keeps {s : State} {bank : Nat} {block : Nat} :
    KeepsForm s (execPatrolScrub bank block s) :=
  ite_keeps fault_keeps (next_keeps fun w => by simp [w])

theorem execLoupeLog_keeps {s : State} : KeepsForm s (execLoupeLog s) :=
  State.firmware_keeps fun w => by simp [w]

theorem execLoupeClaim_keeps {s : State} {core : Nat} {slot : Nat} : KeepsForm s (execLoupeClaim core slot s) :=
  onSlot_keeps fun w => by simp [w]

theorem execLoupeSingleStep_keeps {s : State} {core : Nat} {slot : Nat} :
    KeepsForm s (execLoupeSingleStep core slot s) :=
  onSlot_keeps fun w => by simp [w]

theorem execFirmwareUpdate_keeps {s : State} {img : FwImage} : KeepsForm s (execFirmwareUpdate img s) :=
  State.firmware_keeps fun w => by simp [w]

theorem execSvnCommit_keeps {s : State} : KeepsForm s (execSvnCommit s) :=
  State.firmware_keeps fun w => by simp [w]

theorem execOwnershipRelease_keeps {s : State} {serial : Nat} {nonce : Nat} {sigOk : Bool} :
    KeepsForm s (execOwnershipRelease serial nonce sigOk s) :=
  State.firmware_keeps fun w => by simp [w]

theorem execOwnerClaim_keeps {s : State} {key : Nat} {serial : Nat} {sigOk : Bool} :
    KeepsForm s (execOwnerClaim key serial sigOk s) :=
  next_keeps fun w => by simp [w]

theorem execGetMeasurements_keeps {s : State} : KeepsForm s (execGetMeasurements s) :=
  next_keeps fun w => by simp [w]

theorem execRankProgramLoad_keeps {s : State} {prog : List RankOp} {digest : Nat} :
    KeepsForm s (execRankProgramLoad prog digest s) :=
  State.firmware_keeps fun w => by simp [w]

theorem execRoutineStoreLoad_keeps {s : State} {digest : Nat} : KeepsForm s (execRoutineStoreLoad digest s) :=
  State.firmware_keeps fun w => by simp [w]

/-! ### Vector arithmetic -/

theorem varith_completes {s : State} {h : Hdr} {o : FmtV} {scalar srcs ff fi} :
    Completes s (varith h o s scalar srcs ff fi) := by
  unfold varith
  exact velem_completes

theorem execVadd_completes {s : State} {h : Hdr} {o : FmtV} : Completes s (execVadd h o s) := varith_completes

theorem execVsub_completes {s : State} {h : Hdr} {o : FmtV} : Completes s (execVsub h o s) := varith_completes

theorem execVmul_completes {s : State} {h : Hdr} {o : FmtV} : Completes s (execVmul h o s) := varith_completes

theorem execVfma_completes {s : State} {h : Hdr} {o : FmtV} : Completes s (execVfma h o s) := by
  unfold execVfma
  exact varith_completes

theorem vminmax_completes {s : State} {h : Hdr} {o : FmtV} {isMax} : Completes s (vminmax h o s isMax) := by
  unfold vminmax
  exact velem_completes

theorem execVmin_completes {s : State} {h : Hdr} {o : FmtV} : Completes s (execVmin h o s) := vminmax_completes

theorem execVmax_completes {s : State} {h : Hdr} {o : FmtV} : Completes s (execVmax h o s) := vminmax_completes

theorem execVclmp_completes {s : State} {h : Hdr} {o : FmtV} : Completes s (execVclmp h o s) := velem_completes

theorem execVsgn_completes {s : State} {h : Hdr} {o : FmtV} : Completes s (execVsgn h o s) := by
  unfold execVsgn
  exact velem_completes

theorem execVcmp_completes {s : State} {h : Hdr} {o : FmtV} : Completes s (execVcmp h o s) := velem_completes

theorem execVsel_completes {s : State} {h : Hdr} {o : FmtV} : Completes s (execVsel h o s) := velem_completes

theorem vlogic_completes {s : State} {h : Hdr} {o : FmtV} {f} : Completes s (vlogic h o s f) := by
  unfold vlogic
  exact velem_completes

theorem execVand_completes {s : State} {h : Hdr} {o : FmtV} : Completes s (execVand h o s) := vlogic_completes

theorem execVor_completes {s : State} {h : Hdr} {o : FmtV} : Completes s (execVor h o s) := vlogic_completes

theorem execVxor_completes {s : State} {h : Hdr} {o : FmtV} : Completes s (execVxor h o s) := vlogic_completes

theorem execVsh_completes {s : State} {h : Hdr} {o : FmtV} : Completes s (execVsh h o s) := by
  unfold execVsh
  exact velem_completes

theorem execVcvt_completes {s : State} {h : Hdr} {o : FmtV} : Completes s (execVcvt h o s) := velem_completes

theorem execVsf_completes {s : State} {h : Hdr} {o : FmtV} :
    Completes s (execVsf h o s) := vectorWord_completes id

theorem execVred_completes {s : State} {h : Hdr} {o : FmtV} : Completes s (execVred h o s) := by
  unfold execVred
  exact vectorWord_completes fun w => by simp [w]

theorem execVscan_completes {s : State} {h : Hdr} {o : FmtV} : Completes s (execVscan h o s) := by
  unfold execVscan
  exact vectorWord_completes fun w => by simp [w]

/-! ### Vector codecs -/

theorem execVsce8_completes {s : State} {h : Hdr} {o : FmtV} :
    Completes s (execVsce8 h o s) := scaleGroups_completes

theorem execVscf4_completes {s : State} {h : Hdr} {o : FmtV} :
    Completes s (execVscf4 h o s) := scaleGroups_completes

theorem execVqe8_completes {s : State} {h : Hdr} {o : FmtV} :
    Completes s (execVqe8 h o s) := vectorWord_completes id

theorem execVde8_completes {s : State} {h : Hdr} {o : FmtV} :
    Completes s (execVde8 h o s) := vectorWord_completes id

theorem execVqf4_completes {s : State} {h : Hdr} {o : FmtV} :
    Completes s (execVqf4 h o s) := vectorWord_completes id

theorem execVdf4_completes {s : State} {h : Hdr} {o : FmtV} :
    Completes s (execVdf4 h o s) := vectorWord_completes id

/-! ### Vector accesses -/

theorem execVld_completes {s : State} {h : Hdr} {o : FmtV} : Completes s (execVld h o s) := loadWord_completes

theorem execVgath_completes {s : State} {h : Hdr} {o : FmtV} :
    Completes s (execVgath h o s) := loadWord_completes

theorem execVst_completes {s : State} {h : Hdr} {o : FmtV} : Completes s (execVst h o s) := storeWord_completes

theorem execVscat_completes {s : State} {h : Hdr} {o : FmtV} :
    Completes s (execVscat h o s) := storeWord_completes

/-! ### Vector moves -/

theorem execVperm_completes {s : State} {h : Hdr} {o : FmtV} : Completes s (execVperm h o s) := vmove_completes

theorem execVbcast_completes {s : State} {h : Hdr} {o : FmtV} :
    Completes s (execVbcast h o s) := vmove_completes

theorem execVext_completes {s : State} {h : Hdr} {o : FmtV} : Completes s (execVext h o s) := by
  unfold execVext
  exact vectorWord_completes id

theorem execVins_completes {s : State} {h : Hdr} {o : FmtV} : Completes s (execVins h o s) := vmove_completes

theorem execViota_completes {s : State} {h : Hdr} {o : FmtV} : Completes s (execViota h o s) := vmove_completes

theorem execVslide_completes {s : State} {h : Hdr} {o : FmtV} :
    Completes s (execVslide h o s) := vmove_completes

theorem execVmov_completes {s : State} {h : Hdr} {o : FmtV} : Completes s (execVmov h o s) := velem_completes

theorem execVpack_completes {s : State} {h : Hdr} {o : FmtV} : Completes s (execVpack h o s) := velem_completes

theorem execVunpk_completes {s : State} {h : Hdr} {o : FmtV} : Completes s (execVunpk h o s) := vmove_completes

theorem execVmlog_completes {s : State} {h : Hdr} {o : FmtV} : Completes s (execVmlog h o s) := velem_completes

theorem execVmpop_completes {s : State} {h : Hdr} {o : FmtV} : Completes s (execVmpop h o s) := velem_completes

theorem execVmfst_completes {s : State} {h : Hdr} {o : FmtV} : Completes s (execVmfst h o s) := velem_completes

theorem execVrng_completes {s : State} {h : Hdr} {o : FmtV} : Completes s (execVrng h o s) := velem_completes

end Sys2Proof.Machine
end

section
/-! SUPPORT. Every step keeps memory in its canonical form (O60). -/

namespace Sys2Proof.Machine

/-- A word always answers a next state (R23), and keeps the canonical form of memory. -/
theorem exec_word_completes {s : State} {i : Instr} (hb : i.body.isSome = true) : Completes s (exec i s) := by
  cases i with
  | nop _ o => exact execNop_completes (o := o)
  | br => exact execBr_completes
  | jmp => exact execJmp_completes
  | call => exact execCall_completes
  | callr => exact execCallr_completes
  | ret => exact execRet_completes
  | loop => exact execLoop_completes
  | loopImm => exact execLoopImm_completes
  | waitc => exact execWaitc_completes
  | waitcImm => exact execWaitcImm_completes
  | endSlot _ o => exact execEndSlot_completes (o := o)
  | trap => exact execTrap_completes
  | brk => exact execBrk_completes
  | rft _ o => exact execRft_completes (o := o)
  | rftNext _ o => exact execRftNext_completes (o := o)
  | chkp _ o => exact execChkp_completes (o := o)
  | chkpImm => exact execChkpImm_completes
  | add => exact execAdd_completes
  | sub => exact execSub_completes
  | mul => exact execMul_completes
  | mulh => exact execMulh_completes
  | div => exact execDiv_completes
  | rem => exact execRem_completes
  | andG => exact execAndG_completes
  | orG => exact execOrG_completes
  | xorG => exact execXorG_completes
  | andn => exact execAndn_completes
  | shl => exact execShl_completes
  | shr => exact execShr_completes
  | sar => exact execSar_completes
  | rot => exact execRot_completes
  | minG => exact execMinG_completes
  | maxG => exact execMaxG_completes
  | clz => exact execClz_completes
  | ctz => exact execCtz_completes
  | popc => exact execPopc_completes
  | ext => exact execExt_completes
  | bfx => exact execBfx_completes
  | bfi => exact execBfi_completes
  | sel => exact execSel_completes
  | lea => exact execLea_completes
  | cmp => exact execCmp_completes
  | plog => exact execPlog_completes
  | addi => exact execAddi_completes
  | andi => exact execAndi_completes
  | ori => exact execOri_completes
  | xori => exact execXori_completes
  | shi => exact execShi_completes
  | li => exact execLi_completes
  | liZ => exact execLiZ_completes
  | liH => exact execLiH_completes
  | cmpi => exact execCmpi_completes
  | fadd => exact execFadd_completes
  | fsub => exact execFsub_completes
  | fmul => exact execFmul_completes
  | ffma => exact execFfma_completes
  | fmin => exact execFmin_completes
  | fmax => exact execFmax_completes
  | fcmp => exact execFcmp_completes
  | fcvt => exact execFcvt_completes
  | fsf => exact execFsf_completes
  | fclass => exact execFclass_completes
  | fsgn => exact execFsgn_completes
  | mfsr => exact execMfsr_completes
  | mtsr => exact execMtsr_completes
  | srset => exact execSrset_completes
  | srclr => exact execSrclr_completes
  | wheelWrite => exact execWheelWrite_completes
  | ld => exact execLd_completes
  | st => exact execSt_completes
  | amo => exact execAmo_completes
  | fenceAcq => exact execFenceAcq_completes
  | fenceRel => exact execFenceRel_completes
  | fenceAr => exact execFenceAr_completes
  | fenceSc => exact execFenceSc_completes
  | fenceLayer => exact execFenceLayer_completes
  | give => exact execGive_completes
  | batt => exact execBatt_completes
  | bdet => exact execBdet_completes
  | bqry => exact execBqry_completes
  | vadd => exact execVadd_completes
  | vsub => exact execVsub_completes
  | vmul => exact execVmul_completes
  | vfma => exact execVfma_completes
  | vmin => exact execVmin_completes
  | vmax => exact execVmax_completes
  | vsgn => exact execVsgn_completes
  | vcmp => exact execVcmp_completes
  | vsel => exact execVsel_completes
  | vand => exact execVand_completes
  | vor => exact execVor_completes
  | vxor => exact execVxor_completes
  | vsh => exact execVsh_completes
  | vcvt => exact execVcvt_completes
  | vsf => exact execVsf_completes
  | vred => exact execVred_completes
  | vscan => exact execVscan_completes
  | vperm => exact execVperm_completes
  | vbcast => exact execVbcast_completes
  | vext => exact execVext_completes
  | vins => exact execVins_completes
  | viota => exact execViota_completes
  | vslide => exact execVslide_completes
  | vld => exact execVld_completes
  | vst => exact execVst_completes
  | vgath => exact execVgath_completes
  | vscat => exact execVscat_completes
  | vqe8 => exact execVqe8_completes
  | vde8 => exact execVde8_completes
  | vsce8 => exact execVsce8_completes
  | vqf4 => exact execVqf4_completes
  | vdf4 => exact execVdf4_completes
  | vscf4 => exact execVscf4_completes
  | vrng => exact execVrng_completes
  | vmlog => exact execVmlog_completes
  | vmpop => exact execVmpop_completes
  | vmfst => exact execVmfst_completes
  | vmov => exact execVmov_completes
  | vpack => exact execVpack_completes
  | vunpk => exact execVunpk_completes
  | vclmp => exact execVclmp_completes
  | epop => exact execEpop_completes
  | epush => exact execEpush_completes
  | epushHdr => exact execEpushHdr_completes
  | fuse => exact execFuse_completes
  | unfuse => exact execUnfuse_completes
  | lgo => exact execLgo_completes
  | lstop => exact execLstop_completes
  | lstopQ => exact execLstopQ_completes
  | lstat => exact execLstat_completes
  | agset => exact execAgset_completes
  | aggo => exact execAggo_completes
  | agstat => exact execAgstat_completes
  | gateClose => exact execGateClose_completes
  | gateOpen => exact execGateOpen_completes
  | bindCh => exact execBindCh_completes
  | bindUn => exact execBindUn_completes
  | skewRd => exact execSkewRd_completes
  | skewWr => exact execSkewWr_completes
  | ctab => exact execCtab_completes
  | dmapFacet => exact execDmapFacet_completes
  | dmapCore => exact execDmapCore_completes
  | sendMsg => exact execSendMsg_completes
  | recv => exact execRecv_completes
  | recva => exact execRecva_completes
  | barAw => exact execBarAw_completes
  | barA => exact execBarA_completes
  | barW => exact execBarW_completes
  | note => exact execNote_completes
  | waitn => exact execWaitn_completes
  | namePre => exact execNamePre_completes
  | gnode => exact execGnode_completes
  | gdep => exact execGdep_completes
  | gwait => exact execGwait_completes
  | gwaitAll _ o => exact execGwaitAll_completes (o := o)
  | gpoll => exact execGpoll_completes
  | gkill => exact execGkill_completes
  | gstatFree => exact execGstatFree_completes
  | gstatDone => exact execGstatDone_completes
  | cpy => exact execCpy_completes
  | qntE8l => exact execQntE8l_completes
  | qntFq4 => exact execQntFq4_completes
  | _ => cases hb

/-- No instruction and no event leaves the canonical form of memory. -/
theorem exec_event_keeps {s : State} {i : Instr} (hb : ¬i.body.isSome = true) : KeepsForm s (exec i s) := by
  cases i with
  | wheelSwitch => exact execWheelSwitch_keeps
  | giveAdmission => exact execGiveAdmission_keeps
  | giveRepoint => exact execGiveRepoint_keeps
  | battComplete => exact execBattComplete_keeps
  | bdetComplete => exact execBdetComplete_keeps
  | bqryAnswer => exact execBqryAnswer_keeps
  | fuseComplete => exact execFuseComplete_keeps
  | lensNodeStart => exact execLensNodeStart_keeps
  | bindComplete => exact execBindComplete_keeps
  | unbindComplete => exact execUnbindComplete_keeps
  | ctabLand => exact execCtabLand_keeps
  | resultWriteback => exact execResultWriteback_keeps
  | deferredFault => exact execDeferredFault_keeps
  | windowEnd => exact execWindowEnd_keeps
  | budgetDeadline => exact execBudgetDeadline_keeps
  | cellHold => exact execCellHold_keeps
  | cellPass => exact execCellPass_keeps
  | cellAcm => exact execCellAcm_keeps
  | cellAcmz => exact execCellAcmz_keeps
  | cellPsm => exact execCellPsm_keeps
  | cellWld => exact execCellWld_keeps
  | cellDrn => exact execCellDrn_keeps
  | cellCmpx => exact execCellCmpx_keeps
  | cellRec => exact execCellRec_keeps
  | cellGen => exact execCellGen_keeps
  | cellAdd => exact execCellAdd_keeps
  | cellMaxp => exact execCellMaxp_keeps
  | cellLdh => exact execCellLdh_keeps
  | cellSnap => exact execCellSnap_keeps
  | cellRestore => exact execCellRestore_keeps
  | cellZero => exact execCellZero_keeps
  | inputPresent => exact execInputPresent_keeps
  | edgeWaitEnd => exact execEdgeWaitEnd_keeps
  | stepRow => exact execStepRow_keeps
  | tileLoopRow => exact execTileLoopRow_keeps
  | waitgRow => exact execWaitgRow_keeps
  | signalRow => exact execSignalRow_keeps
  | endRow => exact execEndRow_keeps
  | syncRow => exact execSyncRow_keeps
  | syncResume => exact execSyncResume_keeps
  | invocationEnd => exact execInvocationEnd_keeps
  | listFinish => exact execListFinish_keeps
  | rowBudgetDeadline => exact execRowBudgetDeadline_keeps
  | agFetch => exact execAgFetch_keeps
  | channelForward => exact execChannelForward_keeps
  | freezeLine => exact execFreezeLine_keeps
  | freezeComplete => exact execFreezeComplete_keeps
  | nodeComplete => exact execNodeComplete_keeps
  | copySegment => exact execCopySegment_keeps
  | graphUnitRun => exact execGraphUnitRun_keeps
  | remoteRelease => exact execRemoteRelease_keeps
  | globalRequestArrive => exact execGlobalRequestArrive_keeps
  | globalResponseArrive => exact execGlobalResponseArrive_keeps
  | bulkTransferDone => exact execBulkTransferDone_keeps
  | messageArrive => exact execMessageArrive_keeps
  | recvWindowExpire => exact execRecvWindowExpire_keeps
  | notifyArrive => exact execNotifyArrive_keeps
  | nameWalkComplete => exact execNameWalkComplete_keeps
  | nameCacheInvalidate => exact execNameCacheInvalidate_keeps
  | barrierArrival => exact execBarrierArrival_keeps
  | barrierRelease => exact execBarrierRelease_keeps
  | deviceHeartbeat => exact execDeviceHeartbeat_keeps
  | panelHeartbeat => exact execPanelHeartbeat_keeps
  | packetRetransmit => exact execPacketRetransmit_keeps
  | niGiveUp => exact execNiGiveUp_keeps
  | walkComplete => exact execWalkComplete_keeps
  | extentInstall => exact execExtentInstall_keeps
  | tlbInvalidation => exact execTlbInvalidation_keeps
  | migrationStart => exact execMigrationStart_keeps
  | migrationCommit => exact execMigrationCommit_keeps
  | coreRetire => exact execCoreRetire_keeps
  | queueDoorbell => exact execQueueDoorbell_keeps
  | queueConfigWrite => exact execQueueConfigWrite_keeps
  | queueMap => exact execQueueMap_keeps
  | pifoPush => exact execPifoPush_keeps
  | rankUpdate => exact execRankUpdate_keeps
  | placement => exact execPlacement_keeps
  | launchPacket => exact execLaunchPacket_keeps
  | waitPacket => exact execWaitPacket_keeps
  | waitSatisfied => exact execWaitSatisfied_keeps
  | signalPacket => exact execSignalPacket_keeps
  | loadwPacket => exact execLoadwPacket_keeps
  | loadwShardFetch => exact execLoadwShardFetch_keeps
  | loadwCommit => exact execLoadwCommit_keeps
  | copyPacket => exact execCopyPacket_keeps
  | mapPacket => exact execMapPacket_keeps
  | fencePacket => exact execFencePacket_keeps
  | killPacket => exact execKillPacket_keeps
  | preemptDrain => exact execPreemptDrain_keeps
  | drainLimitExpire => exact execDrainLimitExpire_keeps
  | preemptCheckpoint => exact execPreemptCheckpoint_keeps
  | checkpointSave => exact execCheckpointSave_keeps
  | preemptKill => exact execPreemptKill_keeps
  | dispatchBind => exact execDispatchBind_keeps
  | gatesOpen => exact execGatesOpen_keeps
  | taskEnd => exact execTaskEnd_keeps
  | taskResume => exact execTaskResume_keeps
  | ingressOpen => exact execIngressOpen_keeps
  | ingressData => exact execIngressData_keeps
  | notifyApertureWrite => exact execNotifyApertureWrite_keeps
  | wakeMailboxDeliver => exact execWakeMailboxDeliver_keeps
  | clusterWake => exact execClusterWake_keeps
  | clockGate => exact execClockGate_keeps
  | powerGate => exact execPowerGate_keeps
  | win4Write => exact execWin4Write_keeps
  | bar4Access => exact execBar4Access_keeps
  | linkTraining => exact execLinkTraining_keeps
  | linkFrameReceive => exact execLinkFrameReceive_keeps
  | linkReplay => exact execLinkReplay_keeps
  | linkRetrain => exact execLinkRetrain_keeps
  | linkDown => exact execLinkDown_keeps
  | deviceReset => exact execDeviceReset_keeps
  | powerRailGood => exact execPowerRailGood_keeps
  | temperatureSample => exact execTemperatureSample_keeps
  | thermalTrip => exact execThermalTrip_keeps
  | droopStretch => exact execDroopStretch_keeps
  | vtclassChange => exact execVtclassChange_keeps
  | patrolScrub => exact execPatrolScrub_keeps
  | loupeLog => exact execLoupeLog_keeps
  | loupeClaim => exact execLoupeClaim_keeps
  | firmwareUpdate => exact execFirmwareUpdate_keeps
  | svnCommit => exact execSvnCommit_keeps
  | ownershipRelease => exact execOwnershipRelease_keeps
  | ownerClaim => exact execOwnerClaim_keeps
  | getMeasurements => exact execGetMeasurements_keeps
  | linkRetrainDone => exact execLinkRetrainDone_keeps
  | thermalStep => exact execThermalStep_keeps
  | powerFail => exact execPowerFail_keeps
  | rankProgramLoad => exact execRankProgramLoad_keeps
  | routineStoreLoad => exact execRoutineStoreLoad_keeps
  | loupeSingleStep => exact execLoupeSingleStep_keeps
  | scOrderPlace => exact execScOrderPlace_keeps
  | headFlitLeaves => exact execHeadFlitLeaves_keeps
  | _ => exact absurd rfl hb

theorem exec_keeps (s : State) (i : Instr) : KeepsForm s (exec i s) := by
  by_cases hb : i.body.isSome = true
  · exact (exec_word_completes hb).keeps
  · exact exec_event_keeps hb

theorem State.happen_keeps (s : State) (d : Due) : KeepsForm s (s.happen d) := by
  cases d with
  | ev i => exact exec_keeps s i
  | cell op l r c => exact next_keeps id
  | openA | presentA | closeA | freePorts | beats | superWheel | otherHalf | segment | unfuseEnd | frozenEnd |
    memoryError | cellError | retire | far => exact next_keeps fun w => by simp [w]

theorem step_keeps (s : State) : KeepsForm s (step s) := by
  unfold step
  split
  · exact State.happen_keeps { s with agenda := _ } _
  · split
    · exact next_keeps id
    · exact next_keeps fun w => by split <;> simp [w]
    · exact next_keeps fun w => by simp [w]
    · exact next_keeps fun w => by simp [w]
    · exact next_keeps fun w => by simp [w]
    · split
      · dsimp only
        split
        · exact fun t ht w => exec_keeps _ _ t ht (by simp [w])
        · next hf =>
          exact next_keeps fun w => by rw [State.fetch_error_mem hf]; simp [w]
      · exact next_keeps id

/-- Settles O60: no instruction, event or tick that a step is made of leaves the canonical form
(`exec_keeps`, `State.happen_keeps`). -/
theorem stepKeepsMemoryCanonical : Obligations.StepKeepsMemoryCanonical := fun s t w h => step_keeps s t h w

end Sys2Proof.Machine
end

section
/-! SUPPORT. What the words of the control group come to under their guard (R13, R14, R24, R89, R98, R355). -/

namespace Sys2Proof.Machine

/-- R14: a word whose guard holds runs its body. -/
theorem word_of_guard {h : Hdr} {s : State} (body : State → State) (hg : s.me.guard h = true) :
    word h s body = .next (body s) := by
  simp [word, State.guarded, hg]

/-! ### Transfers of control -/

/-- A taken BR or JMP changes no more of its slot than the loop levels (R95). -/
theorem Slot.popLoops_eq (sl : Slot) (tgt : BitVec 14) :
    sl.popLoops tgt = { sl with loop1 := (sl.popLoops tgt).loop1, loop2 := (sl.popLoops tgt).loop2 } := by
  unfold Slot.popLoops
  split
  · rfl
  · dsimp only
    (repeat' split) <;> rfl

/-- R89: a target outside the instruction store. -/
theorem State.goto_outside {s : State} {tgt : Word} (link pops) (hh : s.me.h = false) (ht : 16383 < tgt.toNat) :
    s.goto tgt link pops = s.faulted 0x09 tgt 0 := by
  simp [State.goto, ht, State.precise_eq _ _ _ _ hh]

/-- R89: RET's transfer, with neither link nor loops. -/
theorem State.goto_plain {s : State} {tgt : Word} (ht : tgt.toNat ≤ 16383) :
    s.goto tgt none false = s.jumped (tgt.setWidth 14) := by
  simp [State.goto, Nat.not_lt.2 ht]

/-- R89: the transfer of CALL and CALLR, PC + 1 in flight to the link register. -/
theorem State.goto_link {s : State} {tgt : Word} (rd : BitVec 5) (ht : tgt.toNat ≤ 16383) :
    s.goto tgt (some rd) false = s.setSlot s.cur { s.me with
      pc := tgt.setWidth 14, gate := .fromTurn (s.me.turn + 3), nextId := s.me.nextId + 1
      flights := s.me.flights ++ [⟨s.me.nextId, s.me.turn + 1, 0, [.g rd (s.me.pc.setWidth 64 + 1)]⟩] } := by
  simp [State.goto, Nat.not_lt.2 ht, State.emit, State.emitAt, State.modMe_eq, State.jumped]

/-- R89, R95: the transfer of BR and JMP, which may leave loop levels. -/
theorem State.goto_pops {s : State} {tgt : Word} (ht : tgt.toNat ≤ 16383) :
    s.goto tgt none true = s.setSlot s.cur { s.me with
      pc := tgt.setWidth 14, gate := .fromTurn (s.me.turn + 3)
      loop1 := (s.me.popLoops (tgt.setWidth 14)).loop1, loop2 := (s.me.popLoops (tgt.setWidth 14)).loop2 } := by
  simp only [State.goto, gt_iff_lt, Nat.not_lt.2 ht, if_false, if_true, State.transfer_eq, State.jumped, State.modMe_eq,
    State.me_setSlot_cur, State.setSlot_cur, State.setSlot_setSlot]
  rw [Slot.popLoops_eq]

/-! ### Faults -/

/-- R24: a second fault in the handler leaves the slot FAULTED. -/
theorem Slot.fault_double (sl : Slot) (d : Bool) (c : BitVec 8) (pc : BitVec 14) (a i : Word) (h : sl.h = true) :
    sl.fault d c pc a i = { sl with
      fcause := 0x22, finfo := (pc.setWidth 64 <<< 16) ||| c.setWidth 64
      life := .faulted, gate := .closed, wait := none, hold := false, oneStep := false } := by
  simp [Slot.fault, h, Slot.stopAs]

/-- R24: a fault that leaves the current slot FAULTED sends its record. -/
theorem State.takeFault_stops (s : State) (d : Bool) (c : BitVec 8) (pc : BitVec 14) (a i : Word) {u : Slot}
    (hu : s.me.fault d c pc a i = u) (hl : u.life = .faulted) :
    s.takeFault s.cur d c pc a i = { s.setSlot s.cur u with
      fe := { s.fe with records := s.fe.records ++
        [(s.cur.core, s.cur.slot, u.epc.setWidth 64, u.fcause.setWidth 64, u.faddr, u.finfo)] } } := by
  change s.me.fault d c pc a i = u at hu
  have hs : s.slot s.cur = s.me := rfl
  simp [State.takeFault, State.modSlot, hs, hu, hl, State.sendRecord, State.record, State.modFe]

/-- R24: a fault that its handler takes. -/
theorem State.takeFault_handler (s : State) (d : Bool) (c : BitVec 8) (pc : BitVec 14) (a i : Word)
    (h : s.me.h = false) (hf : s.me.fhen.getLsbD c.toNat = true) :
    s.takeFault s.cur d c pc a i = s.setSlot s.cur (s.me.inHandler d c pc a i) := by
  have hs : s.slot s.cur = s.me := rfl
  simp only [State.takeFault, State.modSlot, hs, Slot.fault_handler _ _ _ _ _ _ h hf, State.slot_setSlot]
  simp [Slot.inHandler]

/-! ### The obligations -/

/-- Settles O7: each word is its transfer (`State.goto_pops`, `State.goto_link`, `State.goto_plain`) or, with a
target outside the store, the fault (`State.goto_outside`). -/
theorem branchesTransferControl : Obligations.BranchesTransferControl := by
  refine ⟨fun s h o tgt hg ht => ?_, fun s h o tgt hg hh ht => ?_⟩
  · have away {i : Instr} (e : exec i s = .next (s.goto tgt none true)) : Gives i s fun t =>
        t = s.setSlot s.cur { s.me with
          pc := tgt.setWidth 14, gate := .fromTurn (s.me.turn + 3), loop1 := t.me.loop1, loop2 := t.me.loop2 } :=
      ⟨_, e, by rw [State.goto_pops ht]; simp⟩
    refine ⟨?_, ?_, ?_, ?_, ?_⟩
    · rintro rfl; exact away (word_of_guard _ hg)
    · rintro rfl; exact away (word_of_guard _ hg)
    · rintro rfl; exact (word_of_guard _ hg).trans (congrArg _ (State.goto_link _ ht))
    · rintro rfl; exact (word_of_guard _ hg).trans (congrArg _ (State.goto_link _ ht))
    · rintro rfl; exact (word_of_guard _ hg).trans (congrArg _ (State.goto_plain ht))
  · have out {body : State → State} (link pops) (e : body s = s.goto tgt link pops) :
        word h s body = .next (s.faulted 0x09 tgt 0) := by
      rw [word_of_guard body hg, e, State.goto_outside _ _ hh ht]
    refine ⟨?_, ?_, ?_⟩
    · rintro rfl; exact ⟨out none true rfl, out (some o.rd) false rfl⟩
    · rintro rfl; exact ⟨out none true rfl, out (some o.rd) false rfl⟩
    · rintro rfl; exact out none false rfl

/-- Settles O12, by the three ways in which a slot takes a fault (`Slot.fault_double`, `Slot.fault_handler`,
`Slot.fault_stop`). -/
theorem faultEntersHandlerOrStops : Obligations.FaultEntersHandlerOrStops := by
  refine ⟨fun s dfr cause addr info => ⟨fun h => ?_, fun h f => ?_, fun h f => ?_⟩, fun s h o hg => word_of_guard _ hg⟩
  · exact State.takeFault_stops s _ _ _ _ _ (Slot.fault_double _ _ _ _ _ _ h) rfl
  · exact State.takeFault_handler s _ _ _ _ _ h f
  · exact State.takeFault_stops s _ _ _ _ _ (Slot.fault_stop _ _ _ _ _ _ h f) rfl

/-- R405: BRK in a claimed slot leaves it FAULTED whether it has a handler or not. -/
theorem Slot.fault_withoutHandlers (sl : Slot) (c : BitVec 8) (info : Word) (h : sl.h = false) :
    { ({ sl with fhen := 0 } : Slot).fault false c sl.pc 0 info with fhen := sl.fhen } =
      sl.leftFaulted false c sl.pc 0 info := by
  rw [Slot.fault_stop { sl with fhen := 0 } false c sl.pc 0 info h (by simp)]
  rfl

/-- Settles O11: END, TRAP and BRK are their bodies under the guard; BRK in a claimed slot by
`Slot.fault_withoutHandlers`. -/
theorem endTrapAndBreakStopTheSlot : Obligations.EndTrapAndBreakStopTheSlot := by
  refine fun s h o hg => ⟨word_of_guard _ hg, fun hh => ?_, fun hh hc => ?_, fun hh hc => ?_⟩
  · exact (word_of_guard _ hg).trans (congrArg _ (State.precise_eq s _ _ _ hh))
  · refine (word_of_guard _ hg).trans (congrArg _ ?_)
    simp [hc, State.precise_eq s _ _ _ hh]
  · refine ⟨s.breakClaimed (o.off.setWidth 64), (word_of_guard _ hg).trans (by simp [hc]), ?_⟩
    simp only [State.breakClaimed, State.modMe_eq, Slot.fault_withoutHandlers _ _ _ hh]
    refine ⟨?_, rfl, ⟨rfl, rfl⟩, ?_⟩
    · exact State.me_setSlot_cur s _
    · simp [Slot.leftFaulted]

end Sys2Proof.Machine
end

section
/-! SUPPORT. What a step issues, and that every word answers a next state (R13, R23, R60). -/

namespace Sys2Proof.Machine

/-! ### What decodes is a word -/

theorem pickA_isWord {opc h o i} (e : pickA opc h o = some i) : i.body.isSome = true := by
  unfold pickA at e
  split at e <;> cases e <;> (repeat' split) <;> rfl

theorem pickB_isWord {opc h o i} (e : pickB opc h o = some i) : i.body.isSome = true := by
  unfold pickB at e
  split at e <;> cases e <;> (repeat' split) <;> rfl

theorem pickC_isWord {opc h o i} (e : pickC opc h o = some i) : i.body.isSome = true := by
  unfold pickC at e
  split at e <;> cases e <;> (repeat' split) <;> rfl

theorem pickM_isWord {opc h o i} (e : pickM opc h o = some i) : i.body.isSome = true := by
  unfold pickM at e
  split at e <;> cases e <;> (repeat' split) <;> rfl

theorem pickV_isWord {opc h o i} (e : pickV opc h o = some i) : i.body.isSome = true := by
  unfold pickV at e
  split at e <;> cases e <;> (repeat' split) <;> rfl

theorem pickX_isWord {opc h o i} (e : pickX opc h o = some i) : i.body.isSome = true := by
  unfold pickX at e
  split at e <;> cases e <;> (repeat' split) <;> rfl

theorem Body.pick_isWord {b : Body} {i : Instr} (e : b.pick = some i) : i.body.isSome = true := by
  unfold Body.pick at e
  split at e
  · exact pickA_isWord e
  · exact pickB_isWord e
  · exact pickC_isWord e
  · exact pickM_isWord e
  · exact pickV_isWord e
  · exact pickX_isWord e

theorem decodeWord_isWord {w : Word} {i : Instr} (e : decodeWord w = .ok i) : i.body.isSome = true := by
  unfold decodeWord at e
  dsimp only at e
  split at e
  · cases e
  split at e
  · cases e
  split at e
  · cases e
  split at e
  · next hp => cases e; exact Body.pick_isWord hp
  · cases e

/-! ### The word at the PC -/

@[simp] theorem State.core_setSlot (s : State) (r : SlotRef) (x : Slot) :
    (s.setSlot r x).core r.core = (s.core r.core).setSlot r.slot x := by
  simp [State.setSlot]

theorem Slot.gwaitFault_issuing (sl : Slot) (hg : sl.gwaitFault = none) :
    ({ sl with oneStep := false, gfail := if sl.gwaitFault.isSome || sl.h then sl.gfail else none } : Slot).gwaitFault =
      none := by
  rw [hg]
  cases hh : sl.h with
  | false => rfl
  | true => simpa [Slot.gwaitFault, hh] using hg

theorem State.issuing_gwaitFault {s : State} (hg : s.me.gwaitFault = none) : s.issuing.me.gwaitFault = none := by
  rw [State.issuing, State.me_modMe, Slot.gwaitFault_issuing _ hg]

@[simp] theorem State.issuing_wordAt (s : State) : s.issuing.wordAt s.cur = s.wordAt s.cur := by
  simp [State.issuing, State.wordAt, State.wordOf, State.modMe, State.modSlot]

@[simp] theorem State.issuing_istoreBad (s : State) : s.issuing.istoreBad s.cur = s.istoreBad s.cur := by
  simp [State.issuing, State.istoreBad, State.modMe, State.modSlot]

theorem State.fetch_ok {s : State} {i : Instr} (hg : s.me.gwaitFault = none) (hb : s.istoreBad s.cur = false)
    (hd : decodeWord (s.wordAt s.cur) = .ok i) : s.fetch = .ok i := by
  simp [State.fetch, hg, hb, hd]

theorem State.fetch_issuing {s : State} {i : Instr} (hg : s.me.gwaitFault = none) (hb : s.istoreBad s.cur = false)
    (hd : decodeWord (s.wordAt s.cur) = .ok i) : s.issuing.fetch = .ok i :=
  State.fetch_ok (State.issuing_gwaitFault hg) ((State.issuing_istoreBad s).trans hb)
    ((congrArg decodeWord (State.issuing_wordAt s)).trans hd)

theorem State.istoreBad_iff (s : State) : s.istoreBad s.cur = true ↔ s.me.pc.toNat ∈ s.myCore.ibad :=
  List.contains_iff_mem

/-- R13: a word that is fetched is what the step executes. -/
theorem step_ready {s : State} {i : Instr} {rest : List SlotRef} (ha : s.agenda = []) (hp : s.phase = .ready rest)
    (hm : s.mayIssue s.cur = true) (hf : ({ s with phase := .turns rest } : State).issuing.fetch = .ok i) :
    step s = exec i ({ s with phase := .turns rest } : State).issuing := by
  unfold step
  split
  · next h => rw [ha] at h; cases h
  · rw [hp]
    dsimp only
    rw [if_pos hm, hf]

/-- Settles O1: the word at the PC is fetched and executed (`State.fetch_issuing`), an event that is due is executed,
and every word that decodes answers a next state (`exec_word_completes`). -/
theorem stepRunsDecodedInstruction : Obligations.StepRunsDecodedInstruction := by
  refine ⟨fun s i rest ha hp hm hg hb hd => ?_, fun s i rest ha => ?_, fun s w i hd => ?_⟩
  · have hb' : s.istoreBad s.cur = false := Bool.eq_false_iff.2 fun h => hb ((State.istoreBad_iff s).1 h)
    have hf : ({ s with phase := .turns rest } : State).issuing.fetch = .ok i :=
      State.fetch_issuing (s := { s with phase := .turns rest }) hg hb' hd
    exact step_ready ha hp hm hf
  · simp [step, ha, State.happen]
  · obtain ⟨t, ht, -⟩ := exec_word_completes (s := s) (decodeWord_isWord hd)
    exact ⟨t, ht⟩

end Sys2Proof.Machine
end

section
/-! SUPPORT. The state after device reset (R9, R11, R124). -/

namespace Sys2Proof.Machine

theorem State.slot_reset (q : SlotRef) : State.reset.slot q = Slot.reset := rfl

theorem Slot.gr_reset (r : BitVec 5) : Slot.reset.gr r = 0 := by
  unfold Slot.gr
  split <;> rfl

theorem Slot.vlane_reset (r : BitVec 4) (k : Nat) : vlane (Slot.reset.vr r) k = 0 :=
  BitVec.extractLsb'_zero

theorem Slot.pr_reset (r : BitVec 3) : Slot.reset.pr r = (r == 0) := by
  revert r
  decide

/-- Settles O59: the tables of the reset state list nothing, so each entry is at its reset value. -/
theorem resetLeavesTheMachineIdle : Obligations.ResetLeavesTheMachineIdle := by
  refine ⟨State.slot_reset, ⟨rfl, rfl, rfl, rfl, rfl, rfl, rfl, rfl, rfl, rfl, rfl, rfl⟩,
    ⟨rfl, rfl, rfl, rfl, rfl, rfl, rfl, rfl⟩, Slot.gr_reset, Slot.vlane_reset, Slot.pr_reset, fun _ => rfl,
    fun c => ⟨rfl, fun _ => rfl, fun _ => rfl, fun _ => rfl, rfl, rfl, rfl⟩, fun _ => rfl, rfl, fun _ => rfl, rfl, rfl,
    fun _ => rfl, rfl, rfl, rfl, rfl, rfl⟩

end Sys2Proof.Machine
end

section
/-! SUPPORT. The system registers: what the write of one leaves in each (R25, R37, R113). -/

namespace Sys2Proof.Machine

/-! ### Fields as masks -/

/-- The low bits of a word are the word under a mask of ones. -/
theorem setWidth_setWidth_eq_and {k : Nat} (u m : Word) (hm : m.toNat = 2 ^ k - 1) :
    (u.setWidth k).setWidth 64 = u &&& m := by
  apply BitVec.eq_of_toNat_eq
  have hu : u.toNat % 2 ^ k < 2 ^ 64 := lt_of_le_of_lt (Nat.mod_le _ _) u.isLt
  rw [BitVec.toNat_setWidth, BitVec.toNat_setWidth, BitVec.toNat_and, hm, Nat.and_two_pow_sub_one_eq_mod,
    Nat.mod_eq_of_lt hu]

theorem extractLsb'_append_setWidth (u : Word) : u.extractLsb' 32 32 ++ u.setWidth 32 = u := by
  apply BitVec.eq_of_getLsbD_eq
  intro i hi
  refine (BitVec.getLsbD_append (x := u.extractLsb' 32 32) (y := u.setWidth 32)).trans ?_
  by_cases h : i < 32
  · simp [h]
  · have h32 : i - 32 < 32 := by omega
    simp [h, h32, show 32 + (i - 32) = i by omega]

/-! ### The write of a register -/

/-- R113: the three ways to write. -/
theorem srNew_eq (op : SrOp) (old v : Word) : srNew op old v = match op with
    | .move => v
    | .set => old ||| v
    | .clear => old &&& ~~~v := by
  cases op <;> rfl

theorem State.setCore_setCore (s : State) (c : Nat) (x y : Core) : (s.setCore c x).setCore c y = s.setCore c y := by
  simp [State.setCore]

@[simp] theorem Core.writeSr_slots (x : Core) (n op v) : (x.writeSr n op v).slots = x.slots := by
  unfold Core.writeSr
  split
  · rfl
  · split <;> rfl

/-- R113: the write of a system register changes its core and its slot, no more. -/
theorem State.writeSr_eq (s : State) (r : SlotRef) (n : Nat) (op : SrOp) (v : Word) :
    s.writeSr r n op v =
      s.setCore r.core (((s.core r.core).writeSr n op v).setSlot r.slot ((s.slot r).writeSr n op v)) := by
  simp [State.writeSr, State.modSlot, State.setSlot, State.modCore, State.setCore_setCore, State.slot, Core.slot]

theorem State.writeSr_onlyCore (s : State) (r : SlotRef) (n : Nat) (op : SrOp) (v : Word) :
    OnlyCore r.core s (s.writeSr r n op v) := by
  rw [State.writeSr_eq, OnlyCore, State.core_setCore]

@[simp] theorem State.writeSr_core (s : State) (r : SlotRef) (n : Nat) (op : SrOp) (v : Word) :
    (s.writeSr r n op v).core r.core =
      ((s.core r.core).writeSr n op v).setSlot r.slot ((s.slot r).writeSr n op v) := by
  rw [State.writeSr_eq, State.core_setCore]

@[simp] theorem State.writeSr_slot (s : State) (r : SlotRef) (n : Nat) (op : SrOp) (v : Word) :
    (s.writeSr r n op v).slot r = (s.slot r).writeSr n op v := by
  simp [State.slot]

theorem State.writeSr_slot_ne (s : State) (r q : SlotRef) (n : Nat) (op : SrOp) (v : Word) (h : q ≠ r) :
    (s.writeSr r n op v).slot q = s.slot q := by
  have hc : (s.modCore r.core fun x => x.writeSr n op v).slot q = s.slot q := by
    by_cases hq : q.core = r.core
    · simp [State.slot, hq, Core.slot]
    · simp [State.slot, State.core_modCore_ne _ _ _ _ hq]
  rw [State.writeSr, State.modSlot, State.slot_setSlot_ne _ _ _ _ h, hc]

section

variable (sl : Slot) (n : Nat) (op : SrOp) (v : Word)

theorem Slot.writeSr_g : (sl.writeSr n op v).g = sl.g := by
  unfold Slot.writeSr; (repeat' split) <;> rfl

theorem Slot.writeSr_p : (sl.writeSr n op v).p = sl.p := by
  unfold Slot.writeSr; (repeat' split) <;> rfl

theorem Slot.writeSr_v : (sl.writeSr n op v).v = sl.v := by
  unfold Slot.writeSr; (repeat' split) <;> rfl

theorem Slot.writeSr_m : (sl.writeSr n op v).m = sl.m := by
  unfold Slot.writeSr; (repeat' split) <;> rfl

theorem Slot.writeSr_pc : (sl.writeSr n op v).pc = sl.pc := by
  unfold Slot.writeSr; (repeat' split) <;> rfl

end

/-- R37: what the write of FPCTL leaves: its fields, with its old RM where the new one is above 4. -/
theorem newFpctl_setWidth (old : BitVec 13) (u : Word) : (newFpctl old u).setWidth 64 =
    (u &&& 0x1F00) ||| (if (u &&& 7).toNat ≤ 4 then u &&& 7 else old.setWidth 64 &&& 7) := by
  have hrm : bits u 0 3 = (u &&& 7).toNat := by
    rw [bits, BitVec.extractLsb'_toNat, BitVec.toNat_and, Nat.shiftRight_zero]
    exact (Nat.and_two_pow_sub_one_eq_mod u.toNat 3).symm
  have hu : (u.setWidth 13).setWidth 64 = u &&& 0x1FFF := setWidth_setWidth_eq_and u _ rfl
  have h1 : u &&& 0x1FFF &&& 0x1F00 = u &&& 0x1F00 := by rw [BitVec.and_assoc]; rfl
  have h2 : u &&& 0x1FFF &&& 7 = u &&& 7 := by rw [BitVec.and_assoc]; rfl
  unfold newFpctl
  rw [hrm]
  by_cases h : (u &&& 7).toNat ≤ 4
  · rw [if_neg (Nat.not_lt.2 h), if_pos h, BitVec.setWidth_or, BitVec.setWidth_and, BitVec.setWidth_and, hu]
    exact congrArg₂ _ h1 h2
  · rw [if_pos (Nat.not_le.1 h), if_neg h, BitVec.setWidth_or, BitVec.setWidth_and, BitVec.setWidth_and, hu]
    exact congrArg₂ _ h1 rfl

/-! ### Reading back -/

/-- R25, R37, R113: what a register of the slot reads as after its write. -/
theorem State.readSr_writeSr_slot (s : State) (r : SlotRef) (op : SrOp) (v : Word) :
    let new (n : Nat) := srNew op (s.readSr r n) v
    let reads (n : Nat) := (s.writeSr r n op v).readSr r n
    reads 0x10 = new 0x10 &&& 0x3FFF ∧ reads 0x11 = new 0x11 &&& 0x3FFF ∧ reads 0x12 = new 0x12 &&& 0x1FF ∧
    reads 0x13 = new 0x13 ∧ reads 0x14 = new 0x14 ∧ reads 0x24 = new 0x24 ∧ reads 0x50 = new 0x50 ∧
    reads 0x15 = new 0x15 &&& 0x06070003031FFFFE ∧
    reads 0x18 = (new 0x18 &&& 0x1F00) |||
      (if (new 0x18 &&& 7).toNat ≤ 4 then new 0x18 &&& 7 else s.readSr r 0x18 &&& 7) ∧
    reads 0x19 = new 0x19 &&& 0x3F ∧ reads 0x1A = new 0x1A &&& 0x7F ∧ reads 0x25 = new 0x25 &&& 0xFFFFFFFF ∧
    reads 0x44 = new 0x44 &&& 0xFFFF := by
  have slot (n : Nat) (h : ∀ t : State, t.readSr r n = (t.slot r).readSr n) :
      (s.writeSr r n op v).readSr r n = ((s.slot r).writeSr n op v).readSr n := by
    rw [h, State.writeSr_slot]
  intro new reads
  refine ⟨?_, ?_, ?_, ?_, ?_, ?_, ?_, ?_, ?_, ?_, ?_, ?_, ?_⟩
  · exact (slot _ fun _ => rfl).trans (setWidth_setWidth_eq_and _ _ rfl)
  · exact (slot _ fun _ => rfl).trans (setWidth_setWidth_eq_and _ _ rfl)
  · exact (slot _ fun _ => rfl).trans (setWidth_setWidth_eq_and _ _ rfl)
  · exact slot _ fun _ => rfl
  · exact slot _ fun _ => rfl
  · exact (slot _ fun _ => rfl).trans (extractLsb'_append_setWidth _)
  · exact slot _ fun _ => rfl
  · exact slot _ fun _ => rfl
  · exact (slot _ fun _ => rfl).trans (newFpctl_setWidth _ _)
  · exact (slot _ fun _ => rfl).trans (setWidth_setWidth_eq_and _ _ rfl)
  · exact (slot _ fun _ => rfl).trans (setWidth_setWidth_eq_and _ _ rfl)
  · exact (slot _ fun _ => rfl).trans (setWidth_setWidth_eq_and _ _ rfl)
  · exact (slot _ fun _ => rfl).trans (setWidth_setWidth_eq_and _ _ rfl)

/-- R271: BNSLOT, a register of the core. -/
theorem State.readSr_writeSr_bnslot (s : State) (r : SlotRef) (op : SrOp) (v : Word) :
    (s.writeSr r 0x41 op v).readSr r 0x41 = srNew op (s.readSr r 0x41) v &&& 7 := by
  refine Eq.trans ?_ (setWidth_setWidth_eq_and (k := 3) _ _ rfl)
  change ((s.writeSr r 0x41 op v).core r.core).bnslot.setWidth 64 = _
  rw [State.writeSr_core]
  rfl

end Sys2Proof.Machine
end

section
/-! SUPPORT. The wheel: what a write of WHEEL checks, and when it comes into force (R121, R122). -/

namespace Sys2Proof.Machine

/-! ### The positions that offend -/

theorem testBit_foldl_positions (p : Nat → Bool) (n : Nat) :
    let m := (List.range n).foldl (fun m k => if p k then m + 2 ^ k else m) 0
    m < 2 ^ n ∧ ∀ i, m.testBit i = (decide (i < n) && p i) := by
  induction n with
  | zero => simp
  | succ n ih =>
    obtain ⟨hlt, hbit⟩ := ih
    rw [List.range_succ, List.foldl_append]
    simp only [List.foldl_cons, List.foldl_nil]
    generalize (List.range n).foldl (fun m k => if p k then m + 2 ^ k else m) 0 = m at hlt hbit ⊢
    have hn : m.testBit n = false := Nat.testBit_lt_two_pow hlt
    cases hp : p n with
    | false =>
      refine ⟨hlt.trans (Nat.pow_lt_pow_right (by omega) (by omega)), fun i => ?_⟩
      rcases Nat.lt_trichotomy i n with h | rfl | h
      · simp [hbit, h, Nat.lt_succ_of_lt h]
      · simp [hp, hn]
      · simp [hbit, Nat.not_lt.2 h.le, show ¬i < n + 1 by omega]
    | true =>
      refine ⟨by simp only [if_true, Nat.pow_succ]; omega, fun i => ?_⟩
      have hor : 2 ^ n + m = 2 ^ n ||| m := by simpa using Nat.two_pow_add_eq_or_of_lt hlt 1
      rw [if_pos rfl, Nat.add_comm, hor, Nat.testBit_or, Nat.testBit_two_pow, hbit]
      rcases Nat.lt_trichotomy i n with h | rfl | h
      · simp [h, Nat.lt_succ_of_lt h, h.ne']
      · simp [hp]
      · simp [h.ne, Nat.not_lt.2 h.le, show ¬i < n + 1 by omega]

theorem testBit_positions (p : Nat → Bool) (i : Nat) : (positions p).testBit i = (decide (i < 16) && p i) :=
  (testBit_foldl_positions p 16).2 i

theorem positions_ne_zero_iff (p : Nat → Bool) : positions p ≠ 0 ↔ ∃ i, i < 16 ∧ p i = true := by
  rw [← not_iff_not, not_not, Nat.eq_iff_testBit_eq]
  simp [testBit_positions]

/-! ### The three checks of R121 -/

/-- The slot is the task's. -/
def Core.Mine (x : Core) (task : Option Nat) (k : Nat) : Prop := (x.slot k).life ≠ .unbound ∧ (x.slot k).task = task

/-- The wheel value leaves a slot of the task that could issue without a position. -/
def Core.Starved (x : Core) (task : Option Nat) (new : Word) (k : Nat) : Prop :=
  x.Mine task k ∧
    ((x.slot k).life = .boundIdle ∨ (x.slot k).life = .running ∨ (x.slot k).life = .waiting) ∧
    ∀ p, p < 16 → wheelSlot new p ≠ some k

/-- The position changes and is not granted to the task. -/
def Core.NotGranted (x : Core) (task : Option Nat) (old new : Word) (p : Nat) : Prop :=
  x.task ≠ task ∧ wheelEntry old p ≠ wheelEntry new p

/-- The position names a slot that is not the task's. -/
def Core.Foreign (x : Core) (task : Option Nat) (new : Word) (p : Nat) : Prop :=
  ∃ k, wheelSlot new p = some k ∧ ¬x.Mine task k

/-- The position was one of a slot that is starved. -/
def Core.Takes (x : Core) (task : Option Nat) (old new : Word) (p : Nat) : Prop :=
  ∃ k, wheelSlot old p = some k ∧ x.Starved task new k

section

variable {s : State} {c : Nat} {task : Option Nat} {old new : Word}

theorem Core.mine_iff (x : Core) (k : Nat) :
    ((x.slot k).bound && (x.slot k).task == task) = true ↔ x.Mine task k := by
  simp [Slot.bound, Core.Mine]

theorem Core.starved_iff (x : Core) (k : Nat) :
    ((x.slot k).bound && (x.slot k).task == task && x.starves new k) = true ↔ x.Starved task new k := by
  rw [Bool.and_eq_true, Core.mine_iff]
  simp only [Core.Starved, Core.starves, Slot.live, holdsPos, Bool.and_eq_true, Bool.or_eq_true, beq_iff_eq,
    List.all_eq_true, List.mem_range, Bool.not_eq_true', beq_eq_false_iff_ne, ne_eq]
  tauto

theorem wheelCheck_eq : wheelCheck s c task old new =
    let x := s.core c
    let mine (k : Nat) : Bool := (x.slot k).bound && (x.slot k).task == task
    let one := positions fun p => x.task != task && wheelEntry old p != wheelEntry new p
    let two := positions fun p => (wheelSlot new p).any fun k => !mine k
    let three := positions fun p => (wheelSlot old p).any fun k => mine k && x.starves new k
    (one != 0 || two != 0 || (List.range 8).any fun k => mine k && x.starves new k, one ||| two ||| three) := by
  unfold wheelCheck
  dsimp only
  congr! 7 with p p p <;> split <;> next hp => simp [hp]

theorem Core.notGranted_iff (x : Core) (p : Nat) :
    (x.task != task && wheelEntry old p != wheelEntry new p) = true ↔ x.NotGranted task old new p := by
  simp [Core.NotGranted]

theorem Core.foreign_iff (x : Core) (p : Nat) :
    ((wheelSlot new p).any fun k => !((x.slot k).bound && (x.slot k).task == task)) = true ↔ x.Foreign task new p := by
  simp only [Option.any_eq_true, Core.Foreign, ← Core.mine_iff, Bool.not_eq_true', Bool.not_eq_true]

theorem Core.takes_iff (x : Core) (p : Nat) :
    ((wheelSlot old p).any fun k => (x.slot k).bound && (x.slot k).task == task && x.starves new k) = true ↔
      x.Takes task old new p := by
  simp only [Option.any_eq_true, Core.Takes, ← Core.starved_iff]

/-- Any failed check refuses the write. -/
theorem wheelCheck_bad_iff : (wheelCheck s c task old new).1 = true ↔
    (∃ p, p < 16 ∧ ((s.core c).NotGranted task old new p ∨ (s.core c).Foreign task new p)) ∨
      ∃ k, k < 8 ∧ (s.core c).Starved task new k := by
  rw [wheelCheck_eq]
  simp only [Bool.or_eq_true, bne_iff_ne (b := 0), positions_ne_zero_iff, List.any_eq_true, List.mem_range,
    Core.starved_iff, Core.notGranted_iff, Core.foreign_iff, and_or_left, exists_or]

/-- FINFO has a bit for each offending position. -/
theorem wheelCheck_info {p : Nat} (hp : p < 64) : (w64 (wheelCheck s c task old new).2).getLsbD p = true ↔
    p < 16 ∧ ((s.core c).NotGranted task old new p ∨ (s.core c).Foreign task new p ∨
      (s.core c).Takes task old new p) := by
  rw [wheelCheck_eq]
  simp only [w64, BitVec.getLsbD_ofNat, hp, decide_true, Bool.true_and, Nat.testBit_or, testBit_positions,
    Bool.or_eq_true, Bool.and_eq_true (decide _), decide_eq_true_eq, Core.notGranted_iff, Core.foreign_iff,
    Core.takes_iff, or_assoc, and_or_left]

end

/-! ### The write and its boundary -/

/-- R122: the last value whose boundary has come is in force. -/
theorem Core.foldl_wheelDue (l : List (Nat × Word)) (t : Nat) (x : Core) :
    l.foldl (fun x p => if p.1 ≤ t then { x with wheel := p.2 } else x) x =
      { x with wheel := (((l.filter fun p => decide (p.1 ≤ t)).getLast?).map (·.2)).getD x.wheel } := by
  induction l generalizing x with
  | nil => rfl
  | cons p l ih =>
    rw [List.foldl_cons, ih]
    by_cases hp : p.1 ≤ t
    · rw [if_pos hp, List.filter_cons_of_pos (by simpa using hp), List.getLast?_cons]
      cases (l.filter fun p => decide (p.1 ≤ t)).getLast? <;> rfl
    · rw [if_neg hp, List.filter_cons_of_neg (by simpa using hp)]

theorem Core.switchWheel_eq (x : Core) (t : Nat) : x.switchWheel t = { x with
    wheel := (((x.wheelDue.filter fun p => decide (p.1 ≤ t)).getLast?).map (·.2)).getD x.wheel
    wheelDue := x.wheelDue.filter fun p => decide (t < p.1) } :=
  Core.foldl_wheelDue _ _ _

theorem State.modCore_onlyCore (s : State) (c : Nat) (f : Core → Core) : OnlyCore c s (s.modCore c f) := by
  rw [OnlyCore, State.core_modCore]
  rfl

section

variable (s : State) (c : Nat) (new : Word)

theorem State.setWheel_core : (s.setWheel c new).core c = { s.core c with
    wheelNext := new
    wheelDue := (s.core c).wheelDue ++ [(wheelBoundary (s.now + (s.core c).skew), new)] } :=
  State.core_modCore s c fun x => { x with
    wheelNext := new, wheelDue := x.wheelDue ++ [(wheelBoundary (s.now + (s.core c).skew), new)] }

@[simp] theorem State.setWheel_slot (r : SlotRef) : (s.setWheel c new).slot r = s.slot r := by
  by_cases h : r.core = c
  · subst h
    rw [State.slot, State.setWheel_core]
    rfl
  · exact congrArg (Core.slot · r.slot) (State.core_modCore_ne s c r.core (fun x => { x with
      wheelNext := new, wheelDue := x.wheelDue ++ [(wheelBoundary (s.now + (s.core c).skew), new)] }) h)

@[simp] theorem State.setWheel_cur : (s.setWheel c new).cur = s.cur := rfl

@[simp] theorem State.setWheel_me : (s.setWheel c new).me = s.me := State.setWheel_slot s c new s.cur

theorem State.setWheel_memory : SameMemory s (s.setWheel c new) := ⟨rfl, rfl⟩

theorem State.setWheel_comes :
    (s.now + (wheelBoundary (s.now + (s.core c).skew) - (s.now + (s.core c).skew)), Instr.wheelSwitch c) ∈
      (s.setWheel c new).coming :=
  (mem_insertBy _ _ _ _).2 (.inl rfl)

theorem State.passed_me : s.passed.me = { s.me.advance with gate := .fromTurn (s.me.turn + 1) } :=
  State.me_setSlot_cur s _

/-- What a word that only passes keeps of its core. -/
theorem State.passed_myCore : s.passed.myCore = s.myCore.setSlot s.cur.slot s.passed.me := by
  rw [State.passed_me]
  exact State.core_setSlot s s.cur _

end

/-- R121, R122: a write of WHEEL is refused or comes into force at its boundary. -/
theorem exec_wheelWrite {s : State} {h : Hdr} (op : SrOp) (o : FmtX) (hg : s.me.guard h = true) :
    exec (.wheelWrite h op o) s =
      let new := srNew op s.myCore.wheelNext (srValue o s)
      let r := wheelCheck s s.cur.core s.me.task s.myCore.wheelNext new
      .next (if r.1 = true then s.precise 0x03 0 (w64 r.2) else (s.setWheel s.cur.core new).passed) :=
  word_of_guard _ hg

/-- Settles O22: a register's write by `State.writeSr_eq` and its reading back, the checks of WHEEL by
`wheelCheck_bad_iff` and `wheelCheck_info`, the boundary by `Core.switchWheel_eq`. -/
theorem systemRegisterWriteIsReadBack : Obligations.SystemRegisterWriteIsReadBack := by
  refine ⟨fun s r n op v => ?_, fun s h o op hg => ?_, fun s c hc => ⟨_, if_pos hc, ?_, ?_⟩⟩
  · have hu : (match op with
        | .move => v
        | .set => s.readSr r n ||| v
        | .clear => s.readSr r n &&& ~~~v) = srNew op (s.readSr r n) v := by cases op <;> rfl
    intro old u t
    rw [show u = srNew op (s.readSr r n) v from hu]
    obtain ⟨h10, h11, h12, h13, h14, h24, h50, h15, h18, h19, h1A, h25, h44⟩ := State.readSr_writeSr_slot s r op v
    refine ⟨?_, ?_, ?_, ?_, ?_, ?_, ?_, ?_, ?_, ?_, fun q hq => State.writeSr_slot_ne s r q n op v hq,
      State.writeSr_onlyCore s r n op v, ?_⟩
    · rintro (rfl | rfl)
      · exact h10
      · exact h11
    · rintro rfl; exact h12
    · rintro (rfl | rfl | rfl | rfl)
      · exact h13
      · exact h14
      · exact h24
      · exact h50
    · rintro rfl; exact h15
    · rintro rfl; exact h18
    · rintro rfl; exact h19
    · rintro rfl; exact h1A
    · rintro rfl; exact h25
    · rintro rfl; exact State.readSr_writeSr_bnslot s r op v
    · rintro rfl; exact h44
    · rw [State.writeSr_slot]
      exact ⟨Slot.writeSr_g .., Slot.writeSr_p .., Slot.writeSr_v .., Slot.writeSr_m .., Slot.writeSr_pc ..⟩
  · intro c x v old new here b mine starved notGranted foreign takes refused
    have hnew : srNew op s.myCore.wheelNext (srValue o s) = new := srNew_eq op old v
    have he := exec_wheelWrite op o hg
    rw [hnew] at he
    have hbad : (wheelCheck s c s.me.task old new).1 = true ↔ refused := wheelCheck_bad_iff
    refine ⟨fun hr => ⟨(s.setWheel c new).passed, ?_, ?_⟩, fun hr hh => ⟨_, ?_, fun p hp => wheelCheck_info hp⟩⟩
    · exact he.trans (congrArg _ (if_neg (mt hbad.1 hr)))
    · have hm : (s.setWheel c new).passed.me = s.passed.me := by
        rw [State.passed_me, State.passed_me, State.setWheel_me]
      have hx : (s.setWheel c new).passed.myCore = ({ s.core c with
          wheelNext := new
          wheelDue := (s.core c).wheelDue ++ [(wheelBoundary (s.now + (s.core c).skew), new)] } : Core).setSlot
            s.cur.slot (s.setWheel c new).passed.me := by
        rw [← State.setWheel_core]
        exact State.passed_myCore _
      refine ⟨(congrArg Core.wheel hx :), (congrArg Core.wheelNext hx :), (congrArg Core.wheelDue hx :), hm,
        fun q hq => ?_, State.setWheel_memory s c new, State.setWheel_comes s c new⟩
      exact (State.slot_setSlot_ne _ _ q _ hq).trans (State.setWheel_slot s c new q)
    · exact he.trans (congrArg _ ((if_pos (hbad.2 hr)).trans (State.precise_eq _ _ _ _ hh)))
  · exact State.modCore_onlyCore _ _ _
  · rw [State.core_modCore, Core.switchWheel_eq]

end Sys2Proof.Machine
end

section
/-! SUPPORT. Results that become visible: what a register reads as after the write of one, and what a fence that waited
does (R15, R16, R124, R290). -/

namespace Sys2Proof.Machine

/-! ### Registers after a write -/

theorem Slot.setG_eq (sl : Slot) (d : BitVec 5) (v : Word) : sl.setG d v = { sl with g := (sl.setG d v).g } := by
  unfold Slot.setG
  split <;> rfl

theorem Slot.setP_eq (sl : Slot) (d : BitVec 3) (b : Bool) : sl.setP d b = { sl with p := (sl.setP d b).p } := by
  unfold Slot.setP
  split <;> rfl

theorem Slot.setM_eq (sl : Slot) (d : BitVec 3) (ls v : Word) :
    sl.setM d ls v = { sl with m := (sl.setM d ls v).m } := by
  unfold Slot.setM
  split <;> rfl

/-- R16, R85: g0 is never written. -/
theorem Slot.gr_setG (sl : Slot) (d k : BitVec 5) (v : Word) :
    (sl.setG d v).gr k = if k = d ∧ d ≠ 0 then v else sl.gr k := by
  by_cases hd : d = 0#5
  · simp [Slot.setG, hd]
  by_cases hk : k = d
  · simp [Slot.setG, Slot.gr, hd, hk]
  · have : k.toNat ≠ d.toNat := fun h => hk (BitVec.eq_of_toNat_eq h)
    simp [Slot.setG, Slot.gr, hd, hk, Tab.at_store_ne _ _ _ _ _ this]

/-- R16, R85: p0 is never written. -/
theorem Slot.pr_setP (sl : Slot) (d k : BitVec 3) (b : Bool) :
    (sl.setP d b).pr k = if k = d ∧ d ≠ 0 then b else sl.pr k := by
  by_cases hd : d = 0#3
  · simp [Slot.setP, hd]
  have bit : ((1 : BitVec 8) <<< d.toNat).getLsbD k.toNat = decide (k = d) := by
    revert k d; decide
  have hk8 : k.toNat < 8 := k.isLt
  have read : (sl.setP d b).p.getLsbD k.toNat = if k = d then b else sl.p.getLsbD k.toNat := by
    rw [Slot.setP, if_neg (show ¬d = 0 from hd)]
    by_cases hk : k = d
    · subst hk
      rw [decide_eq_true rfl] at bit
      cases b <;> simp only [if_true, Bool.false_eq_true, if_false, BitVec.getLsbD_or, BitVec.getLsbD_and,
        BitVec.getLsbD_not, bit, Bool.not_true, Bool.and_false, Bool.or_true]
    · rw [decide_eq_false hk] at bit
      cases b <;> simp only [if_true, Bool.false_eq_true, if_false, BitVec.getLsbD_or, BitVec.getLsbD_and,
        BitVec.getLsbD_not, bit, hk8, hk, decide_true, Bool.not_false, Bool.and_true, Bool.or_false]
  unfold Slot.pr
  rw [read]
  by_cases hk : k = d <;> simp [hk, hd]

/-- R16, R124: m0 is never written, and of another register only the lanes named. -/
theorem Slot.mr_setM (sl : Slot) (d k : BitVec 3) (ls v : Word) (j : Nat) :
    ((sl.setM d ls v).mr k).getLsbD j =
      if k = d ∧ d ≠ 0 ∧ ls.getLsbD j = true then v.getLsbD j else (sl.mr k).getLsbD j := by
  by_cases hd : d = 0#3
  · simp [Slot.setM, hd]
  by_cases hk : k = d
  · subst hk
    have read : (sl.setM k ls v).mr k = (sl.mr k &&& ~~~ls) ||| (v &&& ls) := by
      simp [Slot.setM, Slot.mr, hd]
    rw [read, BitVec.getLsbD_or, BitVec.getLsbD_and, BitVec.getLsbD_and, BitVec.getLsbD_not]
    by_cases hj : j < 64
    · cases ls.getLsbD j <;> simp [hj, hd]
    · have ge (x : Word) : x.getLsbD j = false := BitVec.getLsbD_of_ge x j (Nat.not_lt.1 hj)
      simp [ge]
  · have : k.toNat ≠ d.toNat := fun h => hk (BitVec.eq_of_toNat_eq h)
    simp [Slot.setM, Slot.mr, hd, hk, Tab.at_store_ne _ _ _ _ _ this]

/-- Each lane of a spread mask is its bit of the mask. -/
theorem getLsbD_laneMask (ls : Word) (n i : Nat) (hi : i < 2048) :
    (laneMask ls n).getLsbD i = (decide (i < 32 * n) && ls.getLsbD (i / 32)) := by
  have ones (k : Nat) (hk : k < 2048) : (0xFFFFFFFF : VReg).getLsbD k = decide (k < 32) := by
    rw [BitVec.ofNat_eq_ofNat, BitVec.getLsbD_ofNat, decide_eq_true hk, Bool.true_and]
    exact Nat.testBit_two_pow_sub_one 32 k
  have group (n : Nat) : ((0xFFFFFFFF : VReg) <<< (32 * n)).getLsbD i = decide (i / 32 = n) := by
    rw [BitVec.getLsbD_shiftLeft, ones _ (by omega)]
    simp only [hi, decide_true, Bool.true_and, ← decide_not, ← Bool.decide_and, decide_eq_decide]
    omega
  induction n with
  | zero => simp [laneMask]
  | succ n ih =>
    have last : (if ls.getLsbD n = true then (0xFFFFFFFF : VReg) <<< (32 * n) else 0).getLsbD i =
        (decide (i / 32 = n) && ls.getLsbD n) := by
      cases hl : ls.getLsbD n
      · simp
      · rw [if_pos rfl, group, Bool.and_true]
    rw [laneMask, BitVec.getLsbD_or, ih, last]
    by_cases hn : i / 32 = n
    · have h1 : ¬i < 32 * n := by omega
      have h2 : i < 32 * (n + 1) := by omega
      simp [hn, h1, h2]
    · have : i < 32 * (n + 1) ↔ i < 32 * n := by omega
      simp [hn, this]

theorem vlane_ext {x y : VReg} {j : Nat} (h : ∀ b, b < 32 → x.getLsbD (32 * j + b) = y.getLsbD (32 * j + b)) :
    vlane x j = vlane y j := by
  apply BitVec.eq_of_getLsbD_eq
  intro b hb
  simp [vlane, hb, h b hb]

/-- R125: of a vector register only the lanes named are written. -/
theorem Slot.vlane_setV (sl : Slot) (d k : BitVec 4) (ls : Word) (v : VReg) (j : Nat) (hj : j < 64) :
    vlane ((sl.setV d ls v).vr k) j = if k = d ∧ ls.getLsbD j = true then vlane v j else vlane (sl.vr k) j := by
  by_cases hk : k = d
  · subst hk
    have mask (b : Nat) (hb : b < 32) : (laneMask ls 64).getLsbD (32 * j + b) = ls.getLsbD j := by
      rw [getLsbD_laneMask _ _ _ (by omega), show (32 * j + b) / 32 = j by omega]
      simp [show 32 * j + b < 32 * 64 by omega]
    have read : (sl.setV k ls v).vr k = (sl.vr k &&& ~~~laneMask ls 64) ||| (v &&& laneMask ls 64) := by
      simp [Slot.setV, Slot.vr]
    rw [read]
    cases hl : ls.getLsbD j with
    | false =>
      rw [if_neg (by simp)]
      exact vlane_ext fun b hb => by
        have hb' : 32 * j + b < 2048 := by omega
        simp only [BitVec.getLsbD_or, BitVec.getLsbD_and, BitVec.getLsbD_not, mask b hb, hl, hb', decide_true,
          Bool.not_false, Bool.and_true, Bool.and_false, Bool.or_false]
    | true =>
      rw [if_pos ⟨rfl, rfl⟩]
      exact vlane_ext fun b hb => by
        simp only [BitVec.getLsbD_or, BitVec.getLsbD_and, BitVec.getLsbD_not, mask b hb, hl, Bool.not_true,
          Bool.and_false, Bool.and_true, Bool.false_or]
  · have : k.toNat ≠ d.toNat := fun h => hk (BitVec.eq_of_toNat_eq h)
    simp [Slot.setV, Slot.vr, hk, Tab.at_store_ne _ _ _ _ _ this]

end Sys2Proof.Machine
end

section
/-! SUPPORT. A result in flight that is due becomes visible (R15, R16), and a fence that waited for it goes on
(R290). -/

namespace Sys2Proof.Machine

/-! ### A stall that goes on -/

/-- Of memory and the slots, at most the gate of one slot differs. -/
def OnlyGate (r : SlotRef) (s t : State) : Prop :=
  SameMemory s t ∧ (∀ q, q ≠ r → t.slot q = s.slot q) ∧ t.slot r = { s.slot r with gate := (t.slot r).gate }

theorem OnlyGate.refl (r : SlotRef) (s : State) : OnlyGate r s s := ⟨⟨rfl, rfl⟩, fun _ _ => rfl, rfl⟩

theorem OnlyGate.modSlot (r : SlotRef) (s : State) (g : Gate) :
    OnlyGate r s (s.modSlot r fun sl => { sl with gate := g }) := by
  refine ⟨⟨rfl, rfl⟩, fun q hq => State.slot_setSlot_ne s r q _ hq, ?_⟩
  rw [State.slot_modSlot]

theorem State.laterX_eq (s : State) (d : Nat) (i : Instr) :
    s.laterX d i = { s with coming := (s.laterX d i).coming, extra := (s.laterX d i).extra } := by
  obtain ⟨-, h, -⟩ := s.laterX_scheduled d i
  exact h

theorem OnlyGate.laterX {r : SlotRef} {s t : State} (h : OnlyGate r s t) (d : Nat) (i : Instr) :
    OnlyGate r s (t.laterX d i) := by
  rw [State.laterX_eq]
  exact h

theorem State.stallStage_onlyGate (s : State) (r : SlotRef) (e : StallEnd) : OnlyGate r s (s.stallStage r e) := by
  unfold State.stallStage
  split
  · exact OnlyGate.modSlot r s _
  · exact (OnlyGate.modSlot r s _).laterX _ _
  · exact OnlyGate.modSlot r s _
  · exact OnlyGate.modSlot r s _
  · split
    · exact OnlyGate.modSlot r s _
    · exact OnlyGate.refl r s
  · exact OnlyGate.refl r s

theorem State.settleStall_onlyGate (s : State) (r : SlotRef) : OnlyGate r s (s.settleStall r) := by
  unfold State.settleStall
  dsimp only
  split
  · split
    · exact OnlyGate.refl r s
    · exact s.stallStage_onlyGate r _
  · exact OnlyGate.refl r s

theorem State.settleStall_notStalled {s : State} {r : SlotRef} (h : ∀ st, (s.slot r).gate ≠ .stalled st) :
    s.settleStall r = s := by
  unfold State.settleStall
  dsimp only
  split
  · next st hg => exact absurd hg (h st)
  · rfl

/-! ### The result that is due -/

theorem find?_append_of_first {α : Type} {p : α → Bool} {early rest : List α} {a : α} (he : ∀ b ∈ early, p b = false)
    (ha : p a = true) : (early ++ a :: rest).find? p = some a := by
  rw [List.find?_append, List.find?_eq_none.2 (by simpa using he), List.find?_cons_of_pos ha]
  rfl

theorem dropFirst_append_of_first {α : Type} {p : α → Bool} {early rest : List α} {a : α}
    (he : ∀ b ∈ early, p b = false) (ha : p a = true) : dropFirst p (early ++ a :: rest) = early ++ rest := by
  induction early with
  | nil => simp [dropFirst, ha]
  | cons b early ih => simp [dropFirst, he b, ih fun c hc => he c (List.mem_cons_of_mem b hc)]

@[simp] theorem State.modSlot_setSlot (s : State) (r : SlotRef) (x : Slot) (f : Slot → Slot) :
    (s.setSlot r x).modSlot r f = s.setSlot r (f x) := by
  rw [State.modSlot, State.slot_setSlot, State.setSlot_setSlot]

section

variable {s : State} {core slot : Nat} {f : Flight} {early rest : List Flight}
  (hc : core < 768) (hk : slot < 8) (hf : (s.slot ⟨core, slot⟩).flights = early ++ f :: rest)
  (he : ∀ g ∈ early, g.id ≠ f.id) (ht : f.minTurn ≤ (s.slot ⟨core, slot⟩).turn) (hy : f.minCycle ≤ s.now)

include hc hk hf he ht hy

/-- R15: a result that is due is taken out of flight and its writes are applied. -/
theorem exec_resultWriteback : exec (.resultWriteback core slot f.id) s =
    .next (((s.setSlot ⟨core, slot⟩ { s.slot ⟨core, slot⟩ with flights := early ++ rest }).applyWrites ⟨core, slot⟩
      f.writes).settleStall ⟨core, slot⟩) := by
  have found : (s.slot ⟨core, slot⟩).flights.find?
      (fun g => g.id == f.id && g.due (s.slot ⟨core, slot⟩).turn s.now) = some f := by
    rw [hf]
    exact find?_append_of_first (fun g hg => by simp [he g hg]) (by simp [Flight.due, ht, hy])
  have left : dropFirst (fun g => g.id == f.id) (s.slot ⟨core, slot⟩).flights = early ++ rest := by
    rw [hf]
    exact dropFirst_append_of_first (fun g hg => by simp [he g hg]) (by simp)
  change onSlot core slot _ = _
  rw [onSlot, if_pos ⟨hc, hk⟩]
  dsimp only
  rw [found]
  dsimp only
  rw [State.modSlot, left]

/-- R15, R290: a write that changes its slot but not the slot's gate, and after it the stall that waited. -/
theorem resultWriteback_gives {w : Write} (hw : f.writes = [w]) (u : Slot → Slot)
    (hu : ∀ t : State, t.applyWrite ⟨core, slot⟩ w = t.modSlot ⟨core, slot⟩ u) (hg : ∀ x, (u x).gate = x.gate)
    {P : Slot → Prop} (hP : ∀ g, P { u { s.slot ⟨core, slot⟩ with flights := early ++ rest } with gate := g }) :
    Gives (.resultWriteback core slot f.id) s fun t =>
      SameMemory s t ∧ (∀ q, q ≠ ⟨core, slot⟩ → t.slot q = s.slot q) ∧
        ((∀ st, (s.slot ⟨core, slot⟩).gate ≠ .stalled st) →
          OnlySlot ⟨core, slot⟩ s t ∧ (t.slot ⟨core, slot⟩).gate = (s.slot ⟨core, slot⟩).gate) ∧
        P (t.slot ⟨core, slot⟩) := by
  refine ⟨_, exec_resultWriteback hc hk hf he ht hy, ?_⟩
  rw [hw, State.applyWrites, List.foldl_cons, List.foldl_nil, hu, State.modSlot_setSlot]
  obtain ⟨hm, hq, hr⟩ := State.settleStall_onlyGate
    (s.setSlot ⟨core, slot⟩ (u { s.slot ⟨core, slot⟩ with flights := early ++ rest })) ⟨core, slot⟩
  refine ⟨hm, fun q h => (hq q h).trans (State.slot_setSlot_ne s _ q _ h), fun h => ?_, ?_⟩
  · rw [State.settleStall_notStalled (by simpa [hg] using h)]
    exact ⟨by rw [OnlySlot, State.slot_setSlot], by rw [State.slot_setSlot, hg]⟩
  · rw [hr, State.slot_setSlot]
    exact hP _

end

theorem Slot.writeSr_gate (sl : Slot) (n : Nat) (op : SrOp) (v : Word) : (sl.writeSr n op v).gate = sl.gate := by
  unfold Slot.writeSr; (repeat' split) <;> rfl

/-- Settles O23: each write changes its slot as the register's rule says (`Slot.gr_setG`, `Slot.pr_setP`,
`Slot.vlane_setV`, `Slot.mr_setM`), by `resultWriteback_gives`. -/
theorem resultBecomesVisible : Obligations.ResultBecomesVisible := by
  intro s core slot f early rest hc hk r old left hf he ht hy sees
  have one (w : Write) (u : Slot → Slot) (hu : ∀ t : State, t.applyWrite r w = t.modSlot r u)
      (hg : ∀ x, (u x).gate = x.gate) {P : Slot → Prop}
      (hP : ∀ g, P { u { old with flights := left } with gate := g }) : sees [w] P := fun hw =>
    resultWriteback_gives hc hk hf he ht hy hw u hu hg hP
  clear_value sees
  refine ⟨fun d v => ?_, fun d v => ?_, fun d ls v => ?_, fun d ls v => ?_, fun b => ?_, fun b => ?_,
    fun n op v hst hw => ?_⟩
  · apply one (.g d v) (fun sl => sl.setG d v) (fun _ => rfl) (fun x => x.setG_gate d v)
    exact fun g => ⟨by rw [Slot.setG_eq], fun k => Slot.gr_setG { old with flights := left } d k v⟩
  · apply one (.p d v) (fun sl => sl.setP d v) (fun _ => rfl) (fun x => by rw [Slot.setP_eq])
    exact fun g => ⟨by rw [Slot.setP_eq], fun k => Slot.pr_setP { old with flights := left } d k v⟩
  · apply one (.v d ls v) (fun sl => sl.setV d ls v) (fun _ => rfl) (fun _ => rfl)
    exact fun g => ⟨rfl, fun k j hj => Slot.vlane_setV { old with flights := left } d k ls v j hj⟩
  · apply one (.m d ls v) (fun sl => sl.setM d ls v) (fun _ => rfl) (fun x => by rw [Slot.setM_eq])
    exact fun g => ⟨by rw [Slot.setM_eq], fun k j => Slot.mr_setM { old with flights := left } d k ls v j⟩
  · apply one (.istat b) (fun sl => { sl with istat := sl.istat ||| b }) (fun _ => rfl) (fun _ => rfl)
    exact fun g => rfl
  · apply one (.vstat b) (fun sl => { sl with vstat := sl.vstat ||| b }) (fun _ => rfl) (fun _ => rfl)
    exact fun g => rfl
  · rw [exec_resultWriteback hc hk hf he ht hy, hw]
    refine congrArg _ (State.settleStall_notStalled fun st => ?_)
    change (((s.setSlot r { old with flights := left }).writeSr r n.toNat op v).slot r).gate ≠ _
    rw [State.writeSr_slot, State.slot_setSlot, Slot.writeSr_gate]
    exact hst st

end Sys2Proof.Machine
end

section
/-! SUPPORT. What an access that issues may change: the results in flight, the accesses, the due faults, the gate and
the numbering of its own slot, and of its core no window entry and no other slot (R264, R285 to R289). -/

namespace Sys2Proof.Machine

/-! ### Frames -/

/-- What an access of a slot may change of the slots and of the window of its core. -/
structure AccessFrame (r : SlotRef) (s t : State) : Prop where
  others : ∀ q, q ≠ r → t.slot q = s.slot q
  window : (t.core r.core).bmap = (s.core r.core).bmap
  cur : t.cur = s.cur
  own : t.slot r = { s.slot r with
    accs := (t.slot r).accs, flights := (t.slot r).flights, due := (t.slot r).due, gate := (t.slot r).gate
    nextId := (t.slot r).nextId }

/-- As `AccessFrame`, and no byte of memory changes. -/
structure Quiet (r : SlotRef) (s t : State) : Prop where
  memory : SameMemory s t
  frame : AccessFrame r s t

section

variable {r : SlotRef} {s t u : State}

theorem SameMemory.trans (h : SameMemory s t) (h' : SameMemory t u) : SameMemory s u :=
  ⟨h'.1.trans h.1, h'.2.trans h.2⟩

theorem AccessFrame.refl : AccessFrame r s s := ⟨fun _ _ => rfl, rfl, rfl, rfl⟩

theorem AccessFrame.trans (h : AccessFrame r s t) (h' : AccessFrame r t u) : AccessFrame r s u := by
  obtain ⟨hq, hb, hc, hr⟩ := h
  obtain ⟨hq', hb', hc', hr'⟩ := h'
  refine ⟨fun q h => (hq' q h).trans (hq q h), hb'.trans hb, hc'.trans hc, ?_⟩
  rw [hr', hr]

theorem Quiet.refl : Quiet r s s := ⟨⟨rfl, rfl⟩, .refl⟩

theorem Quiet.trans (h : Quiet r s t) (h' : Quiet r t u) : Quiet r s u := 
  ⟨h.memory.trans h'.memory, h.frame.trans h'.frame⟩

/-- What leaves the cores alone leaves the slots and the window. -/
theorem AccessFrame.of_cores (hc : t.cores = s.cores) (hr : t.cur = s.cur) : AccessFrame r s t := by
  have core (c : Nat) : t.core c = s.core c := by rw [State.core, hc, State.core]
  have slot (q : SlotRef) : t.slot q = s.slot q := by rw [State.slot, core, State.slot]
  exact ⟨fun q _ => slot q, by rw [core], hr, by rw [slot]⟩

theorem AccessFrame.modSlot {f : Slot → Slot} (hf : f (s.slot r) = { s.slot r with
    accs := (f (s.slot r)).accs, flights := (f (s.slot r)).flights, due := (f (s.slot r)).due
    gate := (f (s.slot r)).gate, nextId := (f (s.slot r)).nextId }) : AccessFrame r s (s.modSlot r f) := by
  refine ⟨fun q hq => State.slot_setSlot_ne s r q _ hq, ?_, rfl, ?_⟩
  · rw [State.modSlot, State.core_setSlot, Core.setSlot_bmap]
  · rw [State.slot_modSlot]
    exact hf

theorem AccessFrame.modCore {f : Core → Core} (hs : ∀ x, (f x).slots = x.slots) (hb : ∀ x, (f x).bmap = x.bmap) :
    AccessFrame r s (s.modCore r.core f) := by
  have slot (q : SlotRef) : (s.modCore r.core f).slot q = s.slot q := by
    by_cases hq : q.core = r.core
    · rw [State.slot, hq, State.core_modCore, Core.slot, hs, State.slot, hq, Core.slot]
    · rw [State.slot, State.core_modCore_ne _ _ _ _ hq, State.slot]
  exact ⟨fun q _ => slot q, by rw [State.core_modCore, hb], rfl, by rw [slot]⟩

theorem Quiet.of_cores (hc : t.cores = s.cores) (hr : t.cur = s.cur) (hm : SameMemory s t) : Quiet r s t :=
  ⟨hm, .of_cores hc hr⟩

theorem Quiet.modSlot {f : Slot → Slot} (hf : f (s.slot r) = { s.slot r with
    accs := (f (s.slot r)).accs, flights := (f (s.slot r)).flights, due := (f (s.slot r)).due
    gate := (f (s.slot r)).gate, nextId := (f (s.slot r)).nextId }) : Quiet r s (s.modSlot r f) :=
  ⟨⟨rfl, rfl⟩, .modSlot hf⟩

theorem Quiet.modCore {f : Core → Core} (hs : ∀ x, (f x).slots = x.slots) (hb : ∀ x, (f x).bmap = x.bmap) :
    Quiet r s (s.modCore r.core f) := ⟨⟨rfl, rfl⟩, .modCore hs hb⟩

theorem Quiet.laterX (h : Quiet r s t) (d : Nat) (i : Instr) : Quiet r s (t.laterX d i) := by
  rw [State.laterX_eq]
  exact h.trans (.of_cores rfl rfl ⟨rfl, rfl⟩)

end

/-! ### The operations of an access -/

section

variable (s : State) (r : SlotRef) (a : Access)

theorem State.setAcc_quiet : Quiet r s (s.modSlot r fun sl => sl.setAcc a) := .modSlot rfl

theorem State.dropAcc_quiet (id : Nat) : Quiet r s (s.modSlot r fun sl => sl.dropAcc id) := .modSlot rfl

theorem State.deferAcc_quiet (cause addr info withDist) : Quiet r s (s.deferAcc r a cause addr info withDist) := by
  unfold State.deferAcc State.defer
  refine .modSlot ?_
  split <;> rfl

theorem State.useName_quiet (n : BitVec 16) : Quiet r s (s.useName r.core n) := by
  refine .modCore (fun x => ?_) fun x => ?_ <;> split <;> rfl

theorem State.startWalk_quiet (n : BitVec 16) : Quiet r s (s.startWalk r.core n) := by
  unfold State.startWalk
  split
  · exact .refl
  · exact Quiet.laterX (.modCore (f := fun x => { x with walks := x.walks ++ [n] }) (fun _ => rfl) fun _ => rfl) _ _

theorem State.sendFrame_quiet (die pkt : Nat) : Quiet r s (s.sendFrame die pkt) := by
  unfold State.sendFrame
  split
  · split
    · exact .of_cores rfl rfl ⟨rfl, rfl⟩
    · exact .refl
  · exact .refl

theorem State.stage_quiet (dst slot : Nat) (pc : BitVec 14) (name : BitVec 16) (g : Cargo) :
    Quiet r s (s.stage r.core dst slot pc name g).2 := by
  unfold State.stage
  dsimp only
  generalize hp : (if g.writes && dst != 769 then s.takeSeq r.core dst else (0, s)) = p
  have seq : Quiet r s p.2 := by
    rw [← hp]
    split
    · exact .modCore (f := fun x => { x with seqTo := Tab.put x.seqTo dst (Tab.at (s.core r.core).seqTo dst 0 + 1) })
        (fun _ => rfl) fun _ => rfl
    · exact .refl
  have put : Quiet r s { p.2 with
      nextPkt := s.nextPkt + 1
      packets := p.2.packets ++ [⟨s.nextPkt, r.core, dst, slot, pc, name, p.1, g, false, false⟩] } :=
    seq.trans (.of_cores rfl rfl ⟨rfl, rfl⟩)
  split
  · exact put.trans (State.sendFrame_quiet _ r _ _)
  · exact put

theorem State.sendAcc_quiet (dst : Nat) : Quiet r s (s.sendAcc r a dst) := by
  have sent := (s.setAcc_quiet r { a with st := .sent }).trans
    (State.stage_quiet _ r dst r.slot a.pc a.name (.access { a with st := .sent }))
  unfold State.sendAcc
  dsimp only
  split
  · exact sent.laterX _ _
  · exact sent

theorem State.routeAcc_quiet : Quiet r s (s.routeAcc r a) := by
  unfold State.routeAcc
  split
  · exact (s.useName_quiet r _).trans (State.sendAcc_quiet _ r a _)
  · exact (s.useName_quiet r _).trans (State.sendAcc_quiet _ r a _)
  · exact (s.setAcc_quiet r _).trans (State.startWalk_quiet _ r _)
  · exact s.setAcc_quiet r _
  · exact (s.dropAcc_quiet r _).trans (State.deferAcc_quiet _ r a _ _ _ _)
  · exact (s.dropAcc_quiet r _).trans (State.deferAcc_quiet _ r a _ _ _ _)

/-- A scalar access that has performed writes no register yet. -/
theorem State.landLocal_quiet (b : Access) (hv : a.vdest = none) : Quiet r s (s.landLocal r a b) := by
  unfold State.landLocal
  rw [hv]
  dsimp only
  split
  · exact s.dropAcc_quiet r _
  · contradiction
  · contradiction
  · split
    · exact .modSlot rfl
    · exact s.setAcc_quiet r _
  · refine .modSlot ?_
    split <;> rfl

theorem State.useFront_quiet (bank : Nat) : Quiet r s (s.useFront r bank) := .modCore (fun _ => rfl) fun _ => rfl

theorem State.stallStage_quiet (e : StallEnd) : Quiet r s (s.stallStage r e) := by
  unfold State.stallStage
  split
  · exact .modSlot rfl
  · exact Quiet.laterX (.modSlot rfl) _ _
  · exact .modSlot rfl
  · exact .modSlot rfl
  · split
    · exact .modSlot rfl
    · exact .refl
  · exact .refl

theorem State.settleStall_quiet : Quiet r s (s.settleStall r) := by
  unfold State.settleStall
  dsimp only
  split
  · split
    · exact .refl
    · exact s.stallStage_quiet r _
  · exact .refl

end

end Sys2Proof.Machine
end

section
/-! SUPPORT. A scalar access from its issue to its bank: which bytes it may change, and what of the rest (R20, R285 to
R289, R299). -/

namespace Sys2Proof.Machine

/-! ### Bytes outside those of an access -/

/-- No byte outside n bytes from a key on differs. -/
def SameOutside (key n : Nat) (s t : State) : Prop := ∀ a, (a < key ∨ key + n ≤ a) → t.byte a = s.byte a

section

variable {key n : Nat} {s t u : State}

theorem SameOutside.of_mem (h : t.mem = s.mem) : SameOutside key n s t := fun a _ => by rw [State.byte, h, State.byte]

theorem SameOutside.trans (h : SameOutside key n s t) (h' : SameOutside key n t u) : SameOutside key n s u :=
  fun a ha => (h' a ha).trans (h a ha)

theorem SameOutside.mono {k m : Nat} (h : SameOutside key n s t) (hk : k ≤ key) (hm : key + n ≤ k + m) :
    SameOutside k m s t := fun a ha => h a (by omega)

end

@[simp] theorem length_leBytes (n v : Nat) : (leBytes n v).length = n := by
  induction n generalizing v with
  | zero => rfl
  | succ n ih => simp [leBytes, ih]

theorem State.poke_sameOutside (s : State) (key n v : Nat) : SameOutside key n s (s.poke key (leBytes n v)) :=
  fun a ha => memRead_writeAll_ne _ _ _ a (by rwa [length_leBytes])

/-- R20: the key of a byte of an aligned access. -/
theorem Core.winKey_add (x : Core) (ea : Word) (n : Nat) (ha : ea.toNat % 16 = 0) (hn : n < 16)
    (hl : ea.toNat < 4194304) :
    x.winKey (ea + w64 n) = x.winKey ea + n := by
  have hs : (ea + w64 n).toNat = ea.toNat + n := by
    rw [BitVec.toNat_add, w64, BitVec.toNat_ofNat]
    omega
  have entry : eaEntry (ea + w64 n) = eaEntry ea := by
    simp only [eaEntry, bits, BitVec.extractLsb'_toNat, hs, Nat.shiftRight_eq_div_pow]
    omega
  have off : bits (ea + w64 n) 0 18 = bits ea 0 18 + n := by
    simp only [bits, BitVec.extractLsb'_toNat, hs, Nat.shiftRight_eq_div_pow]
    omega
  rw [Core.winKey, entry, off, Core.winKey, bankKey, bankKey]
  omega

/-! ### At the bank -/

/-- Beyond memory and the outside's next delay nothing differs. -/
def OnlyMemory (s t : State) : Prop := t = { s with mem := t.mem, memErr := t.memErr, extra := t.extra }

theorem OnlyMemory.refl (s : State) : OnlyMemory s s := rfl

theorem OnlyMemory.trans {s t u : State} (h : OnlyMemory s t) (h' : OnlyMemory t u) : OnlyMemory s u := by
  unfold OnlyMemory at *
  rw [h', h]

theorem OnlyMemory.frame {s t : State} (r : SlotRef) (h : OnlyMemory s t) : AccessFrame r s t := by
  rw [h]
  exact .of_cores rfl rfl

theorem OnlyMemory.core {s t : State} (h : OnlyMemory s t) (c : Nat) : t.core c = s.core c := by
  rw [h]
  rfl

theorem State.takeExtra_onlyMemory (s : State) : OnlyMemory s s.takeExtra.2 := by
  rw [State.takeExtra_eq]
  rfl

section

variable (s : State) (tgt : Nat) (earlier : List Access) (a : Access)

theorem State.performAt_onlyMemory : OnlyMemory s (s.performAt tgt earlier a).1 := by
  unfold State.performAt
  dsimp only
  split
  · rfl
  · split <;> rfl
  · split <;> rfl

theorem State.performHalf_onlyMemory (high : Bool) : OnlyMemory s (s.performHalf tgt earlier a high).1 := by
  unfold State.performHalf
  dsimp only
  split <;> exact State.performAt_onlyMemory _ _ _ _

theorem State.performNext_onlyMemory : OnlyMemory s (s.performNext tgt earlier a).2.1 := by
  unfold State.performNext
  dsimp only
  split
  · exact s.performAt_onlyMemory _ _ _
  · split
    · exact s.performHalf_onlyMemory _ _ _ _
    · have low := s.performHalf_onlyMemory tgt earlier a false
      split
      · exact low
      · have delay := low.trans (State.takeExtra_onlyMemory _)
        split
        · exact delay.trans (State.performHalf_onlyMemory _ _ _ _ _)
        · exact delay

/-- A load leaves memory as it is. -/
theorem State.performAt_load (hk : a.kind = .load) : (s.performAt tgt earlier a).1 = s := by
  unfold State.performAt
  rw [hk]
  dsimp only
  split <;> rfl

theorem State.performHalf_load (high : Bool) (hk : a.kind = .load) : (s.performHalf tgt earlier a high).1 = s := by
  unfold State.performHalf
  dsimp only
  split <;> exact s.performAt_load _ _ _ hk

theorem State.performAt_sameOutside :
    SameOutside ((s.core tgt).winKey a.ea) a.size s (s.performAt tgt earlier a).1 := by
  unfold State.performAt
  dsimp only
  split
  · exact s.poke_sameOutside _ _ _
  · split <;> exact .of_mem rfl
  · split
    · exact .of_mem rfl
    · exact s.poke_sameOutside _ _ _

theorem State.performHalf_sameOutside (high : Bool) (hs : a.size = 16) (ha : a.ea.toNat % 16 = 0)
    (hl : a.ea.toNat < 4194304) :
    SameOutside ((s.core tgt).winKey a.ea) a.size s (s.performHalf tgt earlier a high).1 := by
  have half (b : Access) (n : Nat) (hn : n ≤ 8) (hb : b.ea = a.ea + w64 n) (h8 : b.size = 8) :
      SameOutside ((s.core tgt).winKey a.ea) a.size s (s.performAt tgt earlier b).1 := by
    have hk := (s.core tgt).winKey_add a.ea n ha (by omega) hl
    have h := s.performAt_sameOutside tgt earlier b
    rw [hb, hk, h8] at h
    exact h.mono (by omega) (by omega)
  unfold State.performHalf
  dsimp only
  split <;> exact half _ (if high then 8 else 0) (by split <;> omega) rfl rfl

end

end Sys2Proof.Machine
end

section
/-! SUPPORT. A scalar access as it issues: what it may change before its end (R285 to R289). -/

namespace Sys2Proof.Machine

section

variable (s : State) (tgt : Nat) (earlier : List Access) (a : Access)

/-- Performing changes no more of an access than how far it has come and its value. -/
theorem State.performHalf_access (high : Bool) : (s.performHalf tgt earlier a high).2 =
    { a with st := (s.performHalf tgt earlier a high).2.st, val := (s.performHalf tgt earlier a high).2.val } := by
  unfold State.performHalf
  dsimp only
  split
  · split <;> rfl
  · rfl

theorem State.performNext_sameOutside (ha : a.ea.toNat % a.size = 0) (hl : a.ea.toNat < 4194304) :
    SameOutside ((s.core tgt).winKey a.ea) a.size s (s.performNext tgt earlier a).2.1 := by
  unfold State.performNext
  dsimp only
  split
  · exact s.performAt_sameOutside _ _ _
  · next h16 =>
    have h16 : a.size = 16 := not_not.1 h16
    rw [h16] at ha
    split
    · exact s.performHalf_sameOutside _ _ _ _ h16 ha hl
    · have low := s.performHalf_sameOutside tgt earlier a false h16 ha hl
      have core := (s.performHalf_onlyMemory tgt earlier a false).trans (State.takeExtra_onlyMemory _)
      have delay : SameOutside ((s.core tgt).winKey a.ea) a.size s (s.performHalf tgt earlier a false).1.takeExtra.2 :=
        low.trans (.of_mem (State.takeExtra_mem _))
      split
      · exact low
      · split
        · have high := State.performHalf_sameOutside (s.performHalf tgt earlier a false).1.takeExtra.2 tgt earlier
            (s.performHalf tgt earlier a false).2 true
          rw [congrArg Access.ea (s.performHalf_access tgt earlier a false),
            congrArg Access.size (s.performHalf_access tgt earlier a false), core.core] at high
          exact delay.trans (high h16 ha hl)
        · exact delay

theorem State.performNext_load (hk : a.kind = .load) : SameMemory s (s.performNext tgt earlier a).2.1 := by
  have half (b : Access) (high : Bool) (hb : b.kind = .load) : (s.performHalf tgt earlier b high).1 = s :=
    s.performHalf_load _ _ _ _ hb
  have delay : SameMemory s (s.performHalf tgt earlier a false).1.takeExtra.2 := by
    rw [half a false hk, State.takeExtra_eq]
    exact ⟨rfl, rfl⟩
  unfold State.performNext
  dsimp only
  split
  · rw [s.performAt_load _ _ _ hk]
    exact ⟨rfl, rfl⟩
  · split
    · rw [half a true hk]
      exact ⟨rfl, rfl⟩
    · split
      · rw [half a false hk]
        exact ⟨rfl, rfl⟩
      · split
        · rw [State.performHalf_load _ _ _ _ _ (by rw [State.performHalf_access]; exact hk)]
          exact delay
        · exact delay

end

/-! ### From the core to the bank -/

/-- R274, R279: the entry serves the access when it comes to its bank. -/
def State.Admits (s : State) (c : Nat) (a : Access) : Prop :=
  admittedRefuses ((s.core c).bm (eaEntry a.ea)) (a.kind != .load) = none

section

variable {s : State} {r : SlotRef} {a : Access}

theorem AccessFrame.admits {t : State} (h : AccessFrame r s t) (ha : s.Admits r.core a) : t.Admits r.core a := by
  obtain ⟨-, hb, -, -⟩ := h
  unfold State.Admits Core.bm at *
  rwa [hb]

theorem AccessFrame.winKey {t : State} (h : AccessFrame r s t) (ea : Word) :
    (t.core r.core).winKey ea = (s.core r.core).winKey ea := by
  obtain ⟨-, hb, -, -⟩ := h
  unfold Core.winKey Core.bm
  rw [hb]

/-- The earlier accesses of a slot, as one of its accesses finds them at the bank. -/
def State.earlier (s : State) (r : SlotRef) (a : Access) : List Access :=
  (s.slot r).accs.filter fun e => decide (e.id < a.id)

theorem State.performLocal_eq (ha : s.Admits r.core a) : s.performLocal r a =
    let p := s.performNext r.core (s.earlier r a) a
    if p.1 = 0 then p.2.1.landLocal r a p.2.2
    else (p.2.1.modSlot r fun sl => sl.setAcc p.2.2).work p.1 (.otherHalf r.core r.slot a.id) := by
  unfold State.performLocal
  rw [ha]
  dsimp only [State.earlier]
  split
  · next h => rw [h]; rfl
  · next e u b h0 h =>
    rw [h]
    exact (if_neg h0).symm

theorem State.performLocal_quiet (ha : s.Admits r.core a) (hv : a.vdest = none) :
    Quiet r (s.performNext r.core (s.earlier r a) a).2.1 (s.performLocal r a) := by
  rw [State.performLocal_eq ha]
  dsimp only
  split
  · exact State.landLocal_quiet _ r a _ hv
  · exact (State.setAcc_quiet _ r _).trans (.of_cores rfl rfl ⟨rfl, rfl⟩)

theorem State.performLocal_frame (ha : s.Admits r.core a) (hv : a.vdest = none) :
    AccessFrame r s (s.performLocal r a) :=
  (OnlyMemory.frame r (s.performNext_onlyMemory _ _ _)).trans (State.performLocal_quiet ha hv).2

theorem State.launchAcc_frame (ha : a.glob = false → s.Admits r.core a) (hv : a.vdest = none) :
    AccessFrame r s (s.launchAcc r a) := by
  unfold State.launchAcc
  dsimp only
  split
  · exact (s.routeAcc_quiet r _).2
  · next hg => exact State.performLocal_frame (ha (by simpa using hg)) hv

theorem State.launchAcc_sameMemory (ha : a.glob = false → s.Admits r.core a ∧ a.kind = .load) (hv : a.vdest = none) :
    SameMemory s (s.launchAcc r a) := by
  unfold State.launchAcc
  dsimp only
  split
  · exact (s.routeAcc_quiet r _).1
  · next hg =>
    obtain ⟨had, hk⟩ := ha (by simpa using hg)
    exact (s.performNext_load r.core (s.earlier r { a with needs := [] }) { a with needs := [] } hk).trans
      (State.performLocal_quiet (a := { a with needs := [] }) had hv).1

theorem State.launchAcc_sameOutside (hg : a.glob = false) (ha : s.Admits r.core a) (hv : a.vdest = none)
    (hal : a.ea.toNat % a.size = 0) (hl : a.ea.toNat < 4194304) :
    SameOutside ((s.core r.core).winKey a.ea) a.size s (s.launchAcc r a) := by
  unfold State.launchAcc
  dsimp only
  rw [if_neg (by simp [hg])]
  exact (s.performNext_sameOutside r.core (s.earlier r { a with needs := [] }) { a with needs := [] } hal hl).trans
    (.of_mem (State.performLocal_quiet (a := { a with needs := [] }) ha hv).memory.1)

end

/-! ### The end of the word -/

theorem State.passed_core_bmap (s : State) : (s.passed.core s.cur.core).bmap = (s.core s.cur.core).bmap := by
  rw [State.passed, State.core_setSlot, Core.setSlot_bmap]

theorem AccessFrame.passed {s t : State} (h : AccessFrame s.cur s t) : AccessFrame s.cur s.passed t.passed := by
  obtain ⟨hq, hb, hc, hr⟩ := h
  have me : t.me = { s.me with
      accs := t.me.accs, flights := t.me.flights, due := t.me.due, gate := t.me.gate, nextId := t.me.nextId } := by
    unfold State.me
    rw [hc]
    exact hr
  have hpt : t.passed.slot s.cur = { t.me.advance with gate := .fromTurn (t.me.turn + 1) } := by
    rw [← hc]
    exact State.passed_me t
  have hps : s.passed.slot s.cur = { s.me.advance with gate := .fromTurn (s.me.turn + 1) } := State.passed_me s
  obtain ⟨ap, a1, a2⟩ := Slot.advance_congr t.me s.me (by rw [me]) (by rw [me]) (by rw [me]) (by rw [me])
  refine ⟨fun q hq' => ?_, ?_, hc, ?_⟩
  · rw [State.passed, State.slot_setSlot_ne _ _ _ _ (by rwa [hc]), State.passed, State.slot_setSlot_ne _ _ _ _ hq',
      hq q hq']
  · rw [State.passed_core_bmap, ← hb, ← hc, State.passed_core_bmap]
  · rw [hpt, hps, Slot.advance_eq t.me, Slot.advance_eq s.me, ap, a1, a2, me]

theorem Quiet.passed {s t : State} (h : Quiet s.cur s t) : Quiet s.cur s.passed t.passed := ⟨h.1, h.2.passed⟩

/-- R289: the stall that an ordered access starts. -/
def State.stallIf (s : State) (r : SlotRef) : Option Stall → State
  | some st => (s.modMe fun sl => { sl with gate := .stalled st }).settleStall r
  | none => s

theorem State.stallIf_quiet (s : State) (st : Option Stall) : Quiet s.cur s (s.stallIf s.cur st) := by
  cases st with
  | none => exact .refl
  | some st => exact (Quiet.modSlot rfl).trans (State.settleStall_quiet _ _)

/-! ### The issue -/

/-- R289: a new access with the earlier ones it waits for. -/
def State.heldAccess (s : State) (a : Access) : Access := { a with needs := s.me.holdFor a (s.ownName s.cur.core) }

/-- The access stands among those of its slot. -/
def State.accessPlaced (s : State) (a : Access) : State :=
  s.modMe fun sl => { sl with accs := sl.accs ++ [s.heldAccess a], nextId := sl.nextId + 1 }

/-- R289: it goes on at once where it waits for nothing. -/
def State.accessLaunched (s : State) (a : Access) : State :=
  let b := s.heldAccess a
  let u := s.accessPlaced a
  if b.needs.isEmpty then u.launchAcc s.cur b
  else if b.glob && u.resolve s.cur.core b.name == .miss then u.startWalk s.cur.core b.name
  else u

/-- R266: a local access that goes on uses its bank's front port. -/
def State.accessFronted (s : State) (a : Access) : State :=
  let u := s.accessLaunched a
  if a.glob || !(s.heldAccess a).needs.isEmpty then u else u.useFront s.cur (bmIndex (u.myCore.bm (eaEntry a.ea)))

theorem State.issueAccess_eq (s : State) (a : Access) :
    s.issueAccess a = (s.accessFronted a).passed.stallIf s.cur (stallOf (s.heldAccess a)) := by
  unfold State.issueAccess State.stallIf
  rfl

section

variable {s : State} {a : Access}

theorem State.accessPlaced_quiet : Quiet s.cur s (s.accessPlaced a) := by
  unfold State.accessPlaced State.modMe
  exact .modSlot rfl

theorem State.accessLaunched_frame (hv : a.vdest = none) (ha : a.glob = false → s.Admits s.cur.core a) :
    AccessFrame s.cur s (s.accessLaunched a) := by
  have placed : Quiet s.cur s (s.accessPlaced a) := State.accessPlaced_quiet
  unfold State.accessLaunched
  dsimp only
  split
  · exact placed.frame.trans (State.launchAcc_frame (fun hg => placed.frame.admits (a := s.heldAccess a) (ha hg)) hv)
  · split
    · exact (placed.trans (State.startWalk_quiet _ s.cur _)).2
    · exact placed.2

theorem State.accessFronted_quiet :
    Quiet s.cur (s.accessLaunched a) (s.accessFronted a) := by
  unfold State.accessFronted
  dsimp only
  split
  · exact .refl
  · exact State.useFront_quiet _ _ _

/-- What follows the launch touches no memory and no more of the slot. -/
theorem State.issueAccess_quiet (hc : (s.accessLaunched a).cur = s.cur) :
    Quiet s.cur (s.accessLaunched a).passed (s.issueAccess a) := by
  have front := State.accessFronted_quiet (s := s) (a := a)
  rw [State.issueAccess_eq]
  have stall := (s.accessFronted a).passed.stallIf_quiet (stallOf (s.heldAccess a))
  obtain ⟨-, -, -, hc', -⟩ := front
  have cur : (s.accessFronted a).passed.cur = s.cur := hc'.trans hc
  rw [cur] at stall
  have front := State.accessFronted_quiet (s := s) (a := a)
  rw [← hc] at front
  have pass := front.passed
  rw [hc] at pass
  exact pass.trans stall

theorem State.issueAccess_frame (hv : a.vdest = none) (ha : a.glob = false → s.Admits s.cur.core a) :
    AccessFrame s.cur s.passed (s.issueAccess a) := by
  have launched := State.accessLaunched_frame hv ha
  exact launched.passed.trans (State.issueAccess_quiet launched.cur).frame

end

end Sys2Proof.Machine
end

section
/-! SUPPORT. LD, ST and AMO that meet no fault on their issue turn issue an access (R264, R285). -/

namespace Sys2Proof.Machine

/-- R285: the access of an LD, ST or AMO. -/
def State.newAccess (s : State) (o : FmtM) (k : AccKind) (op : BitVec 4) (sx : Bool) : Access :=
  let sl := s.me
  let ea := memAddr sl o (k != .amo)
  let w := windowOf (b2n s.myCore.boundCls) k o.win.toNat s.now sl.turn
  { id := sl.nextId, kind := k, ea := ea, glob := !isLocal ea,
    name := if isLocal ea then s.ownName s.cur.core else eaName ea,
    size := sizeOf o.sz, sx := sx, atTurn := 0,
    data := if k = .amo then (sl.gr o.rb).setWidth 128 else sl.gr (o.rt + 1) ++ sl.gr o.rt,
    cmp := sl.gr o.rt, op := op, rt := o.rt, vdest := none, ord := o.ord, scp := o.scp, pc := sl.pc,
    cycle := s.now, turn := sl.turn, minTurn := w.1, minCycle := w.2, arrive := 0,
    st := .held, val := 0, ended := k == .store, needs := [] }

/-- R285: an access that meets none of the faults of its issue turn issues. -/
theorem accessWord_issues {s : State} {h : Hdr} {o : FmtM} {k : AccKind} {op : BitVec 4} {sx : Bool}
    (hg : s.me.guard h = true)
    (hf : s.accessFault (memAddr s.me o (k != .amo)) (sizeOf o.sz) (k != .load) (o.win != 0) = none) :
    accessWord h o s k op sx = .next (s.issueAccess (s.newAccess o k op sx)) := by
  rw [accessWord, word_of_guard _ hg]
  dsimp only
  rw [hf]
  rfl

/-! ### The checks of the issue turn -/

/-- R264 to R268, R279: nothing stands in the way of a local access of n bytes. -/
def State.LocalReady (s : State) (n : Nat) (ea : Word) (write : Bool) : Prop :=
  ea.toNat % n = 0 ∧ ea.toNat < 4194304 ∧
    bmV (s.myCore.bm (eaEntry ea)) = true ∧ bmPend (s.myCore.bm (eaEntry ea)) = false ∧
    (write = true → bmWp (s.myCore.bm (eaEntry ea)) = false) ∧
    (∀ p ∈ s.myCore.frontBusy, p.1 = bmIndex (s.myCore.bm (eaEntry ea)) → p.2 < 8) ∧
    ∀ b ∈ s.me.beats, b.1 ≠ s.me.turn

theorem isLocal_iff (ea : Word) : isLocal ea = true ↔ ea.toNat < 4194304 := by simp [isLocal]

theorem isGlobal_iff (ea : Word) : isGlobal ea = true ↔ 2 ^ 40 ≤ ea.toNat ∧ ea.toNat < 2 ^ 40 + 2 ^ 38 := by
  have hlt : ea.toNat < 2 ^ 64 := ea.isLt
  simp only [isGlobal, bits, BitVec.extractLsb'_toNat, Nat.shiftRight_eq_div_pow, BitVec.getLsbD,
    Nat.testBit_eq_decide_div_mod_eq, Bool.and_eq_true, beq_iff_eq, decide_eq_true_eq]
  omega

section

variable {s : State} {n : Nat} {ea : Word} {write : Bool}

theorem State.frontConflict_none {r : SlotRef} {bank : Nat} (hb : ∀ b ∈ (s.slot r).beats, b.1 ≠ (s.slot r).turn)
    (hp : ∀ p ∈ (s.core r.core).frontBusy, p.1 = bank → p.2 < 8) : s.frontConflict r bank true = none := by
  have beat : (s.slot r).beats.find? (fun b => b.1 == (s.slot r).turn && b.2.1 == bank) = none :=
    List.find?_eq_none.2 fun b hb' => by simp [hb b hb']
  have port : (s.core r.core).frontBusy.find? (fun p => p.1 == bank && decide (8 ≤ p.2)) = none :=
    List.find?_eq_none.2 fun p hp' => by simpa using hp p hp'
  unfold State.frontConflict
  dsimp only
  rw [if_pos rfl, beat, port]
  rfl

theorem State.accessFault_local (windowed : Bool) (h : s.LocalReady n ea write) :
    s.accessFault ea n write windowed = none := by
  obtain ⟨hal, hl, hv, hp, hw, hport, hbeat⟩ := h
  have serves : entryRefuses (s.myCore.bm (eaEntry ea)) write = none := by
    cases write
    · simp [entryRefuses, hv, hp]
    · simp [entryRefuses, hv, hp, hw rfl]
  have free : s.frontConflict s.cur (bmIndex (s.myCore.bm (eaEntry ea))) true = none :=
    State.frontConflict_none hbeat hport
  unfold State.accessFault
  rw [if_neg (not_not.2 hal), if_pos ((isLocal_iff ea).2 hl)]
  dsimp only
  rw [serves, free]
  rfl

theorem State.accessFault_global (hal : ea.toNat % n = 0) (hlo : 2 ^ 40 ≤ ea.toNat) (hhi : ea.toNat < 2 ^ 40 + 2 ^ 38)
    (hn : (s.resolve s.cur.core (eaName ea)).fault = none) : s.accessFault ea n write true = none := by
  have far : ¬isLocal ea = true := by rw [isLocal_iff]; omega
  unfold State.accessFault State.nameFault
  rw [if_neg (not_not.2 hal), if_neg far, if_pos ((isGlobal_iff ea).2 ⟨hlo, hhi⟩), hn]
  rfl

theorem State.LocalReady.admits {c : Nat} {a : Access} (h : s.LocalReady n ea write) (hc : c = s.cur.core)
    (he : a.ea = ea) (hk : (a.kind != .load) = write) : s.Admits c a := by
  obtain ⟨-, -, hv, -, hw, -, -⟩ := h
  have hv' : bmV ((s.core s.cur.core).bm (eaEntry ea)) = true := hv
  unfold State.Admits admittedRefuses
  rw [hc, he, hk, hv']
  cases write
  · rfl
  · have hw' : bmWp ((s.core s.cur.core).bm (eaEntry ea)) = false := hw rfl
    rw [hw']
    rfl

end

/-! ### What an issue changes -/

/-- What the frame of an access says of the core and the slot whose turn it is. -/
theorem AccessFrame.issued {s t : State} (h : AccessFrame s.cur s.passed t) :
    (∀ q, q ≠ s.cur → t.slot q = s.slot q) ∧ t.myCore.bmap = s.myCore.bmap ∧
      t.me = { s.passed.me with
        accs := t.me.accs, flights := t.me.flights, due := t.me.due, gate := t.me.gate, nextId := t.me.nextId } := by
  obtain ⟨hq, hb, hc, hr⟩ := h
  have cur : t.cur = s.cur := hc
  refine ⟨fun q h => (hq q h).trans (State.slot_setSlot_ne s s.cur q _ h), ?_, ?_⟩
  · rw [State.myCore, cur, hb, State.passed_core_bmap]
    rfl
  · unfold State.me
    rw [cur]
    exact hr

section

variable {s : State} {a : Access}

theorem State.issueAccess_sameMemory (hv : a.vdest = none)
    (ha : a.glob = false → s.Admits s.cur.core a ∧ a.kind = .load) : SameMemory s (s.issueAccess a) := by
  have placed : Quiet s.cur s (s.accessPlaced a) := State.accessPlaced_quiet
  have launched : SameMemory s (s.accessLaunched a) := by
    unfold State.accessLaunched
    dsimp only
    split
    · refine placed.memory.trans (State.launchAcc_sameMemory (fun hg => ?_) hv)
      obtain ⟨admits, load⟩ := ha hg
      exact ⟨placed.frame.admits (a := s.heldAccess a) admits, load⟩
    · split
      · exact placed.memory.trans (State.startWalk_quiet _ s.cur _).memory
      · exact placed.1
  have cur := (State.accessLaunched_frame hv fun hg => (ha hg).1).cur
  exact launched.trans (State.issueAccess_quiet cur).1

theorem State.issueAccess_sameOutside (hv : a.vdest = none) (hg : a.glob = false) (ha : s.Admits s.cur.core a)
    (hal : a.ea.toNat % a.size = 0) (hl : a.ea.toNat < 4194304) :
    SameOutside (s.myCore.winKey a.ea) a.size s (s.issueAccess a) := by
  have placed : Quiet s.cur s (s.accessPlaced a) := State.accessPlaced_quiet
  have cur := (State.accessLaunched_frame hv fun _ => ha).cur
  refine SameOutside.trans ?_ (.of_mem (State.issueAccess_quiet cur).memory.1)
  change SameOutside _ _ _ (s.accessLaunched a)
  unfold State.accessLaunched
  dsimp only
  split
  · have launch := State.launchAcc_sameOutside (r := s.cur) (a := s.heldAccess a) hg
      (placed.frame.admits (a := s.heldAccess a) ha) hv hal hl
    rw [placed.frame.winKey] at launch
    exact (SameOutside.of_mem placed.memory.1).trans launch
  · split
    · exact .of_mem (placed.trans (State.startWalk_quiet _ s.cur _)).memory.1
    · exact .of_mem placed.memory.1

end

end Sys2Proof.Machine
end

section
/-! SUPPORT. The bytes of a number in memory, and what an access performs at its bank (R20, R288, R299). -/

namespace Sys2Proof.Machine

/-! ### Bytes of a number -/

theorem getElem_leBytes {n v i : Nat} (h : i < (leBytes n v).length) :
    (leBytes n v)[i] = BitVec.ofNat 8 (v / 256 ^ i) := by
  induction n generalizing v i with
  | zero => simp [leBytes] at h
  | succ n ih =>
    cases i with
    | zero => simp [leBytes]
    | succ i => simp [leBytes, ih, Nat.div_div_eq_div_mul, Nat.pow_succ']

theorem leBytes_add (m n v : Nat) : leBytes (m + n) v = leBytes m v ++ leBytes n (v / 256 ^ m) := by
  induction m generalizing v with
  | zero => simp [leBytes]
  | succ m ih =>
    rw [Nat.succ_add, leBytes, leBytes, ih, List.cons_append, Nat.div_div_eq_div_mul, Nat.pow_succ']

theorem leNat_append (x y : List Byte) : leNat (x ++ y) = leNat x + 256 ^ x.length * leNat y := by
  induction x with
  | nil => simp [leNat]
  | cons b x ih =>
    rw [List.cons_append, leNat, leNat, ih, List.length_cons, Nat.pow_succ']
    ring

theorem leNat_lt (x : List Byte) : leNat x < 256 ^ x.length := by
  induction x with
  | nil => simp [leNat]
  | cons b x ih =>
    have hb : b.toNat < 256 := b.isLt
    rw [leNat, List.length_cons, Nat.pow_succ']
    omega

theorem memWriteAll_append (m : List Host.Cell) (a : Nat) (x y : List Byte) :
    memWriteAll m a (x ++ y) = memWriteAll (memWriteAll m a x) (a + x.length) y := by
  induction x generalizing m a with
  | nil => rfl
  | cons b x ih => rw [List.cons_append, memWriteAll, ih, memWriteAll, List.length_cons, Nat.add_assoc, Nat.add_comm 1]

/-- R20: a number written is read byte by byte, least significant first. -/
theorem memRead_leBytes {m : List Host.Cell} (w : Memory.wf m) (key n v a : Nat) :
    memRead (memWriteAll m key (leBytes n v)) a =
      if key ≤ a ∧ a < key + n then BitVec.ofNat 8 (v / 256 ^ (a - key)) else memRead m a := by
  split
  · next h =>
    have hi : a - key < (leBytes n v).length := by rw [length_leBytes]; omega
    have ha : key + (a - key) = a := by omega
    rw [← getElem_leBytes hi, ← memRead_writeAll key _ w _ hi, ha]
  · exact memRead_writeAll_ne _ _ _ _ (by rw [length_leBytes]; omega)

theorem State.length_bytes (s : State) (key n : Nat) : (s.bytes key n).length = n := by simp [State.bytes]

theorem State.bytes_add (s : State) (key m n : Nat) : s.bytes key (m + n) = s.bytes key m ++ s.bytes (key + m) n := by
  simp [State.bytes, List.range_add, Nat.add_assoc]

theorem State.hasErr_part {s : State} {key n k m : Nat} (h : s.hasErr key n = false) (hk : key ≤ k)
    (hm : k + m ≤ key + n) : s.hasErr k m = false := by
  simp only [State.hasErr, List.any_eq_false, Bool.and_eq_true, decide_eq_true_eq, not_and] at h ⊢
  intro e he h1 h2
  exact h e he (by omega) (by omega)

theorem toNat_ofNat_bytes (s : State) {key n : Nat} (hn : n ≤ 16) :
    (BitVec.ofNat 128 (leNat (s.bytes key n))).toNat = leNat (s.bytes key n) := by
  have h := leNat_lt (s.bytes key n)
  rw [State.length_bytes] at h
  have h16 : 256 ^ n ≤ 256 ^ 16 := Nat.pow_le_pow_right (by omega) hn
  rw [BitVec.toNat_ofNat, Nat.mod_eq_of_lt (h.trans_le (h16.trans (by norm_num)))]

/-! ### Performing -/

section

variable {s : State} {tgt : Nat} {a : Access} (earlier : List Access)

theorem State.performAt_store (hk : a.kind = .store) : s.performAt tgt earlier a =
    (s.poke ((s.core tgt).winKey a.ea) (leBytes a.size a.data.toNat), { a with st := .performed }) := by
  unfold State.performAt
  rw [hk]

theorem State.performAt_load_clean (hk : a.kind = .load)
    (hc : s.hasErr ((s.core tgt).winKey a.ea) a.size = false) : s.performAt tgt [] a =
      (s, { a with
        st := .performed, val := BitVec.ofNat 128 (leNat (s.bytes ((s.core tgt).winKey a.ea) a.size)) }) := by
  unfold State.performAt
  rw [hk]
  dsimp only
  rw [hc]
  rfl

theorem State.performAt_amo_clean (hk : a.kind = .amo)
    (hc : s.hasErr ((s.core tgt).winKey a.ea) a.size = false) : s.performAt tgt earlier a =
      let m := leNat (s.bytes ((s.core tgt).winKey a.ea) a.size)
      let n := amoValue a.op a.size m (a.data.toNat % 2 ^ (8 * a.size)) (a.cmp.toNat % 2 ^ (8 * a.size))
      (s.poke ((s.core tgt).winKey a.ea) (leBytes a.size n),
        { a with st := .performed, val := BitVec.ofNat 128 m }) := by
  unfold State.performAt
  rw [hk]
  dsimp only
  rw [hc]
  rfl

theorem State.performNext_small (hs : a.size ≠ 16) : s.performNext tgt earlier a = (0, s.performAt tgt earlier a) := by
  unfold State.performNext
  rw [if_pos hs]

/-- R299: a `.q` access that the outside does not delay performs both halves at once. -/
theorem State.performNext_quad {u : State} {b : Access} (hs : a.size = 16) (ht : a.st ≠ .half)
    (hlow : s.performHalf tgt earlier a false = (u, b)) (hb : b.st = .half) (hx : u.extra = []) :
    s.performNext tgt earlier a = (0, u.performHalf tgt earlier b true) := by
  have now : u.takeExtra = (0, u) := by rw [State.takeExtra, hx]
  unfold State.performNext
  rw [if_neg (not_not.2 hs), if_neg ht, hlow]
  dsimp only
  rw [if_neg (not_not.2 hb), now]
  rfl

variable (ha : a.ea.toNat % 16 = 0) (hl : a.ea.toNat < 4194304)

include ha hl

/-- R299: the low half of a `.q` store. -/
theorem State.performHalf_store_low (hk : a.kind = .store) : s.performHalf tgt earlier a false =
    (s.poke ((s.core tgt).winKey a.ea) (leBytes 8 a.data.toNat), { a with st := .half }) := by
  have key := (s.core tgt).winKey_add a.ea 0 ha (by omega) hl
  unfold State.performHalf
  simp only [Bool.false_eq_true, if_false]
  rw [State.performAt_store earlier (by exact hk)]
  dsimp only
  rw [key, Nat.mul_zero, BitVec.ushiftRight_zero, Nat.add_zero]

/-- R299: the high half of a `.q` store. -/
theorem State.performHalf_store_high (hk : a.kind = .store) : s.performHalf tgt earlier a true =
    (s.poke ((s.core tgt).winKey a.ea + 8) (leBytes 8 (a.data >>> 64).toNat),
      { a with st := .performed, val := a.val ||| (a.val <<< 64) }) := by
  have key := (s.core tgt).winKey_add a.ea 8 ha (by omega) hl
  unfold State.performHalf
  simp only [if_true]
  rw [State.performAt_store earlier (by exact hk)]
  dsimp only
  rw [key]

/-- R299: the low half of a `.q` load. -/
theorem State.performHalf_load_low (hk : a.kind = .load)
    (hc : s.hasErr ((s.core tgt).winKey a.ea) 16 = false) : s.performHalf tgt [] a false =
      (s, { a with
        st := .half, val := BitVec.ofNat 128 (leNat (s.bytes ((s.core tgt).winKey a.ea) 8)) }) := by
  have key := (s.core tgt).winKey_add a.ea 0 ha (by omega) hl
  have clean : s.hasErr ((s.core tgt).winKey (a.ea + w64 0)) 8 = false := by
    rw [key]
    exact State.hasErr_part hc (by omega) (by omega)
  unfold State.performHalf
  simp only [Bool.false_eq_true, if_false]
  rw [State.performAt_load_clean (a := { a with ea := a.ea + w64 0, size := 8, data := a.data >>> (8 * 0) }) hk clean]
  dsimp only
  rw [key, Nat.add_zero]

/-- R299: the high half of a `.q` load. -/
theorem State.performHalf_load_high (hk : a.kind = .load)
    (hc : s.hasErr ((s.core tgt).winKey a.ea) 16 = false) : s.performHalf tgt [] a true =
      (s, { a with
        st := .performed
        val := a.val ||| (BitVec.ofNat 128 (leNat (s.bytes ((s.core tgt).winKey a.ea + 8) 8)) <<< 64) }) := by
  have key := (s.core tgt).winKey_add a.ea 8 ha (by omega) hl
  have clean : s.hasErr ((s.core tgt).winKey (a.ea + w64 8)) 8 = false := by
    rw [key]
    exact State.hasErr_part hc (by omega) (by omega)
  unfold State.performHalf
  simp only [if_true]
  rw [State.performAt_load_clean (a := { a with ea := a.ea + w64 8, size := 8, data := a.data >>> (8 * 8) }) hk clean]
  dsimp only
  rw [key]

/-- R20: a `.q` store writes its sixteen bytes. -/
theorem State.performNext_store_quad (hs : a.size = 16) (ht : a.st ≠ .half) (hk : a.kind = .store) (hx : s.extra = []) :
    ∃ e b, s.performNext tgt earlier a =
      (0, { s with
        mem := memWriteAll s.mem ((s.core tgt).winKey a.ea) (leBytes a.size a.data.toNat), memErr := e }, b) := by
  have halves : (a.data >>> 64).toNat = a.data.toNat / 256 ^ 8 := by
    rw [BitVec.toNat_ushiftRight, Nat.shiftRight_eq_div_pow]
    norm_num
  have mem : memWriteAll s.mem ((s.core tgt).winKey a.ea) (leBytes a.size a.data.toNat) =
      memWriteAll (memWriteAll s.mem ((s.core tgt).winKey a.ea) (leBytes 8 a.data.toNat))
        ((s.core tgt).winKey a.ea + 8) (leBytes 8 (a.data >>> 64).toNat) := by
    rw [hs, halves, show (16 : Nat) = 8 + 8 from rfl, leBytes_add, memWriteAll_append, length_leBytes]
  rw [State.performNext_quad earlier hs ht (State.performHalf_store_low earlier ha hl hk) rfl hx, mem,
    State.performHalf_store_high (a := { a with st := .half }) earlier ha hl hk]
  exact ⟨_, _, rfl⟩

/-- R299: a `.q` load takes its sixteen bytes. -/
theorem State.performNext_load_quad (hs : a.size = 16) (ht : a.st ≠ .half) (hk : a.kind = .load) (hx : s.extra = [])
    (hc : s.hasErr ((s.core tgt).winKey a.ea) 16 = false) : ∃ v, s.performNext tgt [] a =
      (0, s, { a with st := .performed, val := v }) ∧
        v.toNat = leNat (s.bytes ((s.core tgt).winKey a.ea) a.size) := by
  rw [State.performNext_quad [] hs ht (State.performHalf_load_low ha hl hk hc) rfl hx,
    State.performHalf_load_high (a := { a with
      st := .half, val := BitVec.ofNat 128 (leNat (s.bytes ((s.core tgt).winKey a.ea) 8)) }) ha hl hk hc]
  refine ⟨_, rfl, ?_⟩
  dsimp only
  generalize (s.core tgt).winKey a.ea = key
  have low := leNat_lt (s.bytes key 8)
  have high := leNat_lt (s.bytes (key + 8) 8)
  rw [State.length_bytes] at low high
  rw [hs, show (16 : Nat) = 8 + 8 from rfl, State.bytes_add, leNat_append, State.length_bytes, BitVec.toNat_or,
    BitVec.toNat_shiftLeft, toNat_ofNat_bytes s (by omega), toNat_ofNat_bytes s (by omega), Nat.shiftLeft_eq]
  generalize leNat (s.bytes key 8) = x at low ⊢
  generalize leNat (s.bytes (key + 8) 8) = y at high ⊢
  have hy : y * 2 ^ 64 % 2 ^ 128 = 2 ^ 64 * y := by rw [Nat.mod_eq_of_lt (by omega), Nat.mul_comm]
  rw [hy, Nat.or_comm, ← Nat.two_pow_add_eq_or_of_lt (by omega)]
  omega

end

end Sys2Proof.Machine
end

section
/-! SUPPORT. An access that is alone in its slot performs at once (R20, R288, R289), or leaves for its target (R264). -/

namespace Sys2Proof.Machine

section

variable {s : State} {a : Access}

/-- R289: an access that is alone waits for none. -/
theorem State.heldAccess_alone (h : s.me.accs = []) : s.heldAccess a = { a with needs := [] } := by
  have needs : s.me.holdFor a (s.ownName s.cur.core) = [] := by
    unfold Slot.holdFor Slot.sameByte Slot.unperformed
    rw [h]
    cases a.kind <;> simp
  rw [State.heldAccess, needs]

theorem State.accessPlaced_alone (h : s.me.accs = []) : s.accessPlaced a =
    s.setSlot s.cur { s.me with accs := [{ a with needs := [] }], nextId := s.me.nextId + 1 } := by
  rw [State.accessPlaced, State.heldAccess_alone h, State.modMe_eq, h]
  rfl

theorem State.accessLaunched_alone (h : s.me.accs = []) :
    s.accessLaunched a = (s.accessPlaced a).launchAcc s.cur { a with needs := [] } := by
  rw [State.accessLaunched, State.heldAccess_alone h]
  rfl

theorem stallOf_plain (h : a.ord = 0) : stallOf { a with needs := [] } = none := by simp [stallOf, h]

/-! ### A local access -/

/-- The state with other bytes. -/
def State.withMemory (s : State) (m : List Host.Cell) (e : List Nat) : State := { s with mem := m, memErr := e }

theorem State.withMemory_onlyCore (s : State) (c : Nat) (k f g : Core → Core) (m : List Host.Cell) (e : List Nat) :
    OnlyCore c s (((((s.modCore c k).withMemory m e).modCore c f).modCore c g).withMemory s.mem s.memErr) := by
  simp [OnlyCore, State.withMemory, State.modCore, State.setCore, State.core]

theorem State.useFront_slot (s : State) (r q : SlotRef) (bank : Nat) : (s.useFront r bank).slot q = s.slot q := by
  obtain ⟨-, hq, -, -, -⟩ := s.useFront_quiet r bank
  by_cases h : q = r
  · rw [h]
    simp [State.useFront, State.slot, Core.slot]
  · exact hq q h

/-- Where a plain local access, alone in its slot, performs at once, the rest of its word passes. -/
theorem State.issueAccess_local {u : State} (h : s.me.accs = []) (hg : a.glob = false) (ho : a.ord = 0)
    (hp : (s.accessPlaced a).performLocal s.cur { a with needs := [] } = u) :
    ∃ bank, s.issueAccess a = (u.useFront s.cur bank).passed := by
  have launched : s.accessLaunched a = u := by
    rw [State.accessLaunched_alone h, State.launchAcc]
    dsimp only
    rw [if_neg (by simp [hg]), hp]
  refine ⟨bmIndex (u.myCore.bm (eaEntry a.ea)), ?_⟩
  rw [State.issueAccess_eq, State.heldAccess_alone h, stallOf_plain ho, State.stallIf, State.accessFronted,
    State.heldAccess_alone h, hg, launched]
  rfl

/-- What such an access leaves of the core and the slot. -/
theorem State.fronted_passed {l : List Access} (m : List Host.Cell) (e : List Nat) (bank : Nat) :
    let y := { s.me with accs := l, nextId := s.me.nextId + 1 }
    let t := (((s.setSlot s.cur y).withMemory m e).useFront s.cur bank).passed
    OnlyCore s.cur.core s (t.withMemory s.mem s.memErr) ∧
      t.me = { s.passed.me with accs := l, nextId := s.me.nextId + 1 } ∧ t.mem = m := by
  intro y t
  have me : (((s.setSlot s.cur y).withMemory m e).useFront s.cur bank).me = y :=
    (State.useFront_slot _ _ _ _).trans (State.slot_setSlot s s.cur y)
  obtain ⟨ap, a1, a2⟩ := Slot.advance_congr y s.me rfl rfl rfl rfl
  refine ⟨State.withMemory_onlyCore s s.cur.core _ _ _ m e, ?_, rfl⟩
  rw [State.passed_me, me, State.passed_me, Slot.advance_eq y, Slot.advance_eq s.me, ap, a1, a2]

/-! ### What each kind performs -/

variable (h : s.me.accs = [])

include h

theorem State.accessPlaced_earlier : (s.accessPlaced a).earlier s.cur { a with needs := [] } = [] := by
  rw [State.earlier, State.accessPlaced_alone h, State.slot_setSlot]
  simp

theorem State.accessPlaced_performLocal {u : State} {b : Access} (ha : s.Admits s.cur.core a)
    (hn : (s.accessPlaced a).performNext s.cur.core [] { a with needs := [] } = (0, u, b)) :
    (s.accessPlaced a).performLocal s.cur { a with needs := [] } = u.landLocal s.cur { a with needs := [] } b := by
  have placed : Quiet s.cur s (s.accessPlaced a) := State.accessPlaced_quiet
  rw [State.performLocal_eq (a := { a with needs := [] }) (placed.frame.admits ha), State.accessPlaced_earlier h, hn]
  rfl

/-- A store is over when it has performed. -/
theorem State.accessPlaced_landStore (hk : a.kind = .store) (m : List Host.Cell) (e : List Nat) (b : Access) :
    ((s.accessPlaced a).withMemory m e).landLocal s.cur { a with needs := [] } b =
      (s.setSlot s.cur { s.me with accs := [], nextId := s.me.nextId + 1 }).withMemory m e := by
  have land : ((s.accessPlaced a).withMemory m e).landLocal s.cur { a with needs := [] } b =
      ((s.accessPlaced a).modSlot s.cur fun sl => sl.dropAcc a.id).withMemory m e := by
    unfold State.landLocal
    dsimp only
    rw [hk]
    rfl
  rw [land, State.accessPlaced_alone h, State.modSlot_setSlot]
  simp [Slot.dropAcc, dropFirst]

/-- The value of a load or AMO has arrived, and no register is written yet. -/
theorem State.accessPlaced_landValue (hk : a.kind ≠ .store) (hv : a.vdest = none) (he : a.ended = false)
    (m : List Host.Cell) (e : List Nat) (v : BitVec 128) :
    ∃ at_, ((s.accessPlaced a).withMemory m e).landLocal s.cur { a with needs := [] }
        { a with needs := [], st := .performed, val := v } =
      (s.setSlot s.cur { s.me with
        accs := [{ a with needs := [], st := .arrived, val := v, arrive := at_ }]
        nextId := s.me.nextId + 1 }).withMemory m e := by
  obtain ⟨at_, land⟩ : ∃ at_, ((s.accessPlaced a).withMemory m e).landLocal s.cur { a with needs := [] }
      { a with needs := [], st := .performed, val := v } = ((s.accessPlaced a).modSlot s.cur fun sl =>
        sl.setAcc { a with needs := [], st := .arrived, val := v, arrive := at_ }).withMemory m e := by
    unfold State.landLocal
    dsimp only
    rw [hv, he]
    cases ha : a.kind with
    | store => exact absurd ha hk
    | load => exact ⟨_, rfl⟩
    | amo => exact ⟨_, rfl⟩
  refine ⟨at_, ?_⟩
  rw [land, State.accessPlaced_alone h, State.modSlot_setSlot]
  simp [Slot.setAcc, updFirst]

end

end Sys2Proof.Machine
end

section
/-! SUPPORT. LD, ST and AMO of the local window, alone in their slot (R20, R288, R299). -/

namespace Sys2Proof.Machine

/-- R299: the access is of one piece, or a `.q` access whose halves the outside does not part. -/
def State.Prompt (s : State) (a : Access) : Prop :=
  a.size ≠ 16 ∨ (a.size = 16 ∧ s.extra = [] ∧ a.st ≠ .half ∧ a.ea.toNat % 16 = 0 ∧ a.ea.toNat < 4194304)

/-- The state in which an access that was alone has performed and its word has passed. -/
def State.accessDone (s : State) (l : List Access) (m : List Host.Cell) (e : List Nat) (bank : Nat) : State :=
  (((s.setSlot s.cur { s.me with accs := l, nextId := s.me.nextId + 1 }).withMemory m e).useFront s.cur bank).passed

theorem State.accessPlaced_hasErr (s : State) (a : Access) (k n : Nat) :
    (s.accessPlaced a).hasErr k n = s.hasErr k n := rfl

theorem State.accessPlaced_bytes (s : State) (a : Access) (k n : Nat) :
    (s.accessPlaced a).bytes k n = s.bytes k n := rfl

section

variable {s : State} {a : Access} (h : s.me.accs = []) (hg : a.glob = false) (ho : a.ord = 0)
  (ha : s.Admits s.cur.core a)

include h hg ho ha

theorem State.issueAccess_store (hk : a.kind = .store) (hp : s.Prompt a) : ∃ e bank, s.issueAccess a =
    s.accessDone [] (memWriteAll s.mem (s.myCore.winKey a.ea) (leBytes a.size a.data.toNat)) e bank := by
  have placed : Quiet s.cur s (s.accessPlaced a) := State.accessPlaced_quiet
  have key : ((s.accessPlaced a).core s.cur.core).winKey a.ea = s.myCore.winKey a.ea := placed.frame.winKey a.ea
  obtain ⟨e, b, next⟩ : ∃ e b, (s.accessPlaced a).performNext s.cur.core [] { a with needs := [] } =
      (0, (s.accessPlaced a).withMemory
        (memWriteAll s.mem (s.myCore.winKey a.ea) (leBytes a.size a.data.toNat)) e, b) := by
    rw [← key]
    rcases hp with hs | ⟨hs, hx, ht, hal, hl⟩
    · rw [State.performNext_small (a := { a with needs := [] }) [] hs,
        State.performAt_store (a := { a with needs := [] }) [] hk]
      exact ⟨_, _, rfl⟩
    · exact State.performNext_store_quad (a := { a with needs := [] }) [] hal hl hs ht hk hx
  have land := State.accessPlaced_performLocal h ha next
  rw [State.accessPlaced_landStore h hk] at land
  obtain ⟨bank, issued⟩ := State.issueAccess_local h hg ho land
  exact ⟨e, bank, issued⟩

theorem State.issueAccess_load (hk : a.kind = .load) (hv : a.vdest = none) (he : a.ended = false) (hp : s.Prompt a)
    (hc : s.hasErr (s.myCore.winKey a.ea) a.size = false) (hn : a.size ≤ 16) : ∃ at_ v bank, s.issueAccess a =
      s.accessDone [{ a with needs := [], st := .arrived, val := v, arrive := at_ }] s.mem s.memErr bank ∧
        v.toNat = leNat (s.bytes (s.myCore.winKey a.ea) a.size) := by
  have placed : Quiet s.cur s (s.accessPlaced a) := State.accessPlaced_quiet
  have key : ((s.accessPlaced a).core s.cur.core).winKey a.ea = s.myCore.winKey a.ea := placed.frame.winKey a.ea
  obtain ⟨v, next, hval⟩ : ∃ v, (s.accessPlaced a).performNext s.cur.core [] { a with needs := [] } =
      (0, (s.accessPlaced a).withMemory s.mem s.memErr, { a with needs := [], st := .performed, val := v }) ∧
        v.toNat = leNat (s.bytes (s.myCore.winKey a.ea) a.size) := by
    rw [← State.accessPlaced_hasErr s a, ← key] at hc
    rw [← State.accessPlaced_bytes s a, ← key]
    rcases hp with hs | ⟨hs, hx, ht, hal, hl⟩
    · rw [State.performNext_small (a := { a with needs := [] }) [] hs,
        State.performAt_load_clean (a := { a with needs := [] }) hk hc]
      exact ⟨_, rfl, toNat_ofNat_bytes _ hn⟩
    · rw [hs] at hc
      exact State.performNext_load_quad (s := s.accessPlaced a) (a := { a with needs := [] }) hal hl hs ht hk hx hc
  have land := State.accessPlaced_performLocal h ha next
  obtain ⟨at_, value⟩ := State.accessPlaced_landValue h (by rw [hk]; decide) hv he s.mem s.memErr v
  rw [value] at land
  obtain ⟨bank, issued⟩ := State.issueAccess_local h hg ho land
  exact ⟨at_, v, bank, issued, hval⟩

theorem State.issueAccess_amo (hk : a.kind = .amo) (hv : a.vdest = none) (he : a.ended = false) (hs : a.size ≠ 16)
    (hc : s.hasErr (s.myCore.winKey a.ea) a.size = false) (hn : a.size ≤ 16) :
    let m := leNat (s.bytes (s.myCore.winKey a.ea) a.size)
    let new := amoValue a.op a.size m (a.data.toNat % 2 ^ (8 * a.size)) (a.cmp.toNat % 2 ^ (8 * a.size))
    ∃ at_ v e bank, s.issueAccess a =
      s.accessDone [{ a with needs := [], st := .arrived, val := v, arrive := at_ }]
        (memWriteAll s.mem (s.myCore.winKey a.ea) (leBytes a.size new)) e bank ∧ v.toNat = m := by
  intro m new
  have placed : Quiet s.cur s (s.accessPlaced a) := State.accessPlaced_quiet
  have key : ((s.accessPlaced a).core s.cur.core).winKey a.ea = s.myCore.winKey a.ea := placed.frame.winKey a.ea
  obtain ⟨e, next⟩ : ∃ e, (s.accessPlaced a).performNext s.cur.core [] { a with needs := [] } =
      (0, (s.accessPlaced a).withMemory (memWriteAll s.mem (s.myCore.winKey a.ea) (leBytes a.size new)) e,
        { a with needs := [], st := .performed, val := BitVec.ofNat 128 m }) := by
    rw [State.performNext_small (a := { a with needs := [] }) [] hs,
      State.performAt_amo_clean (a := { a with needs := [] }) [] hk (by rw [State.accessPlaced_hasErr, key]; exact hc)]
    dsimp only
    rw [State.accessPlaced_bytes, key]
    exact ⟨_, rfl⟩
  have land := State.accessPlaced_performLocal h ha next
  obtain ⟨at_, value⟩ := State.accessPlaced_landValue h (by rw [hk]; decide) hv he
    (memWriteAll s.mem (s.myCore.winKey a.ea) (leBytes a.size new)) e (BitVec.ofNat 128 m)
  rw [value] at land
  obtain ⟨bank, issued⟩ := State.issueAccess_local h hg ho land
  exact ⟨at_, _, e, bank, issued, toNat_ofNat_bytes s hn⟩

end

/-! ### What is left of the machine -/

section

variable {s : State} (l : List Access) (m : List Host.Cell) (e : List Nat) (bank : Nat)

theorem State.accessDone_onlyCore :
    OnlyCore s.cur.core s { s.accessDone l m e bank with mem := s.mem, memErr := s.memErr } :=
  (State.fronted_passed m e bank).1

theorem State.accessDone_me :
    (s.accessDone l m e bank).me = { s.passed.me with accs := l, nextId := s.me.nextId + 1 } :=
  (State.fronted_passed m e bank).2.1

theorem State.accessDone_accs : (s.accessDone l m e bank).me.accs = l := by rw [State.accessDone_me]

/-- What the issue keeps where no other access of the slot was in flight. -/
theorem State.accessDone_kept :
    OnlyCore s.cur.core s { s.accessDone l m e bank with mem := s.mem, memErr := s.memErr } ∧
      (s.accessDone l m e bank).me =
        { s.passed.me with accs := (s.accessDone l m e bank).me.accs, nextId := s.me.nextId + 1 } := by
  refine ⟨State.accessDone_onlyCore l m e bank, ?_⟩
  rw [State.accessDone_accs]
  exact State.accessDone_me l m e bank

/-- R20: the bytes after a number was written. -/
theorem State.accessDone_bytes (w : s.MemoryCanonical) (key n v a : Nat) :
    (s.accessDone l (memWriteAll s.mem key (leBytes n v)) e bank).byte a =
      if key ≤ a ∧ a < key + n then BitVec.ofNat 8 (v / 256 ^ (a - key)) else s.byte a :=
  memRead_leBytes w key n v a

end

end Sys2Proof.Machine
end

section
/-! SUPPORT. A global access, alone in its slot, leaves for the core that its name resolves to (R264, R281). -/

namespace Sys2Proof.Machine

/-! ### What resolving and the route depend on -/

theorem State.resolve_setSlot (s : State) (r : SlotRef) (x : Slot) (n : BitVec 16) :
    (s.setSlot r x).resolve r.core n = s.resolve r.core n := by
  have core := s.core_setSlot r x
  have rec_ : (s.setSlot r x).recOf r.core = s.recOf r.core := by
    unfold State.recOf
    rw [core]
    rfl
  have frame : (s.setSlot r x).outOfFrame r.core n = s.outOfFrame r.core n := by
    unfold State.outOfFrame
    rw [rec_]
  have freeze : (s.setSlot r x).ownFreeze r.core = s.ownFreeze r.core := by
    unfold State.ownFreeze
    rw [core]
    rfl
  have entry (e : Word) : (s.setSlot r x).entryRes r.core e = s.entryRes r.core e := by
    unfold State.entryRes
    rw [freeze]
    rfl
  unfold State.resolve State.lookup
  rw [frame, core, Core.setSlot_ncache]
  cases cachedName (s.core r.core).ncache n with
  | none => rfl
  | some e => simp only [entry]

/-! ### Sending -/

theorem State.modCore_sameSlots (s : State) (c : Nat) {f : Core → Core} (hs : ∀ x, (f x).slots = x.slots) :
    SameSlots s (s.modCore c f) := by
  intro q
  by_cases hq : q.core = c
  · rw [State.slot, hq, State.core_modCore, Core.slot, hs, State.slot, hq, Core.slot]
  · rw [State.slot, State.core_modCore_ne _ _ _ _ hq, State.slot]

theorem State.useName_sameSlots (s : State) (c : Nat) (n : BitVec 16) : SameSlots s (s.useName c n) :=
  s.modCore_sameSlots c fun x => by split <;> rfl

/-- R242: a packet for a core of this die, with what it leaves of the rest. -/
theorem State.stage_near (s : State) (src : Nat) {dst : Nat} (slot : Nat) (pc : BitVec 14) (name : BitVec 16)
    (g : Cargo) (hd : dst < 768) : ∃ cores q, s.stage src dst slot pc name g =
      (s.nextPkt, { s with
        cores := cores, nextPkt := s.nextPkt + 1
        packets := s.packets ++ [⟨s.nextPkt, src, dst, slot, pc, name, q, g, false, false⟩] }) ∧
      SameSlots s { s with cores := cores } := by
  have near : ¬1024 ≤ dst := by omega
  unfold State.stage
  dsimp only
  rw [if_neg near]
  split
  · exact ⟨_, _, rfl, s.modCore_sameSlots src
      (f := fun x => { x with seqTo := Tab.put x.seqTo dst (Tab.at (s.core src).seqTo dst 0 + 1) }) fun _ => rfl⟩
  · exact ⟨s.cores, 0, rfl, fun _ => rfl⟩

theorem State.sendAcc_near {s : State} {r : SlotRef} {a : Access} {dst : Nat} (hd : dst < 768)
    (ha : (s.slot r).accs = [a]) : ∃ p : Packet,
      (s.sendAcc r a dst).packets = s.packets ++ [p] ∧ p.src = r.core ∧ p.dst = dst ∧
      p.cargo = .access { a with st := .sent } ∧ ((s.sendAcc r a dst).slot r).accs = [{ a with st := .sent }] ∧
      ∃ d, s.requestLeg r.core dst ≤ d ∧ (s.now + d, Instr.globalRequestArrive p.id) ∈ (s.sendAcc r a dst).coming := by
  obtain ⟨cores, q, hst, hsl⟩ := (s.modSlot r fun sl => sl.setAcc { a with st := .sent }).stage_near r.core r.slot a.pc
    a.name (.access { a with st := .sent }) hd
  have sent : s.sendAcc r a dst =
      ((s.modSlot r fun sl => sl.setAcc { a with st := .sent }).stage r.core dst r.slot a.pc a.name
        (.access { a with st := .sent })).2.laterX
        (((s.modSlot r fun sl => sl.setAcc { a with st := .sent }).stage r.core dst r.slot a.pc a.name
          (.access { a with st := .sent })).2.requestLeg r.core dst)
        (.globalRequestArrive ((s.modSlot r fun sl => sl.setAcc { a with st := .sent }).stage r.core dst r.slot a.pc
          a.name (.access { a with st := .sent })).1) := if_pos hd
  rw [hst] at sent
  rw [sent, State.laterX_eq]
  refine ⟨_, rfl, rfl, rfl, rfl, ?_, ?_⟩
  · refine (congrArg Slot.accs (hsl r)).trans ?_
    rw [State.slot_modSlot, Slot.setAcc, ha]
    simp [updFirst]
  · obtain ⟨hi, -, -, d, hlo, -, hin⟩ := State.laterX_scheduled
      { (s.modSlot r fun sl => sl.setAcc { a with st := .sent }) with
        cores := cores, nextPkt := s.nextPkt + 1
        packets := s.packets ++ [⟨s.nextPkt, r.core, dst, r.slot, a.pc, a.name, q, .access { a with st := .sent },
          false, false⟩] } (s.requestLeg r.core dst) (.globalRequestArrive s.nextPkt)
    exact ⟨d, hlo, hin⟩

/-! ### The end of the word -/

theorem State.settleStall_plain {s : State} {r : SlotRef} {st : Stall} (hg : (s.slot r).gate = .stalled st)
    (hs : st.stage = .plain) : s.settleStall r = s ∨ s.settleStall r = s.endStall r := by
  unfold State.settleStall
  dsimp only
  rw [hg]
  dsimp only
  split
  · exact .inl rfl
  · rw [hs]
    exact .inr rfl

theorem State.stallIf_plain (s : State) {st : Stall} (hs : st.stage = .plain) :
    (s.stallIf s.cur (some st)).packets = s.packets ∧ (s.stallIf s.cur (some st)).coming = s.coming ∧
      (s.stallIf s.cur (some st)).me.accs = s.me.accs := by
  have stalled : ((s.modMe fun sl => { sl with gate := .stalled st }).slot s.cur).gate = .stalled st := by
    rw [State.modMe, State.slot_modSlot]
  rcases State.settleStall_plain stalled hs with h | h <;> rw [State.stallIf, h]
  · exact ⟨rfl, rfl, by rw [State.me_modMe]⟩
  · refine ⟨rfl, rfl, ?_⟩
    change (((s.modMe _).modSlot s.cur _).slot s.cur).accs = _
    rw [State.slot_modSlot, State.modMe, State.slot_modSlot]
    rfl

/-- R289: the stall of an ordered access sends nothing and ends no access. -/
theorem State.stallIf_stallOf (s : State) (a : Access) : (s.stallIf s.cur (stallOf a)).packets = s.packets ∧
    (s.stallIf s.cur (stallOf a)).coming = s.coming ∧ (s.stallIf s.cur (stallOf a)).me.accs = s.me.accs := by
  unfold stallOf
  dsimp only
  split
  · exact s.stallIf_plain rfl
  · exact ⟨rfl, rfl, rfl⟩

theorem State.passed_accs (s : State) : s.passed.me.accs = s.me.accs := by rw [State.passed_me, Slot.advance_eq]

section

variable {s : State} {a : Access} {dst : Nat} (h : s.me.accs = []) (hg : a.glob = true)
  (hr : s.resolve s.cur.core a.name = .hit dst)

include h hg hr

theorem State.accessLaunched_sent : s.accessLaunched a =
    ((s.accessPlaced a).useName s.cur.core a.name).sendAcc s.cur { a with needs := [] } dst := by
  have found : (s.accessPlaced a).resolve s.cur.core a.name = .hit dst := (State.resolve_setSlot s s.cur _ _).trans hr
  rw [State.accessLaunched_alone h, State.launchAcc]
  dsimp only
  rw [if_pos hg, State.routeAcc]
  dsimp only
  rw [found]

/-- R264: a global access that is alone leaves for the core that its name resolves to. -/
theorem State.issueAccess_sent (hv : a.vdest = none) (hd : dst < 768) : ∃ p : Packet,
    (s.issueAccess a).packets = s.packets ++ [p] ∧ p.src = s.cur.core ∧ p.dst = dst ∧
      p.cargo = .access { a with needs := [], st := .sent } ∧
      (s.issueAccess a).me.accs = [{ a with needs := [], st := .sent }] ∧
      ∃ d, s.requestLeg s.cur.core dst ≤ d ∧
        (s.now + d, Instr.globalRequestArrive p.id) ∈ (s.issueAccess a).coming := by
  have alone : (((s.accessPlaced a).useName s.cur.core a.name).slot s.cur).accs = [{ a with needs := [] }] := by
    rw [State.useName_sameSlots, State.accessPlaced_alone h, State.slot_setSlot]
  obtain ⟨p, hp, hsrc, hdst, hcargo, haccs, d, hlo, hin⟩ := State.sendAcc_near hd alone
  rw [← State.accessLaunched_sent h hg hr] at hp haccs hin
  have cur : (s.accessLaunched a).cur = s.cur :=
    (State.accessLaunched_frame hv (by simp [hg])).cur
  have issued : s.issueAccess a = (s.accessLaunched a).passed.stallIf s.cur (stallOf (s.heldAccess a)) := by
    rw [State.issueAccess_eq, State.accessFronted, hg]
    rfl
  have pcur : (s.accessLaunched a).passed.cur = s.cur := cur
  rw [← pcur] at issued
  obtain ⟨hpk, hcm, hac⟩ := (s.accessLaunched a).passed.stallIf_stallOf (s.heldAccess a)
  rw [← issued] at hpk hcm hac
  refine ⟨p, hpk.trans hp, hsrc, hdst, hcargo, ?_, d, hlo, hcm ▸ hin⟩
  rw [hac, State.passed_accs, State.me, cur]
  exact haccs

end

end Sys2Proof.Machine
end

section
/-! SUPPORT. LD, ST and AMO from their words on (R20, R264, R285 to R289). -/

namespace Sys2Proof.Machine

section

variable {s : State} {h : Hdr} {o : FmtM} {k : AccKind} {op : BitVec 4} {sx : Bool} {ea : Word} {i : Instr}
  (hi : exec i s = accessWord h o s k op sx) (hg : s.me.guard h = true)
  (hea : memAddr s.me o (k != .amo) = ea)

/-- R285: the address of LD and ST. -/
theorem memAddr_indexed (sl : Slot) (o : FmtM) :
    memAddr sl o true = sl.gr o.ra + o.off.signExtend 64 + sl.gr o.rb := rfl

/-- R285: the address of AMO. -/
theorem memAddr_plain (sl : Slot) (o : FmtM) : memAddr sl o false = sl.gr o.ra + o.off.signExtend 64 := by
  simp [memAddr]

theorem sizeOf_le (sz : BitVec 3) : Machine.sizeOf sz ≤ 16 := by
  unfold Machine.sizeOf
  split <;> omega

section

include hea

theorem State.newAccess_ea : (s.newAccess o k op sx).ea = ea := hea

theorem State.newAccess_glob : (s.newAccess o k op sx).glob = !isLocal ea := by rw [← hea]; rfl

theorem State.newAccess_local (hl : ea.toNat < 4194304) : (s.newAccess o k op sx).glob = false := by
  rw [State.newAccess_glob hea, (isLocal_iff ea).2 hl]
  rfl

theorem State.newAccess_global (hlo : 2 ^ 40 ≤ ea.toNat) :
    (s.newAccess o k op sx).glob = true ∧ (s.newAccess o k op sx).name = eaName ea := by
  have far : isLocal ea = false := by
    rw [← Bool.not_eq_true, isLocal_iff]
    omega
  refine ⟨by rw [State.newAccess_glob hea, far]; rfl, ?_⟩
  subst hea
  exact if_neg (by rw [far]; decide)

theorem State.newAccess_admits (hr : s.LocalReady (Machine.sizeOf o.sz) ea (k != .load)) :
    s.Admits s.cur.core (s.newAccess o k op sx) := hr.admits rfl hea rfl

/-- A local access that issues changes no byte but its own. -/
theorem State.newAccess_sameOutside (hr : s.LocalReady (Machine.sizeOf o.sz) ea (k != .load)) :
    SameOutside (s.myCore.winKey ea) (Machine.sizeOf o.sz) s (s.issueAccess (s.newAccess o k op sx)) := by
  obtain ⟨hal, hl, -⟩ := id hr
  have outside := State.issueAccess_sameOutside (a := s.newAccess o k op sx) rfl (State.newAccess_local hea hl)
    (State.newAccess_admits hea hr) (by rw [State.newAccess_ea hea]; exact hal) (by rwa [State.newAccess_ea hea])
  rw [State.newAccess_ea hea] at outside
  exact outside

end

include hi hg hea

/-- A local access that meets no fault issues. -/
theorem exec_access_local (hr : s.LocalReady (Machine.sizeOf o.sz) ea (k != .load)) :
    exec i s = .next (s.issueAccess (s.newAccess o k op sx)) ∧
      AccessFrame s.cur s.passed (s.issueAccess (s.newAccess o k op sx)) := by
  have fault := State.accessFault_local (o.win != 0) hr
  rw [← hea] at fault
  exact ⟨hi.trans (accessWord_issues hg fault), State.issueAccess_frame rfl fun _ => State.newAccess_admits hea hr⟩

/-- A global access with its window given and its name known issues. -/
theorem exec_access_global (hal : ea.toNat % Machine.sizeOf o.sz = 0) (hlo : 2 ^ 40 ≤ ea.toNat)
    (hhi : ea.toNat < 2 ^ 40 + 2 ^ 38) (hw : o.win ≠ 0) (hn : (s.resolve s.cur.core (eaName ea)).fault = none) :
    exec i s = .next (s.issueAccess (s.newAccess o k op sx)) ∧
      AccessFrame s.cur s.passed (s.issueAccess (s.newAccess o k op sx)) ∧
      SameMemory s (s.issueAccess (s.newAccess o k op sx)) := by
  have fault : s.accessFault ea (Machine.sizeOf o.sz) (k != .load) (o.win != 0) = none := by
    rw [bne_iff_ne.2 hw]
    exact State.accessFault_global hal hlo hhi hn
  rw [← hea] at fault
  obtain ⟨glob, -⟩ := State.newAccess_global (s := s) (op := op) (sx := sx) hea hlo
  exact ⟨hi.trans (accessWord_issues hg fault), State.issueAccess_frame rfl (by simp [glob]),
    State.issueAccess_sameMemory rfl (by simp [glob])⟩

end

/-! ### Alone in its slot -/

section

variable {s : State} {o : FmtM} {op : BitVec 4} {sx : Bool} {ea : Word}

theorem State.newAccess_sameMemory (hea : memAddr s.me o true = ea)
    (hr : s.LocalReady (Machine.sizeOf o.sz) ea false) : SameMemory s (s.issueAccess (s.newAccess o .load op sx)) :=
  State.issueAccess_sameMemory rfl fun _ => ⟨State.newAccess_admits hea hr, rfl⟩

/-- R299: an aligned local access that the outside does not part performs at once. -/
theorem State.newAccess_prompt {k : AccKind} {write : Bool} (hea : memAddr s.me o (k != .amo) = ea)
    (hr : s.LocalReady (Machine.sizeOf o.sz) ea write)
    (hn : Machine.sizeOf o.sz ≠ 16 ∨ (Machine.sizeOf o.sz = 16 ∧ s.extra = [])) : s.Prompt (s.newAccess o k op sx) := by
  obtain ⟨hal, hl, -⟩ := hr
  rcases hn with hn | ⟨hn, hx⟩
  · exact .inl hn
  · rw [hn] at hal
    rw [← State.newAccess_ea (op := op) (sx := sx) hea] at hal hl
    exact .inr ⟨hn, hx, by simp [State.newAccess], hal, hl⟩

variable (haccs : s.me.accs = []) (hord : o.ord = 0)

include haccs hord

theorem State.newAccess_store (hea : memAddr s.me o true = ea) (hr : s.LocalReady (Machine.sizeOf o.sz) ea true)
    (hn : Machine.sizeOf o.sz ≠ 16 ∨ (Machine.sizeOf o.sz = 16 ∧ s.extra = [])) : ∃ e bank,
    s.issueAccess (s.newAccess o .store op sx) = s.accessDone []
      (memWriteAll s.mem (s.myCore.winKey ea)
        (leBytes (Machine.sizeOf o.sz) (s.me.gr (o.rt + 1) ++ s.me.gr o.rt).toNat)) e bank := by
  obtain ⟨-, hl, -⟩ := id hr
  subst hea
  exact State.issueAccess_store haccs (State.newAccess_local rfl hl) hord (State.newAccess_admits rfl hr) rfl
    (State.newAccess_prompt rfl hr hn)

theorem State.newAccess_load (hea : memAddr s.me o true = ea) (hr : s.LocalReady (Machine.sizeOf o.sz) ea false)
    (hn : Machine.sizeOf o.sz ≠ 16 ∨ (Machine.sizeOf o.sz = 16 ∧ s.extra = []))
    (hc : s.hasErr (s.myCore.winKey ea) (Machine.sizeOf o.sz) = false) : ∃ at_ v bank,
    s.issueAccess (s.newAccess o .load op sx) = s.accessDone
      [{ s.newAccess o .load op sx with needs := [], st := .arrived, val := v, arrive := at_ }] s.mem s.memErr bank ∧
      v.toNat = leNat (s.bytes (s.myCore.winKey ea) (Machine.sizeOf o.sz)) := by
  obtain ⟨-, hl, -⟩ := id hr
  subst hea
  exact State.issueAccess_load haccs (State.newAccess_local rfl hl) hord (State.newAccess_admits rfl hr) rfl rfl rfl
    (State.newAccess_prompt rfl hr hn) hc (sizeOf_le o.sz)

theorem State.newAccess_amo (hea : memAddr s.me o false = ea) (hr : s.LocalReady (Machine.sizeOf o.sz) ea true)
    (hn : Machine.sizeOf o.sz ≠ 16) (hc : s.hasErr (s.myCore.winKey ea) (Machine.sizeOf o.sz) = false) :
    let n := Machine.sizeOf o.sz
    let m := leNat (s.bytes (s.myCore.winKey ea) n)
    let new := amoValue op n m ((s.me.gr o.rb).toNat % 2 ^ (8 * n)) ((s.me.gr o.rt).toNat % 2 ^ (8 * n))
    ∃ at_ v e bank, s.issueAccess (s.newAccess o .amo op sx) = s.accessDone
      [{ s.newAccess o .amo op sx with needs := [], st := .arrived, val := v, arrive := at_ }]
      (memWriteAll s.mem (s.myCore.winKey ea) (leBytes n new)) e bank ∧ v.toNat = m := by
  obtain ⟨-, hl, -⟩ := id hr
  subst hea
  have data : (s.newAccess o .amo op sx).data.toNat = (s.me.gr o.rb).toNat :=
    BitVec.toNat_setWidth_of_le (b := s.me.gr o.rb) (by decide : 64 ≤ 128)
  rw [← data]
  exact State.issueAccess_amo haccs (State.newAccess_local rfl hl) hord (State.newAccess_admits rfl hr) rfl rfl rfl hn
    hc (sizeOf_le o.sz)

end

/-! ### The obligation -/

/-- Settles O24: an access that meets no fault issues (`exec_access_local`, `exec_access_global`) within its frame
(`AccessFrame.issued`); alone, a local one performs (`State.issueAccess_store`, `State.issueAccess_load`,
`State.issueAccess_amo`) and a global one is sent (`State.issueAccess_sent`). -/
theorem localAccessesPerform : Obligations.LocalAccessesPerform := by
  intro s h o hg n x eaLS eaA ready alone clean issues kept outside bytesAre global
  have indexed : memAddr s.me o true = eaLS := memAddr_indexed s.me o
  have plain : memAddr s.me o false = eaA := memAddr_plain s.me o
  have ld : exec (.ld h o) s = accessWord h o s .load 0 (o.fnm == 1) := rfl
  have st : exec (.st h o) s = accessWord h o s .store 0 false := rfl
  have amo : exec (.amo h o) s = accessWord h o s .amo o.fnm false := rfl
  have mk {i : Instr} {t : State} {P : State → Prop}
      (ht : exec i s = .next t ∧ AccessFrame s.cur s.passed t) (hP : P t) : issues i P := by
    obtain ⟨he, hf⟩ := ht
    obtain ⟨hq, hb, hm⟩ := hf.issued
    exact ⟨t, he, hq, hb, hm, hP⟩
  have far {i : Instr} {k : AccKind} {op : BitVec 4} {sx : Bool} {ea : Word}
      (hi : exec i s = accessWord h o s k op sx) (hea : memAddr s.me o (k != .amo) = ea) : global ea i k := by
    intro hal hlo hhi hw hn
    obtain ⟨he, hf, hm⟩ := exec_access_global hi hg hea hal hlo hhi hw hn
    refine mk ⟨he, hf⟩ ⟨hm, fun dst ha hr hd => ?_⟩
    obtain ⟨glob, name⟩ := State.newAccess_global (s := s) (op := op) (sx := sx) hea hlo
    rw [← name] at hr
    obtain ⟨p, hp, hsrc, hdst, hcargo, haccs, d, hd⟩ := State.issueAccess_sent ha glob hr rfl hd
    exact ⟨p, hp, hsrc, hdst, ⟨_, hcargo, haccs, rfl, hea, rfl, rfl⟩, d, hd⟩
  clear_value issues
  refine ⟨fun hr => ?_, fun hr => ?_, fun hr => ?_, fun hr ha hn => ?_, fun hr ha hn hc => ?_, fun hr ha hn hc => ?_,
    fun hx ha hn => ⟨fun hr => ?_, fun hr hc => ?_⟩, far ld indexed, far st indexed, far amo plain⟩
  · exact mk (exec_access_local st hg indexed hr) (State.newAccess_sameOutside indexed hr)
  · exact mk (exec_access_local ld hg indexed hr) (State.newAccess_sameMemory indexed hr)
  · exact mk (exec_access_local amo hg plain hr) (State.newAccess_sameOutside plain hr)
  · obtain ⟨w, haccs, hord⟩ := ha
    obtain ⟨e, bank, done⟩ := State.newAccess_store (sx := false) (op := 0) haccs hord indexed hr (.inl hn)
    refine mk (exec_access_local st hg indexed hr) ?_
    rw [done]
    exact ⟨State.accessDone_kept _ _ e bank, State.accessDone_accs _ _ e bank, State.accessDone_bytes _ e bank w _ n _⟩
  · obtain ⟨w, haccs, hord⟩ := ha
    obtain ⟨at_, v, bank, done, hv⟩ :=
      State.newAccess_load (sx := o.fnm == 1) (op := 0) haccs hord indexed hr (.inl hn) hc
    have same := State.newAccess_sameMemory (sx := o.fnm == 1) (op := 0) indexed hr
    refine mk (exec_access_local ld hg indexed hr) ⟨?_, same, ?_⟩ <;> rw [done]
    · exact State.accessDone_kept _ _ _ bank
    · exact ⟨_, State.accessDone_accs _ _ _ bank, rfl, rfl, rfl, rfl, rfl, rfl, rfl, hv⟩
  · obtain ⟨w, haccs, hord⟩ := ha
    obtain ⟨at_, v, e, bank, done, hv⟩ := State.newAccess_amo (op := o.fnm) (sx := false) haccs hord plain hr hn hc
    refine mk (exec_access_local amo hg plain hr) ?_
    rw [done]
    exact ⟨State.accessDone_kept _ _ e bank, State.accessDone_bytes _ e bank w _ n _,
      _, State.accessDone_accs _ _ e bank, rfl, rfl, rfl, rfl, rfl, hv⟩
  · obtain ⟨w, haccs, hord⟩ := ha
    obtain ⟨e, bank, done⟩ := State.newAccess_store (sx := false) (op := 0) haccs hord indexed hr (.inr ⟨hn, hx⟩)
    refine mk (exec_access_local st hg indexed hr) ?_
    rw [done]
    exact ⟨State.accessDone_accs _ _ e bank, State.accessDone_bytes _ e bank w _ n _⟩
  · obtain ⟨w, haccs, hord⟩ := ha
    obtain ⟨at_, v, bank, done, hv⟩ :=
      State.newAccess_load (sx := o.fnm == 1) (op := 0) haccs hord indexed hr (.inr ⟨hn, hx⟩) hc
    have same := State.newAccess_sameMemory (sx := o.fnm == 1) (op := 0) indexed hr
    refine mk (exec_access_local ld hg indexed hr) ⟨same, ?_⟩
    rw [done]
    exact ⟨_, State.accessDone_accs _ _ _ bank, rfl, rfl, rfl, rfl, rfl, hv⟩

end Sys2Proof.Machine
end

section
/-! SUPPORT. What a vector word that nothing stops comes to: its write and the conditions of its lanes (R15, R41, R127,
R136, R403). -/

namespace Sys2Proof.Machine

/-- R136: a write, and the conditions that go to VSTAT with it. -/
def Write.withFlags (w : Write) (fs : List (Nat × Flags)) : List Write :=
  if allFlags fs = 0 then [w] else [w, .vstat (allFlags fs)]

theorem laneTrap_nil (fpctl : BitVec 13) : laneTrap fpctl [] = none := by simp [laneTrap, trapCause]

theorem Write.withFlags_nil (w : Write) : w.withFlags [] = [w] := rfl

/-- R403: without an uncorrectable lane in the slot, none is read. -/
theorem badLane_none {sl : Slot} (hb : sl.vbad = []) (regs : List (BitVec 4)) (lanes : Nat → Bool) :
    badLane sl regs lanes = none := by
  simp [badLane, hb]

theorem State.vemit_retire (s : State) {lat : Nat} (hl : lat ≠ 0) (w : Write) (fs : List (Nat × Flags)) :
    (s.vemit lat ⟨[w], fs, none⟩).retire = s.issued lat (w.withFlags fs) := by
  rw [← State.result_eq, State.result, Write.withFlags]
  simp only [State.vemit, hl, if_false]
  split <;> rfl

/-- The next word does not depend on the vector datapath. -/
theorem Slot.advance_setVecFree (sl : Slot) (n : Nat) :
    ({ sl with vecFree := n } : Slot).advance = { sl.advance with vecFree := n } := by
  obtain ⟨hpc, h1, h2⟩ := Slot.advance_congr { sl with vecFree := n } sl rfl rfl rfl rfl
  rw [Slot.advance_eq, hpc, h1, h2, Slot.advance_eq sl]

theorem State.occupyV_issued (s : State) (beats lat : Nat) (ws : List Write) :
    (s.occupyV beats).issued lat ws = s.vissued beats lat ws := by
  rw [State.vissued, State.occupyV, State.issued, State.issued, State.modMe_setSlot, State.modMe_eq,
    State.me_setSlot_cur, State.setSlot_cur, State.setSlot_setSlot, Slot.advance_setVecFree]

/-- R19, R41, R127: a vector word that is ready and has one write and no condition that traps. -/
theorem vectorWord_issues {s : State} {h : Hdr} {o : FmtV} {beats lat : Nat} {srcs : List (BitVec 4)} {whole : Bool}
    {body : State → VOut} {after : State → State} {w : Write} {fs : List (Nat × Flags)} (hr : VectorReady s h)
    (hl : lat ≠ 0) (hb : body s = ⟨[w], fs, none⟩) (ht : laneTrap s.me.fpctl fs = none) :
    vectorWord h o s beats lat srcs whole body after = .next ((after s).vissued beats lat (w.withFlags fs)) := by
  obtain ⟨hg, hfree, hbad⟩ := hr
  rw [← State.occupyV_issued, ← State.vemit_retire _ hl]
  simp only [vectorWord, hg, if_true, Nat.not_lt.2 hfree, if_false, hb, VOut.cause, ht, badLane_none hbad, Option.map_none]

end Sys2Proof.Machine
end

section
/-! SUPPORT. VRED and VSCAN (R59, R145, R146). -/

namespace Sys2Proof.Machine

/-- R35: the ties of a reduction of pairs draw from the free values and change nothing else. -/
theorem State.vissued_drawTies (s : State) (o : FmtV) (beats lat : Nat) (ws : List Write) :
    { (s.drawTies o).vissued beats lat ws with free := s.free } = s.vissued beats lat ws := by
  unfold State.drawTies
  split <;> rfl

theorem State.drawTies_lanes (s : State) {o : FmtV} (hft : o.ft ≠ 11) : s.drawTies o = s := if_neg hft

theorem execVred_lanes {s : State} {h : Hdr} {o : FmtV} {r : BitVec 32 × List (Nat × Flags)} (hr : VectorReady s h)
    (hft : o.ft ≠ 11) (hred : reduceLanes s.me o (bits o.fn 0 4) = r) (ht : laneTrap s.me.fpctl r.2 = none) :
    execVred h o s = .next (s.vissued (beatsOf o.fold) (beatsOf o.fold + 6)
      ((reduceWrite o [(0, r.1)]).withFlags r.2)) := by
  unfold execVred
  rw [vectorWord_issues hr (by omega) ((if_neg hft).trans (by rw [hred])) ht, State.drawTies_lanes s hft]

theorem execVred_pairs {s : State} {h : Hdr} {o : FmtV} (hr : VectorReady s h) (hft : o.ft = 11) :
    execVred h o s = .next ((s.drawTies o).vissued (beatsOf o.fold) (beatsOf o.fold + 6)
      [reduceWrite o [(0, (reducePairs s.me o (bits o.fn 0 4 == 2) s.free).key),
        (1, (reducePairs s.me o (bits o.fn 0 4 == 2) s.free).idx)]]) :=
by
  rw [execVred, vectorWord_issues hr (by omega) (if_pos hft) (laneTrap_nil _), Write.withFlags_nil]

theorem execVscan_issues {s : State} {h : Hdr} {o : FmtV} {r : List (Nat × BitVec 32) × List (Nat × Flags)}
    (hr : VectorReady s h) (hs : scanLanes s.me o (bits o.fn 0 4) (o.fn.getLsbD 4) (List.range (vlOf o.fold))
      (identityLane (bits o.fn 0 4) o.ft) = r) (ht : laneTrap s.me.fpctl r.2 = none) :
    execVscan h o s = .next (s.vissued (beatsOf o.fold) (beatsOf o.fold + 6) ((vresult s.me o r.1).withFlags r.2)) := by
  unfold execVscan
  subst hs
  exact vectorWord_issues hr (by omega) rfl ht

/-- Settles O31: lanes by `execVred_lanes`, pairs by `execVred_pairs`, whose draws are the only other change
(`State.vissued_drawTies`), and scans by `execVscan_issues`. -/
theorem reductionsComplete : Obligations.ReductionsComplete := by
  intro s h o hr op lat flagged red scn p
  refine ⟨fun hft ht => execVred_lanes hr hft rfl ht, fun hft => ?_, fun ht => ?_⟩
  · exact ⟨_, execVred_pairs hr hft, State.vissued_drawTies s o _ _ _⟩
  · exact execVscan_issues hr rfl ht

end Sys2Proof.Machine
end

section
/-! SUPPORT. The codec rows: blocks with an active lane, and what their words write (R153 to R159). -/

namespace Sys2Proof.Machine

/-- The blocks of `n` lanes, among some, that have an active lane. -/
def activeBlocks (sl : Slot) (o : FmtV) (n : Nat) (l : List Nat) : List Nat :=
  l.filter fun b => (List.range n).any fun k => (activeMask sl o).getLsbD (n * b + k)

/-- A range of lanes holds an active one. -/
theorem activeIn_nonempty (sl : Slot) (o : FmtV) (lo n : Nat) :
    (!(activeIn sl o lo n).isEmpty) = (List.range n).any fun k => (activeMask sl o).getLsbD (lo + k) := by
  rw [Bool.eq_iff_iff]
  simp [activeIn]

theorem filter_activeIn (sl : Slot) (o : FmtV) (n : Nat) (l : List Nat) :
    (l.filter fun b => !(activeIn sl o (n * b) n).isEmpty) = activeBlocks sl o n l := by
  simp only [activeIn_nonempty, activeBlocks]

theorem vmap_eq (sl : Slot) (o : FmtV) (f : Nat → BitVec 32 × Flags) :
    vmap sl o f = ⟨[vresult sl o ((activeLanes sl o).map fun i => (i, (f i).1))],
      (activeLanes sl o).map fun i => (i, (f i).2), none⟩ := by
  simp only [vmap, List.map_map, Function.comp_def]

/-- R154, R157: the scale of each group with an active lane, and the infinite inputs of a group whose scale met a
condition. -/
theorem scaleGroups_issues {s : State} {h : Hdr} {o : FmtV} (q : List FVal → BitVec 32 × Flags) (hr : VectorReady s h) :
    let gs := activeBlocks s.me o 32 [0, 1]
    let xs (g : Nat) := inputsOf s.me o (32 * g) 32
    let fs := gs.flatMap fun g => if (q (xs g)).2 = 0 then [] else infFlags (32 * g) (xs g)
    laneTrap s.me.fpctl fs = none →
      scaleGroups h o s (fun g l => ((q l).1, if (q l).2 = 0 then [] else infFlags (32 * g) l)) =
        .next (s.vissued (beatsOf o.fold) (beatsOf o.fold + 6)
          ((blockWrite o (gs.map fun g => (g, (q (xs g)).1)) 2).withFlags fs)) := by
  intro gs xs fs ht
  refine vectorWord_issues hr (by omega) ?_ ht
  simp only [filter_activeIn, List.map_map, List.flatMap_map, Function.comp_def, gs, xs, fs]

/-- Settles O35: each row is a vector word with one write (`scaleGroups_issues`, `vectorWord_issues`); the blocks it
speaks of are those with an active lane (`filter_activeIn`). -/
theorem codecRowsComplete : Obligations.CodecRowsComplete := by
  intro s h o hr sl done groups points xs infs scales e8 f4 q8 par q4 d4
  refine ⟨fun ht => ?vsce8, fun ht => ?vscf4, fun ht => ?vqe8, fun ht => ?vde8, fun ht => ?vqf4, fun ht => ?vdf4⟩
  case vsce8 => exact scaleGroups_issues (fun l => (BitVec.ofNat 32 (scaleE8L l).1, (scaleE8L l).2)) hr ht
  case vscf4 =>
    exact scaleGroups_issues (fun l => (BitVec.ofNat 32
      ((fq4Params l).1.se + (fq4Params l).1.sh * 2 ^ 8 + (fq4Params l).1.sv * 2 ^ 24), (fq4Params l).2)) hr ht
  case vqe8 =>
    change execVqe8 h o s = _
    unfold execVqe8
    refine vectorWord_issues hr (by decide) ?_ ht
    simp only [filter_activeIn]
    rfl
  case vde8 =>
    change execVde8 h o s = _
    unfold execVde8
    exact vectorWord_issues hr (by decide) rfl ht
  case vqf4 =>
    change execVqf4 h o s = _
    unfold execVqf4
    refine vectorWord_issues hr (by decide) ?_ ht
    simp only [filter_activeIn, List.flatMap_map]
    rfl
  case vdf4 =>
    change execVdf4 h o s = _
    unfold execVdf4
    exact vectorWord_issues hr (by decide) (vmap_eq sl o _) ht

end Sys2Proof.Machine
end

section
/-! SUPPORT. The decoder and the encoder: each field of a word read back, and which rows an opcode has (R60 to R74). -/

namespace Sys2Proof

/-! ### Words and their fields (R60, R62) -/

/-- The fields of a word in the format of some fields. -/
def Fields.read (f : Fields) (w : Word) : Fields :=
  match f with
  | .a _ => .a (fmtA w)
  | .b _ => .b (fmtB w)
  | .c _ => .c (fmtC w)
  | .m _ => .m (fmtM w)
  | .v _ => .v (fmtV w)
  | .x _ => .x (fmtX w)

/-- R62: the fields below a word's header read back. -/
theorem Fields.read_append (x : BitVec 16) (f : Fields) : f.read (x ++ f.bits) = f := by
  cases f <;>
    simp (disch := omega) only [Fields.read, fmtA, fmtB, fmtC, fmtM, fmtV, fmtX, Fields.bits,
      BitVec.extractLsb'_append_eq_of_add_le, BitVec.extractLsb'_append_eq_of_le, Nat.reduceSub,
      BitVec.extractLsb'_eq_self]

/-- R62: the fields of a word are its low 48 bits, none left out. -/
theorem Fields.bits_read (f : Fields) (w : Word) : (f.read w).bits = w.extractLsb' 0 48 := by
  cases f <;>
    simp (disch := omega) only [Fields.read, fmtA, fmtB, fmtC, fmtM, fmtV, fmtX, Fields.bits,
      BitVec.extractLsb'_append_extractLsb'_eq_extractLsb']

theorem ofBool_getLsbD (w : BitVec n) (i : Nat) : BitVec.ofBool (w.getLsbD i) = w.extractLsb' i 1 := by
  apply BitVec.eq_of_getLsbD_eq
  intro j hj
  obtain rfl : j = 0 := by omega
  simp

/-- A word taken apart, its fields given. -/
def bodyOf (w : Word) (f : Fields) : Body := ⟨w.extractLsb' 56 8, hdrOf w, f⟩

/-- R60: a word's opcode and header read back. -/
theorem Body.bodyOf_word (b : Body) : bodyOf b.word b.fields = b := by
  simp (disch := omega) only [bodyOf, hdrOf, Body.word, BitVec.extractLsb'_append_eq_of_add_le,
    BitVec.extractLsb'_append_eq_of_le, Nat.reduceSub, BitVec.extractLsb'_eq_self, BitVec.getLsbD_append]
  simp

/-- R60: bit 48 of a word is 0. -/
theorem Body.word_bit48 (b : Body) : b.word.getLsbD 48 = false := by
  simp only [Body.word, BitVec.getLsbD_append]
  simp

/-- R60, R62: a word is its opcode, header and fields, where bit 48 is 0. -/
theorem bodyOf_read_word {w : Word} (f : Fields) (h48 : w.getLsbD 48 = false) : (bodyOf w (f.read w)).word = w := by
  have zero : 0#1 = w.extractLsb' 48 1 := by rw [← ofBool_getLsbD, h48]; rfl
  rw [Body.word, bodyOf, Fields.bits_read, zero]
  simp (disch := omega) only [hdrOf, ofBool_getLsbD, BitVec.extractLsb'_append_extractLsb'_eq_extractLsb']
  exact BitVec.extractLsb'_eq_self

/-- R67 to R73: a listed opcode has one format, in which its word's fields are read. -/
theorem read_of_fieldsOf {w : Word} {f : Fields} (hf : fieldsOf w = some f) : f.read w = f := by
  unfold fieldsOf at hf
  dsimp only at hf
  (repeat' split at hf) <;> cases hf <;> rfl

/-! ### Rows of an opcode (R67 to R73) -/

theorem eq_ofNat_of_toNat {x : BitVec w} {n : Nat} (h : x.toNat = n) : x = BitVec.ofNat w n := by
  subst h
  simp

/-- R67 to R73: a row has the opcode and the format of the body it was picked for. -/
theorem Body.pick_body {b : Body} {i : Instr} (e : b.pick = some i) : i.body = some b ∧ i.agentsExist = true := by
  obtain ⟨opc, h, f⟩ := b
  cases f <;> simp only [Body.pick, pickA, pickB, pickC, pickM, pickV, pickX] at e
  all_goals
    split at e <;> cases e
    all_goals
      next hn =>
      obtain rfl := eq_ofNat_of_toNat hn
      (repeat' split) <;> exact ⟨rfl, rfl⟩

/-- R67 to R73: the opcode of a row says its format. -/
theorem fieldsOf_of_pick {w : Word} {f : Fields} {i : Instr} (e : (bodyOf w f).pick = some i) :
    fieldsOf w = some (f.read w) := by
  unfold fieldsOf
  cases f <;> simp only [bodyOf, Body.pick, pickA, pickB, pickC, pickM, pickV, pickX] at e
  all_goals
    split at e <;> cases e
    all_goals
      next hn => rw [hn]; rfl

/-! ### Rows of one opcode (R67, R68, R70, R72, R73, R113, R225, R290) -/

/-- Where FN is 0 or 1, and tells two rows apart, the row picked is the selected one. -/
theorem rowSelected_two {fn : BitVec n} {p q : Instr} (h1 : fn.toNat ≤ 1) (hp : p.rowSelected = (fn == 0))
    (hq : q.rowSelected = (fn == 1)) : (if fn = 0 then p else q).rowSelected = true := by
  split
  · next h0 => rw [hp, beq_iff_eq.2 h0]
  · next h0 =>
    have n0 : fn.toNat ≠ 0 := mt eq_ofNat_of_toNat h0
    rw [hq]
    exact beq_iff_eq.2 (eq_ofNat_of_toNat (n := 1) (by omega))

/-- Where FN is 0, 1 or 2, and tells three rows apart, the row picked is the selected one. -/
theorem rowSelected_three {fn : BitVec n} {p q r : Instr} (h2 : fn.toNat ≤ 2) (hp : p.rowSelected = (fn == 0))
    (hq : q.rowSelected = (fn == 1)) (hr : r.rowSelected = (fn == 2)) :
    (if fn = 0 then p else if fn = 1 then q else r).rowSelected = true := by
  split
  · next h0 => rw [hp, beq_iff_eq.2 h0]
  split
  · next h1 => rw [hq, beq_iff_eq.2 h1]
  · next h0 h1 =>
    have n0 : fn.toNat ≠ 0 := mt eq_ofNat_of_toNat h0
    have n1 : fn.toNat ≠ 1 := mt eq_ofNat_of_toNat h1
    rw [hr]
    exact beq_iff_eq.2 (eq_ofNat_of_toNat (n := 2) (by omega))

/-- R72, R73: of formats A and E, BAR has three rows and eight more opcodes have two. -/
theorem pickA_selected {opc h o i} (e : pickA opc h o = some i) (hl : Rows.illegalA opc o = false) :
    i.rowSelected = true := by
  unfold pickA at e
  split at e <;> cases e
  any_goals rfl
  -- BAR, the 54th opcode of `pickA`
  case h_54.refl hn => exact rowSelected_three (by simpa [Rows.illegalA, hn] using hl) rfl rfl rfl
  all_goals
    next hn => exact rowSelected_two (by simpa [Rows.illegalA, hn] using hl) rfl rfl

/-- R104: LI has three rows. -/
theorem pickB_selected {opc h o i} (e : pickB opc h o = some i) (hl : Rows.illegalB opc o = false) :
    i.rowSelected = true := by
  unfold pickB at e
  split at e <;> cases e
  any_goals rfl
  next hn => exact rowSelected_three (by simpa [Rows.illegalB, hn] using hl) rfl rfl rfl

/-- R67: four opcodes of format C have two rows. -/
theorem pickC_selected {opc h o i} (e : pickC opc h o = some i) : i.rowSelected = true := by
  unfold pickC at e
  split at e <;> cases e
  any_goals rfl
  all_goals exact rowSelected_two (Nat.le_of_lt_succ o.fn.isLt) rfl rfl

/-- R290: FNM and ORD tell the fences apart: with FNM 0, ORD is not 0. -/
theorem pickM_selected {opc h o i} (e : pickM opc h o = some i) (hl : Rows.illegalM opc o = false) :
    i.rowSelected = true := by
  unfold pickM at e
  split at e <;> cases e
  any_goals rfl
  next hn =>
  split
  · next h1 => exact beq_iff_eq.2 h1
  split
  · next h2 => exact beq_iff_eq.2 h2
  next h1 h2 =>
  have h1 : ¬o.fnm = 1#4 := h1
  have h2 : ¬o.fnm = 2#4 := h2
  obtain ⟨-, h0, hord⟩ : o.scp.toNat ≤ 4 ∧ o.fnm = 0 ∧ o.ord ≠ 0 := by
    simpa [Rows.illegalM, hn, h1, h2] using hl
  split
  · next ho => simp [Instr.rowSelected, h0, ho]
  split
  · next ho => simp [Instr.rowSelected, h0, ho]
  · have h3 : o.ord = 3 := by bv_omega
    simp [Instr.rowSelected, h0, h3]

/-- R225: bit 3 of FN tells EPUSH.hdr from EPUSH. -/
theorem pickV_selected {opc h o i} (e : pickV opc h o = some i) : i.rowSelected = true := by
  unfold pickV at e
  split at e <;> cases e
  any_goals rfl
  split
  · next h3 => exact h3
  · next h3 => exact Bool.not_eq_true' _ ▸ eq_false_of_ne_true h3

/-- R113, R121: the writes of WHEEL are rows of their own. -/
theorem pickX_selected {opc h o i} (e : pickX opc h o = some i) : i.rowSelected = true := by
  unfold pickX at e
  split at e <;> cases e
  any_goals rfl
  all_goals
    split
    · next h8 => exact beq_iff_eq.2 h8
    · next h8 => exact bne_iff_ne.2 h8

/-- R74: a body with no reserved value is that of the row it picks, and of no other row of its opcode. -/
theorem Body.pick_selected {b : Body} {i : Instr} (e : b.pick = some i) (hl : b.illegal = false) :
    i.rowSelected = true := by
  obtain ⟨opc, h, f⟩ := b
  cases f with
  | a => exact pickA_selected e hl
  | b => exact pickB_selected e hl
  | c => exact pickC_selected e
  | m => exact pickM_selected e hl
  | v => exact pickV_selected e
  | x => exact pickX_selected e

open Laws.WordShape in
/-- The body of a word row picks that row: one of several rows of its opcode as it is selected, and otherwise the only
one. -/
theorem Body.pick_of_body {b : Body} {i : Instr} (hb : i.body = some b) (hr : i.rowSelected = true) :
    b.pick = some i := by
  cases i with
  | loop => exact loop _ _ b hb hr
  | loopImm => exact loopImm _ _ b hb hr
  | waitc => exact waitc _ _ b hb hr
  | waitcImm => exact waitcImm _ _ b hb hr
  | rft => exact rft _ _ b hb hr
  | rftNext => exact rftNext _ _ b hb hr
  | chkp => exact chkp _ _ b hb hr
  | chkpImm => exact chkpImm _ _ b hb hr
  | li => exact li _ _ b hb hr
  | liZ => exact liZ _ _ b hb hr
  | liH => exact liH _ _ b hb hr
  | mtsr => exact mtsr _ _ b hb hr
  | srset => exact srset _ _ b hb hr
  | srclr => exact srclr _ _ b hb hr
  | wheelWrite => exact wheelWrite _ _ _ b hb hr
  | fenceAcq => exact fenceAcq _ _ b hb hr
  | fenceRel => exact fenceRel _ _ b hb hr
  | fenceAr => exact fenceAr _ _ b hb hr
  | fenceSc => exact fenceSc _ _ b hb hr
  | fenceLayer => exact fenceLayer _ _ b hb hr
  | epush => exact epush _ _ b hb hr
  | epushHdr => exact epushHdr _ _ b hb hr
  | lstop => exact lstop _ _ b hb hr
  | lstopQ => exact lstopQ _ _ b hb hr
  | gateClose => exact gateClose _ _ b hb hr
  | gateOpen => exact gateOpen _ _ b hb hr
  | bindCh => exact bindCh _ _ b hb hr
  | bindUn => exact bindUn _ _ b hb hr
  | skewRd => exact skewRd _ _ b hb hr
  | skewWr => exact skewWr _ _ b hb hr
  | dmapFacet => exact dmapFacet _ _ b hb hr
  | dmapCore => exact dmapCore _ _ b hb hr
  | barAw => exact barAw _ _ b hb hr
  | barA => exact barA _ _ b hb hr
  | barW => exact barW _ _ b hb hr
  | gwait => exact gwait _ _ b hb hr
  | gwaitAll => exact gwaitAll _ _ b hb hr
  | gstatFree => exact gstatFree _ _ b hb hr
  | gstatDone => exact gstatDone _ _ b hb hr
  | qntE8l => exact qntE8l _ _ b hb hr
  | qntFq4 => exact qntFq4 _ _ b hb hr
  | _ => cases hb <;> rfl

/-! ### The decoder and the encoder -/

/-- R74: what the decoder accepts. -/
theorem decodeWord_eq_ok_iff {w : Word} {i : Instr} : decodeWord w = .ok i ↔
    ∃ f, fieldsOf w = some f ∧ (bodyOf w f).illegal = false ∧ (bodyOf w f).reserved = false ∧
      w.getLsbD 48 = false ∧ (bodyOf w f).pick = some i := by
  unfold decodeWord
  cases fieldsOf w with
  | none => simp
  | some f =>
    simp only [Option.some.injEq, exists_eq_left', bodyOf]
    generalize Body.mk _ _ f = b, w.getLsbD 48 = z
    split
    · next hl => simp [hl]
    split
    · next hz =>
      simp only [reduceCtorEq, false_iff]
      rintro ⟨-, hr, h48, -⟩
      simp [hr, h48] at hz
    · next hl hz =>
      obtain ⟨hr, h48⟩ := Bool.or_eq_false_iff.1 (Bool.not_eq_true _ ▸ hz)
      cases hp : b.pick <;> simp [hl, hr, h48]

/-- R63, R74: a word row is well formed where its body is legal and its own. -/
theorem wellFormed_iff {i : Instr} {b : Body} (hb : i.body = some b) : i.wellFormed = true ↔
    i.rowSelected = true ∧ i.agentsExist = true ∧ b.illegal = false ∧ b.reserved = false := by
  simp [Instr.wellFormed, hb, and_assoc]

/-- Settles O3: a word's opcode, header and fields read back (`Body.bodyOf_word`, `Fields.read_append`), and its body
picks its row (`Body.pick_of_body`). -/
theorem decodeInvertsEncode : Obligations.DecodeInvertsEncode := by
  intro i w hw he
  obtain ⟨b, hb, rfl⟩ := Option.map_eq_some_iff.1 he
  obtain ⟨hrow, -, hl, hz⟩ := (wellFormed_iff hb).1 hw
  have hp : b.pick = some i := Body.pick_of_body hb hrow
  have hf : fieldsOf b.word = some b.fields := by
    rw [fieldsOf_of_pick (f := b.fields) (by rw [Body.bodyOf_word, hp])]
    exact congrArg some (Fields.read_append _ _)
  refine decodeWord_eq_ok_iff.2 ⟨b.fields, hf, ?_⟩
  rw [Body.bodyOf_word]
  exact ⟨hl, hz, b.word_bit48, hp⟩

/-- Settles O4: a word that decodes is the word of its body (`bodyOf_read_word`), which is the body of the row that was
picked (`Body.pick_body`, `Body.pick_selected`). -/
theorem encodeInvertsDecode : Obligations.EncodeInvertsDecode := by
  intro w i hd
  obtain ⟨f, hf, hl, hz, h48, hp⟩ := decodeWord_eq_ok_iff.1 hd
  obtain ⟨hb, hagents⟩ := Body.pick_body hp
  have hw : (bodyOf w f).word = w := by
    rw [← read_of_fieldsOf hf, bodyOf_read_word f h48]
  refine ⟨?_, (wellFormed_iff hb).2 ⟨Body.pick_selected hp hl, hagents, hl, hz⟩⟩
  rw [encode, hb, Option.map_some, hw]

/-- Settles O5: the decoder evaluates each of the seven words to its instruction. -/
theorem wordsOfTheSpecDecode : Obligations.WordsOfTheSpecDecode :=
  ⟨rfl, rfl, rfl, rfl, rfl, rfl, rfl⟩

end Sys2Proof
end

section
/-! SUPPORT. Words that only pass, predicates that words write, and the words of the system registers (R61, R66, R74,
R97, R103, R113, R357). -/

namespace Sys2Proof.Machine

/-! ### Words that pass -/

@[simp] theorem State.passed_turn (s : State) : s.passed.me.turn = s.me.turn := by
  rw [State.passed_me, Slot.advance_turn]

/-- Two changes of the slot whose turn it is that do the same to it. -/
theorem State.modMe_congr {s : State} {f g : Slot → Slot} (e : f s.me = g s.me) : s.modMe f = s.modMe g := by
  rw [State.modMe_eq, State.modMe_eq, e]

/-- Settles O6: each word is its body under the guard; CHKP's change of the budget may as well come after the word has
passed (`State.retire_modMe`). -/
theorem nopChkpWaitcComplete : Obligations.NopChkpWaitcComplete := by
  intro s h o hg
  have done {body : State → State} {t : State} (e : body s = t) : word h s body = .next t :=
    (word_of_guard body hg).trans (congrArg _ e)
  have reload : s.passed.me.reload = s.me.reload := by rw [State.passed_me, Slot.advance_reload]
  refine ⟨done rfl, done ?chkp, done ?chkpImm, done ?waitc, done ?waitcImm⟩
  case chkp =>
    rw [State.retire_modMe s _ rfl rfl rfl rfl rfl fun _ _ _ _ => rfl]
    exact State.modMe_congr (by rw [reload])
  case chkpImm => exact State.retire_modMe s _ rfl rfl rfl rfl rfl fun _ _ _ _ => rfl
  case waitc => exact State.modMe_congr (by rw [State.retire_eq, State.passed_turn]; rfl)
  case waitcImm => exact State.modMe_congr (by rw [State.retire_eq, State.passed_turn])

/-! ### Predicates -/

/-- R103: PLOG's predicate is the bit of FN that its two sources number. -/
theorem lut4_eq_getLsbD (fn : BitVec w) (a b : Bool) : lut4 fn.toNat a b = fn.getLsbD (2 * a.toNat + b.toNat) := by
  have bit (i : Nat) : nbit fn.toNat i = fn.getLsbD i := by
    rw [← BitVec.testBit_toNat, Nat.testBit_eq_decide_div_mod_eq]; rfl
  cases a <;> cases b <;> exact bit _

/-- Settles O18: each word is one result under the guard; the ten conditions are those of `intCond`, and PLOG's table is
`lut4_eq_getLsbD`. -/
theorem comparisonsWriteAPredicate : Obligations.ComparisonsWriteAPredicate := by
  intro s h o q hg holds
  have writes {body : State → State} {r : BitVec 3} {u v : Bool} (e : u = v)
      (hb : body s = s.result 1 [.p r u]) : word h s body = .next (s.issued 1 [.p r v]) := by
    rw [word_of_guard body hg, hb, e, State.result_eq]
  have cond {c : Nat} {a b : Word} {v : Bool} (e : holds c a b = some v) : intCond c a b = v := by
    dsimp only [holds] at e
    split at e <;> cases e
    case h_2 => exact (decide_not (p := a = b)).symm
    all_goals rfl
  exact ⟨fun v e => writes (cond e) rfl, fun v e => writes (cond e) rfl, writes (lut4_eq_getLsbD _ _ _) rfl⟩

/-! ### System registers -/

/-- R74: the supervisor's registers are 0x080 to 0x0FF. -/
theorem srnSupervisor_iff (n : BitVec 12) : Rows.srnSupervisor n = true ↔ 0x80 ≤ n.toNat ∧ n.toNat ≤ 0xFF := by
  simp [Rows.srnSupervisor]

/-- R113: an access to a register of the task runs under its guard. -/
theorem srWord_of_guard {s : State} {h : Hdr} {o : FmtX} (body : State → State) (hg : s.me.guard h = true)
    (hn : ¬(0x80 ≤ o.srn.toNat ∧ o.srn.toNat ≤ 0xFF)) : srWord h o s body = .next (body s) := by
  rw [srWord, if_neg (mt (srnSupervisor_iff _).1 hn)]
  exact word_of_guard body hg

/-- R74: an access to a supervisor's register, whatever the word's guard. -/
theorem srWord_supervisor {s : State} {h : Hdr} {o : FmtX} (body : State → State) (hh : s.me.h = false)
    (hn : 0x80 ≤ o.srn.toNat ∧ o.srn.toNat ≤ 0xFF) :
    srWord h o s body = .next (s.faulted 0x03 0 (s.wordAt s.cur)) := by
  rw [srWord, if_pos ((srnSupervisor_iff _).2 hn), State.precise_eq _ _ _ _ hh]

/-- Settles O21: a register of the task is one result under the guard (`srWord_of_guard`), a supervisor's register the
fault (`srWord_supervisor`). -/
theorem systemRegisterRowsComplete : Obligations.SystemRegisterRowsComplete := by
  refine ⟨fun s h o hg hn => ?_, fun s h o hh hlo hhi i hi => ?_⟩
  · have writes {w : Write} {body : State → State} (hb : body s = s.result 1 [w]) :
        srWord h o s body = .next (s.issued 1 [w]) := by
      rw [srWord_of_guard body hg hn, hb, State.result_eq]
    exact ⟨writes rfl, writes rfl, writes rfl, writes rfl⟩
  · rcases hi with rfl | rfl | rfl | rfl <;> exact srWord_supervisor _ hh ⟨hlo, hhi⟩

end Sys2Proof.Machine
end

section
/-! SUPPORT. The loop unit: the innermost level, its end word, the levels that a branch leaves, LOOP, and the return
from a handler (R92 to R96, R356). -/

namespace Sys2Proof.Machine

/-! ### The innermost level -/

theorem LoopLevel.active_iff {l : LoopLevel} : l.active = true ↔ l.remaining ≠ 0 := bne_iff_ne

theorem LoopLevel.active_of_zero {l : LoopLevel} (h : l.remaining = 0) : l.active = false :=
  eq_false_of_ne_true fun a => LoopLevel.active_iff.1 a h

theorem Slot.innermost_two {sl : Slot} (h2 : sl.loop2.remaining ≠ 0) : sl.innermost = some (true, sl.loop2) :=
  if_pos (LoopLevel.active_iff.2 h2)

theorem Slot.innermost_one {sl : Slot} (h2 : sl.loop2.remaining = 0) (h1 : sl.loop1.remaining ≠ 0) :
    sl.innermost = some (false, sl.loop1) := by
  rw [Slot.innermost, LoopLevel.active_of_zero h2, LoopLevel.active_iff.2 h1]
  rfl

theorem Slot.innermost_none {sl : Slot} (h2 : sl.loop2.remaining = 0) (h1 : sl.loop1.remaining = 0) :
    sl.innermost = none := by
  rw [Slot.innermost, LoopLevel.active_of_zero h2, LoopLevel.active_of_zero h1]
  rfl

/-- With the inner level inactive, a word at which the outer one is not active or does not end is no end word. -/
theorem Slot.innermost_one_stop_ne {sl : Slot} (h2 : sl.loop2.remaining = 0)
    (h1 : sl.loop1.remaining = 0 ∨ sl.loop1.stop ≠ sl.pc) :
    ∀ p, sl.innermost = some p → p.2.stop ≠ sl.pc := by
  intro p hp
  by_cases h : sl.loop1.remaining = 0
  · rw [Slot.innermost_none h2 h] at hp
    cases hp
  · rw [Slot.innermost_one h2 h] at hp
    cases hp
    exact h1.resolve_left h

/-! ### The end word (R94) -/

theorem atEndWord_elsewhere {sl : Slot} (n : Nat) (h : ∀ p, sl.innermost = some p → p.2.stop ≠ sl.pc) :
    atEndWord n sl = { sl with pc := sl.pc + 1 } := by
  cases n with
  | zero => rfl
  | succ n =>
    unfold atEndWord
    split
    · rfl
    · next two l hp => rw [if_neg (h _ hp)]

theorem atEndWord_repeats {sl : Slot} {two : Bool} {l : LoopLevel} (n : Nat) (hi : sl.innermost = some (two, l))
    (hs : l.stop = sl.pc) (hr : 1 < l.remaining.toNat) :
    atEndWord (n + 1) sl = { sl.setLevel two { l with remaining := l.remaining - 1 } with pc := l.start } := by
  unfold atEndWord
  simp only [hi, hs, if_true, if_pos hr]

theorem atEndWord_pops {sl : Slot} {two : Bool} {l : LoopLevel} (n : Nat) (hi : sl.innermost = some (two, l))
    (hs : l.stop = sl.pc) (hr : l.remaining = 1) :
    atEndWord (n + 1) sl = atEndWord n (sl.setLevel two { l with remaining := 0 }) := by
  have last : ¬1 < l.remaining.toNat := by simp [hr]
  rw [atEndWord, hi]
  simp only [hs, if_true, if_neg last]

theorem Slot.advance_outside {sl : Slot} (hh : sl.h = false) : sl.advance = atEndWord 2 sl := by
  simp [Slot.advance, hh]

theorem State.passed_me_outside {s : State} (hh : s.me.h = false) {u : Slot} (hu : atEndWord 2 s.me = u) :
    s.passed.me.pc = u.pc ∧ s.passed.me.loop1 = u.loop1 ∧ s.passed.me.loop2 = u.loop2 := by
  rw [State.passed_me, Slot.advance_outside hh, hu]
  exact ⟨rfl, rfl, rfl⟩

/-- Settles O10: the innermost level of each case repeats (`atEndWord_repeats`), is popped, which leaves the outer one
the innermost (`atEndWord_pops`), or does not end here (`atEndWord_elsewhere`). -/
theorem endWordsRepeatTheBody : Obligations.EndWordsRepeatTheBody := by
  intro s hh sl to_
  have active {r : Word} (hr : 1 < r.toNat) : r ≠ 0 := by rintro rfl; simp at hr
  have one_ne {r : Word} (hr : r = 1) : r ≠ 0 := by rintro rfl; cases hr
  refine ⟨fun h2 hs => ?_, fun h2 hs => ?_, fun h2 hs h1 hs1 => ?_, fun h2 hs h1 => ?_, fun h2 h1 hs => ?_,
    fun h2 h1 hs => ?_, fun h2 h1 => ?_⟩
  · refine State.passed_me_outside hh (atEndWord_elsewhere 2 fun p hp => ?_)
    rw [Slot.innermost_two h2] at hp
    cases hp
    exact hs
  · exact State.passed_me_outside hh (atEndWord_repeats 1 (Slot.innermost_two (active h2)) hs h2)
  · exact State.passed_me_outside hh ((atEndWord_pops 1 (Slot.innermost_two (one_ne h2)) hs h2).trans
      (atEndWord_repeats 0 (Slot.innermost_one rfl (active h1)) hs1 h1))
  · exact State.passed_me_outside hh ((atEndWord_pops 1 (Slot.innermost_two (one_ne h2)) hs h2).trans
      (atEndWord_elsewhere 1 (Slot.innermost_one_stop_ne rfl h1)))
  · exact State.passed_me_outside hh (atEndWord_repeats 1 (Slot.innermost_one h2 (active h1)) hs h1)
  · exact State.passed_me_outside hh ((atEndWord_pops 1 (Slot.innermost_one h2 (one_ne h1)) hs h1).trans
      (atEndWord_elsewhere 1 (Slot.innermost_one_stop_ne h2 (.inl rfl))))
  · exact State.passed_me_outside hh (atEndWord_elsewhere 2 (Slot.innermost_one_stop_ne h2 h1))

/-! ### Levels that a branch leaves (R95) -/

/-- R95: a level is active and its body does not hold the target of a branch. -/
abbrev LoopLevel.Left (l : LoopLevel) (tgt : Word) : Prop :=
  l.remaining ≠ 0 ∧ (tgt.toNat < l.start.toNat ∨ l.stop.toNat < tgt.toNat)

/-- R95: a level that has been popped. -/
abbrev LoopLevel.popped (l : LoopLevel) : LoopLevel := { l with remaining := 0 }

/-- R95: the levels after a taken BR or JMP: the outer one is tested where the inner one is inactive or left. -/
theorem Slot.popLoops_outside {sl : Slot} (hh : sl.h = false) {tgt : Word} (ht : tgt.toNat ≤ 16383) :
    (sl.popLoops (tgt.setWidth 14)).loop2 = (if sl.loop2.Left tgt then sl.loop2.popped else sl.loop2) ∧
      (sl.popLoops (tgt.setWidth 14)).loop1 =
        if (sl.loop2.remaining = 0 ∨ sl.loop2.Left tgt) ∧ sl.loop1.Left tgt then sl.loop1.popped else sl.loop1 := by
  have hpc : (tgt.setWidth 14).toNat = tgt.toNat := by
    rw [BitVec.toNat_setWidth]
    exact Nat.mod_eq_of_lt (by omega)
  have out (l : LoopLevel) : (l.active && (decide ((tgt.setWidth 14).toNat < l.start.toNat) ||
      decide (l.stop.toNat < (tgt.setWidth 14).toNat))) = decide (l.Left tgt) := by
    rw [hpc, LoopLevel.active, bne, Bool.decide_and, Bool.decide_or, decide_not]
    rfl
  have idle : (!sl.loop2.active) = decide (sl.loop2.remaining = 0) := Bool.not_not _
  simp only [Slot.popLoops, hh, Bool.false_eq_true, if_false, out, Bool.and_assoc, idle, Bool.and_eq_true,
    decide_eq_true_eq]
  by_cases h2 : sl.loop2.Left tgt
  · by_cases h1 : sl.loop1.Left tgt
    · simp only [if_pos h2, if_pos h1, if_pos (And.intro (Or.inr h2) h1), and_self]
    · simp only [if_pos h2, if_neg h1, if_neg (mt And.right h1), and_self]
  · by_cases h1 : sl.loop2.remaining = 0 ∧ sl.loop1.Left tgt
    · simp only [if_neg h2, if_pos h1, if_pos (And.intro (Or.inl h1.1) h1.2), and_self]
    · have h1' : ¬((sl.loop2.remaining = 0 ∨ sl.loop2.Left tgt) ∧ sl.loop1.Left tgt) := by
        rintro ⟨h | h, hl⟩
        · exact h1 ⟨h, hl⟩
        · exact h2 h
      simp only [if_neg h2, if_neg h1, if_neg h1', and_self]

/-- What a word leaves of the loop levels is what it leaves in its slot. -/
theorem gives_loops {i : Instr} {s : State} {x : Slot} {a b : LoopLevel} (e : exec i s = .next (s.setSlot s.cur x))
    (h1 : x.loop1 = a) (h2 : x.loop2 = b) : Gives i s fun t => t.me.loop1 = a ∧ t.me.loop2 = b := by
  refine ⟨_, e, ?_⟩
  dsimp only
  rw [State.me_setSlot_cur]
  exact ⟨h1, h2⟩

/-- Settles O8: the levels that a BR or JMP leaves are those of `Slot.popLoops_outside`; a call and a return keep them
(`State.goto_link`, `State.goto_plain`). -/
theorem takenBranchLeavesLoops : Obligations.TakenBranchLeavesLoops := by
  intro s h o tgt hg hh ht rel ind outside popped l1 l2 ends leaves
  obtain ⟨e2, e1⟩ := Slot.popLoops_outside hh ht
  have both {a b : LoopLevel} (h1 : (s.me.popLoops (tgt.setWidth 14)).loop1 = a)
      (h2 : (s.me.popLoops (tgt.setWidth 14)).loop2 = b) : leaves a b := by
    have goes {i : Instr} (e : exec i s = .next (s.goto tgt none true)) : ends i a b :=
      gives_loops (e.trans (congrArg _ (State.goto_pops ht))) h1 h2
    exact ⟨fun e => goes (e ▸ word_of_guard _ hg), fun e => goes (e ▸ word_of_guard _ hg)⟩
  have links {i : Instr} (e : exec i s = .next (s.goto tgt (some o.rd) false)) : ends i l1 l2 :=
    gives_loops (e.trans (congrArg _ (State.goto_link _ ht))) rfl rfl
  have returns (e : exec (.ret h o) s = .next (s.goto tgt none false)) : ends (.ret h o) l1 l2 :=
    gives_loops (e.trans (congrArg _ (State.goto_plain ht))) rfl rfl
  refine ⟨fun a2 i2 => ?_, fun a2 o2 n1 => ?_, fun a2 o2 a1 o1 => ?_, fun n2 a1 o1 => ?_, fun n2 n1 => ?_,
    fun e => links (e ▸ word_of_guard _ hg), fun e => links (e ▸ word_of_guard _ hg),
    fun e => returns (e ▸ word_of_guard _ hg)⟩
  · exact both (e1.trans (if_neg fun c => c.1.elim a2 fun c2 => i2 c2.2)) (e2.trans (if_neg fun c2 => i2 c2.2))
  · exact both (e1.trans (if_neg fun c => n1 c.2)) (e2.trans (if_pos ⟨a2, o2⟩))
  · exact both (e1.trans (if_pos ⟨.inr ⟨a2, o2⟩, a1, o1⟩)) (e2.trans (if_pos ⟨a2, o2⟩))
  · exact both (e1.trans (if_pos ⟨.inl n2, a1, o1⟩)) (e2.trans (if_neg fun c2 => c2.1 n2))
  · exact both (e1.trans (if_neg fun c => n1 c.2)) (e2.trans (if_neg fun c2 => c2.1 n2))

/-! ### LOOP (R93) -/

/-- R93: the body that ends at `e` leaves the active level in which its LOOP stands. -/
abbrev LoopLevel.LeftFrom (l : LoopLevel) (pc e : Nat) : Prop :=
  l.remaining ≠ 0 ∧ l.start.toNat ≤ pc ∧ pc ≤ l.stop.toNat ∧ l.stop.toNat < e

theorem Slot.badNesting_iff (sl : Slot) (e : Nat) : sl.badNesting e = true ↔
    sl.loop2.LeftFrom sl.pc.toNat e ∨ (sl.loop2.remaining = 0 ∧ sl.loop1.LeftFrom sl.pc.toNat e) := by
  have inner (l : LoopLevel) : (decide (l.start.toNat ≤ sl.pc.toNat) && decide (sl.pc.toNat ≤ l.stop.toNat) &&
      decide (l.stop.toNat < e)) = true ↔
        l.start.toNat ≤ sl.pc.toNat ∧ sl.pc.toNat ≤ l.stop.toNat ∧ l.stop.toNat < e := by
    simp only [Bool.and_eq_true, decide_eq_true_eq, and_assoc]
  unfold Slot.badNesting
  by_cases h2 : sl.loop2.remaining = 0
  · by_cases h1 : sl.loop1.remaining = 0
    · rw [Slot.innermost_none h2 h1]
      simp only [LoopLevel.LeftFrom, h1, h2, ne_eq, not_true_eq_false, false_and, and_false, or_self,
        Bool.false_eq_true]
    · rw [Slot.innermost_one h2 h1]
      simp only [LoopLevel.LeftFrom, inner, h1, h2, ne_eq, not_true_eq_false, not_false_eq_true, false_and, true_and,
        false_or]
  · rw [Slot.innermost_two h2]
    simp only [LoopLevel.LeftFrom, inner, h2, ne_eq, not_false_eq_true, true_and, false_and, or_false]

/-- R93: a LOOP that would open a third level. -/
abbrev Slot.Third (sl : Slot) (count : Word) : Prop :=
  count ≠ 0 ∧ sl.loop1.remaining ≠ 0 ∧ sl.loop2.remaining ≠ 0

/-- R93: what makes a LOOP take 0x04. -/
theorem loopRefused_iff (s : State) (count : Word) (e : Nat) :
    (s.me.badNesting e || s.me.h || (count != 0 && s.me.loop1.active && s.me.loop2.active)) = true ↔
      s.me.badNesting e = true ∨ s.me.h = true ∨ s.me.Third count := by
  simp only [Bool.or_eq_true, Bool.and_eq_true, bne_iff_ne, LoopLevel.active_iff, or_assoc, and_assoc]

theorem State.loopWord_refused {s : State} {count : Word} {off : BitVec 32}
    (h : s.me.badNesting (s.me.pc.toNat + off.toNat) = true ∨ s.me.h = true ∨ s.me.Third count) :
    s.loopWord count off = s.precise 0x04 0 2 :=
  if_pos ((loopRefused_iff s count _).2 h)

theorem State.loopWord_nested {s : State} {count : Word} {off : BitVec 32}
    (hb : ¬s.me.badNesting (s.me.pc.toNat + off.toNat) = true) (hh : s.me.h = false) (ht : ¬s.me.Third count) :
    s.loopWord count off =
      if s.me.pc.toNat + off.toNat > 16383 then s.precise 0x09 (w64 (s.me.pc.toNat + off.toNat)) 0
      else if count = 0 then
        if s.me.pc.toNat + off.toNat = 16383 then s.precise 0x09 16384 0
        else s.transfer (BitVec.ofNat 14 (s.me.pc.toNat + off.toNat + 1))
      else (s.modMe fun sl =>
        sl.pushLevel ⟨sl.pc + 1, BitVec.ofNat 14 (s.me.pc.toNat + off.toNat), count⟩).retire := by
  refine if_neg fun c => ?_
  rcases (loopRefused_iff s count _).1 c with hb' | hh' | ht'
  · exact hb hb'
  · rw [hh] at hh'
    cases hh'
  · exact ht ht'

theorem Slot.pushLevel_eq (sl : Slot) (l : LoopLevel) :
    sl.pushLevel l = if sl.loop1.remaining = 0 then { sl with loop1 := l } else { sl with loop2 := l } := by
  by_cases h : sl.loop1.remaining = 0
  · rw [Slot.pushLevel, if_neg (Bool.eq_false_iff.1 (LoopLevel.active_of_zero h)), if_pos h]
  · rw [Slot.pushLevel, if_pos (LoopLevel.active_iff.2 h), if_neg h]

/-- R13, R94: the word passes to PC + 1 where no level ends at it. -/
theorem State.passed_onward {s : State} {x : Slot} (hh : x.h = false)
    (hx : ∀ p, x.innermost = some p → p.2.stop ≠ x.pc) :
    (s.setSlot s.cur x).passed = s.setSlot s.cur { x with pc := x.pc + 1, gate := .fromTurn (x.turn + 1) } := by
  rw [State.passed, State.me_setSlot_cur, State.setSlot_cur, State.setSlot_setSlot, Slot.advance_outside hh,
    atEndWord_elsewhere 2 hx]

/-- R93: an end word in the store that is not the word of the LOOP itself. -/
theorem endWord_ne {pc : BitVec 14} {n : Nat} (h1 : 1 ≤ n) (he : pc.toNat + n ≤ 16383) :
    BitVec.ofNat 14 (pc.toNat + n) ≠ pc := by
  bv_omega

/-- Settles O9: the body of LOOP by its cases (`State.loopWord_refused`, `State.loopWord_nested`); the new level is the
innermost, and does not end at the LOOP (`State.passed_onward`). -/
theorem loopPushesALevel : Obligations.LoopPushesALevel := by
  intro s h o hg hoff l1 l2 pc e leaves misnested runs
  have bad : s.me.badNesting e = true ↔ misnested := Slot.badNesting_iff s.me e
  have all {n : Word} {i : Instr} (hi : exec i s = .next (s.loopWord n o.off)) : runs n i := by
    dsimp only [runs]
    set level : LoopLevel := ⟨s.me.pc + 1, BitVec.ofNat 14 e, n⟩
    set pushed : Slot := if l1.remaining = 0 then { s.me with loop1 := level } else { s.me with loop2 := level }
    have push : s.me.pushLevel level = pushed := Slot.pushLevel_eq s.me level
    have done {t : State} (ht : s.loopWord n o.off = t) : exec i s = .next t := hi.trans (congrArg _ ht)
    refine ⟨fun hh hm h3 he => ?_, fun hh hbad => ?_, fun hh => ?_, fun hh hm h3 he => ?_⟩
    · have nested := State.loopWord_nested (mt bad.1 hm) hh h3
      rw [if_neg (Nat.not_lt.2 he)] at nested
      refine ⟨fun hn => done ?_, fun hn he' => done ?_, fun hn he' => done ?_, fun hn hl => ?_⟩
      · rw [nested, if_neg hn, State.modMe_eq, State.retire_eq]
        exact congrArg (fun x => (s.setSlot s.cur x).passed) push
      · rw [nested, if_pos hn, if_neg he'.ne, State.transfer_eq]
      · rw [nested, if_pos hn, if_pos he', State.precise_eq _ _ _ _ hh]
      · have stop : level.stop ≠ s.me.pc := endWord_ne hoff he
        by_cases h1 : l1.remaining = 0
        · have h2 : l2.remaining = 0 := hl.resolve_left (not_not_intro h1)
          rw [show pushed = { s.me with loop1 := level } from if_pos h1]
          exact State.passed_onward hh (Slot.innermost_one_stop_ne h2 (.inr stop))
        · rw [show pushed = { s.me with loop2 := level } from if_neg h1]
          refine State.passed_onward hh fun p hp => ?_
          rw [Slot.innermost_two (sl := { s.me with loop2 := level }) hn] at hp
          cases hp
          exact stop
    · rw [← State.precise_eq _ _ _ _ hh]
      exact done (State.loopWord_refused (hbad.imp bad.2 .inr))
    · exact done (State.loopWord_refused (.inr (.inl hh)))
    · refine ⟨w64 e, done ?_⟩
      rw [State.loopWord_nested (mt bad.1 hm) hh h3, if_pos he, State.precise_eq _ _ _ _ hh]
  exact ⟨all (word_of_guard _ hg), all (word_of_guard _ hg)⟩

/-! ### The return from a handler (R96, R356) -/

theorem State.returnTo_eq (s : State) (tgt : BitVec 14) : s.returnTo tgt = s.setSlot s.cur
    { s.me with h := false, pc := tgt, gate := .fromTurn (s.me.turn + 3) } := by
  rw [State.returnTo, State.transfer_eq, State.modMe_eq, State.jumped, State.me_setSlot_cur, State.setSlot_cur,
    State.setSlot_setSlot]

/-- R356: RFT.next outside a handler. -/
theorem execRftNext_outside {s : State} {h : Hdr} (o : FmtC) (hg : s.me.guard h = true) (hh : s.me.h = false) :
    exec (.rftNext h o) s =
      .next (if s.me.epc = 16383 then s.faulted 0x09 16384 0 else s.returnTo (s.me.epc + 1)) := by
  refine (word_of_guard _ hg).trans (congrArg _ ?_)
  have once : s.me.epcRepeats = false := by rw [Slot.epcRepeats, hh]; rfl
  simp only [once, hh, Bool.not_false, and_true, Bool.false_eq_true, if_false, State.precise_eq _ _ _ _ hh]

/-- R96: RFT.next in a handler: the slot goes on as after the word at EPC. -/
theorem execRftNext_handler {s : State} {h : Hdr} (o : FmtC) (hg : s.me.guard h = true) (hh : s.me.h = true)
    (he : s.me.epc ≠ 16383) :
    exec (.rftNext h o) s = .next (s.setSlot s.cur { s.me with
      h := false, pc := s.me.afterEpc.pc, gate := .fromTurn (s.me.turn + 3)
      loop1 := s.me.afterEpc.loop1, loop2 := s.me.afterEpc.loop2 }) := by
  refine (word_of_guard _ hg).trans (congrArg _ ?_)
  simp only [he, false_and, hh, if_false, if_true]
  rw [State.returnTo_eq, State.modMe_eq, State.me_setSlot_cur, State.setSlot_cur, State.setSlot_setSlot]

/-- Settles O13: RFT and RFT.next outside a handler return to EPC and to the word after it (`State.returnTo_eq`); in a
handler the word at EPC passes (`atEndWord_elsewhere`) or repeats its body (`atEndWord_repeats`). -/
theorem returnFromFault : Obligations.ReturnFromFault := by
  intro s h o hg back
  have after : s.me.afterEpc = atEndWord 2 { s.me with h := false, pc := s.me.epc } := Slot.advance_outside rfl
  refine ⟨?_, fun hh he => ?_, fun hh he => ?_, fun hh h2 he h1 => ?_, fun hh h2 he hr hs => ?_⟩
  · exact (word_of_guard _ hg).trans (congrArg _ (State.returnTo_eq s _))
  · rw [execRftNext_outside o hg hh, if_neg he, State.returnTo_eq]
  · rw [execRftNext_outside o hg hh, if_pos he]
  · have passes := after.trans (atEndWord_elsewhere 2 (Slot.innermost_one_stop_ne h2 h1))
    rw [execRftNext_handler o hg hh he, passes]
  · have active : s.me.loop1.remaining ≠ 0 := fun h0 => by rw [h0] at hr; cases hr
    have repeats := after.trans (atEndWord_repeats 1 (Slot.innermost_one h2 active) hs hr)
    rw [execRftNext_handler o hg hh he, repeats]
    rfl

end Sys2Proof.Machine
end

section
/-! SUPPORT. The scalar integer rows: the values of their operations, and what their words come to (R99 to R104). -/

namespace Sys2Proof.Machine

/-! ### The forms (R99, R104) -/

theorem alu_issues {s : State} {h : Hdr} {o : FmtA} {f : Word → Word → Word} {v : Word} (lat : Nat)
    (hg : s.me.guard h = true) (hv : f (s.me.gr o.ra) (s.me.gr o.rb) = v) :
    alu lat h o s f = .next (s.issued lat [.g o.rd v]) := by
  rw [alu, word_of_guard _ hg, State.result_eq, hv]

theorem aluImm_issues {s : State} {h : Hdr} {o : FmtB} {f : Word → Word} {v : Word} (hg : s.me.guard h = true)
    (hv : f (s.me.gr o.ra) = v) : aluImm h o s f = .next (s.issued 1 [.g o.rd v]) := by
  rw [aluImm, word_of_guard _ hg, State.result_eq, hv]

/-! ### Sums and products (R100) -/

theorem sub_eq_ofInt (a b : Word) : a - b = BitVec.ofInt 64 (a.toInt - b.toInt) := by
  rw [Int.sub_eq_add_neg, BitVec.ofInt_add, BitVec.ofInt_neg, BitVec.ofInt_toInt, BitVec.ofInt_toInt,
    ← BitVec.sub_eq_add_neg]

theorem mul_eq_ofNat (a b : Word) : a * b = BitVec.ofNat 64 (a.toNat * b.toNat) := by
  rw [BitVec.ofNat_mul, BitVec.ofNat_toNat, BitVec.ofNat_toNat, BitVec.setWidth_eq, BitVec.setWidth_eq]

/-- R100: MULH by FN. -/
theorem mulHigh_eq (a b : Word) :
    mulHigh 0 a b = BitVec.ofInt 64 (a.toInt * b.toInt / 2 ^ 64) ∧
      mulHigh 1 a b = BitVec.ofNat 64 (a.toNat * b.toNat / 2 ^ 64) ∧
      mulHigh 2 a b = BitVec.ofInt 64 (a.toInt * b.toNat / 2 ^ 64) := by
  refine ⟨by simp [mulHigh], ?_, by simp [mulHigh]⟩
  rw [← BitVec.ofInt_natCast]
  simp [mulHigh]

theorem shiftLeft_eq_ofNat (a : Word) (n : Nat) : a <<< n = BitVec.ofNat 64 (a.toNat * 2 ^ n) := by
  apply BitVec.eq_of_toNat_eq
  rw [BitVec.toNat_shiftLeft, Nat.shiftLeft_eq, BitVec.toNat_ofNat]

/-- R103: LEA's scaled index. -/
theorem shiftLeft_eq_mul (b : Word) (n : Nat) : b <<< n = b * BitVec.ofNat 64 (2 ^ n) := by
  rw [shiftLeft_eq_ofNat, BitVec.ofNat_mul, BitVec.ofNat_toNat, BitVec.setWidth_eq]

/-- Settles O14: each row is one operation under the guard (`alu_issues`), whose value is arithmetic on the operands. -/
theorem integerArithmetic : Obligations.IntegerArithmetic := by
  intro s h o hg a b gives
  obtain ⟨signed, unsigned, mixed⟩ := mulHigh_eq a b
  have lea : a + (b <<< o.fn.toNat) + sext20 o.imm =
      a + b * BitVec.ofNat 64 (2 ^ o.fn.toNat) + o.imm.signExtend 64 := by rw [shiftLeft_eq_mul]; rfl
  refine ⟨?add, ?sub, ?mul, fun hf => ?mulhS, fun hf => ?mulhU, fun hf => ?mulhSU, fun _ => ?lea⟩
  case add => exact show execAdd h o s = _ from alu_issues 1 hg (BitVec.add_def a b)
  case sub => exact show execSub h o s = _ from alu_issues 1 hg (sub_eq_ofInt a b)
  case mul => exact show execMul h o s = _ from alu_issues 3 hg (mul_eq_ofNat a b)
  case mulhS => exact show execMulh h o s = _ from alu_issues 3 hg (by rw [hf]; exact signed)
  case mulhU => exact show execMulh h o s = _ from alu_issues 3 hg (by rw [hf]; exact unsigned)
  case mulhSU => exact show execMulh h o s = _ from alu_issues 3 hg (by rw [hf]; exact mixed)
  case lea => exact show execLea h o s = _ from alu_issues 1 hg lea

/-! ### Logic, shifts, minima and maxima (R100) -/

theorem bits_low (x : BitVec w) (n : Nat) : bits x 0 n = x.toNat % 2 ^ n := by
  rw [bits, BitVec.extractLsb'_toNat, Nat.shiftRight_zero]

theorem amount_eq (b : Word) : amount b = b.toNat % 64 := bits_low b 6

theorem ushiftRight_eq_ofNat (a : Word) (n : Nat) : a >>> n = BitVec.ofNat 64 (a.toNat / 2 ^ n) := by
  rw [← Nat.shiftRight_eq_div_pow, ← BitVec.toNat_ushiftRight, BitVec.ofNat_toNat, BitVec.setWidth_eq]

theorem sshiftRight_eq_ofInt (a : Word) (n : Nat) : a.sshiftRight n = BitVec.ofInt 64 (a.toInt / 2 ^ n) := by
  rw [BitVec.sshiftRight, Int.shiftRight_eq_div_pow]
  norm_cast

theorem min_signed (a b : Word) : (if a.sle b then a else b) = BitVec.ofInt 64 (min a.toInt b.toInt) := by
  simp only [BitVec.sle_iff_toInt_le, min_def, apply_ite (BitVec.ofInt 64), BitVec.ofInt_toInt]

theorem max_signed (a b : Word) : (if a.sle b then b else a) = BitVec.ofInt 64 (max a.toInt b.toInt) := by
  simp only [BitVec.sle_iff_toInt_le, max_def, apply_ite (BitVec.ofInt 64), BitVec.ofInt_toInt]

theorem min_unsigned (a b : Word) : (if a.ule b then a else b) = BitVec.ofNat 64 (min a.toNat b.toNat) := by
  simp only [BitVec.ule_iff_toNat_le, min_def, apply_ite (BitVec.ofNat 64), BitVec.ofNat_toNat, BitVec.setWidth_eq]

theorem max_unsigned (a b : Word) : (if a.ule b then b else a) = BitVec.ofNat 64 (max a.toNat b.toNat) := by
  simp only [BitVec.ule_iff_toNat_le, max_def, apply_ite (BitVec.ofNat 64), BitVec.ofNat_toNat, BitVec.setWidth_eq]

/-- Settles O16: each row is one operation under the guard (`alu_issues`); the shifts are by `amount_eq`. -/
theorem integerLogicAndShifts : Obligations.IntegerLogicAndShifts := by
  intro s h o hg a b n gives
  have hn : amount b = n := amount_eq b
  have fn1 (hf : o.fn = 1) : o.fn ≠ 0 := by rw [hf]; decide
  refine ⟨?and, ?or, ?xor, ?andn, ?shl, ?shr, ?sar, fun hf => ?ror, fun hf => ?rol, fun hf => ⟨?minS, ?maxS⟩,
    fun hf => ⟨?minU, ?maxU⟩⟩
  case and => exact show execAndG h o s = _ from alu_issues 1 hg rfl
  case or => exact show execOrG h o s = _ from alu_issues 1 hg rfl
  case xor => exact show execXorG h o s = _ from alu_issues 1 hg rfl
  case andn => exact show execAndn h o s = _ from alu_issues 1 hg rfl
  case shl => exact show execShl h o s = _ from alu_issues 1 hg (hn ▸ shiftLeft_eq_ofNat a _)
  case shr => exact show execShr h o s = _ from alu_issues 1 hg (hn ▸ ushiftRight_eq_ofNat a _)
  case sar => exact show execSar h o s = _ from alu_issues 1 hg (hn ▸ sshiftRight_eq_ofInt a _)
  case ror => exact show execRot h o s = _ from alu_issues 1 hg (by rw [if_pos hf, hn])
  case rol => exact show execRot h o s = _ from alu_issues 1 hg (by rw [if_neg (fn1 hf), hn])
  case minS => exact show execMinG h o s = _ from alu_issues 1 hg (by rw [if_pos hf]; exact min_signed a b)
  case maxS => exact show execMaxG h o s = _ from alu_issues 1 hg (by rw [if_pos hf]; exact max_signed a b)
  case minU => exact show execMinG h o s = _ from alu_issues 1 hg (by rw [if_neg (fn1 hf)]; exact min_unsigned a b)
  case maxU => exact show execMaxG h o s = _ from alu_issues 1 hg (by rw [if_neg (fn1 hf)]; exact max_unsigned a b)

/-! ### Immediate forms (R104) -/

theorem append_eq_ofNat (x : BitVec 32) (a : Word) :
    x ++ a.setWidth 32 = BitVec.ofNat 64 (x.toNat * 2 ^ 32 + a.toNat % 2 ^ 32) := by
  apply BitVec.eq_of_toNat_eq
  have hx := x.isLt
  have e : x.toNat * 2 ^ 32 + a.toNat % 2 ^ 32 < 2 ^ 64 := by omega
  have ha : a.toNat % 2 ^ 32 < 2 ^ 32 := Nat.mod_lt _ (by decide)
  rw [BitVec.toNat_append, BitVec.toNat_setWidth, ← Nat.shiftLeft_add_eq_or_of_lt ha, Nat.shiftLeft_eq,
    BitVec.toNat_ofNat, Nat.mod_eq_of_lt e]

/-- Settles O19: each row is one operation under the guard (`aluImm_issues`), on the immediate as FN extends it. -/
theorem immediateForms : Obligations.ImmediateForms := by
  intro s h o hg a n sx zx gives
  refine ⟨?addi, fun hf => ⟨?andS, ?orS, ?xorS⟩, fun hf => ⟨?andZ, ?orZ, ?xorZ⟩, fun hf => ?shl, fun hf => ?shr,
    fun hf => ?sar, fun hf => ?ror, ?li, ?liZ, ?liH⟩
  case addi => exact show execAddi h o s = _ from aluImm_issues hg rfl
  case andS => exact show execAndi h o s = _ from aluImm_issues hg (by rw [hf]; rfl)
  case orS => exact show execOri h o s = _ from aluImm_issues hg (by rw [hf]; rfl)
  case xorS => exact show execXori h o s = _ from aluImm_issues hg (by rw [hf]; rfl)
  case andZ => exact show execAndi h o s = _ from aluImm_issues hg (by rw [hf]; rfl)
  case orZ => exact show execOri h o s = _ from aluImm_issues hg (by rw [hf]; rfl)
  case xorZ => exact show execXori h o s = _ from aluImm_issues hg (by rw [hf]; rfl)
  case shl => exact show execShi h o s = _ from aluImm_issues hg (by rw [hf]; exact shiftLeft_eq_ofNat a n)
  case shr => exact show execShi h o s = _ from aluImm_issues hg (by rw [hf]; exact ushiftRight_eq_ofNat a n)
  case sar => exact show execShi h o s = _ from aluImm_issues hg (by rw [hf]; exact sshiftRight_eq_ofInt a n)
  case ror => exact show execShi h o s = _ from aluImm_issues hg (by rw [hf]; rfl)
  case li => exact show execLi h o s = _ from aluImm_issues hg rfl
  case liZ => exact show execLiZ h o s = _ from aluImm_issues hg rfl
  case liH => exact show execLiH h o s = _ from aluImm_issues hg (append_eq_ofNat o.imm a)

end Sys2Proof.Machine
end

section
/-! SUPPORT. The divide: its values, and its words as the divide unit is free or taken (R19, R101). -/

namespace Sys2Proof.Machine

/-! ### Quotient and remainder -/

theorem divide_unsigned (a b : Word) :
    divide false a b = (BitVec.ofNat 64 (a.toNat / b.toNat), BitVec.ofNat 64 (a.toNat % b.toNat)) := by
  have whole : BitVec.ofNat 64 (a.toNat / b.toNat) * b + BitVec.ofNat 64 (a.toNat % b.toNat) = a := by
    calc BitVec.ofNat 64 (a.toNat / b.toNat) * b + BitVec.ofNat 64 (a.toNat % b.toNat)
        = BitVec.ofNat 64 (a.toNat / b.toNat * b.toNat + a.toNat % b.toNat) := by
          rw [BitVec.ofNat_add, BitVec.ofNat_mul, BitVec.ofNat_toNat 64 b, BitVec.setWidth_eq]
      _ = a := by rw [Nat.div_add_mod', BitVec.ofNat_toNat, BitVec.setWidth_eq]
  have rest : a - BitVec.ofNat 64 (a.toNat / b.toNat) * b = BitVec.ofNat 64 (a.toNat % b.toNat) :=
    sub_eq_of_eq_add' whole.symm
  exact congrArg (Prod.mk _) rest

theorem sub_tdiv_mul (a b : Word) :
    a - BitVec.ofInt 64 (Int.tdiv a.toInt b.toInt) * b = BitVec.ofInt 64 (Int.tmod a.toInt b.toInt) := by
  rw [Int.tmod_def, sub_eq_add_neg, sub_eq_add_neg, BitVec.ofInt_add, BitVec.ofInt_neg, BitVec.ofInt_mul,
    BitVec.ofInt_toInt, BitVec.ofInt_toInt, mul_comm]

/-- R101: the quotient rounds toward zero; that of the most negative by -1 wraps to the dividend. -/
theorem divide_signed (a b : Word) :
    divide true a b = (BitVec.ofInt 64 (Int.tdiv a.toInt b.toInt), BitVec.ofInt 64 (Int.tmod a.toInt b.toInt)) := by
  unfold divide
  simp only [if_true, sub_tdiv_mul]
  split
  · next h =>
    obtain ⟨rfl, rfl⟩ := h
    decide
  · rfl

/-! ### The divide unit -/

/-- The next word does not depend on the divide unit. -/
theorem Slot.advance_setDivFree (sl : Slot) (n : Nat) :
    ({ sl with divFree := n } : Slot).advance = { sl.advance with divFree := n } := by
  obtain ⟨hpc, h1, h2⟩ := Slot.advance_congr { sl with divFree := n } sl rfl rfl rfl rfl
  rw [Slot.advance_eq, hpc, h1, h2, Slot.advance_eq sl]

/-- R101: a divide has issued: its result comes after 18 turns, and the unit is taken until then. -/
def State.divided (s : State) (ws : List Write) : State :=
  (s.issued 18 ws).modMe fun sl => { sl with divFree := s.me.turn + 18 }

theorem State.occupied_issued {s : State} (ws : List Write) (hf : s.me.divFree ≤ s.me.turn) :
    (s.modMe fun sl => { sl with divFree := Nat.max sl.divFree (sl.turn + 18) }).issued 18 ws = s.divided ws := by
  have later : Nat.max s.me.divFree (s.me.turn + 18) = s.me.turn + 18 := Nat.max_eq_right (by omega)
  rw [State.divided, State.issued, State.issued, State.modMe_setSlot, State.modMe_eq, State.me_setSlot_cur,
    State.setSlot_cur, State.setSlot_setSlot, later, Slot.advance_setDivFree]

/-! ### The words -/

section

variable {s : State} {h : Hdr} {o : FmtA} (remainder : Bool)

theorem divWord_divides {q r : Word} (hg : s.me.guard h = true) (hf : s.me.divFree ≤ s.me.turn)
    (hb : s.me.gr o.rb ≠ 0) (hd : divide (o.fn == 0) (s.me.gr o.ra) (s.me.gr o.rb) = (q, r)) :
    divWord h o s remainder = .next (s.divided [.g o.rd (if remainder then r else q)]) := by
  rw [← State.occupied_issued _ hf]
  simp only [divWord, hg, if_true, Nat.not_lt.2 hf, if_false, if_neg hb, hd, State.result_eq]

theorem divWord_zero (hg : s.me.guard h = true) (hf : s.me.divFree ≤ s.me.turn) (hb : s.me.gr o.rb = 0)
    (ht : s.me.fpctl.getLsbD 12 = false) : divWord h o s remainder =
      .next (s.divided [.g o.rd (if remainder then s.me.gr o.ra else BitVec.allOnes 64), .istat istatIdz]) := by
  rw [← State.occupied_issued _ hf]
  simp only [divWord, hg, if_true, Nat.not_lt.2 hf, if_false, if_pos hb, ht, Bool.false_eq_true, State.result_eq]

theorem divWord_zeroTraps (hg : s.me.guard h = true) (hf : s.me.divFree ≤ s.me.turn) (hb : s.me.gr o.rb = 0)
    (ht : s.me.fpctl.getLsbD 12 = true) (hh : s.me.h = false) :
    divWord h o s remainder = .next (s.faulted 0x14 0 0) := by
  simp only [divWord, hg, if_true, Nat.not_lt.2 hf, if_false, if_pos hb, ht, State.precise_eq _ _ _ _ hh]

theorem divWord_busy (hg : s.me.guard h = true) (hf : s.me.turn < s.me.divFree) (hh : s.me.h = false) :
    divWord h o s remainder = .next (s.faulted 0x04 0 0) := by
  simp only [divWord, hg, if_true, if_pos hf, State.precise_eq _ _ _ _ hh]

end

/-- R60: the opcode of a word row's encoding is that of its body. -/
theorem encode_opcode {i : Instr} {b : Body} (hb : i.body = some b) :
    ((encode i).map fun w => w.extractLsb' 56 8) = some b.opc := by
  rw [encode, hb, Option.map_some, Option.map_some]
  exact congrArg (fun c : Body => some c.opc) b.bodyOf_word

/-- Settles O15: the divide of a free unit by a divisor that is not zero (`divWord_divides`) and by zero
(`divWord_zero`, `divWord_zeroTraps`), and of a unit that is taken (`divWord_busy`). -/
theorem divideGivesQuotientAndRemainder : Obligations.DivideGivesQuotientAndRemainder := by
  intro s h o hg a b gives opc both
  have pair {q r : Word} (hf : s.me.divFree ≤ s.me.turn) (hb : b ≠ 0) (hd : divide (o.fn == 0) a b = (q, r)) :
      both q r := ⟨divWord_divides false hg hf hb hd, divWord_divides true hg hf hb hd⟩
  refine ⟨fun hf => ⟨fun hn hb => ?_, fun hn hb => ?_, fun hb ht => ?_, fun hb ht hh => ?_⟩,
    encode_opcode (i := .div h o) rfl, encode_opcode (i := .rem h o) rfl, fun hf hh => ?_⟩
  · exact pair hf hb (by rw [hn]; exact divide_signed a b)
  · exact pair hf hb (by rw [hn]; exact divide_unsigned a b)
  · exact ⟨divWord_zero false hg hf hb ht, divWord_zero true hg hf hb ht⟩
  · exact ⟨divWord_zeroTraps false hg hf hb ht hh, divWord_zeroTraps true hg hf hb ht hh⟩
  · exact ⟨divWord_busy false hg hf hh, divWord_busy true hg hf hh⟩

end Sys2Proof.Machine
end

section
/-! SUPPORT. Counts of bits and bit fields (R100, R102). -/

namespace Sys2Proof.Machine

/-! ### Counts of zero bits (R100) -/

/-- Bits [n - 1 : 0] begin with the zeros that CLZ counts, and a one where it stops. -/
theorem clzFrom_spec (a : Word) (n : Nat) : clzFrom a n ≤ n ∧
    (∀ j, n - clzFrom a n ≤ j → j < n → a.getLsbD j = false) ∧
    (clzFrom a n < n → a.getLsbD (n - 1 - clzFrom a n) = true) := by
  induction n with
  | zero => exact ⟨le_rfl, fun j _ hj => absurd hj (Nat.not_lt_zero j), fun h => absurd h (Nat.not_lt_zero _)⟩
  | succ n ih =>
    obtain ⟨hle, hzero, hone⟩ := ih
    unfold clzFrom
    split
    · next ha => exact ⟨Nat.zero_le _, fun j h1 h2 => by omega, fun _ => ha⟩
    · next ha =>
      refine ⟨by omega, fun j h1 h2 => ?_, fun h => ?_⟩
      · rcases Nat.lt_succ_iff_lt_or_eq.1 h2 with hj | rfl
        · exact hzero j (by omega) hj
        · exact eq_false_of_ne_true ha
      · rw [show n + 1 - 1 - (1 + clzFrom a n) = n - 1 - clzFrom a n by omega]
        exact hone (by omega)

/-- Bits [63 : 64 - n] end with the zeros that CTZ counts, and a one where it stops. -/
theorem ctzFrom_spec (a : Word) {n : Nat} (hn : n ≤ 64) : ctzFrom a n ≤ n ∧
    (∀ j, 64 - n ≤ j → j < 64 - n + ctzFrom a n → a.getLsbD j = false) ∧
    (ctzFrom a n < n → a.getLsbD (64 - n + ctzFrom a n) = true) := by
  induction n with
  | zero => exact ⟨le_rfl, fun j h1 h2 => absurd h2 (Nat.not_lt.2 h1), fun h => absurd h (Nat.not_lt_zero _)⟩
  | succ n ih =>
    obtain ⟨hle, hzero, hone⟩ := ih (by omega)
    have first : 64 - (n + 1) = 63 - n := by omega
    have rest (k : Nat) : 64 - (n + 1) + (1 + k) = 64 - n + k := by omega
    unfold ctzFrom
    split
    · next ha => exact ⟨Nat.zero_le _, fun j h1 h2 => by omega, fun _ => by rw [first]; exact ha⟩
    · next ha =>
      refine ⟨by omega, fun j h1 h2 => ?_, fun h => ?_⟩
      · rcases Nat.lt_or_ge j (64 - n) with hj | hj
        · rw [show j = 63 - n by omega]
          exact eq_false_of_ne_true ha
        · exact hzero j hj (by omega)
      · rw [rest]
        exact hone (by omega)

theorem toNat_w64 {n : Nat} (hn : n ≤ 64) : (w64 n).toNat = n := by
  rw [w64, BitVec.toNat_ofNat, Nat.mod_eq_of_lt (by omega)]

/-! ### Fields (R102) -/

/-- BFX is the extension of the field's bits. -/
theorem extractField_eq (signed : Bool) (a : Word) (pos w : Nat) : extractField signed a pos w =
    if signed then (a.extractLsb' pos w).signExtend 64 else (a.extractLsb' pos w).setWidth 64 := by
  have field : a.toNat / 2 ^ pos % 2 ^ w = (a.extractLsb' pos w).toNat := by
    rw [BitVec.extractLsb'_toNat, Nat.shiftRight_eq_div_pow]
  have sext : sextNat w (a.extractLsb' pos w).toNat = (a.extractLsb' pos w).toInt := by
    rw [sextNat, Nat.mod_eq_of_lt (BitVec.isLt _), BitVec.toInt_eq_toNat_cond]
  rw [extractField, field, sext]
  cases signed
  · exact BitVec.ofNat_toNat _ _
  · rfl

theorem getLsbD_extractField (signed : Bool) (a : Word) {pos w : Nat} (hw : 0 < w) :
    (∀ j, j < w → j < 64 → (extractField signed a pos w).getLsbD j = a.getLsbD (pos + j)) ∧
      ∀ j, w ≤ j → j < 64 → (extractField signed a pos w).getLsbD j = (signed && a.getLsbD (pos + w - 1)) := by
  rw [extractField_eq]
  refine ⟨fun j hj h64 => ?_, fun j hj h64 => ?_⟩
  · cases signed
    · simp [hj, h64]
    · rw [if_pos rfl, BitVec.getLsbD_signExtend]
      simp [hj, h64]
  · have last : pos + w - 1 = pos + (w - 1) := by omega
    cases signed
    · simp [Nat.not_lt.2 hj]
    · rw [if_pos rfl, BitVec.getLsbD_signExtend]
      simp [BitVec.msb_eq_getLsbD_last, Nat.not_lt.2 hj, h64, last, hw]

/-- BFI replaces the bits of its field. -/
theorem getLsbD_setBits (x : BitVec m) (lo n v : Nat) {j : Nat} (hj : j < m) :
    (setBits x lo n v).getLsbD j = if lo ≤ j ∧ j < lo + n then v.testBit (j - lo) else x.getLsbD j := by
  have low : lo ≤ j → (j - lo < n ↔ j < lo + n) := fun h => by omega
  simp only [setBits, BitVec.getLsbD_or, BitVec.getLsbD_and, BitVec.getLsbD_not, BitVec.getLsbD_ofNat, hj, decide_true,
    Bool.true_and, Nat.testBit_mul_two_pow, Nat.testBit_two_pow_sub_one, Nat.testBit_mod_two_pow]
  by_cases h1 : lo ≤ j
  · by_cases h2 : j < lo + n
    · simp [h1, h2, (low h1).2 h2]
    · simp [h1, h2, mt (low h1).1 h2]
  · simp [h1]

/-- Settles O17: each row is one operation under the guard (`alu_issues`), whose value is known bit by bit
(`clzFrom_spec`, `ctzFrom_spec`, `getLsbD_extractField`, `getLsbD_setBits`). -/
theorem integerBitOperations : Obligations.IntegerBitOperations := by
  intro s h o hg a b pos w gives
  have hw : 0 < w := Nat.succ_pos _
  refine ⟨⟨w64 (clzFrom a 64), ?clz, ?_⟩, ⟨w64 (ctzFrom a 64), ?ctz, ?_⟩, ?popc, fun hf => ?extS8, fun hf => ?extS16,
    fun hf => ?extS32, fun hf => ?extZ8, fun hf => ?extZ16, fun hf => ?extZ32,
    fun hp => ⟨⟨extractField (o.fn == 1) a pos w, ?bfx, fun j hj => ?_, fun j hj h64 => ?_⟩,
      ⟨setBits (s.me.gr o.rd) pos w a.toNat, ?bfi, fun j hj => ?_⟩⟩, fun _ => ?sel⟩
  case clz => exact show execClz h o s = _ from alu_issues 1 hg rfl
  case ctz => exact show execCtz h o s = _ from alu_issues 1 hg rfl
  case popc => exact show execPopc h o s = _ from alu_issues 1 hg rfl
  case extS8 => exact show execExt h o s = _ from alu_issues 1 hg (by rw [hf]; rfl)
  case extS16 => exact show execExt h o s = _ from alu_issues 1 hg (by rw [hf]; rfl)
  case extS32 => exact show execExt h o s = _ from alu_issues 1 hg (by rw [hf]; rfl)
  case extZ8 => exact show execExt h o s = _ from alu_issues 1 hg (by rw [hf]; rfl)
  case extZ16 => exact show execExt h o s = _ from alu_issues 1 hg (by rw [hf]; rfl)
  case extZ32 => exact show execExt h o s = _ from alu_issues 1 hg (by rw [hf]; rfl)
  case bfx => exact show execBfx h o s = _ from alu_issues 1 hg rfl
  case bfi => exact (word_of_guard _ hg).trans (congrArg _ (State.result_eq s _ _))
  case sel => exact show execSel h o s = _ from alu_issues 1 hg rfl
  · obtain ⟨hle, hzero, hone⟩ := clzFrom_spec a 64
    rw [toNat_w64 hle]
    refine ⟨hle, fun j hj => ?_, hone⟩
    rcases Nat.lt_or_ge j 64 with h64 | h64
    · exact hzero j hj h64
    · exact BitVec.getLsbD_of_ge a j h64
  · obtain ⟨hle, hzero, hone⟩ := ctzFrom_spec a (le_refl 64)
    simp only [Nat.sub_self, Nat.zero_le, Nat.zero_add, true_implies] at hzero hone
    rw [toNat_w64 hle]
    exact ⟨hle, hzero, hone⟩
  · exact (getLsbD_extractField _ a hw).1 j hj (by omega)
  · exact (getLsbD_extractField _ a hw).2 j hj h64
  · exact getLsbD_setBits _ pos w _ hj

end Sys2Proof.Machine
end

section
/-! SUPPORT. The scalar floating-point rows: what a word with conditions comes to, and the classes and signs of FP32
images (R41, R105 to R112). -/

namespace Sys2Proof.Machine

/-! ### Words with conditions (R41, R86) -/

/-- R41, R86: a word that ends with a result and its conditions. -/
theorem floatOutcome_of_fpResult {i : Instr} {s : State} {h : Hdr} {body : State → State} {lat : Nat} {w : Write}
    {f : Flags} (hg : s.me.guard h = true) (hi : exec i s = word h s body) (hb : body s = s.fpResult lat w f) :
    FloatOutcome i s lat w f := by
  refine ⟨fun ht => ?_, fun c hh ht => ?_⟩
  · rw [hi, word_of_guard _ hg, hb, State.fpResult, ht, State.result_eq]
  · rw [hi, word_of_guard _ hg, hb, State.fpResult, ht]
    exact congrArg _ (State.precise_eq s _ _ _ hh)

/-! ### FP32 images -/

/-- R32: a NaN has the greatest exponent and a fraction that is not zero. -/
theorem f32Nan_iff (a : BitVec 32) :
    f32Nan a = true ↔ (a.extractLsb' 23 8).toNat = 255 ∧ (a.extractLsb' 0 23).toNat ≠ 0 := by
  have ha := a.isLt
  simp only [f32Nan, decide_eq_true_eq, BitVec.extractLsb'_toNat, Nat.shiftRight_eq_div_pow, Nat.pow_zero, Nat.div_one]
  omega

theorem f32Snan_iff {a : BitVec 32} (he : (a.extractLsb' 23 8).toNat = 255) (hm : (a.extractLsb' 0 23).toNat ≠ 0) :
    f32Snan a = !a.getLsbD 22 := by
  rw [f32Snan, (f32Nan_iff a).2 ⟨he, hm⟩, Bool.true_and]

/-! ### FCLASS (R111) -/

section

variable {a : BitVec 32}

theorem classOf_nan (he : (a.extractLsb' 23 8).toNat = 255) (hm : (a.extractLsb' 0 23).toNat ≠ 0) :
    classOf a = if a.getLsbD 22 then 0x200 else 0x100 := by
  refine (if_pos ⟨he, hm⟩).trans ?_
  rw [f32Snan_iff he hm]
  cases a.getLsbD 22 <;> rfl

theorem classOf_inf (he : (a.extractLsb' 23 8).toNat = 255) (hm : (a.extractLsb' 0 23).toNat = 0) :
    classOf a = if a.getLsbD 31 then 0x001 else 0x080 :=
  (if_neg fun c => c.2 hm).trans (if_pos he)

theorem classOf_normal (h0 : (a.extractLsb' 23 8).toNat ≠ 0) (he : (a.extractLsb' 23 8).toNat ≠ 255) :
    classOf a = if a.getLsbD 31 then 0x002 else 0x040 :=
  (if_neg fun c => he c.1).trans ((if_neg he).trans (if_pos h0))

theorem classOf_subnormal (h0 : (a.extractLsb' 23 8).toNat = 0) (hm : (a.extractLsb' 0 23).toNat ≠ 0) :
    classOf a = if a.getLsbD 31 then 0x004 else 0x020 := by
  have he : bits a 23 8 ≠ 255 := fun e => absurd (h0.symm.trans e) (by decide)
  exact (if_neg fun c => he c.1).trans ((if_neg he).trans ((if_neg (not_not_intro h0)).trans (if_pos hm)))

theorem classOf_zero (h0 : (a.extractLsb' 23 8).toNat = 0) (hm : (a.extractLsb' 0 23).toNat = 0) :
    classOf a = if a.getLsbD 31 then 0x008 else 0x010 := by
  have he : bits a 23 8 ≠ 255 := fun e => absurd (h0.symm.trans e) (by decide)
  exact (if_neg fun c => he c.1).trans
    ((if_neg he).trans ((if_neg (not_not_intro h0)).trans (if_neg (not_not_intro hm))))

end

/-! ### FSGN (R112) -/

theorem getLsbD_withSign {a : BitVec 32} (b : BitVec 32) (fn : Nat) (ha : f32Nan a = false) {j : Nat} (hj : j < 32) :
    (withSign fn a b).getLsbD j = if j = 31 then signOf fn (a.getLsbD 31) (b.getLsbD 31) else a.getLsbD j := by
  have low : (0x7FFFFFFF : BitVec 32).getLsbD j = decide (j < 31) := by
    rw [show (0x7FFFFFFF : BitVec 32) = BitVec.ofNat 32 (2 ^ 31 - 1) from rfl, BitVec.getLsbD_ofNat,
      Nat.testBit_two_pow_sub_one, decide_eq_true hj, Bool.true_and]
  have high : (0x80000000 : BitVec 32).getLsbD j = decide (j = 31) := by
    rw [show (0x80000000 : BitVec 32) = BitVec.ofNat 32 (2 ^ 31) from rfl, BitVec.getLsbD_ofNat,
      Nat.testBit_two_pow, decide_eq_true hj, Bool.true_and]
    exact decide_eq_decide.2 eq_comm
  rw [withSign, if_neg (by rw [ha]; decide), BitVec.getLsbD_or, BitVec.getLsbD_and, low,
    apply_ite (fun x : BitVec 32 => x.getLsbD j), high]
  by_cases h : j = 31
  · simp [h]
  · simp [h, show j < 31 by omega]

/-- Settles O20: each row ends with its result and conditions (`floatOutcome_of_fpResult`) or with its result alone; the
classes are the cases of `classOf`, and the bits of a signed image those of `getLsbD_withSign`. -/
theorem scalarFloatRowsComplete : Obligations.ScalarFloatRowsComplete := by
  refine ⟨fun s h o hg => ?_, fun a b => ?_⟩
  · intro sl a b c rm r rounds src dst n cv
    have plain {i : Instr} {body : State → State} {v : Word} (hi : exec i s = word h s body)
        (hb : body s = s.result 4 [.g o.rd v]) : exec i s = .next (s.issued 4 [.g o.rd v]) := by
      rw [hi, word_of_guard _ hg, hb, State.result_eq]
    have converts {v : Num × Flags} (hv : (if src = dst then copyNum n else cv) = v) :
        FloatOutcome (.fcvt h o) s 4 (.g o.rd (v.1.scalar dst)) v.2 := by
      subst hv
      exact floatOutcome_of_fpResult hg rfl rfl
    refine ⟨?fadd, ?fsub, ?fmul, ?ffma, ?fmin, ?fmax, ?fcmp, fun hne => ?fcvt, fun heq => ?fcopy, ?fsf, ?fclass, ?fsgn⟩
    case fadd => exact floatOutcome_of_fpResult hg rfl rfl
    case fsub => exact floatOutcome_of_fpResult hg rfl rfl
    case fmul => exact floatOutcome_of_fpResult hg rfl rfl
    case ffma => exact floatOutcome_of_fpResult hg rfl rfl
    case fmin => exact floatOutcome_of_fpResult hg rfl rfl
    case fmax => exact floatOutcome_of_fpResult hg rfl rfl
    case fcmp => exact floatOutcome_of_fpResult hg rfl rfl
    case fcvt => exact converts (if_neg hne)
    case fcopy => exact converts (if_pos heq)
    case fsf => exact floatOutcome_of_fpResult hg rfl rfl
    case fclass => exact plain rfl rfl
    case fsgn => exact plain rfl rfl
  · intro e m n
    have quiet (hn : ¬(e = 255 ∧ m ≠ 0)) : f32Nan a = false := eq_false_of_ne_true (mt (f32Nan_iff a).1 hn)
    refine ⟨fun he hm h22 => ?_, fun he hm h22 => ?_, classOf_inf, classOf_normal, classOf_subnormal, classOf_zero,
      fun he hm fn => if_pos ((f32Nan_iff a).2 ⟨he, hm⟩), fun hn fn j hj => ?_, fun hn => ?_⟩
    · rw [classOf_nan he hm, h22]; rfl
    · rw [classOf_nan he hm, h22]; rfl
    · rw [getLsbD_withSign b fn (quiet hn) (by omega), if_neg (by omega)]
    · have sign (fn : Nat) : (withSign fn a b).getLsbD 31 = signOf fn n (b.getLsbD 31) :=
        (getLsbD_withSign b fn (quiet hn) (by omega)).trans (if_pos rfl)
      exact ⟨sign 0, sign 1, sign 2, sign 3, sign 4⟩

end Sys2Proof.Machine
end

section
/-! SUPPORT. What a vector access may change as it issues, and that one without a fault is admitted to its banks (R126,
R127, R151). -/

namespace Sys2Proof.Machine

/-! ### Frames -/

/-- What the elements of a vector word may change: memory, the front ports of the core, and of the slots its own
accesses, results in flight, vector loads, beats, due faults and numbering. -/
structure ElemFrame (r : SlotRef) (s t : State) : Prop where
  rest : t = { s with cores := t.cores, mem := t.mem, memErr := t.memErr }
  others : ∀ q, q ≠ r → t.slot q = s.slot q
  window : (t.core r.core).bmap = (s.core r.core).bmap
  own : t.slot r = { s.slot r with
    accs := (t.slot r).accs, flights := (t.slot r).flights, vloads := (t.slot r).vloads, due := (t.slot r).due
    nextId := (t.slot r).nextId, beats := (t.slot r).beats }

section

variable {r : SlotRef} {s t u : State}

theorem ElemFrame.refl : ElemFrame r s s := ⟨rfl, fun _ _ => rfl, rfl, rfl⟩

theorem ElemFrame.trans (h : ElemFrame r s t) (h' : ElemFrame r t u) : ElemFrame r s u := by
  obtain ⟨hx, hq, hb, hr⟩ := h
  obtain ⟨hx', hq', hb', hr'⟩ := h'
  refine ⟨?_, fun q h => (hq' q h).trans (hq q h), hb'.trans hb, ?_⟩
  · rw [hx', hx]
  · rw [hr', hr]

theorem ElemFrame.cur (h : ElemFrame r s t) : t.cur = s.cur := by rw [h.rest]

theorem ElemFrame.foldl {α : Type} {f : State → α → State} (hf : ∀ u a, ElemFrame u.cur u (f u a)) (l : List α)
    (s : State) : ElemFrame s.cur s (l.foldl f s) := by
  induction l generalizing s with
  | nil => exact .refl
  | cons a l ih =>
    have rest := ih (f s a)
    rw [(hf s a).cur] at rest
    exact (hf s a).trans rest

theorem ElemFrame.modSlot {f : Slot → Slot} (hf : f (s.slot r) = { s.slot r with
    accs := (f (s.slot r)).accs, flights := (f (s.slot r)).flights, vloads := (f (s.slot r)).vloads
    due := (f (s.slot r)).due, nextId := (f (s.slot r)).nextId, beats := (f (s.slot r)).beats }) :
    ElemFrame r s (s.modSlot r f) := by
  refine ⟨rfl, fun q hq => State.slot_setSlot_ne s r q _ hq, ?_, ?_⟩
  · rw [State.modSlot, State.core_setSlot, Core.setSlot_bmap]
  · rw [State.slot_modSlot]
    exact hf

theorem ElemFrame.of_memory (m : List Host.Cell) (e : List Nat) : ElemFrame r s (s.withMemory m e) :=
  ⟨rfl, fun _ _ => rfl, rfl, rfl⟩

theorem ElemFrame.admits {a : Access} (h : ElemFrame r s t) (ha : s.Admits r.core a) : t.Admits r.core a := by
  unfold State.Admits Core.bm at *
  rwa [h.window]

theorem ElemFrame.winKey (h : ElemFrame r s t) (ea : Word) :
    (t.core r.core).winKey ea = (s.core r.core).winKey ea := by
  unfold Core.winKey Core.bm
  rw [h.window]

end

section

variable (s : State) (r : SlotRef) (a : Access)

theorem State.useFront_elemFrame (bank : Nat) : ElemFrame r s (s.useFront r bank) := by
  refine ⟨rfl, fun q _ => s.useFront_slot r q bank, ?_, ?_⟩
  · rw [State.useFront, State.core_modCore]
  · rw [s.useFront_slot]

theorem Slot.closeVload_frame (sl : Slot) (id : Nat) : sl.closeVload id =
    { sl with flights := (sl.closeVload id).flights, vloads := (sl.closeVload id).vloads } := by
  unfold Slot.closeVload
  split <;> rfl

theorem State.deferAcc_elemFrame (cause addr info withDist) :
    ElemFrame r s (s.deferAcc r a cause addr info withDist) := by
  unfold State.deferAcc State.defer
  refine .modSlot ?_
  split <;> rfl

/-- R126: an element lands among the lanes of its vector load, or is over when it is a store. -/
theorem State.landLocal_elemFrame (b : Access) : ElemFrame r s (s.landLocal r a b) := by
  have landed (id at_ : Nat) (f : VLoad → VLoad) : ElemFrame r s
      (s.modSlot r fun sl => (sl.dropAcc a.id).landElem id at_ f) := by
    refine .modSlot ?_
    unfold Slot.landElem
    rw [Slot.closeVload_frame]
    rfl
  unfold State.landLocal
  dsimp only
  split
  · exact .modSlot rfl
  · exact landed _ _ _
  · exact landed _ _ _
  · split
    · exact .modSlot rfl
    · exact .modSlot rfl
  · refine .modSlot ?_
    split <;> rfl

theorem State.landLocal_sameMemory (b : Access) : SameMemory s (s.landLocal r a b) := by
  refine ⟨s.landLocal_mem r a b, ?_⟩
  unfold State.landLocal
  (repeat' split) <;> rfl

theorem State.performAt_withMemory (tgt : Nat) (earlier : List Access) :
    ∃ m e, (s.performAt tgt earlier a).1 = s.withMemory m e := by
  unfold State.performAt
  dsimp only
  split
  · exact ⟨_, _, rfl⟩
  · exact ⟨s.mem, s.memErr, by split <;> rfl⟩
  · split
    · exact ⟨s.mem, s.memErr, rfl⟩
    · exact ⟨_, _, rfl⟩

variable {s a} (hs : a.size ≠ 16) (hv : a.vdest.isSome = true)
include hs hv

/-- An element at its bank: it is refused, or performs and lands. -/
theorem State.performLocal_elem {P : State → Prop}
    (refused : ∀ info, P ((s.modSlot r fun sl => sl.dropAcc a.id).refuseAcc r a info))
    (landed : ∀ b, P ((s.performAt r.core (s.earlier r a) a).1.landLocal r a b)) : P (s.performLocal r a) := by
  unfold State.performLocal
  split
  · rw [if_pos (.inr hv)]
    exact refused _
  · rw [State.performNext_small _ hs]
    exact landed _

theorem State.performLocal_elemFrame : ElemFrame r s (s.performLocal r a) := by
  refine State.performLocal_elem r hs hv (fun info => ?_) fun b => ?_
  · exact (ElemFrame.modSlot rfl).trans (State.deferAcc_elemFrame _ r a _ _ _ _)
  · obtain ⟨m, e, hp⟩ := State.performAt_withMemory s a r.core (s.earlier r a)
    rw [hp]
    exact (ElemFrame.of_memory m e).trans (State.landLocal_elemFrame _ r a b)

theorem State.performLocal_sameMemory (hk : a.kind = .load) : SameMemory s (s.performLocal r a) := by
  refine State.performLocal_elem r hs hv (fun info => ⟨rfl, rfl⟩) fun b => ?_
  rw [s.performAt_load _ _ _ hk]
  exact State.landLocal_sameMemory s r a b

theorem State.performLocal_sameOutside : SameOutside ((s.core r.core).winKey a.ea) a.size s (s.performLocal r a) := by
  refine State.performLocal_elem r hs hv (fun info => .of_mem rfl) fun b => ?_
  exact (s.performAt_sameOutside r.core _ a).trans (.of_mem (State.landLocal_mem _ r a b))

end

/-! ### The elements of a vector word -/

theorem contSize_le (ft : BitVec 4) : contSize ft ≤ 8 := by
  unfold contSize
  split <;> omega

/-- The elements of a list issue one after another. -/
def State.issueElems (s : State) (o : FmtV) (k : AccKind) (vload : Nat) (data : Elem → Nat) (es : List Elem) : State :=
  es.foldl (fun s e => s.issueElem (s.elemAccess o k vload e (data e))) s

section

variable (s : State) (o : FmtV) (k : AccKind) (vload : Nat) (data : Elem → Nat)

theorem State.issueElems_cons (e : Elem) (es : List Elem) : s.issueElems o k vload data (e :: es) =
    (s.issueElem (s.elemAccess o k vload e (data e))).issueElems o k vload data es := rfl

theorem State.issueElems_append (es fs : List Elem) : s.issueElems o k vload data (es ++ fs) =
    (s.issueElems o k vload data es).issueElems o k vload data fs := List.foldl_append

theorem State.elemAccess_size (e : Elem) (n : Nat) : (s.elemAccess o k vload e n).size ≠ 16 := by
  have h := contSize_le o.ft
  simp only [State.elemAccess]
  omega

/-- An element stands among the accesses of its slot. -/
def State.elemPlaced (s : State) (a : Access) : State :=
  s.modMe fun sl => { sl with accs := sl.accs ++ [a], nextId := sl.nextId + 1 }

theorem State.elemPlaced_elemFrame (a : Access) : ElemFrame s.cur s (s.elemPlaced a) := by
  unfold State.elemPlaced State.modMe
  exact .modSlot rfl

/-- R127: an element only joins the accesses of its slot, or performs too. -/
theorem State.issueElem_cases {s : State} {a : Access} {P : State → Prop}
    (held : ∀ l, P (s.elemPlaced { a with needs := l }))
    (performed : ∀ l, P ((s.elemPlaced { a with needs := l }).performLocal s.cur { a with needs := l })) :
    P (s.issueElem a) := by
  unfold State.issueElem
  dsimp only
  split
  · exact performed _
  · exact held _

theorem State.issueElem_elemFrame (e : Elem) (n : Nat) :
    ElemFrame s.cur s (s.issueElem (s.elemAccess o k vload e n)) :=
  State.issueElem_cases (fun _ => s.elemPlaced_elemFrame _) fun _ =>
    (s.elemPlaced_elemFrame _).trans (State.performLocal_elemFrame _ (s.elemAccess_size o k vload e n) rfl)

theorem State.issueElem_sameMemory (e : Elem) (n : Nat) :
    SameMemory s (s.issueElem (s.elemAccess o .load vload e n)) := by
  have placed (a : Access) : SameMemory s (s.elemPlaced a) := ⟨rfl, rfl⟩
  exact State.issueElem_cases (fun _ => placed _) fun _ =>
    (placed _).trans (State.performLocal_sameMemory _ (s.elemAccess_size o .load vload e n) rfl rfl)

theorem State.issueElem_sameOutside (e : Elem) (n : Nat) :
    SameOutside (s.myCore.winKey e.addr) (contSize o.ft) s (s.issueElem (s.elemAccess o k vload e n)) := by
  refine State.issueElem_cases (fun _ => .of_mem rfl) fun l => ?_
  have performed := State.performLocal_sameOutside (s := s.elemPlaced { s.elemAccess o k vload e n with needs := l })
    (a := { s.elemAccess o k vload e n with needs := l }) s.cur (s.elemAccess_size o k vload e n) rfl
  rw [(s.elemPlaced_elemFrame _).winKey] at performed
  exact SameOutside.trans (.of_mem rfl) performed

theorem State.issueElems_elemFrame (es : List Elem) : ElemFrame s.cur s (s.issueElems o k vload data es) :=
  .foldl (fun u e => u.issueElem_elemFrame o k vload e (data e)) es s

theorem State.issueElems_sameMemory (es : List Elem) : SameMemory s (s.issueElems o .load vload data es) := by
  induction es generalizing s with
  | nil => exact ⟨rfl, rfl⟩
  | cons e es ih => exact (s.issueElem_sameMemory o vload e (data e)).trans (ih _)

/-- R126: no byte but those of the elements changes. -/
theorem State.issueElems_byte (es : List Elem) (a : Nat)
    (ha : ∀ e ∈ es, a < s.myCore.winKey e.addr ∨ s.myCore.winKey e.addr + contSize o.ft ≤ a) :
    (s.issueElems o k vload data es).byte a = s.byte a := by
  induction es generalizing s with
  | nil => rfl
  | cons e es ih =>
    have first := s.issueElem_elemFrame o k vload e (data e)
    rw [State.issueElems_cons, ih, s.issueElem_sameOutside o k vload e (data e) a (ha e List.mem_cons_self)]
    intro f hf
    have key : (s.issueElem (s.elemAccess o k vload e (data e))).myCore.winKey f.addr = s.myCore.winKey f.addr := by
      rw [State.myCore, first.cur]
      exact first.winKey f.addr
    rw [key]
    exact ha f (List.mem_cons_of_mem _ hf)

end

end Sys2Proof.Machine
end

section
/-! SUPPORT. The words of vector accesses that meet no fault: what they issue, and how they end (R127, R137, R150). -/

namespace Sys2Proof.Machine

/-! ### The end of the word -/

/-- R127, R136: the end of a vector word that writes no register itself: its datapath is taken, and its conditions go to
VSTAT. -/
def State.vectorEnd (s : State) (beats lat : Nat) (fs : List (Nat × Flags)) : State :=
  ((s.occupyV beats).vemit lat ⟨[], fs, none⟩).retire

theorem State.vemit_noWrites (s : State) (lat : Nat) (fs : List (Nat × Flags)) : s.vemit lat ⟨[], fs, none⟩ =
    if allFlags fs = 0 then s
    else if lat = 0 then s.modMe fun sl => { sl with vstat := sl.vstat ||| allFlags fs }
    else s.emit lat [.vstat (allFlags fs)] := by
  unfold State.vemit
  dsimp only
  split <;> rfl

theorem State.vemit_setSlot (s : State) (x : Slot) (lat : Nat) (fs : List (Nat × Flags)) : ∃ f n fl,
    (s.setSlot s.cur x).vemit lat ⟨[], fs, none⟩ = s.setSlot s.cur { x with vstat := f, nextId := n, flights := fl } ∧
      (allFlags fs = 0 → fl = x.flights) := by
  rw [State.vemit_noWrites]
  split
  · exact ⟨x.vstat, x.nextId, x.flights, rfl, fun _ => rfl⟩
  · next hf =>
    split
    · exact ⟨_, x.nextId, x.flights, State.modMe_setSlot s x _, fun h => absurd h hf⟩
    · refine ⟨x.vstat, x.nextId + 1, x.flights ++ [⟨x.nextId, x.turn + lat, 0, [.vstat (allFlags fs)]⟩], ?_,
        fun h => absurd h hf⟩
      rw [State.emit, State.emitAt, State.modMe_setSlot]

theorem State.vectorEnd_eq (s : State) (beats lat : Nat) (fs : List (Nat × Flags)) : ∃ f n fl,
    s.vectorEnd beats lat fs = s.setSlot s.cur { s.me with
      vecFree := Nat.max s.me.vecFree (s.me.turn + beats), vstat := f, nextId := n, flights := fl
      pc := s.me.advance.pc, loop1 := s.me.advance.loop1, loop2 := s.me.advance.loop2
      gate := .fromTurn (s.me.turn + 1) } ∧ (allFlags fs = 0 → fl = s.me.flights) := by
  obtain ⟨f, n, fl, he, hfl⟩ := s.vemit_setSlot
    { s.me with vecFree := Nat.max s.me.vecFree (s.me.turn + beats) } lat fs
  refine ⟨f, n, fl, ?_, hfl⟩
  rw [State.vectorEnd, State.occupyV, State.modMe_eq, he, State.retire_eq, State.passed_setSlot]
  iterate 4 rfl

/-- R13, R127: what a vector access leaves of the slots beyond its accesses and results in flight: the word has passed,
its datapath is taken for its beats, and no register has changed. -/
def VectorIssued (s : State) (beats : Nat) (t : State) : Prop :=
  (∀ q, q ≠ s.cur → t.slot q = s.slot q) ∧ t.me.pc = s.passed.me.pc ∧ t.me.vecFree = s.me.turn + beats ∧
    t.me.g = s.me.g ∧ t.me.p = s.me.p ∧ t.me.v = s.me.v ∧ t.me.m = s.me.m

section

variable {s u : State} {lat : Nat} {fs : List (Nat × Flags)} (beats : Nat)

theorem State.vectorEnd_issued (hu : ElemFrame s.cur s u) (hfree : s.me.vecFree ≤ s.me.turn) :
    VectorIssued s beats (u.vectorEnd beats lat fs) := by
  obtain ⟨f, n, fl, he, -⟩ := u.vectorEnd_eq beats lat fs
  have cur := hu.cur
  have me : u.me = { s.me with
      accs := u.me.accs, flights := u.me.flights, vloads := u.me.vloads, due := u.me.due
      nextId := u.me.nextId, beats := u.me.beats } := by
    unfold State.me
    rw [cur]
    exact hu.own
  obtain ⟨hpc, -, -⟩ := Slot.advance_congr u.me s.me (by rw [me]) (by rw [me]) (by rw [me]) (by rw [me])
  have pc : s.passed.me.pc = s.me.advance.pc := by rw [State.passed_me]
  have taken : Nat.max s.me.vecFree (s.me.turn + beats) = s.me.turn + beats := Nat.max_eq_right (by omega)
  rw [he]
  refine ⟨fun q hq => ?_, ?_, ?_, ?_⟩
  · rw [State.slot_setSlot_ne _ _ _ _ (by rwa [cur])]
    exact hu.others q hq
  · rw [State.me_setSlot_cur, pc, ← hpc]
  · rw [State.me_setSlot_cur]
    dsimp only
    rw [me]
    exact taken
  · rw [State.me_setSlot_cur]
    dsimp only
    rw [me]
    exact ⟨rfl, rfl, rfl, rfl⟩

theorem State.vectorEnd_sameMemory : SameMemory u (u.vectorEnd beats lat fs) := by
  obtain ⟨f, n, fl, he, -⟩ := u.vectorEnd_eq beats lat fs
  rw [he]
  exact ⟨rfl, rfl⟩

theorem State.vectorEnd_accs : (u.vectorEnd beats lat fs).me.accs = u.me.accs := by
  obtain ⟨f, n, fl, he, -⟩ := u.vectorEnd_eq beats lat fs
  rw [he, State.me_setSlot_cur]

theorem State.vectorEnd_vloads : (u.vectorEnd beats lat fs).me.vloads = u.me.vloads := by
  obtain ⟨f, n, fl, he, -⟩ := u.vectorEnd_eq beats lat fs
  rw [he, State.me_setSlot_cur]

theorem State.vectorEnd_flights (hf : allFlags fs = 0) : (u.vectorEnd beats lat fs).me.flights = u.me.flights := by
  obtain ⟨f, n, fl, he, hfl⟩ := u.vectorEnd_eq beats lat fs
  rw [he, State.me_setSlot_cur]
  exact hfl hf

end

/-! ### The words -/

section

variable {s : State} {h : Hdr} {o : FmtV} {srcs : List (BitVec 4)} {unit : Bool} {elems : Slot → List Elem}
  (hr : VectorReady s h)
include hr

theorem loadWord_issues (hf : vmemFault s o false unit (elems s.me) = none) :
    loadWord h o s srcs unit elems = .next ((s.vload o (elems s.me)).vectorEnd (beatsOf o.fold) 0 []) := by
  obtain ⟨hg, hfree, hbad⟩ := hr
  simp only [loadWord, vectorWord, hg, if_true, Nat.not_lt.2 hfree, if_false, VOut.cause, hf, laneTrap_nil,
    badLane_none hbad, Option.map_none, State.vectorEnd]

/-- R150: the conditions of the narrowing of stored elements. -/
def storeFlags (sl : Slot) (o : FmtV) (es : List Elem) : List (Nat × Flags) :=
  es.map fun e => (e.lane, (storeElem sl o e.lane).2)

theorem storeWord_issues (hf : vmemFault s o true unit (elems s.me) = none)
    (ht : laneTrap s.me.fpctl (storeFlags s.me o (elems s.me)) = none) :
    storeWord h o s srcs unit elems = .next (((s.planBeats o (elems s.me)).issueElems o .store 0
      (fun e => (storeElem s.me o e.lane).1) (elems s.me)).vectorEnd (beatsOf o.fold) (beatsOf o.fold - 1)
        (storeFlags s.me o (elems s.me))) := by
  obtain ⟨hg, hfree, hbad⟩ := hr
  unfold storeFlags at ht
  simp only [storeWord, vectorWord, hg, if_true, Nat.not_lt.2 hfree, if_false, VOut.cause, hf, ht,
    badLane_none hbad, Option.map_none, State.vectorEnd]
  rfl

end

/-! ### Beats -/

/-- R267: planning the beats of a word marks front ports and the slot's beats, and no more. -/
theorem State.planBeats_eq (s : State) (o : FmtV) (es : List Elem) : ∃ u b,
    s.planBeats o es = u.modMe (fun sl => { sl with beats := sl.beats ++ b }) ∧ ElemFrame s.cur s u ∧ SameSlots s u ∧
      SameMemory s u := by
  refine ⟨_, _, rfl, .foldl (fun u (b : Nat × Nat × Nat) => u.useFront_elemFrame u.cur b.2.1) _ s, ?_, ?_⟩
  · exact List.foldlRecOn _ _ (fun _ => rfl) fun u hu b _ q => (u.useFront_slot u.cur q b.2.1).trans (hu q)
  · exact List.foldlRecOn _ _ ⟨rfl, rfl⟩ fun u hu b _ => hu

theorem State.planBeats_elemFrame (s : State) (o : FmtV) (es : List Elem) : ElemFrame s.cur s (s.planBeats o es) := by
  obtain ⟨u, b, he, hu, -, -⟩ := s.planBeats_eq o es
  have beats : ElemFrame s.cur u (u.modMe fun sl => { sl with beats := sl.beats ++ b }) := by
    rw [← hu.cur]
    exact .modSlot rfl
  rw [he]
  exact hu.trans beats

theorem State.planBeats_sameMemory (s : State) (o : FmtV) (es : List Elem) : SameMemory s (s.planBeats o es) := by
  obtain ⟨u, b, he, -, -, hm⟩ := s.planBeats_eq o es
  rw [he]
  exact hm

theorem State.planBeats_me (s : State) (o : FmtV) (es : List Elem) :
    (s.planBeats o es).me = { s.me with beats := (s.planBeats o es).me.beats } := by
  obtain ⟨u, b, he, hu, hs, -⟩ := s.planBeats_eq o es
  have me : u.me = s.me := by
    rw [State.me, hu.cur]
    exact hs s.cur
  rw [he, State.me_modMe, me]

end Sys2Proof.Machine
end

section
/-! SUPPORT. The elements of a vector word that no earlier access of its slot holds up: those of the first beat perform at
once, those of later beats are held for their turn (R126, R127, R150 to R152). -/

namespace Sys2Proof.Machine

/-! ### The checks of the issue turn -/

theorem firstFault_eq_none {l : List (Option (BitVec 8 × Word × Word))} : firstFault l = none ↔ ∀ x ∈ l, x = none := by
  induction l with
  | nil => simp [firstFault]
  | cons x l ih => cases x <;> simp [firstFault, ih]

/-- R151: a vector word without a memory fault touches its own window alone, and each of its entries serves it. -/
theorem vmemFault_serves {s : State} {o : FmtV} {write unit : Bool} {es : List Elem}
    (hf : vmemFault s o write unit es = none) {e : Elem} (he : e ∈ es) :
    entryRefuses (s.myCore.bm (eaEntry e.addr)) write = none := by
  have checks := firstFault_eq_none.1 hf
  simp only [List.mem_cons, List.not_mem_nil, or_false, forall_eq_or_imp, forall_eq, spaceFault, entryFault,
    Option.map_eq_none_iff, List.find?_eq_none, List.findSome?_eq_none_iff, List.mem_filter] at checks
  obtain ⟨-, space, entry, -, global⟩ := checks
  have here := space e he
  have near := global e he
  exact entry e ⟨he, by simpa [near] using here⟩

theorem State.admits_of_serves {s : State} {a : Access} {ea : Word} {write : Bool} (he : a.ea = ea)
    (hk : (a.kind != .load) = write) (h : entryRefuses (s.myCore.bm (eaEntry ea)) write = none) :
    s.Admits s.cur.core a := by
  subst he hk
  unfold State.Admits admittedRefuses
  unfold entryRefuses State.myCore at h
  grind

/-! ### One element -/

/-- A slot with other accesses and another numbering. -/
def Slot.withAccs (sl : Slot) (l : List Access) (n : Nat) : Slot := { sl with accs := l, nextId := n }

section

variable (sl : Slot) (l : List Access) (n : Nat)

@[simp] theorem Slot.withAccs_accs : (sl.withAccs l n).accs = l := rfl

@[simp] theorem Slot.withAccs_nextId : (sl.withAccs l n).nextId = n := rfl

@[simp] theorem Slot.withAccs_turn : (sl.withAccs l n).turn = sl.turn := rfl

@[simp] theorem Slot.withAccs_vloads : (sl.withAccs l n).vloads = sl.vloads := rfl

@[simp] theorem Slot.withAccs_flights : (sl.withAccs l n).flights = sl.flights := rfl

@[simp] theorem Slot.withAccs_withAccs (k : List Access) (m : Nat) : (sl.withAccs k m).withAccs l n = sl.withAccs l n := rfl

end

section

variable {s : State} {a : Access}

@[simp] theorem State.elemPlaced_me : (s.elemPlaced a).me = s.me.withAccs (s.me.accs ++ [a]) (s.me.nextId + 1) := by
  rw [State.elemPlaced, State.me_modMe]
  rfl

/-- R127: an element of a later beat is held. -/
theorem State.issueElem_held (ht : s.me.turn < a.atTurn) :
    s.issueElem a = s.elemPlaced { a with needs := s.me.sameByte a } := by
  unfold State.issueElem
  dsimp only
  rw [if_neg]
  · rfl
  · have later : ((s.elemPlaced { a with needs := s.me.sameByte a }).me).turn < a.atTurn := by
      rw [State.elemPlaced_me]
      exact ht
    simpa [State.elemPlaced] using fun _ => later

variable (h : s.me.accs = []) (ht : a.atTurn ≤ s.me.turn) (ha : s.Admits s.cur.core a) (hs : a.size ≠ 16)

include h ht in
theorem State.issueElem_now : s.issueElem a = (s.accessPlaced a).performLocal s.cur { a with needs := [] } := by
  have needs : s.me.sameByte a = [] := by simp [Slot.sameByte, h]
  have turn : (s.accessPlaced a).me.turn = s.me.turn := by
    rw [State.accessPlaced, State.me_modMe]
  unfold State.issueElem
  rw [needs]
  dsimp only
  rw [if_pos]
  · rw [State.accessPlaced, State.heldAccess_alone h]
    rfl
  · rw [State.accessPlaced, State.heldAccess_alone h] at turn
    simpa [turn] using ht

include h ht ha hs

/-- R152: a store of the first beat performs at once. -/
theorem State.issueElem_store (hk : a.kind = .store) : ∃ e, s.issueElem a =
    (s.setSlot s.cur (s.me.withAccs [] (s.me.nextId + 1))).withMemory
      (memWriteAll s.mem (s.myCore.winKey a.ea) (leBytes a.size a.data.toNat)) e := by
  have placed : Quiet s.cur s (s.accessPlaced a) := State.accessPlaced_quiet
  have key : ((s.accessPlaced a).core s.cur.core).winKey a.ea = s.myCore.winKey a.ea := placed.frame.winKey a.ea
  obtain ⟨e, b, next⟩ : ∃ e b, (s.accessPlaced a).performNext s.cur.core [] { a with needs := [] } =
      (0, (s.accessPlaced a).withMemory
        (memWriteAll s.mem (s.myCore.winKey a.ea) (leBytes a.size a.data.toNat)) e, b) := by
    rw [← key, State.performNext_small (a := { a with needs := [] }) [] hs,
      State.performAt_store (a := { a with needs := [] }) [] hk]
    exact ⟨_, _, rfl⟩
  have land := State.accessPlaced_performLocal h ha next
  rw [State.accessPlaced_landStore h hk] at land
  exact ⟨e, (State.issueElem_now h ht).trans land⟩

/-- R126: a load of the first beat performs at once, and its lanes join those of its vector load. -/
theorem State.issueElem_load {id lane : Nat} {ft : BitVec 4} (hk : a.kind = .load) (hv : a.vdest = some (id, lane, ft))
    (hc : s.memErr = []) (hn : a.size ≤ 16) : s.issueElem a =
      s.setSlot s.cur ((s.me.withAccs [] (s.me.nextId + 1)).landElem id
        (s.now + s.loadTime s.cur.core) fun v => v.take lane ft (leNat (s.bytes (s.myCore.winKey a.ea) a.size))) := by
  have placed : Quiet s.cur s (s.accessPlaced a) := State.accessPlaced_quiet
  have key : ((s.accessPlaced a).core s.cur.core).winKey a.ea = s.myCore.winKey a.ea := placed.frame.winKey a.ea
  have clean (k n : Nat) : (s.accessPlaced a).hasErr k n = false := by
    rw [State.accessPlaced_hasErr]
    simp [State.hasErr, hc]
  have next : (s.accessPlaced a).performNext s.cur.core [] { a with needs := [] } = (0, s.accessPlaced a,
      { a with needs := [], st := .performed
               val := BitVec.ofNat 128 (leNat (s.bytes (s.myCore.winKey a.ea) a.size)) }) := by
    rw [State.performNext_small (a := { a with needs := [] }) [] hs,
      State.performAt_load_clean (a := { a with needs := [] }) hk (clean _ _)]
    dsimp only
    rw [key, State.accessPlaced_bytes]
  rw [State.issueElem_now h ht, State.accessPlaced_performLocal h ha next]
  unfold State.landLocal
  dsimp only
  rw [hk, hv]
  dsimp only
  rw [toNat_ofNat_bytes s hn, State.accessPlaced_alone h, State.modSlot_setSlot]
  simp [Slot.dropAcc, dropFirst]
  rfl

end

end Sys2Proof.Machine
end

section
/-! SUPPORT. All elements of a vector word, beat by beat (R126, R127, R152). -/

namespace Sys2Proof.Machine

/-! ### Lists of elements -/

/-- A list whose elements with a property come first is those and then the others. -/
theorem filter_append_filter_of_pairwise {α : Type} {p : α → Bool} {l : List α}
    (h : l.Pairwise fun a b => p b = true → p a = true) : l.filter p ++ l.filter (fun a => !p a) = l := by
  induction l with
  | nil => rfl
  | cons a l ih =>
    obtain ⟨ha, hl⟩ := List.pairwise_cons.1 h
    cases hp : p a with
    | true => simp [hp, ih hl]
    | false =>
      have none : ∀ b ∈ l, p b = false := fun b hb => by
        by_contra hc
        exact absurd (ha b hb (by simpa using hc)) (by simp [hp])
      have first : l.filter p = [] := List.filter_eq_nil_iff.2 fun b hb => by simp [none b hb]
      have rest : l.filter (fun a => !p a) = l := List.filter_eq_self.2 fun b hb => by simp [none b hb]
      simp [hp, first, rest]

theorem leBytes_mod (n m v : Nat) (h : n ≤ m) : leBytes n (v % 256 ^ m) = leBytes n v := by
  induction n generalizing m v with
  | zero => rfl
  | succ n ih =>
    obtain ⟨k, rfl⟩ : ∃ k, m = k + 1 := ⟨m - 1, by omega⟩
    have low : BitVec.ofNat 8 (v % 256 ^ (k + 1)) = BitVec.ofNat 8 v := by
      apply BitVec.eq_of_toNat_eq
      rw [BitVec.toNat_ofNat, BitVec.toNat_ofNat, Nat.pow_succ']
      exact Nat.mod_mul_right_mod v 256 _
    rw [leBytes, leBytes, low, Nat.pow_succ', Nat.mod_mul_right_div_self, ih _ _ (by omega)]

theorem leBytes_ofNat {n : Nat} (h : n ≤ 16) (v : Nat) : leBytes n (BitVec.ofNat 128 v).toNat = leBytes n v := by
  rw [BitVec.toNat_ofNat, show 2 ^ 128 = 256 ^ 16 by norm_num]
  exact leBytes_mod n 16 v h

/-! ### Beats to come -/

/-- R127: an access of the slot is an element that waits for the turn of its beat. -/
def HoldsElem (turn : Nat) (o : FmtV) (k : AccKind) (e : Elem) (n : Nat) (a : Access) : Prop :=
  a.kind = k ∧ a.ea = e.addr ∧ a.glob = false ∧ a.size = contSize o.ft ∧ a.data = BitVec.ofNat 128 n ∧ a.st = .held ∧
    a.atTurn = turn + beatOf o.ft e ∧ ∃ id, a.vdest = some (id, e.lane, o.ft)

section

variable {s : State} {o : FmtV} {k : AccKind} {vload : Nat} {data : Elem → Nat} {es : List Elem}

/-- R127: elements of later beats join the accesses of their slot, and nothing else happens. -/
theorem State.issueElems_held (hb : ∀ e ∈ es, beatOf o.ft e ≠ 0) :
    (s.issueElems o k vload data es).mem = s.mem ∧
      (∃ l n, (s.issueElems o k vload data es).me = s.me.withAccs (s.me.accs ++ l) n) ∧
      ∀ e ∈ es, ∃ a ∈ (s.issueElems o k vload data es).me.accs, HoldsElem s.me.turn o k e (data e) a := by
  induction es generalizing s with
  | nil => exact ⟨rfl, ⟨[], s.me.nextId, by rw [List.append_nil]; rfl⟩, fun e he => absurd he List.not_mem_nil⟩
  | cons e es ih =>
    have held := State.issueElem_held (s := s) (a := s.elemAccess o k vload e (data e))
      (Nat.lt_add_of_pos_right (Nat.pos_of_ne_zero (hb e List.mem_cons_self)))
    obtain ⟨hm, ⟨l, n, hme⟩, hes⟩ := ih (s := s.issueElem (s.elemAccess o k vload e (data e)))
      fun f hf => hb f (List.mem_cons_of_mem _ hf)
    have me := congrArg State.me held
    rw [State.elemPlaced_me] at me
    rw [me, Slot.withAccs_turn] at hes
    rw [me, Slot.withAccs_withAccs, Slot.withAccs_accs, List.append_assoc] at hme
    rw [State.issueElems_cons]
    refine ⟨hm.trans (by rw [held]; rfl), ⟨_, n, hme⟩, fun f hf => ?_⟩
    rcases List.mem_cons.1 hf with rfl | hf
    · refine ⟨{ s.elemAccess o k vload f (data f) with
        needs := s.me.sameByte (s.elemAccess o k vload f (data f)) }, ?_, rfl, rfl, rfl, rfl, rfl, rfl, rfl, _, rfl⟩
      rw [hme]
      simp
    · exact hes f hf

end

/-! ### Stores of the first beat -/

section

variable {s : State} {o : FmtV} {vload : Nat} {data : Elem → Nat} {es : List Elem}

/-- R152: stores of the first beat write their containers, one lane after another. -/
theorem State.issueElems_store (h : s.me.accs = []) (hb : ∀ e ∈ es, beatOf o.ft e = 0)
    (hv : ∀ e ∈ es, entryRefuses (s.myCore.bm (eaEntry e.addr)) true = none) :
    (s.issueElems o .store vload data es).mem = es.foldl
        (fun m e => memWriteAll m (s.myCore.winKey e.addr) (leBytes (contSize o.ft) (data e))) s.mem ∧
      ∃ n, (s.issueElems o .store vload data es).me = s.me.withAccs [] n := by
  induction es generalizing s with
  | nil => exact ⟨rfl, s.me.nextId, by rw [← h]; rfl⟩
  | cons e es ih =>
    have first := s.issueElem_elemFrame o .store vload e (data e)
    obtain ⟨err, one⟩ := State.issueElem_store (a := s.elemAccess o .store vload e (data e)) h
      (by rw [State.elemAccess, hb e List.mem_cons_self]; exact le_rfl)
      (State.admits_of_serves rfl rfl (hv e List.mem_cons_self)) (s.elemAccess_size o .store vload e _) rfl
    have me : (s.issueElem (s.elemAccess o .store vload e (data e))).me =
        s.me.withAccs [] (s.me.nextId + 1) := by
      rw [one]
      exact State.me_setSlot_cur s _
    have core : (s.issueElem (s.elemAccess o .store vload e (data e))).myCore.bmap = s.myCore.bmap := by
      rw [State.myCore, first.cur]
      exact first.window
    have mem : (s.issueElem (s.elemAccess o .store vload e (data e))).mem =
        memWriteAll s.mem (s.myCore.winKey e.addr) (leBytes (contSize o.ft) (data e)) := by
      rw [one, ← leBytes_ofNat ((contSize_le o.ft).trans (by omega)) (data e)]
      rfl
    obtain ⟨hm, n, hme⟩ := ih (s := s.issueElem (s.elemAccess o .store vload e (data e))) (by rw [me, Slot.withAccs_accs])
      (fun f hf => hb f (List.mem_cons_of_mem _ hf)) fun f hf => by
        rw [Core.bm, core]
        exact hv f (List.mem_cons_of_mem _ hf)
    have key (ea : Word) : (s.issueElem (s.elemAccess o .store vload e (data e))).myCore.winKey ea = s.myCore.winKey ea := by
      rw [Core.winKey, Core.bm, core]
      rfl
    rw [State.issueElems_cons]
    refine ⟨?_, n, ?_⟩
    · rw [hm, List.foldl_cons, mem]
      simp only [key]
    · rw [hme, me, Slot.withAccs_withAccs]

end

end Sys2Proof.Machine
end

section
/-! SUPPORT. The lanes of a vector register, and those of the elements of a vector access (R124, R125, R150). -/

namespace Sys2Proof.Machine

/-! ### Lanes -/

theorem vlane_or (a b : VReg) (j : Nat) : vlane (a ||| b) j = vlane a j ||| vlane b j := by
  simp only [vlane, BitVec.extractLsb'_or]

theorem vlane_zero (j : Nat) : vlane 0 j = 0 := by simp [vlane]

theorem vlane_placed (x : BitVec 32) (i j : Nat) (hj : j < 64) :
    vlane ((x.setWidth 2048 : VReg) <<< (32 * i)) j = if i = j then x else 0 := by
  apply BitVec.eq_of_getLsbD_eq
  intro b hb
  simp only [vlane, BitVec.getLsbD_extractLsb', BitVec.getLsbD_shiftLeft, BitVec.getLsbD_setWidth, hb, decide_true,
    Bool.true_and]
  split
  · subst i
    have inside : 32 * j + b < 2048 := by omega
    simp [inside, show 32 * j + b - 32 * j = b by omega, show b < 2048 by omega]
  · by_cases below : 32 * j + b < 32 * i
    · simp [below]
    · simp [BitVec.getLsbD_of_ge x (32 * j + b - 32 * i) (by omega)]

theorem mem_of_getLsbD_lanesOf {l : List Nat} {k : Nat} (h : (lanesOf l).getLsbD k = true) : k ∈ l := by
  have fold (l : List Nat) (a : Word) (h : (l.foldl (fun a i => a ||| ((1 : Word) <<< i)) a).getLsbD k = true) :
      a.getLsbD k = true ∨ k ∈ l := by
    induction l generalizing a with
    | nil => exact .inl h
    | cons i l ih =>
      rcases ih _ h with h | h
      · rw [BitVec.getLsbD_or, Bool.or_eq_true] at h
        refine h.imp_right fun h => ?_
        have one : k - i = 0 ∧ ¬k < i := by
          rw [BitVec.getLsbD_shiftLeft, show (1 : Word) = 1#64 from rfl, BitVec.getLsbD_one] at h
          simp only [Bool.and_eq_true, decide_eq_true_eq, Bool.not_eq_true', decide_eq_false_iff_not] at h
          omega
        exact List.mem_cons.2 (.inl (by omega))
      · exact .inr (List.mem_cons_of_mem _ h)
  simpa using fold l 0 h

/-! ### The lanes of the elements -/

theorem elemLanes_eq (sl : Slot) (o : FmtV) :
    elemLanes sl o = (activeLanes sl o).filter fun k => o.ft != 11 || k % 2 == 0 := by
  unfold elemLanes
  by_cases h : o.ft = 11
  · simp [h]
  · rw [if_neg h, List.filter_eq_self.2]
    exact fun k _ => by rw [bne_iff_ne.2 h, Bool.true_or]

theorem elemLanes_pairwise (sl : Slot) (o : FmtV) : (elemLanes sl o).Pairwise (· < ·) := by
  rw [elemLanes_eq]
  exact (List.pairwise_lt_range.filter _).filter _

theorem lt_of_mem_elemLanes {sl : Slot} {o : FmtV} {k : Nat} (h : k ∈ elemLanes sl o) : k < 64 ∧ k < vlOf o.fold := by
  rw [elemLanes_eq, List.mem_filter, activeLanes, bitList, List.mem_filter, List.mem_range, activeMask,
    BitVec.getLsbD_and, Bool.and_eq_true] at h
  obtain ⟨⟨h64, -, hk⟩, -⟩ := h
  exact ⟨h64, List.mem_range.1 (mem_of_getLsbD_lanesOf hk)⟩

/-- R127: eight lanes to a beat, four pairs for pairs. -/
theorem beatOf_eq (ft : BitVec 4) (e : Elem) : beatOf ft e = e.lane / 8 := by
  unfold beatOf elemNum
  split <;> omega

section

variable {sl : Slot} {o : FmtV} {es : List Elem} (h : es.map Elem.lane = elemLanes sl o)
include h

theorem lane_lt_of_mem {e : Elem} (he : e ∈ es) : e.lane < 64 ∧ e.lane < vlOf o.fold :=
  lt_of_mem_elemLanes (sl := sl) (by rw [← h]; exact List.mem_map_of_mem he)

/-- R127: the elements of the first beat come first. -/
theorem beats_rise : es.Pairwise fun d e => (beatOf o.ft e == 0) = true → (beatOf o.ft d == 0) = true := by
  have rise := elemLanes_pairwise sl o
  rw [← h, List.pairwise_map] at rise
  refine rise.imp fun {d e} hde he => ?_
  rw [beq_iff_eq, beatOf_eq] at he ⊢
  omega

/-- R127: a word of eight lanes has one beat. -/
theorem beatOf_eq_zero {e : Elem} (he : e ∈ es) (hf : o.fold = 0) : beatOf o.ft e = 0 := by
  obtain ⟨-, hl⟩ := lane_lt_of_mem h he
  have eight : vlOf o.fold = 8 := by rw [hf]; rfl
  rw [beatOf_eq]
  omega

theorem lanes_nodup : (es.map Elem.lane).Nodup := by
  rw [h]
  exact (elemLanes_pairwise sl o).imp Nat.ne_of_lt

end

/-! ### What a vector load has read -/

/-- R126: an element has been read: its lanes join the load, which has one fewer to wait for. -/
def VLoad.land (o : FmtV) (at_ : Nat) (x : Elem → Nat) (v : VLoad) (e : Elem) : VLoad :=
  { v.take e.lane o.ft (x e) with left := v.left - 1, minCycle := Nat.max v.minCycle at_ }

section

variable {o : FmtV} {at_ : Nat} {x : Elem → Nat} {v : VLoad} {es : List Elem}

theorem VLoad.land_foldl : es.foldl (VLoad.land o at_ x) v =
      { v with
        data := (es.foldl (VLoad.land o at_ x) v).data, left := v.left - es.length
        minCycle := (es.foldl (VLoad.land o at_ x) v).minCycle } ∧
    (v.minCycle = at_ → (es.foldl (VLoad.land o at_ x) v).minCycle = at_) := by
  induction es generalizing v with
  | nil => exact ⟨rfl, fun h => h⟩
  | cons e es ih =>
    obtain ⟨hv, hm⟩ := ih (v := v.land o at_ x e)
    rw [List.foldl_cons]
    refine ⟨?_, fun h => hm ?_⟩
    · rw [hv, List.length_cons, Nat.add_comm, ← Nat.sub_sub]
      rfl
    · simp [VLoad.land, h]

variable (hft : o.ft ≠ 11)
include hft

theorem VLoad.take_data (v : VLoad) (i n : Nat) :
    (v.take i o.ft n).data = v.data ||| ((contNum o.ft n).lane.setWidth 2048 : VReg) <<< (32 * i) := by
  rw [VLoad.take, elementLanes, if_neg hft]
  simp [packLanes]

theorem vlane_land (e : Elem) (j : Nat) (hj : j < 64) : vlane (v.land o at_ x e).data j =
    vlane v.data j ||| if e.lane = j then (contNum o.ft (x e)).lane else 0 := by
  rw [VLoad.land, VLoad.take_data hft, vlane_or, vlane_placed _ _ _ hj]

theorem vlane_landed_ne {j : Nat} (hj : j < 64) (h : ∀ e ∈ es, e.lane ≠ j) :
    vlane (es.foldl (VLoad.land o at_ x) v).data j = vlane v.data j := by
  induction es generalizing v with
  | nil => rfl
  | cons e es ih =>
    rw [List.foldl_cons, ih fun f hf => h f (List.mem_cons_of_mem _ hf), vlane_land hft e j hj,
      if_neg (h e List.mem_cons_self)]
    simp

/-- R126: each lane of the elements read holds its container. -/
theorem vlane_landed (hd : (es.map Elem.lane).Nodup) (hl : ∀ e ∈ es, e.lane < 64)
    (hz : ∀ e ∈ es, vlane v.data e.lane = 0) {e : Elem} (he : e ∈ es) :
    vlane (es.foldl (VLoad.land o at_ x) v).data e.lane = (contNum o.ft (x e)).lane := by
  induction es generalizing v with
  | nil => exact absurd he List.not_mem_nil
  | cons f es ih =>
    rw [List.map_cons, List.nodup_cons, List.mem_map] at hd
    obtain ⟨hf, hd⟩ := hd
    have other (g : Elem) (hg : g ∈ es) : f.lane ≠ g.lane := fun h => hf ⟨g, hg, h.symm⟩
    rw [List.foldl_cons]
    rcases List.mem_cons.1 he with rfl | he
    · rw [vlane_landed_ne hft (hl e List.mem_cons_self) fun g hg => (other g hg).symm,
        vlane_land hft e _ (hl e List.mem_cons_self), hz e List.mem_cons_self, if_pos rfl]
      simp
    · refine ih hd (fun g hg => hl g (List.mem_cons_of_mem _ hg)) (fun g hg => ?_) he
      rw [vlane_land hft f _ (hl g (List.mem_cons_of_mem _ hg)), hz g (List.mem_cons_of_mem _ hg), if_neg (other g hg)]
      simp

end

end Sys2Proof.Machine
end

section
/-! SUPPORT. A vector load from its issue on, and the obligation (R126, R127, R137, R150 to R152). -/

namespace Sys2Proof.Machine

/-! ### A slot with one vector load -/

/-- A slot whose only vector load is the one given, or, where nothing is left of that, has its result in flight. -/
def Slot.withVload (sl : Slot) (v : VLoad) : Slot := ({ sl with vloads := [v] } : Slot).closeVload v.id

section

variable {sl : Slot} {v : VLoad}

theorem Slot.closeVload_open {id : Nat} (hv : sl.vloads = [v]) (h : v.left ≠ 0 ∨ sl.turn < v.last) : sl.closeVload id = sl := by
  unfold Slot.closeVload
  rw [hv, List.find?_eq_none.2]
  rintro x hx
  rw [List.mem_singleton.1 hx]
  rcases h with h | h
  · simp [h]
  · simp [Nat.not_le.2 h]

theorem Slot.withVload_open (h : v.left ≠ 0 ∨ sl.turn < v.last) : sl.withVload v = { sl with vloads := [v] } :=
  Slot.closeVload_open (sl := { sl with vloads := [v] }) rfl h

theorem Slot.closeVload_done {id : Nat} (hv : sl.vloads = []) : sl.closeVload id = sl := by
  unfold Slot.closeVload
  rw [hv]
  rfl

theorem Slot.withVload_done (h0 : v.left = 0) (hl : v.last ≤ sl.turn) (hb : v.bad = none) : sl.withVload v = { sl with
    vloads := [], flights := sl.flights ++ [⟨v.id, v.minTurn, v.minCycle, [.v v.vd v.lanes v.data]⟩] } := by
  unfold Slot.withVload Slot.closeVload
  simp [h0, hl, hb, dropFirst]

@[simp] theorem Slot.withVload_accs : (sl.withVload v).accs = sl.accs := by
  rw [Slot.withVload, Slot.closeVload_frame]

@[simp] theorem Slot.withVload_turn : (sl.withVload v).turn = sl.turn := by
  rw [Slot.withVload, Slot.closeVload_frame]

/-- R126: an element of the only vector load of a slot lands. -/
theorem Slot.landElem_withVload (o : FmtV) (at_ : Nat) (x : Elem → Nat) (e : Elem) (hv : sl.vloads = [v]) :
    sl.landElem v.id at_ (fun v => v.take e.lane o.ft (x e)) = sl.withVload (v.land o at_ x e) := by
  unfold Slot.landElem Slot.withVload
  rw [hv]
  simp [updFirst, VLoad.land, VLoad.take]

end

/-! ### Loads of the first beat -/

section

variable {s : State} {o : FmtV} {es : List Elem}

/-- R126: what the elements of a vector load read, and when its result can be seen at the earliest. -/
def State.landed (s : State) (o : FmtV) (v : VLoad) (es : List Elem) : VLoad :=
  es.foldl (VLoad.land o (s.now + s.loadTime s.cur.core) fun e =>
    leNat (s.bytes (s.myCore.winKey e.addr) (contSize o.ft))) v

theorem ElemFrame.landed {t : State} (h : ElemFrame s.cur s t) (hm : SameMemory s t) (v : VLoad) :
    t.landed o v es = s.landed o v es := by
  have time : t.now + t.loadTime t.cur.core = s.now + s.loadTime s.cur.core := by
    rw [h.cur, h.rest]
    rfl
  have bytes (a n : Nat) : t.bytes a n = s.bytes a n := by
    simp only [State.bytes, State.byte, hm.1]
  have key (ea : Word) : t.myCore.winKey ea = s.myCore.winKey ea := by
    rw [State.myCore, h.cur]
    exact h.winKey ea
  simp only [State.landed, time, bytes, key]

theorem State.issueElems_load {y : Slot} {v : VLoad} {n k : Nat} {data : Elem → Nat}
    (hme : s.me = (y.withAccs [] n).withVload v)
    (hleft : v.left = es.length + k) (hc : s.memErr = []) (hb : ∀ e ∈ es, beatOf o.ft e = 0)
    (hv : ∀ e ∈ es, entryRefuses (s.myCore.bm (eaEntry e.addr)) false = none) :
    ∃ m, (s.issueElems o .load v.id data es).me = (y.withAccs [] m).withVload (s.landed o v es) := by
  induction es generalizing s v n with
  | nil => exact ⟨n, hme⟩
  | cons e es ih =>
    have first := s.issueElem_elemFrame o .load v.id e (data e)
    have same := s.issueElem_sameMemory o v.id e (data e)
    have opened : v.left ≠ 0 ∨ (y.withAccs [] n).turn < v.last := .inl (by rw [hleft, List.length_cons]; omega)
    have me := hme
    rw [Slot.withVload_open opened] at me
    have one := State.issueElem_load (a := s.elemAccess o .load v.id e (data e)) (by rw [hme]; simp)
      (by rw [State.elemAccess, hb e List.mem_cons_self]; exact le_rfl)
      (State.admits_of_serves rfl rfl (hv e List.mem_cons_self)) (s.elemAccess_size o .load v.id e _) rfl rfl hc
      ((contSize_le o.ft).trans (by omega))
    have landed : (s.issueElem (s.elemAccess o .load v.id e (data e))).me =
        (y.withAccs [] (s.me.nextId + 1)).withVload (v.land o (s.now + s.loadTime s.cur.core)
          (fun e => leNat (s.bytes (s.myCore.winKey e.addr) (contSize o.ft))) e) := by
      rw [one, State.me_setSlot_cur]
      refine (Slot.landElem_withVload (sl := s.me.withAccs [] (s.me.nextId + 1)) o _
        (fun e => leNat (s.bytes (s.myCore.winKey e.addr) (contSize o.ft))) e (by rw [me]; rfl)).trans ?_
      rw [me]
      rfl
    have left : (v.land o (s.now + s.loadTime s.cur.core)
        (fun e => leNat (s.bytes (s.myCore.winKey e.addr) (contSize o.ft))) e).left = es.length + k := by
      rw [List.length_cons] at hleft
      change v.left - 1 = es.length + k
      omega
    obtain ⟨m, hm⟩ := ih landed left (same.2.trans hc) (fun f hf => hb f (List.mem_cons_of_mem _ hf)) fun f hf => by
      rw [Core.bm, State.myCore, first.cur, first.window]
      exact hv f (List.mem_cons_of_mem _ hf)
    refine ⟨m, hm.trans ?_⟩
    rw [first.landed same]
    rfl

end

end Sys2Proof.Machine
end

section
/-! SUPPORT. The words of vector loads and stores as the statements speak of them (R126, R127, R137, R150 to R152). -/

namespace Sys2Proof.Machine

/-! ### The issue of a vector load -/

theorem Slot.closeVload_withVload (sl : Slot) (v : VLoad) : (sl.withVload v).closeVload v.id = sl.withVload v := by
  by_cases h : v.left ≠ 0 ∨ sl.turn < v.last
  · rw [Slot.withVload_open h]
    exact Slot.closeVload_open (sl := { sl with vloads := [v] }) rfl h
  · obtain ⟨h0, hl⟩ := not_or.1 h
    refine Slot.closeVload_done ?_
    unfold Slot.withVload Slot.closeVload
    simp [not_not.1 h0, Nat.not_lt.1 hl, dropFirst]

/-- R126, R137: a vector load of which nothing has been read. -/
def State.newVload (s : State) (o : FmtV) (n : Nat) : VLoad :=
  let sl := s.me
  let b := beatsOf o.fold
  { id := sl.nextId, pc := sl.pc, cycle := s.now, vd := o.vd, lanes := writtenLanes sl o, data := 0, left := n,
    last := sl.turn + b - 1, minTurn := sl.turn + b + 6, minCycle := if b = 1 then s.now + s.loadTime s.cur.core else 0,
    bad := none }

/-- The load stands among those of its slot. -/
def State.vloadPlaced (s : State) (o : FmtV) (es : List Elem) : State :=
  (s.planBeats o es).modMe fun sl =>
    { sl with vloads := sl.vloads ++ [(s.planBeats o es).newVload o es.length], nextId := sl.nextId + 1 }

theorem State.vload_eq (s : State) (o : FmtV) (es : List Elem) : s.vload o es =
    let v := (s.planBeats o es).newVload o es.length
    ((s.vloadPlaced o es).issueElems o .load v.id (fun _ => 0) es).modMe fun sl => sl.closeVload v.id := rfl

section

variable (s : State) (o : FmtV) (es : List Elem)

theorem State.vloadPlaced_elemFrame : ElemFrame s.cur s (s.vloadPlaced o es) := by
  have planned := s.planBeats_elemFrame o es
  refine planned.trans ?_
  rw [State.vloadPlaced, State.modMe, ← planned.cur]
  exact .modSlot rfl

theorem State.vloadPlaced_sameMemory : SameMemory s (s.vloadPlaced o es) := s.planBeats_sameMemory o es

theorem State.vload_elemFrame : ElemFrame s.cur s (s.vload o es) := by
  have placed := s.vloadPlaced_elemFrame o es
  have read := (s.vloadPlaced o es).issueElems_elemFrame o .load ((s.planBeats o es).newVload o es.length).id (fun _ => 0) es
  rw [placed.cur] at read
  have cur := (placed.trans read).cur
  refine (placed.trans read).trans ?_
  rw [State.vload_eq, State.modMe, ← cur]
  refine .modSlot ?_
  rw [Slot.closeVload_frame]

theorem State.vload_sameMemory : SameMemory s (s.vload o es) :=
  (s.vloadPlaced_sameMemory o es).trans ((s.vloadPlaced o es).issueElems_sameMemory o _ (fun _ => 0) es)

theorem State.newVload_planBeats (n : Nat) : (s.planBeats o es).newVload o n = s.newVload o n := by
  have planned := s.planBeats_elemFrame o es
  have time : (s.planBeats o es).now = s.now ∧ (s.planBeats o es).loadTime (s.planBeats o es).cur.core =
      s.loadTime s.cur.core := by
    rw [planned.cur, planned.rest]
    exact ⟨rfl, rfl⟩
  unfold State.newVload
  rw [time.1, time.2, s.planBeats_me o es]
  rfl

end

/-! ### Alone in its slot -/

/-- R126: of a load the elements change what has been read, how many are left, and when it can be seen. -/
theorem State.landed_eq (s : State) (o : FmtV) (n : Nat) (es : List Elem) :
    s.landed o (s.newVload o n) es = { s.newVload o n with
        data := (s.landed o (s.newVload o n) es).data, left := n - es.length
        minCycle := (s.landed o (s.newVload o n) es).minCycle } ∧
      (o.fold = 0 → (s.landed o (s.newVload o n) es).minCycle = s.now + s.loadTime s.cur.core) := by
  obtain ⟨hv, hm⟩ := VLoad.land_foldl (o := o) (at_ := s.now + s.loadTime s.cur.core)
    (x := fun e => leNat (s.bytes (s.myCore.winKey e.addr) (contSize o.ft))) (v := s.newVload o n) (es := es)
  refine ⟨hv, fun hf => hm ?_⟩
  have one : beatsOf o.fold = 1 := by rw [hf]; rfl
  simp [State.newVload, one]

/-- R126: each lane of the elements read holds the container at its address. -/
theorem State.vlane_landed {s : State} {o : FmtV} {n : Nat} {es : List Elem} (hft : o.ft ≠ 11)
    (hd : (es.map Elem.lane).Nodup) (hl : ∀ e ∈ es, e.lane < 64) {e : Elem} (he : e ∈ es) :
    vlane (s.landed o (s.newVload o n) es).data e.lane =
      (contNum o.ft (leNat (s.bytes (s.myCore.winKey e.addr) (contSize o.ft)))).lane := by
  have zero : (s.newVload o n).data = 0 := rfl
  exact Machine.vlane_landed hft hd hl (fun f _ => by rw [zero, vlane_zero]) he

section

variable {s : State} {o : FmtV} {es later : List Elem} (hv : s.me.vloads = []) (ha : s.me.accs = [])

include hv ha in
theorem State.vloadPlaced_me : (s.vloadPlaced o es).me =
    { (s.planBeats o es).me.withAccs [] (s.me.nextId + 1) with vloads := [s.newVload o es.length] } := by
  rw [State.vloadPlaced, State.me_modMe, State.newVload_planBeats, s.planBeats_me o es, hv, ← ha]
  rfl

variable (hc : s.memErr = []) (hs : ∀ e ∈ es, entryRefuses (s.myCore.bm (eaEntry e.addr)) false = none)
  (hb : ∀ e ∈ es, beatOf o.ft e = 0)

include hv ha hc hs hb

/-- R126, R127: the first elements of a vector load, all of the first beat, have been read. -/
theorem State.vloadPlaced_reads
    (ho : (es ++ later).length ≠ 0 ∨ s.me.turn < (s.newVload o (es ++ later).length).last) :
    ∃ m, ((s.vloadPlaced o (es ++ later)).issueElems o .load (s.newVload o (es ++ later).length).id (fun _ => 0) es).me =
      ((s.planBeats o (es ++ later)).me.withAccs [] m).withVload
        (s.landed o (s.newVload o (es ++ later).length) es) := by
  have placed := s.vloadPlaced_elemFrame o (es ++ later)
  have same := s.vloadPlaced_sameMemory o (es ++ later)
  have turn : (s.planBeats o (es ++ later)).me.turn = s.me.turn := by rw [s.planBeats_me o (es ++ later)]
  rw [← placed.landed same]
  refine State.issueElems_load (n := s.me.nextId + 1) ?_ (List.length_append (bs := later)) (same.2.trans hc) hb fun e he => ?_
  · rw [Slot.withVload_open, State.vloadPlaced_me hv ha]
    rw [Slot.withAccs_turn, turn]
    exact ho
  · rw [Core.bm, State.myCore, placed.cur, placed.window]
    exact hs e he

theorem State.vload_me_single : ∃ m, (s.vload o es).me =
    ((s.planBeats o es).me.withAccs [] m).withVload (s.landed o (s.newVload o es.length) es) := by
  obtain ⟨hw, -⟩ := s.landed_eq o es.length es
  rw [State.vload_eq, State.newVload_planBeats]
  dsimp only
  rw [State.me_modMe]
  cases es with
  | nil =>
    refine ⟨s.me.nextId + 1, ?_⟩
    change (s.vloadPlaced o []).me.closeVload _ = _
    rw [State.vloadPlaced_me hv ha]
    rfl
  | cons e es =>
    have reads := State.vloadPlaced_reads (o := o) (later := []) hv ha hc hs hb (.inl (by simp))
    rw [List.append_nil] at reads
    obtain ⟨m, hm⟩ := reads
    refine ⟨m, ?_⟩
    have id : (s.newVload o (e :: es).length).id = (s.landed o (s.newVload o (e :: es).length) (e :: es)).id := by rw [hw]
    rw [hm, id]
    exact Slot.closeVload_withVload _ _

/-- R137: a load of one beat has its result in flight. -/
theorem State.vload_flights (hf : o.fold = 0) : (s.vload o es).me.flights =
    s.me.flights ++ [⟨s.me.nextId, s.me.turn + 7, s.now + s.loadTime s.cur.core,
      [.v o.vd (writtenLanes s.me o) (s.landed o (s.newVload o es.length) es).data]⟩] := by
  have one : beatsOf o.fold = 1 := by rw [hf]; rfl
  obtain ⟨m, hm⟩ := State.vload_me_single hv ha hc hs hb
  obtain ⟨hw, ht⟩ := s.landed_eq o es.length es
  have turn : (s.planBeats o es).me.turn = s.me.turn := by rw [s.planBeats_me o es]
  have flights : (s.planBeats o es).me.flights = s.me.flights := by rw [s.planBeats_me o es]
  rw [hm, Slot.withVload_done, Slot.withAccs_flights, flights, ht hf]
  · rw [hw]
    simp only [State.newVload, one]
  · rw [hw]
    exact Nat.sub_self _
  · rw [hw, Slot.withAccs_turn, turn]
    simp [State.newVload, one]
  · rw [hw]
    rfl

/-- R127: of a load of several beats the first has been read, and the elements of the others are held. -/
theorem State.vload_beats (hf : o.fold ≠ 0) (hl : ∀ e ∈ later, beatOf o.ft e ≠ 0) :
    (s.vload o (es ++ later)).me.vloads = [s.landed o (s.newVload o (es ++ later).length) es] ∧
      ∀ e ∈ later, ∃ a ∈ (s.vload o (es ++ later)).me.accs, HoldsElem s.me.turn o .load e 0 a := by
  have several : 2 ≤ beatsOf o.fold := by
    have pos : o.fold.toNat ≠ 0 := fun h => hf (BitVec.eq_of_toNat_eq h)
    exact (Nat.pow_le_pow_right (by omega) (Nat.one_le_iff_ne_zero.2 pos) : 2 ^ 1 ≤ 2 ^ o.fold.toNat)
  have unread (n : Nat) : s.me.turn < (s.newVload o n).last := by
    change s.me.turn < s.me.turn + beatsOf o.fold - 1
    omega
  obtain ⟨m, hm⟩ := State.vloadPlaced_reads (later := later) hv ha hc hs hb (.inr (unread (es ++ later).length))
  have wait : s.me.turn < (s.landed o (s.newVload o (es ++ later).length) es).last := by
    obtain ⟨hw, -⟩ := s.landed_eq o (es ++ later).length es
    rw [hw]
    exact unread (es ++ later).length
  have turn : ((s.planBeats o (es ++ later)).me.withAccs [] m).turn = s.me.turn := by
    rw [Slot.withAccs_turn, s.planBeats_me o (es ++ later)]
  obtain ⟨-, ⟨l, n, hme⟩, held⟩ := State.issueElems_held (s := (s.vloadPlaced o (es ++ later)).issueElems o .load
    (s.newVload o (es ++ later).length).id (fun _ => 0) es) (k := .load)
    (vload := (s.newVload o (es ++ later).length).id) (data := fun _ => 0) hl
  rw [hm, Slot.withVload_turn, turn] at held
  have vloads : (((s.planBeats o (es ++ later)).me.withAccs [] m).withVload
      (s.landed o (s.newVload o (es ++ later).length) es)).vloads =
        [s.landed o (s.newVload o (es ++ later).length) es] := by
    rw [Slot.withVload_open (.inr (by rwa [turn]))]
  rw [hm] at hme
  rw [State.vload_eq, State.newVload_planBeats]
  dsimp only
  rw [State.me_modMe, State.issueElems_append, Slot.closeVload_open (v := s.landed o (s.newVload o (es ++ later).length) es)]
  · exact ⟨by rw [hme, Slot.withAccs_vloads, vloads], held⟩
  · rw [hme, Slot.withAccs_vloads, vloads]
  · rw [hme, Slot.withAccs_turn, Slot.withVload_turn, turn]
    exact .inr wait

end

end Sys2Proof.Machine
end

section
/-! SUPPORT. VLD, VGATH, VST and VSCAT, and the obligation about them (R126, R127, R137, R150 to R152). -/

namespace Sys2Proof.Machine

theorem strideElems_lanes (sl : Slot) (o : FmtV) : (strideElems sl o).map Elem.lane = elemLanes sl o := by
  simp [strideElems, Function.comp_def]

theorem indexElems_lanes (sl : Slot) (o : FmtV) : (indexElems sl o).map Elem.lane = elemLanes sl o := by
  simp [indexElems, Function.comp_def]

/-- No earlier access of the slot is in flight, and no byte of memory holds an error. -/
def State.VectorAlone (s : State) : Prop := s.me.accs = [] ∧ s.me.vloads = [] ∧ s.memErr = []

/-- The elements of the first beat, and the others. -/
def firstBeat (o : FmtV) (es : List Elem) : List Elem := es.filter fun e => beatOf o.ft e == 0

def laterBeats (o : FmtV) (es : List Elem) : List Elem := es.filter fun e => !(beatOf o.ft e == 0)

section

variable {o : FmtV} {es : List Elem} {e : Elem}

theorem mem_firstBeat : e ∈ firstBeat o es ↔ e ∈ es ∧ beatOf o.ft e = 0 := by simp [firstBeat]

theorem mem_laterBeats : e ∈ laterBeats o es ↔ e ∈ es ∧ beatOf o.ft e ≠ 0 := by simp [laterBeats]

theorem firstBeat_append_laterBeats {sl : Slot} (h : es.map Elem.lane = elemLanes sl o) :
    firstBeat o es ++ laterBeats o es = es := filter_append_filter_of_pairwise (beats_rise h)

end

section

variable {s : State} {h : Hdr} {o : FmtV} {srcs : List (BitVec 4)} {unit : Bool} {elems : Slot → List Elem}
  {es : List Elem} {i : Instr} (hr : VectorReady s h) (he : elems s.me = es)

/-! ### Loads -/

section

include hr in
theorem vload_issued : VectorIssued s (beatsOf o.fold) ((s.vload o es).vectorEnd (beatsOf o.fold) 0 []) := by
  obtain ⟨-, hfree, -⟩ := hr
  exact State.vectorEnd_issued _ (s.vload_elemFrame o es) hfree

variable (hi : exec i s = loadWord h o s srcs unit elems) (hf : vmemFault s o false unit es = none)
include hr he hi hf

theorem exec_vload : exec i s = .next ((s.vload o es).vectorEnd (beatsOf o.fold) 0 []) := by
  subst he
  exact hi.trans (loadWord_issues hr hf)

theorem vload_gives : Gives i s fun t => VectorIssued s (beatsOf o.fold) t ∧ SameMemory s t :=
  ⟨_, exec_vload hr he hi hf, vload_issued hr,
    (s.vload_sameMemory o es).trans (State.vectorEnd_sameMemory _)⟩

variable (ha : s.VectorAlone) (hl : es.map Elem.lane = elemLanes s.me o)
include ha hl

/-- R127: a load of several beats reads its first beat and holds the elements of the others. -/
theorem vload_gives_beats (hb : o.fold ≠ 0) : Gives i s fun t => VectorIssued s (beatsOf o.fold) t ∧
    (∀ e ∈ es, beatOf o.ft e ≠ 0 → ∃ a ∈ t.me.accs, HoldsElem s.me.turn o .load e 0 a) ∧
    ∃ v, t.me.vloads = [v] ∧ v.vd = o.vd ∧ v.lanes = writtenLanes s.me o ∧
      v.last = s.me.turn + beatsOf o.fold - 1 ∧ v.minTurn = s.me.turn + beatsOf o.fold + 6 ∧
      v.left = (laterBeats o es).length ∧
      (o.ft ≠ 11 → ∀ e ∈ es, beatOf o.ft e = 0 → vlane v.data e.lane =
        (contNum o.ft (leNat (s.bytes (s.myCore.winKey e.addr) (contSize o.ft)))).lane) := by
  obtain ⟨haccs, hvloads, herr⟩ := ha
  have parts := firstBeat_append_laterBeats hl
  obtain ⟨hv, held⟩ := State.vload_beats (es := firstBeat o es) (later := laterBeats o es) hvloads haccs herr
    (fun e he => vmemFault_serves hf (mem_firstBeat.1 he).1) (fun e he => (mem_firstBeat.1 he).2) hb
    (fun e he => (mem_laterBeats.1 he).2)
  have count : es.length - (firstBeat o es).length = (laterBeats o es).length := by
    rw [← congrArg List.length parts, List.length_append]
    omega
  rw [parts] at hv held
  obtain ⟨hw, -⟩ := s.landed_eq o es.length (firstBeat o es)
  refine ⟨_, exec_vload hr he hi hf, vload_issued hr, fun e hin hbeat => ?_,
    _, (State.vectorEnd_vloads _).trans hv, ?_, ?_, ?_, ?_, ?_, fun hft e hin hbeat => ?_⟩
  · rw [State.vectorEnd_accs]
    exact held e (mem_laterBeats.2 ⟨hin, hbeat⟩)
  · rw [hw]; rfl
  · rw [hw]; rfl
  · rw [hw]; rfl
  · rw [hw]; rfl
  · rw [hw]; exact count
  · have sub : (firstBeat o es).Sublist es := List.filter_sublist
    exact State.vlane_landed hft ((lanes_nodup hl).sublist (sub.map _))
      (fun f hf => (lane_lt_of_mem hl (sub.subset hf)).1) (mem_firstBeat.2 ⟨hin, hbeat⟩)

/-- R126, R137: a load of one beat gives each active lane the container at its address. -/
theorem vload_gives_single (hb : o.fold = 0) (hft : o.ft ≠ 11) : Gives i s fun t =>
    VectorIssued s (beatsOf o.fold) t ∧ ∃ f v, t.me.flights = s.me.flights ++ [f] ∧ f.minTurn = s.me.turn + 7 ∧
      f.minCycle = s.now + 6 + 2 * s.classOf s.cur.core ∧ f.writes = [.v o.vd (writtenLanes s.me o) v] ∧
      ∀ e ∈ es, vlane v e.lane = (contNum o.ft (leNat (s.bytes (s.myCore.winKey e.addr) (contSize o.ft)))).lane := by
  obtain ⟨haccs, hvloads, herr⟩ := ha
  have flights := State.vload_flights hvloads haccs herr (fun e he => vmemFault_serves hf he)
    (fun e he => beatOf_eq_zero hl he hb) hb
  refine ⟨_, exec_vload hr he hi hf, vload_issued hr, _, _,
    (State.vectorEnd_flights _ rfl).trans flights, rfl, ?_, rfl, fun e he => ?_⟩
  · rw [State.loadTime, Nat.add_assoc]
  · exact State.vlane_landed hft (lanes_nodup hl) (fun f hf => (lane_lt_of_mem hl hf).1) he

end

/-! ### Stores -/

/-- R150: the container that an element stores. -/
def storeData (sl : Slot) (o : FmtV) (e : Elem) : Nat := (storeElem sl o e.lane).1

/-- The elements of a store have issued. -/
def State.vstored (s : State) (o : FmtV) (es : List Elem) : State :=
  (s.planBeats o es).issueElems o .store 0 (storeData s.me o) es

theorem State.vstored_elemFrame (s : State) (o : FmtV) (es : List Elem) : ElemFrame s.cur s (s.vstored o es) := by
  have planned := s.planBeats_elemFrame o es
  have stored := (s.planBeats o es).issueElems_elemFrame o .store 0 (storeData s.me o) es
  rw [planned.cur] at stored
  exact planned.trans stored

theorem State.planBeats_winKey (s : State) (o : FmtV) (es : List Elem) (ea : Word) :
    (s.planBeats o es).myCore.winKey ea = s.myCore.winKey ea := by
  have planned := s.planBeats_elemFrame o es
  rw [State.myCore, planned.cur]
  exact planned.winKey ea

include hr in
theorem vstore_issued : VectorIssued s (beatsOf o.fold)
    ((s.vstored o es).vectorEnd (beatsOf o.fold) (beatsOf o.fold - 1) (storeFlags s.me o es)) := by
  obtain ⟨-, hfree, -⟩ := hr
  exact State.vectorEnd_issued _ (s.vstored_elemFrame o es) hfree

variable (hi : exec i s = storeWord h o s srcs unit elems) (hf : vmemFault s o true unit es = none)
  (ht : laneTrap s.me.fpctl (storeFlags s.me o es) = none)
include hr he hi hf ht

theorem exec_vstore : exec i s =
    .next ((s.vstored o es).vectorEnd (beatsOf o.fold) (beatsOf o.fold - 1) (storeFlags s.me o es)) := by
  subst he
  exact hi.trans (storeWord_issues hr hf ht)

/-- R126: a store changes no byte but those of its elements. -/
theorem vstore_gives : Gives i s fun t => VectorIssued s (beatsOf o.fold) t ∧
    ∀ a, (∀ e ∈ es, a < s.myCore.winKey e.addr ∨ s.myCore.winKey e.addr + contSize o.ft ≤ a) →
      t.byte a = s.byte a := by
  refine ⟨_, exec_vstore hr he hi hf ht, vstore_issued hr, fun a ha => ?_⟩
  have ended : ((s.vstored o es).vectorEnd (beatsOf o.fold) (beatsOf o.fold - 1) (storeFlags s.me o es)).byte a =
      (s.vstored o es).byte a := congrArg (memRead · a) (State.vectorEnd_sameMemory _).1
  have planned : (s.planBeats o es).byte a = s.byte a := congrArg (memRead · a) (s.planBeats_mem o es)
  rw [ended, State.vstored, State.issueElems_byte, planned]
  intro e he
  rw [s.planBeats_winKey o es]
  exact ha e he

/-- R127, R152: alone in its slot, a store writes the containers of its first beat and holds the others. -/
theorem vstore_gives_beats (ha : s.VectorAlone) (hl : es.map Elem.lane = elemLanes s.me o) : Gives i s fun t =>
    VectorIssued s (beatsOf o.fold) t ∧
    t.mem = (firstBeat o es).foldl
      (fun m e => memWriteAll m (s.myCore.winKey e.addr) (leBytes (contSize o.ft) (storeData s.me o e))) s.mem ∧
    ∀ e ∈ es, beatOf o.ft e ≠ 0 → ∃ a ∈ t.me.accs, HoldsElem s.me.turn o .store e (storeData s.me o e) a := by
  obtain ⟨haccs, -, -⟩ := ha
  have planned := s.planBeats_elemFrame o es
  have me := s.planBeats_me o es
  obtain ⟨hm, n, hme⟩ := State.issueElems_store (s := s.planBeats o es) (o := o) (vload := 0)
    (data := storeData s.me o) (es := firstBeat o es) (by rw [me]; exact haccs)
    (fun e he => (mem_firstBeat.1 he).2) fun e he => by
      rw [Core.bm, State.myCore, planned.cur, planned.window]
      exact vmemFault_serves hf (mem_firstBeat.1 he).1
  obtain ⟨hm', -, held⟩ := State.issueElems_held
    (s := (s.planBeats o es).issueElems o .store 0 (storeData s.me o) (firstBeat o es)) (o := o) (k := .store)
    (vload := 0) (data := storeData s.me o) (es := laterBeats o es) fun e he => (mem_laterBeats.1 he).2
  have turn : (s.planBeats o es).me.turn = s.me.turn := by rw [me]
  rw [← State.issueElems_append, firstBeat_append_laterBeats hl] at hm' held
  rw [hme, Slot.withAccs_turn, turn] at held
  refine ⟨_, exec_vstore hr he hi hf ht, vstore_issued hr, ?_, fun e hin hbeat => ?_⟩
  · refine (State.vectorEnd_sameMemory _).1.trans (hm'.trans (hm.trans ?_))
    rw [State.planBeats_mem]
    simp only [s.planBeats_winKey o es]
  · rw [State.vectorEnd_accs]
    exact held e (mem_laterBeats.2 ⟨hin, hbeat⟩)

end

/-! ### The obligation -/

/-- Settles O36: the elements of each word keep the frame of an access (`vload_gives`, `vstore_gives`); with no earlier
access in flight those of the first beat perform and the others are held (`vload_gives_beats`, `vstore_gives_beats`),
and a load of one beat has its lanes in flight (`vload_gives_single`). -/
theorem vectorMemoryRowsComplete : Obligations.VectorMemoryRowsComplete := by
  intro s h o hr sl c lanes num strided indexed beat key alone issued holds loads stores
  have strides : strideElems s.me o = strided := by
    simp only [strideElems, elemLanes_eq]
    rfl
  have indices : indexElems s.me o = indexed := by
    simp only [indexElems, elemLanes_eq]
    rfl
  have load {i : Instr} {srcs : List (BitVec 4)} {unit : Bool} {elems : Slot → List Elem} {es : List Elem}
      (hi : exec i s = loadWord h o s srcs unit elems) (he : elems s.me = es)
      (hl : es.map Elem.lane = elemLanes s.me o) : loads i unit es := fun hf =>
    ⟨vload_gives hr he hi hf, fun ha hb => vload_gives_beats hr he hi hf ha hl hb,
      fun ha hb hft => vload_gives_single hr he hi hf ha hl hb hft⟩
  have store {i : Instr} {srcs : List (BitVec 4)} {unit : Bool} {elems : Slot → List Elem} {es : List Elem}
      (hi : exec i s = storeWord h o s srcs unit elems) (he : elems s.me = es)
      (hl : es.map Elem.lane = elemLanes s.me o) : stores i unit es := fun hf ht =>
    ⟨vstore_gives hr he hi hf ht, fun ha => vstore_gives_beats hr he hi hf ht ha hl⟩
  rw [← strides, ← indices]
  exact ⟨load (elems := fun sl => strideElems sl o) rfl rfl (strideElems_lanes _ _),
    load (elems := fun sl => indexElems sl o) rfl rfl (indexElems_lanes _ _),
    store (elems := fun sl => strideElems sl o) rfl rfl (strideElems_lanes _ _),
    store (elems := fun sl => indexElems sl o) rfl rfl (indexElems_lanes _ _)⟩

end Sys2Proof.Machine
end

section
/-! SUPPORT. Page tables and walks of routine 0: what a walk finds, and what its end means to a node and to an AG (R292,
R293, R295). -/

namespace Sys2Proof.Machine

/-! ### Page-table entries (R292) -/

/-- R292: a pointer to the next table, its offset in range. -/
structure Pte.Pointer (w : Pte) : Prop where
  valid : w.getLsbD 0 = true
  high : bits w 52 6 = 0
  low : bits w 8 8 = 0
  notLeaf : Pte.leaf w = false
  range : Pte.offset w < 384 * 2 ^ 30

theorem bits_eq_div_mod {n : Nat} (x : BitVec n) (lo len : Nat) : bits x lo len = x.toNat / 2 ^ lo % 2 ^ len := by
  rw [bits, BitVec.extractLsb'_toNat, Nat.shiftRight_eq_div_pow]

theorem Pte.sound_iff (w : Pte) : Pte.sound w = true ↔
    w.getLsbD 0 = true ∧ bits w 52 4 = 0 ∧ bits w 8 8 = 0 ∧ bits w 56 2 ≠ 3 := by
  simp [Pte.sound, Pte.tier, and_assoc]

theorem Pte.Pointer.nextTable {w : Pte} (h : Pte.Pointer w) (s : State) :
    s.nextTable w = some (hbmDpa s.fw.die (Pte.offset w)) := by
  obtain ⟨valid, high, low, notLeaf, range⟩ := h
  rw [bits_eq_div_mod] at high
  have zero : bits w 52 4 = 0 := by rw [bits_eq_div_mod]; omega
  have tier : bits w 56 2 = 0 := by rw [bits_eq_div_mod]; omega
  have sound : Pte.sound w = true := (Pte.sound_iff w).2 ⟨valid, zero, low, by omega⟩
  have ok : hbmOk (Pte.offset w) = true := decide_eq_true range
  simp [State.nextTable, sound, notLeaf, Pte.tier, tier, ok]

/-- R292: a walk through two pointers ends at a page of the third level. -/
theorem State.findLeaf_small {s : State} {root : Nat} {va w1 w2 w3 : Word} (hva : bits va 52 12 = 0)
    (h1 : s.pteAt (root + 8 * bits va 40 12) = w1) (p1 : Pte.Pointer w1)
    (h2 : s.pteAt (hbmDpa s.fw.die (Pte.offset w1) + 8 * bits va 28 12) = w2) (p2 : Pte.Pointer w2)
    (h3 : s.pteAt (hbmDpa s.fw.die (Pte.offset w2) + 8 * bits va 16 12) = w3) (sound : Pte.sound w3 = true) :
    s.findLeaf root va = some ⟨hbmDpa s.fw.die (Pte.offset w2) + 8 * bits va 16 12, w3, 16⟩ := by
  unfold State.findLeaf
  rw [if_neg (not_not.2 hva), h1, p1.nextTable s]
  dsimp only
  rw [h2, p2.notLeaf, if_neg Bool.false_ne_true, p2.nextTable s]
  dsimp only
  rw [h3, if_pos sound]

/-! ### A walk of routine 0 (R293) -/

/-- R292: the access of a walk is allowed by the leaf that it finds. -/
def Leaf.allows (l : Leaf) (write : Bool) : Bool := l.pte.getLsbD (if write then 3 else 2)

section

variable {s : State} {root : Nat} {va : Word} {write : Bool} {l : Leaf}

theorem State.walk0_none (h : s.findLeaf root va = none) : s.walk0 root va write = (.unmapped, s) := by
  rw [State.walk0, h]

theorem State.walk0_moving (h : s.findLeaf root va = some l) (hw : write = true) (hm : l.pte.getLsbD 1 = true) :
    s.walk0 root va write = (.wait, s) := by
  simp [State.walk0, h, hw, Pte.mv, hm]

theorem Leaf.allows_eq (l : Leaf) (write : Bool) : (if write then Pte.w l.pte else Pte.r l.pte) = l.allows write := by
  cases write <;> rfl

theorem State.walk0_found (h : s.findLeaf root va = some l) (hm : write = true → l.pte.getLsbD 1 = false) :
    s.walk0 root va write = if l.allows write then
      (.mapped (s.pageDpa l.pte) l.log2 (Pte.r l.pte) (Pte.w l.pte), s.touchLeaf l write) else (.denied, s) := by
  have still : (write && Pte.mv l.pte) = false := by
    cases write
    · rfl
    · exact hm rfl
  rw [State.walk0, h]
  dsimp only
  rw [still, if_neg Bool.false_ne_true, Leaf.allows_eq]

theorem State.walk0_denied (h : s.findLeaf root va = some l) (hm : write = true → l.pte.getLsbD 1 = false)
    (denied : l.allows write = false) : s.walk0 root va write = (.denied, s) := by
  rw [State.walk0_found h hm, if_neg (by rw [denied]; exact Bool.false_ne_true)]

end

/-! ### The end of a walk (R293, R295) -/

@[simp] theorem Core.node_modNode (x : Core) (n : Nat) (f : Node → Node) : (x.modNode n f).node n = f (x.node n) := by
  simp [Core.node, Core.modNode]

@[simp] theorem Core.ag_modAg (x : Core) (n : Nat) (f : AG → AG) : (x.modAg n f).ag n = f (x.ag n) := by
  simp [Core.ag, Core.modAg]

@[simp] theorem State.core_modCluster (s : State) (k : Nat) (f : Cluster → Cluster) (c : Nat) :
    (s.modCluster k f).core c = s.core c := rfl

@[simp] theorem State.core_poke (s : State) (a : Nat) (bs : List Byte) (c : Nat) :
    (s.poke a bs).core c = s.core c := rfl

@[simp] theorem State.core_dropWalk (s : State) (id c : Nat) : (s.dropWalk id).core c = s.core c := rfl

@[simp] theorem State.core_soon (s : State) (i : Instr) (c : Nat) : (s.soon i).core c = s.core c := rfl

@[simp] theorem State.dropWalk_memErr (s : State) (id : Nat) : (s.dropWalk id).memErr = s.memErr := rfl

theorem State.sameSlots_of_cores {s t : State} (h : t.cores = s.cores) : SameSlots s t := fun q => by
  rw [State.slot, State.core, h]
  rfl

theorem SameSlots.trans {s t u : State} (h : SameSlots s t) (h' : SameSlots t u) : SameSlots s u :=
  fun q => (h' q).trans (h q)

theorem State.walk0_core (s : State) (root : Nat) (va : Word) (write : Bool) (c : Nat) :
    (s.walk0 root va write).2.core c = s.core c := by
  unfold State.walk0
  (repeat' split) <;> rfl

section

variable {s : State} {w : Walk}

/-- The only walk that is under way has gone. -/
theorem State.dropWalk_only (h : s.fe.walks = [w]) : (s.dropWalk w.id).fe.walks = [] := by
  simp [State.dropWalk, h]

section

variable (h : s.fe.walks = [w]) (hr : (s.space w.asid).routine = 0) {c n : Nat}
include h hr

/-- R293: the only walk that is under way, asked for by a node, answers. -/
theorem execWalkComplete_node (hw : w.who = .node c n) (ha : ((s.core c).node n).walk.isSome = true)
    {u : State} {r : WalkOut} (hu : s.walk0 (s.space w.asid).root.toNat w.va w.write = (r, u)) :
    exec (.walkComplete w.id) s = .next (u.nodeWalked w c n r) := by
  have idle : s.engineBusy w = false := by simp [State.engineBusy, h]
  have found : s.fe.walks.find? (fun x => x.id == w.id) = some w := by simp [h]
  have answer : s.walkVa w.asid w.va w.write = (r, u) := (if_pos hr).trans hu
  have asks : ((u.core c).node n).walk.isSome = true := by
    have core := s.walk0_core (s.space w.asid).root.toNat w.va w.write c
    rw [hu] at core
    rw [core, ha]
  change execWalkComplete w.id s = _
  unfold execWalkComplete
  rw [found]
  dsimp only
  rw [idle, if_neg Bool.false_ne_true, answer, hw]
  dsimp only
  rw [if_pos asks]

/-- R293: as `execWalkComplete_node`, asked for by an AG. -/
theorem execWalkComplete_ag (hw : w.who = .ag c n) (ha : ((s.core c).ag n).walk.isSome = true)
    {u : State} {r : WalkOut} (hu : s.walk0 (s.space w.asid).root.toNat w.va w.write = (r, u)) :
    exec (.walkComplete w.id) s = .next (u.agWalked w c n r) := by
  have idle : s.engineBusy w = false := by simp [State.engineBusy, h]
  have found : s.fe.walks.find? (fun x => x.id == w.id) = some w := by simp [h]
  have answer : s.walkVa w.asid w.va w.write = (r, u) := (if_pos hr).trans hu
  have asks : ((u.core c).ag n).walk.isSome = true := by
    have core := s.walk0_core (s.space w.asid).root.toNat w.va w.write c
    rw [hu] at core
    rw [core, ha]
  change execWalkComplete w.id s = _
  unfold execWalkComplete
  rw [found]
  dsimp only
  rw [idle, if_neg Bool.false_ne_true, answer, hw]
  dsimp only
  rw [if_pos asks]

end

/-- R296: a walk that meets a page on the move is asked for again. -/
theorem State.walkAgain_scheduled (h : s.fe.walks = [w]) :
    ∃ hi, Scheduled s (s.walkAgain w) 1 hi (.walkComplete w.id) := by
  have same : (s.dropWalk w.id).modFe (fun e => { e with walks := e.walks ++ [w] }) = s := by
    have again : { s.fe with walks := [w] } = s.fe := by rw [← h]
    unfold State.modFe
    simp only [s.dropWalk_only h, List.nil_append]
    exact congrArg (fun f => { s with fe := f }) again
  rw [State.walkAgain, same]
  exact s.laterX_scheduled 1 _

/-! ### A node's walk -/

theorem State.modNode_sameSlots (s : State) (c n : Nat) (f : Node → Node) :
    SameSlots s (s.modCore c fun x => x.modNode n f) := s.modCore_sameSlots c fun _ => rfl

theorem State.tlbInstall_sameSlots (s : State) (c : Nat) (e : TlbEntry) : SameSlots s (s.tlbInstall c e) :=
  s.modCore_sameSlots c (f := fun x => { x with tlb := tlbAdd x.tlb 64 e }) fun _ => rfl

/-- R319: the work of a node that is in use ends with a status. -/
theorem State.nodeEnd_eq {s : State} {c n : Nat} (hn : ((s.core c).node n).st ≠ .free) (status detail : BitVec 8) :
    s.nodeEnd c n status detail = (s.modCore c fun x => x.modNode n fun nd =>
      { nd with ending := true, endAt := s.now, status := status, detail := detail }).soon (.nodeComplete c n) := by
  unfold State.nodeEnd State.nodeEndIn
  rw [if_neg hn]
  rfl

section

variable (h : s.fe.walks = [w]) (c n : Nat)
include h

/-- R294: a node's walk that finds its page gives the core a translation. -/
theorem State.nodeWalked_mapped (base log2 : Nat) (r p : Bool) :
    let t := s.nodeWalked w c n (.mapped base log2 r p)
    t.mem = s.mem ∧ SameSlots s t ∧ t.fe.walks = [] ∧ ((t.core c).node n).walk = none ∧
      (t.core c).tlb.head? =
        some ⟨w.asid, w64 (w.va.toNat / 2 ^ log2 * 2 ^ log2), log2, w64 base, r, p && w.write⟩ := by
  have walks : (s.nodeWalked w c n (.mapped base log2 r p)).fe.walks = [] := by
    simp [State.nodeWalked, State.tlbInstall, s.dropWalk_only h]
  refine ⟨by simp [State.nodeWalked, State.tlbInstall], ?_, walks, ?_, ?_⟩
  · exact SameSlots.trans ((s.dropWalk w.id).tlbInstall_sameSlots c _) (State.modNode_sameSlots _ c n _)
  · simp [State.nodeWalked, State.tlbInstall]
  · simp [State.nodeWalked, State.tlbInstall, Core.modNode, tlbAdd]

/-- R329: a walk that fails ends its node with a status. -/
theorem State.nodeWalked_failed (code : BitVec 8) (hn : ((s.core c).node n).st ≠ .free) :
    let u := ((s.dropWalk w.id).modCore c fun x => x.modNode n fun d => { d with vaFail := w.va }).modCore c
      fun x => x.modNode n fun d => { d with walk := none }
    let t := u.nodeEnd c n code 0
    let nd := (t.core c).node n
    SameMemory s t ∧ SameSlots s t ∧ t.fe.walks = [] ∧ nd.walk = none ∧ nd.vaFail = w.va ∧ nd.ending = true ∧
      nd.status = code := by
  intro u t nd
  have kept : SameSlots s u := (State.modNode_sameSlots (s.dropWalk w.id) c n _).trans (State.modNode_sameSlots _ c n _)
  have node : (u.core c).node n = { (s.core c).node n with vaFail := w.va, walk := none } := by simp [u]
  have ended : t = _ := State.nodeEnd_eq (by rw [node]; exact hn) code 0
  have nd' : nd = { (u.core c).node n with ending := true, endAt := u.now, status := code, detail := 0 } := by
    simp only [nd, ended, State.core_soon, State.core_modCore, Core.node_modNode]
  have same : SameMemory s t := by
    rw [ended]
    exact ⟨by simp [u], by simp [u]⟩
  have slots : SameSlots s t := by
    rw [ended]
    exact SameSlots.trans (kept.trans (u.modNode_sameSlots c n _)) (State.sameSlots_of_cores (State.soon_cores ..))
  have walks : t.fe.walks = [] := by simp [ended, u, s.dropWalk_only h]
  rw [nd', node]
  exact ⟨same, slots, walks, rfl, rfl, rfl, rfl⟩

end

/-! ### An AG's walk -/

theorem State.modAg_sameSlots (s : State) (c n : Nat) (f : AG → AG) :
    SameSlots s (s.modCore c fun x => x.modAg n f) := s.modCore_sameSlots c fun _ => rfl

section

variable (h : s.fe.walks = [w]) (c n : Nat)
include h

/-- R295: an AG's walk that finds its page gives it an extent, which a service thread is to install. -/
theorem State.agWalked_mapped (base log2 : Nat) (r p : Bool) :
    let t := s.agWalked w c n (.mapped base log2 r p)
    t.mem = s.mem ∧ SameSlots s t ∧ t.fe.walks = [] ∧ ((t.core c).ag n).got = some (extentFor w.va base log2) ∧
      ∃ k, 1 ≤ k ∧ (s.now + k, Instr.extentInstall c n) ∈ t.coming := by
  intro t
  have mapped : t = ((s.dropWalk w.id).modCore c fun x => x.modAg n fun g =>
    { g with got := some (extentFor w.va base log2) }).laterX 1 (.extentInstall c n) := rfl
  obtain ⟨hi, -, -, d, hlo, -, hin⟩ := State.laterX_scheduled ((s.dropWalk w.id).modCore c fun x => x.modAg n fun g =>
    { g with got := some (extentFor w.va base log2) }) 1 (.extentInstall c n)
  have extent (u : State) (hu : u.cores = ((s.dropWalk w.id).modCore c fun x => x.modAg n fun g =>
      { g with got := some (extentFor w.va base log2) }).cores) :
      SameSlots s u ∧ ((u.core c).ag n).got = some (extentFor w.va base log2) := by
    have slots := (s.dropWalk w.id).modAg_sameSlots c n fun g => { g with got := some (extentFor w.va base log2) }
    refine ⟨SameSlots.trans slots (State.sameSlots_of_cores hu), ?_⟩
    rw [State.core, hu]
    simp
  obtain ⟨slots, got⟩ := extent t (by rw [mapped, State.laterX_eq])
  refine ⟨by rw [mapped, State.laterX_eq]; rfl, slots, ?_, got, d, hlo, hin⟩
  rw [mapped, State.laterX_eq]
  exact s.dropWalk_only h

/-- R295: an AG's walk that fails leaves the AG with a token that no walk resolves. -/
theorem State.agWalked_failed {r : WalkOut} (hr : r = .unmapped ∨ r = .denied) :
    let t := s.agWalked w c n r
    SameMemory s t ∧ SameSlots s t ∧ t.fe.walks = [] ∧ ((t.core c).ag n).walk = none ∧
      ((t.core c).ag n).lost = ((s.core c).ag n).walk := by
  intro t
  have failed : t = (s.dropWalk w.id).modCore c fun x => x.modAg n fun g =>
      { g with walk := none, lost := g.walk } := by
    rcases hr with rfl | rfl <;> rfl
  rw [failed]
  refine ⟨⟨rfl, rfl⟩, (s.dropWalk w.id).modAg_sameSlots c n _, s.dropWalk_only h, ?_, ?_⟩ <;> simp

end

end

/-! ### What the end of a walk gives (R292 to R295) -/

theorem State.touchLeaf_sameSlots (s : State) (l : Leaf) (write : Bool) : SameSlots s (s.touchLeaf l write) :=
  fun _ => rfl

section

variable {s : State} {w : Walk} {c n : Nat} {l : Leaf} (h : s.fe.walks = [w]) (hr : (s.space w.asid).routine = 0)
include h hr

theorem walkComplete_moving (hl : s.findLeaf (s.space w.asid).root.toNat w.va = some l) (hw : w.write = true)
    (hm : l.pte.getLsbD 1 = true) (hn : ∀ c n, w.who = .node c n → ((s.core c).node n).walk.isSome = true)
    (ha : ∀ c n, w.who = .ag c n → ((s.core c).ag n).walk.isSome = true) :
    Gives (.walkComplete w.id) s fun t => ∃ hi, Scheduled s t 1 hi (.walkComplete w.id) := by
  refine ⟨s.walkAgain w, ?_, State.walkAgain_scheduled h⟩
  have waits := State.walk0_moving hl hw hm
  cases who : w.who with
  | node c n => exact execWalkComplete_node h hr who (hn c n who) waits
  | ag c n => exact execWalkComplete_ag h hr who (ha c n who) waits

theorem walkComplete_node_mapped (who : w.who = .node c n) (asks : ((s.core c).node n).walk.isSome = true)
    (hl : s.findLeaf (s.space w.asid).root.toNat w.va = some l) (hm : w.write = true → l.pte.getLsbD 1 = false)
    (allowed : l.allows w.write = true) :
    Gives (.walkComplete w.id) s fun t => t.mem = (s.touchLeaf l w.write).mem ∧ SameSlots s t ∧ t.fe.walks = [] ∧
      ((t.core c).node n).walk = none ∧ (t.core c).tlb.head? = some ⟨w.asid,
        w64 (w.va.toNat / 2 ^ l.log2 * 2 ^ l.log2), l.log2, w64 (s.pageDpa l.pte), Pte.r l.pte,
        Pte.w l.pte && w.write⟩ := by
  have answer := State.walk0_found hl hm
  rw [if_pos allowed] at answer
  obtain ⟨mem, slots, rest⟩ := State.nodeWalked_mapped (s := s.touchLeaf l w.write) h c n (s.pageDpa l.pte) l.log2
    (Pte.r l.pte) (Pte.w l.pte)
  exact ⟨_, execWalkComplete_node h hr who asks answer, mem, (s.touchLeaf_sameSlots l w.write).trans slots, rest⟩

/-- R329: the walk of a node fails, and its status says why. -/
theorem walkComplete_node_failed (who : w.who = .node c n) (asks : ((s.core c).node n).walk.isSome = true)
    (used : ((s.core c).node n).st ≠ .free) {r : WalkOut} {code : BitVec 8}
    (hc : r = .unmapped ∧ code = 0x18 ∨ r = .denied ∧ code = 0x19)
    (answer : s.walk0 (s.space w.asid).root.toNat w.va w.write = (r, s)) :
    Gives (.walkComplete w.id) s fun t => SameMemory s t ∧ SameSlots s t ∧ t.fe.walks = [] ∧
      ((t.core c).node n).walk = none ∧ ((t.core c).node n).vaFail = w.va ∧ ((t.core c).node n).ending = true ∧
      ((t.core c).node n).status = code := by
  refine ⟨_, execWalkComplete_node h hr who asks answer, ?_⟩
  rcases hc with ⟨rfl, rfl⟩ | ⟨rfl, rfl⟩
  · exact State.nodeWalked_failed h c n 0x18 used
  · exact State.nodeWalked_failed h c n 0x19 used

theorem walkComplete_ag_mapped (who : w.who = .ag c n) (asks : ((s.core c).ag n).walk.isSome = true)
    (hl : s.findLeaf (s.space w.asid).root.toNat w.va = some l) (hm : w.write = true → l.pte.getLsbD 1 = false)
    (allowed : l.allows w.write = true) :
    Gives (.walkComplete w.id) s fun t => t.mem = (s.touchLeaf l w.write).mem ∧ SameSlots s t ∧ t.fe.walks = [] ∧
      ((t.core c).ag n).got = some (extentFor w.va (s.pageDpa l.pte) l.log2) ∧
      ∃ k, 1 ≤ k ∧ (s.now + k, Instr.extentInstall c n) ∈ t.coming := by
  have answer := State.walk0_found hl hm
  rw [if_pos allowed] at answer
  obtain ⟨mem, slots, rest⟩ := State.agWalked_mapped (s := s.touchLeaf l w.write) h c n (s.pageDpa l.pte) l.log2
    (Pte.r l.pte) (Pte.w l.pte)
  exact ⟨_, execWalkComplete_ag h hr who asks answer, mem, (s.touchLeaf_sameSlots l w.write).trans slots, rest⟩

theorem walkComplete_ag_failed (who : w.who = .ag c n) (asks : ((s.core c).ag n).walk.isSome = true) {r : WalkOut}
    (hc : r = .unmapped ∨ r = .denied) (answer : s.walk0 (s.space w.asid).root.toNat w.va w.write = (r, s)) :
    Gives (.walkComplete w.id) s fun t => SameMemory s t ∧ SameSlots s t ∧ t.fe.walks = [] ∧
      ((t.core c).ag n).walk = none ∧ ((t.core c).ag n).lost = ((s.core c).ag n).walk :=
  ⟨_, execWalkComplete_ag h hr who asks answer, State.agWalked_failed h c n hc⟩

end

end Sys2Proof.Machine
end

section
/-! SUPPORT. Extents, invalidations and the migration engine: what they leave of the TLBs, of the extents and of a
space's pages (R294 to R296). -/

namespace Sys2Proof.Machine

/-! ### Tables whose entries all change -/

theorem Tab.find_map_values {β : Type} (t : Tab β) (f : β → β) (k : Nat) :
    Tab.find (t.map fun p => (p.1, f p.2)) k = (Tab.find t k).map f := by
  induction t with
  | nil => rfl
  | cons p r ih =>
    obtain ⟨j, v⟩ := p
    by_cases hj : j = k
    · simp [Tab.find, hj]
    · simpa [Tab.find, hj] using ih

/-- Unlisted entries change too where the change keeps the value that they stand for. -/
theorem Tab.at_map_values {β : Type} (t : Tab β) {f : β → β} {d : β} (hd : f d = d) (k : Nat) :
    Tab.at (t.map fun p => (p.1, f p.2)) k d = f (Tab.at t k d) := by
  rw [Tab.at, Tab.find_map_values, Tab.at]
  cases Tab.find t k with
  | none => exact hd.symm
  | some v => rfl

/-! ### Extents (R295) -/

/-- R295: a service thread installs the extent that a walk has found. -/
theorem execExtentInstall_eq {c : Nat} (hc : c < 768) (n : Nat) (s : State) :
    exec (.extentInstall c n) s = .next (match ((s.core c).ag n).got with
      | some e => s.modCore c fun x => x.modAg n fun g => g.install e
      | none => s) := if_pos hc

theorem extentInstall_some {s : State} {c n : Nat} {e : BitVec 128} (hc : c < 768)
    (he : ((s.core c).ag n).got = some e) :
    exec (.extentInstall c n) s = .next (s.setCore c ((s.core c).modAg n fun _ => ((s.core c).ag n).install e)) := by
  rw [execExtentInstall_eq hc, he]
  rfl

theorem extentInstall_none {s : State} {c n : Nat} (hc : c < 768) (he : ((s.core c).ag n).got = none) :
    exec (.extentInstall c n) s = .next s := by
  rw [execExtentInstall_eq hc, he]

/-! ### An invalidation (R294) -/

/-- R294: what an invalidation leaves of a core. -/
def State.coreDropped (s : State) (asid : Nat) (va : Word) (n : Nat) (x : Core) : Core :=
  { x with
    tlb := dropTlb x.tlb asid va n
    ags := if x.task.any fun t => (s.task t).asid == asid then x.ags.map fun q => (q.1, q.2.dropExtents va n)
      else x.ags }

section

variable (s : State) (asid : Nat) (va : Word) (n : Nat)

theorem State.invalidate_cores :
    (s.invalidate asid va n).cores = s.cores.map fun p => (p.1, s.coreDropped asid va n p.2) := by
  refine List.map_congr_left fun p _ => congrArg (Prod.mk p.1) ?_
  refine (ite_congr (congrArg (· = true) ?_) (fun _ => rfl) fun _ => rfl).trans
    (apply_ite (fun ags => ({ p.2 with tlb := dropTlb p.2.tlb asid va n, ags := ags } : Core)) ..).symm
  dsimp only
  cases p.2.task <;> rfl

theorem State.core_invalidate (c : Nat) :
    (s.invalidate asid va n).core c = s.coreDropped asid va n (s.core c) := by
  rw [State.core, State.invalidate_cores]
  exact Tab.at_map_values s.cores rfl c

theorem State.cluster_invalidate (k : Nat) :
    (s.invalidate asid va n).cluster k = { s.cluster k with tlb := dropTlb (s.cluster k).tlb asid va n } :=
  Tab.at_map_values s.clusters (f := fun x => { x with tlb := dropTlb x.tlb asid va n }) rfl k

@[simp] theorem State.invalidate_fe : (s.invalidate asid va n).fe = s.fe := rfl

theorem State.invalidate_sameMemory : SameMemory s (s.invalidate asid va n) := ⟨rfl, rfl⟩

theorem State.invalidate_sameSlots : SameSlots s (s.invalidate asid va n) := fun q => by
  rw [State.slot, State.core_invalidate]
  rfl

theorem mem_dropTlb (l : List TlbEntry) (e : TlbEntry) : e ∈ dropTlb l asid va n ↔
    e ∈ l ∧ ¬(e.asid = asid ∧ e.va.toNat < va.toNat + n ∧ va.toNat < e.va.toNat + 2 ^ e.bits) := by
  simp only [dropTlb, meets, List.mem_filter, ← Bool.not_eq_true, Bool.not_eq_eq_eq_not, Bool.not_true,
    Bool.and_eq_true, beq_iff_eq, decide_eq_true_eq]

/-- R294: no extent that an AG keeps valid meets the range. -/
theorem AG.dropExtents_apart (g : AG) {x : BitVec 128} (hx : x ∈ (g.dropExtents va n).ext) (valid : extValid x = true) :
    meets (extVa x) (65536 * extPages x) va.toNat n = false := by
  have kept : (g.dropExtents va n).ext = g.ext.map fun e =>
      if extValid e && meets (extVa e) (65536 * extPages e) va.toNat n then setBits e 127 1 0 else e := by
    unfold AG.dropExtents
    dsimp only
    split <;> rfl
  rw [kept] at hx
  obtain ⟨e, -, rfl⟩ := List.mem_map.1 hx
  by_cases hit : (extValid e && meets (extVa e) (65536 * extPages e) va.toNat n) = true
  · rw [if_pos hit, extValid, getLsbD_setBits e 127 1 0 (by omega)] at valid
    simp at valid
  · rw [if_neg hit] at valid ⊢
    simpa [valid] using hit

theorem State.invalidate_extent {c a : Nat} {x : BitVec 128} {tk : Nat} (task : (s.core c).task = some tk)
    (mine : (s.task tk).asid = asid) (hx : x ∈ (((s.invalidate asid va n).core c).ag a).ext)
    (valid : extValid x = true) :
    meets (extVa x) (65536 * extPages x) va.toNat n = false := by
  have ags : ((s.invalidate asid va n).core c).ags = (s.core c).ags.map fun q => (q.1, q.2.dropExtents va n) := by
    rw [State.core_invalidate]
    simp [State.coreDropped, task, mine]
  have ag : ((s.invalidate asid va n).core c).ag a = ((s.core c).ag a).dropExtents va n := by
    rw [Core.ag, ags]
    exact Tab.at_map_values _ (f := fun g : AG => g.dropExtents va n) rfl a
  rw [ag] at hx
  exact AG.dropExtents_apart va n _ hx valid

end

/-! ### The migration engine (R296) -/

section

variable {s : State} {asid : Nat} {va : Word} {l : Leaf}

@[simp] theorem State.moveSegs_fe (s : State) (old new : Nat) : (s.moveSegs old new).fe = s.fe := rfl

@[simp] theorem State.moveSegs_cores (s : State) (old new : Nat) : (s.moveSegs old new).cores = s.cores := rfl

@[simp] theorem State.space_modSpace (s : State) (a : Nat) (f : Space → Space) :
    (s.modSpace a f).space a = f (s.space a) := by
  simp [State.space, State.modSpace]

theorem State.modSpace_sameSlots (s : State) (a : Nat) (f : Space → Space) : SameSlots s (s.modSpace a f) :=
  fun _ => rfl

/-- R296: MV is set and W clear in the entry of a page, and a page of the die's HBM is set aside for its move. -/
def State.markMoving (s : State) (asid : Nat) (va : Word) (l : Leaf) (page : Word) (rest : List Word) : State :=
  (s.poke (dpaKey l.place) (leBytes 8 ((l.pte ||| 2) &&& ~~~(8 : Word)).toNat)).modSpace asid fun sp =>
    { sp with
      freePages := rest
      quota := sp.quota - 1
      moving := sp.moving ++ [(va, page ||| w64 (b2n (Pte.w l.pte)))] }

section

variable {a : Word} (hva : va = w64 (a.toNat / 65536 * 65536))
  (hl : s.findLeaf (s.space asid).root.toNat va = some l)
include hva hl

theorem State.startMigration_eq {page : Word} {rest : List Word} (size : l.log2 = 16) (mig : l.pte.getLsbD 7 = true)
    (still : l.pte.getLsbD 1 = false) (host : bits l.pte 56 2 = 2) (free : (s.space asid).freePages = page :: rest)
    (quota : (s.space asid).quota ≠ 0) : s.startMigration asid a =
      ((s.markMoving asid va l page rest).invalidate asid va 65536).laterX 1 (.migrationCommit asid va) := by
  rw [State.startMigration, ← hva, hl, free]
  dsimp only
  have moves :
      (l.log2 = 16 && Pte.mig l.pte && !Pte.mv l.pte && Pte.tier l.pte == 2 && (s.space asid).quota != 0) = true := by
    rw [Pte.mig, mig, Pte.mv, still, Pte.tier, host]
    simp [size, quota]
  rw [if_pos moves]
  rfl

theorem State.startMigration_none (full : (s.space asid).freePages = [] ∨ (s.space asid).quota = 0) :
    s.startMigration asid a = s := by
  rw [State.startMigration, ← hva, hl]
  cases free : (s.space asid).freePages with
  | nil => rfl
  | cons page rest =>
    have none : (s.space asid).quota = 0 := full.resolve_left (by simp [free])
    simp [none]

end

section

variable (s : State) (asid : Nat) (va : Word) (l : Leaf) (page : Word) (rest : List Word)

@[simp] theorem State.markMoving_mem : (s.markMoving asid va l page rest).mem =
    memWriteAll s.mem (dpaKey l.place) (leBytes 8 ((l.pte ||| 2) &&& ~~~(8 : Word)).toNat) := by
  rw [State.markMoving, State.modSpace_mem, State.poke_mem]

@[simp] theorem State.markMoving_cores : (s.markMoving asid va l page rest).cores = s.cores := by
  rw [State.markMoving, State.modSpace, State.modFe_cores, State.poke_cores]

@[simp] theorem State.markMoving_now : (s.markMoving asid va l page rest).now = s.now := by
  rw [State.markMoving, State.modSpace, State.modFe_now, State.poke_now]

theorem State.space_markMoving : (s.markMoving asid va l page rest).space asid =
    { s.space asid with
      freePages := rest
      quota := (s.space asid).quota - 1
      moving := (s.space asid).moving ++ [(va, page ||| if l.pte.getLsbD 3 then 1 else 0)] } := by
  have same : (s.poke (dpaKey l.place) (leBytes 8 ((l.pte ||| 2) &&& ~~~(8 : Word)).toNat)).space asid =
      s.space asid := by
    rw [State.space, State.poke_fe, ← State.space]
  have writable : w64 (b2n (Pte.w l.pte)) = if l.pte.getLsbD 3 then 1 else 0 := by
    rw [Pte.w]
    cases l.pte.getLsbD 3 <;> rfl
  rw [State.markMoving, State.space_modSpace, same, writable]

end

/-- R294, R296: a page is invalidated and its copy asked for. -/
theorem State.commit_asked (u : State) (asid : Nat) (va : Word) (n : Nat) :
    let t := (u.invalidate asid va n).laterX 1 (.migrationCommit asid va)
    t.mem = u.mem ∧ SameSlots u t ∧ t.fe = u.fe ∧
      ∃ d, 1 ≤ d ∧ (u.now + d, Instr.migrationCommit asid va) ∈ t.coming := by
  obtain ⟨hi, -, -, d, lo, -, coming⟩ := (u.invalidate asid va n).laterX_scheduled 1 (.migrationCommit asid va)
  refine ⟨?_, (u.invalidate_sameSlots asid va n).trans (State.sameSlots_of_cores ?_), ?_, d, lo, coming⟩ <;>
    rw [State.laterX_eq] <;> rfl

theorem execMigrationStart_eq (s : State) (asid : Nat) (a : Word) :
    exec (.migrationStart asid a) s = .next (s.startMigration asid a) := rfl

theorem migrationStart_free {a : Word} {page : Word} {rest : List Word} (hva : va = w64 (a.toNat / 65536 * 65536))
    (hl : s.findLeaf (s.space asid).root.toNat va = some l) (size : l.log2 = 16) (mig : l.pte.getLsbD 7 = true)
    (still : l.pte.getLsbD 1 = false) (host : bits l.pte 56 2 = 2) (free : (s.space asid).freePages = page :: rest)
    (quota : (s.space asid).quota ≠ 0) : Gives (.migrationStart asid a) s fun t =>
      t.mem = memWriteAll s.mem (dpaKey l.place) (leBytes 8 ((l.pte ||| 2) &&& ~~~(8 : Word)).toNat) ∧ SameSlots s t ∧
      t.space asid = (s.markMoving asid va l page rest).space asid ∧
      ∃ d, 1 ≤ d ∧ (s.now + d, Instr.migrationCommit asid va) ∈ t.coming := by
  obtain ⟨mem, slots, fe, coming⟩ := (s.markMoving asid va l page rest).commit_asked asid va 65536
  rw [State.markMoving_mem] at mem
  rw [State.markMoving_now] at coming
  have moved := State.startMigration_eq hva hl size mig still host free quota
  refine ⟨_, (execMigrationStart_eq s asid a).trans (congrArg Host.Outcome.next moved), mem, ?_, ?_, coming⟩
  · exact (State.sameSlots_of_cores (s.markMoving_cores asid va l page rest)).trans slots
  · rw [State.space, fe, ← State.space]

end

/-! ### The end of a move -/

section

variable {s : State} {asid : Nat} {va page : Word} {l : Leaf}

theorem execMigrationCommit_held (h : s.heldSegs asid va 65536 ≠ []) :
    exec (.migrationCommit asid va) s = .next (s.later 1 (.migrationCommit asid va)) :=
  congrArg _ (if_neg (by simpa using h))

theorem execMigrationCommit_free (h : s.heldSegs asid va 65536 = []) :
    exec (.migrationCommit asid va) s = .next (s.commitMigration asid va) :=
  congrArg _ (if_pos (by simpa using h))

theorem State.commitMigration_none (h : ∀ m ∈ (s.space asid).moving, m.1 ≠ va) : s.commitMigration asid va = s := by
  have none : (s.space asid).moving.find? (fun m => m.1 == va) = none := List.find?_eq_none.2 (by simpa using h)
  rw [State.commitMigration, none]

/-- R296: the bytes of a page are in its new place, held writes follow them, and its entry names the place. -/
def State.copyPage (s : State) (l : Leaf) (page : Word) : State :=
  let base := page.toNat / 65536 * 65536
  let old := dpaKey (s.pageDpa l.pte)
  ((s.poke (dpaKey base) (s.bytes old 65536)).moveSegs old (dpaKey base)).poke (dpaKey l.place)
    (leBytes 8 (w64 (base / 65536 % 2 ^ 28 * 65536 + l.pte.toNat % 65536) &&& ~~~(2 : Word) |||
      if page.getLsbD 0 then 8 else 0).toNat)

@[simp] theorem State.copyPage_fe (s : State) (l : Leaf) (page : Word) : (s.copyPage l page).fe = s.fe := by
  rw [State.copyPage, State.poke_fe, State.moveSegs_fe, State.poke_fe]

@[simp] theorem State.copyPage_cores (s : State) (l : Leaf) (page : Word) : (s.copyPage l page).cores = s.cores := by
  rw [State.copyPage, State.poke_cores, State.moveSegs_cores, State.poke_cores]

theorem State.copyPage_mem (s : State) (l : Leaf) (page : Word) : (s.copyPage l page).mem =
    memWriteAll (memWriteAll s.mem (dpaKey (page.toNat / 65536 * 65536)) (s.bytes (dpaKey (s.pageDpa l.pte)) 65536))
      (dpaKey l.place) (leBytes 8 (w64 (page.toNat / 65536 % 2 ^ 28 * 65536 + l.pte.toNat % 65536) &&& ~~~(2 : Word) |||
        if page.getLsbD 0 then 8 else 0).toNat) := by
  have whole : page.toNat / 65536 * 65536 / 65536 = page.toNat / 65536 := Nat.mul_div_cancel _ (by omega)
  rw [State.copyPage, State.poke_mem, State.moveSegs_mem, State.poke_mem, whole]

theorem State.commitMigration_eq (hm : (s.space asid).moving = [(va, page)])
    (hl : s.findLeaf (s.space asid).root.toNat va = some l) :
    s.commitMigration asid va = ((s.copyPage l page).modSpace asid fun sp =>
      { sp with moving := sp.moving.filter fun x => x.1 != va }).invalidate asid va 65536 := by
  have found : (s.space asid).moving.find? (fun m => m.1 == va) = some (va, page) := by simp [hm]
  rw [State.commitMigration, found, hl]
  rfl

theorem State.commitMigration_sameSlots (hm : (s.space asid).moving = [(va, page)])
    (hl : s.findLeaf (s.space asid).root.toNat va = some l) : SameSlots s (s.commitMigration asid va) := by
  rw [State.commitMigration_eq hm hl]
  exact ((State.sameSlots_of_cores (s.copyPage_cores l page)).trans (State.modSpace_sameSlots _ _ _)).trans
    (State.invalidate_sameSlots _ _ _ _)

theorem State.commitMigration_moving (hm : (s.space asid).moving = [(va, page)])
    (hl : s.findLeaf (s.space asid).root.toNat va = some l) : ((s.commitMigration asid va).space asid).moving = [] := by
  have same : (s.copyPage l page).space asid = s.space asid := by rw [State.space, State.copyPage_fe]; rfl
  rw [State.commitMigration_eq hm hl, State.space, State.invalidate_fe, ← State.space, State.space_modSpace, same, hm]
  simp

theorem State.commitMigration_mem (hm : (s.space asid).moving = [(va, page)])
    (hl : s.findLeaf (s.space asid).root.toNat va = some l) :
    (s.commitMigration asid va).mem = (s.copyPage l page).mem := by
  rw [State.commitMigration_eq hm hl, State.invalidate_mem, State.modSpace_mem]

end

end Sys2Proof.Machine
end

section
/-! SUPPORT. An invalidation of a name: where nothing waits for the name, it leaves the caches alone (R234, R235). -/

namespace Sys2Proof.Machine

/-! ### The parts of a wake (R235) -/

def State.wakeSlots (s : State) (c : Nat) (n : BitVec 16) : State :=
  (List.range 8).foldl (fun s k => (s.wakeAccs ⟨c, k⟩ n).wakeQuery ⟨c, k⟩ n) s

def State.wakeGives (s : State) (c : Nat) (n : BitVec 16) : State :=
  ((s.core c).gives.filter fun g => g.st == .walking && g.name == n).foldl (fun s g => s.wakeGive c g) s

def State.wakeSegs (s : State) (c : Nat) (n : BitVec 16) : State :=
  (s.packets.filter fun p => p.src == c && p.dst == 769 && p.name == n).foldl (fun s p => s.wakeSeg p) s

/-- The messages that wait for a name have their route. -/
def Core.routeSends (x : Core) (n : BitVec 16) (d : Nat) : Core :=
  { x with sendq := x.sendq.map fun (m : Msg) => if m.name = n then { m with dst := m.dst.or (some d) } else m }

def State.wakeSends (s : State) (c : Nat) (n : BitVec 16) : State :=
  match (s.lookup c n).dst with
  | some d => s.modCore c fun x => x.routeSends n d
  | none => s

def State.wakeHead (s : State) (c : Nat) (n : BitVec 16) : State :=
  match (s.core c).sendq with
  | m :: _ => if m.name = n then s.soon (.headFlitLeaves c) else s
  | [] => s

theorem State.wakeName_eq (s : State) (c : Nat) (n : BitVec 16) : s.wakeName c n =
    ((((s.wakeSlots c n).wakeGives c n).wakeSegs c n).wakeSends c n).wakeHead c n := by
  unfold State.wakeName
  extract_lets slots gives segs sends
  have first : slots = s.wakeSlots c n := rfl
  have second : gives = slots.wakeGives c n := rfl
  have third : segs = gives.wakeSegs c n := rfl
  clear_value slots gives segs
  have fourth : sends = segs.wakeSends c n := rfl
  clear_value sends
  rw [← first, ← second, ← third, ← fourth]
  rfl

/-! ### A name that nothing waits for -/

theorem foldl_eq_self {α β : Type} {f : β → α → β} {b : β} {l : List α} (h : ∀ a ∈ l, f b a = b) : l.foldl f b = b := by
  induction l with
  | nil => rfl
  | cons a l ih =>
    rw [List.foldl_cons, h a List.mem_cons_self]
    exact ih fun a ha => h a (List.mem_cons_of_mem _ ha)

/-- R235: nothing of a core waits for a name: no message, give, access or query. -/
structure Core.Unasked (x : Core) (n : BitVec 16) : Prop where
  sends : ∀ m ∈ x.sendq, m.name ≠ n
  gives : ∀ g ∈ x.gives, g.st = .walking → g.name ≠ n
  accs : ∀ k < 8, ∀ a ∈ (x.slot k).accs, a.st = .walking → a.name ≠ n
  queries : ∀ k < 8, ∀ own vis perf ea rt pc,
    (x.slot k).gate = .stalled ⟨own, vis, perf, .bqry ea rt pc none⟩ → eaName ea ≠ n

/-- The same machine, its cores perhaps listed otherwise. -/
structure SameCores (s t : State) : Prop where
  rest : t = { s with cores := t.cores }
  core : ∀ c, t.core c = s.core c

theorem SameCores.rfl {s : State} : SameCores s s := ⟨Eq.refl s, fun _ => Eq.refl _⟩

theorem SameCores.modCore {s : State} {c : Nat} {f : Core → Core} (h : f (s.core c) = s.core c) :
    SameCores s (s.modCore c f) := by
  refine ⟨Eq.refl _, fun d => ?_⟩
  by_cases hd : d = c
  · rw [hd, State.core_modCore, h]
  · exact State.core_modCore_ne s c d f hd

section

variable {s : State} {c : Nat} {n : BitVec 16} (h : (s.core c).Unasked n)
include h

theorem State.wakeAccs_unasked {k : Nat} (hk : k < 8) : s.wakeAccs ⟨c, k⟩ n = s := by
  have none : ((s.slot ⟨c, k⟩).accs.filter fun a => a.st == .walking && a.name == n) = [] :=
    List.filter_eq_nil_iff.2 fun a ha hit => by
      simp only [Bool.and_eq_true, beq_iff_eq] at hit
      exact h.accs k hk a ha hit.1 hit.2
  rw [State.wakeAccs, none]
  rfl

theorem State.wakeQuery_unasked {k : Nat} (hk : k < 8) : s.wakeQuery ⟨c, k⟩ n = s := by
  unfold State.wakeQuery
  split
  next own vis perf ea rt pc gate => exact if_neg (h.queries k hk own vis perf ea rt pc gate)
  next => rfl

theorem State.wakeSlots_unasked : s.wakeSlots c n = s :=
  foldl_eq_self fun k hk => by
    rw [State.wakeAccs_unasked h (List.mem_range.1 hk), State.wakeQuery_unasked h (List.mem_range.1 hk)]

theorem State.wakeGives_unasked : s.wakeGives c n = s := by
  have none : ((s.core c).gives.filter fun g => g.st == .walking && g.name == n) = [] :=
    List.filter_eq_nil_iff.2 fun g hg hit => by
      simp only [Bool.and_eq_true, beq_iff_eq] at hit
      exact h.gives g hg hit.1 hit.2
  rw [State.wakeGives, none]
  rfl

theorem Core.Unasked.routeSends (d : Nat) : (s.core c).routeSends n d = s.core c := by
  have sendq : ((s.core c).sendq.map fun (m : Msg) => if m.name = n then { m with dst := m.dst.or (some d) } else m) =
      (s.core c).sendq := (List.map_congr_left fun m hm => if_neg (h.sends m hm)).trans (List.map_id _)
  rw [Core.routeSends, sendq]

theorem State.wakeSends_unasked : SameCores s (s.wakeSends c n) := by
  unfold State.wakeSends
  split
  next d _ => exact .modCore (h.routeSends d)
  next => exact .rfl

theorem State.wakeHead_unasked : s.wakeHead c n = s := by
  unfold State.wakeHead
  split
  next m _ q => exact if_neg (h.sends m (by simp [q]))
  next => rfl

omit h in
theorem State.wakeSegs_unasked (hp : ∀ p ∈ s.packets, p.src = c → p.dst = 769 → p.name ≠ n) : s.wakeSegs c n = s := by
  have none : (s.packets.filter fun p => p.src == c && p.dst == 769 && p.name == n) = [] :=
    List.filter_eq_nil_iff.2 fun p hin hit => by
      simp only [Bool.and_eq_true, beq_iff_eq] at hit
      exact hp p hin hit.1.1 hit.1.2 hit.2
  rw [State.wakeSegs, none]
  rfl

/-- R235: an answer that nothing waits for wakes nothing. -/
theorem State.wakeName_unasked (hp : ∀ p ∈ s.packets, p.src = c → p.dst = 769 → p.name ≠ n) :
    SameCores s (s.wakeName c n) := by
  have sends := State.wakeSends_unasked h
  have still : ((s.wakeSends c n).core c).Unasked n := by rwa [sends.core c]
  rw [State.wakeName_eq, State.wakeSlots_unasked h, State.wakeGives_unasked h, State.wakeSegs_unasked hp,
    State.wakeHead_unasked still]
  exact sends

end

/-! ### The caches of a frame (R234) -/

/-- R234: a name has left the cache of a core. -/
def Core.unnamed (x : Core) (n : BitVec 16) : Core := { x with ncache := x.ncache.filter fun p => p.1 != n }

theorem Core.unnamed_unnamed (x : Core) (n : BitVec 16) : (x.unnamed n).unnamed n = x.unnamed n := by
  simp [Core.unnamed]

theorem Core.Unasked.unnamed {x : Core} {n : BitVec 16} (h : x.Unasked n) : (x.unnamed n).Unasked n :=
  ⟨h.sends, h.gives, h.accs, h.queries⟩

theorem State.invalidateName_unasked {s : State} {c : Nat} {n : BitVec 16} (h : (s.core c).Unasked n)
    (hp : ∀ p ∈ s.packets, p.src = c → p.dst = 769 → p.name ≠ n) :
    let t := s.invalidateName c n
    t = { s with cores := t.cores } ∧ ∀ d, t.core d = if d = c then (s.core c).unnamed n else s.core d := by
  have core (d : Nat) : (s.modCore c fun x => x.unnamed n).core d =
      if d = c then (s.core c).unnamed n else s.core d := by
    by_cases hd : d = c
    · rw [if_pos hd, hd, State.core_modCore]
    · rw [if_neg hd, State.core_modCore_ne s c d _ hd]
  have idle : ((s.modCore c fun x => x.unnamed n).core c).Unasked n := by
    rw [core, if_pos rfl]
    exact h.unnamed
  obtain ⟨rest, same⟩ := State.wakeName_unasked idle hp
  exact ⟨rest, fun d => (same d).trans (core d)⟩

/-- R234: what an invalidation of a name does at one core. -/
def State.invalidateAt (s : State) (t : Nat) (n : BitVec 16) (c : Nat) : State :=
  if (s.core c).task = some t then s.invalidateName c n else s

theorem State.invalidateTask_eq (s : State) (t : Nat) (n : BitVec 16) :
    s.invalidateTask t n = (frameCores (s.task t).rec_).foldl (fun s c => s.invalidateAt t n c) s := rfl

/-- R235: nothing waits for a name at a core of a task. -/
def State.Unasked (s : State) (t : Nat) (n : BitVec 16) (c : Nat) : Prop :=
  (s.core c).task = some t → (s.core c).Unasked n ∧ ∀ p ∈ s.packets, p.src = c → p.dst = 769 → p.name ≠ n

/-- The name has left the caches of a task's cores among some. -/
structure Unnamed (s u : State) (t : Nat) (n : BitVec 16) (among : Nat → Prop) : Prop where
  rest : u = { s with cores := u.cores }
  named : ∀ d, among d ∧ (s.core d).task = some t → u.core d = (s.core d).unnamed n
  other : ∀ d, ¬(among d ∧ (s.core d).task = some t) → u.core d = s.core d

theorem State.invalidateAt_unasked {s : State} {t : Nat} {n : BitVec 16} {c : Nat} (h : s.Unasked t n c) :
    Unnamed s (s.invalidateAt t n c) t n (· = c) := by
  unfold State.invalidateAt
  split
  next task =>
    obtain ⟨idle, hp⟩ := h task
    obtain ⟨rest, cores⟩ := State.invalidateName_unasked idle hp
    refine ⟨rest, ?_, fun d other => (cores d).trans (if_neg fun hd => other ⟨hd, hd ▸ task⟩)⟩
    rintro d ⟨rfl, -⟩
    exact (cores d).trans (if_pos rfl)
  next task => exact ⟨rfl, fun d ⟨hd, mine⟩ => absurd (hd ▸ mine) task, fun _ _ => rfl⟩

section

variable {s u : State} {t : Nat} {n : BitVec 16} {among : Nat → Prop} (h : Unnamed s u t n among)
include h

theorem Unnamed.task (d : Nat) : (u.core d).task = (s.core d).task := by
  by_cases hd : among d ∧ (s.core d).task = some t
  · rw [h.named d hd]
    rfl
  · rw [h.other d hd]

theorem Unnamed.unasked {c : Nat} (hc : s.Unasked t n c) : u.Unasked t n c := by
  intro task
  rw [h.task] at task
  obtain ⟨idle, hp⟩ := hc task
  refine ⟨?_, by rw [h.rest]; exact hp⟩
  by_cases hd : among c ∧ (s.core c).task = some t
  · rw [h.named c hd]
    exact idle.unnamed
  · rw [h.other c hd]
    exact idle

theorem Unnamed.trans {v : State} {among' : Nat → Prop} (h' : Unnamed u v t n among') :
    Unnamed s v t n fun d => among d ∨ among' d := by
  have named (d : Nat) := h'.named d
  have other (d : Nat) := h'.other d
  simp only [h.task] at named other
  refine ⟨h'.rest.trans (by rw [h.rest]), fun d ⟨either, task⟩ => ?_, fun d none => ?_⟩
  · by_cases second : among' d
    · rw [named d ⟨second, task⟩]
      by_cases first : among d
      · rw [h.named d ⟨first, task⟩, Core.unnamed_unnamed]
      · rw [h.other d fun hd => first hd.1]
    · rw [other d fun hd => second hd.1, h.named d ⟨either.resolve_right second, task⟩]
  · rw [other d fun hd => none ⟨.inr hd.1, hd.2⟩, h.other d fun hd => none ⟨.inl hd.1, hd.2⟩]

end

theorem State.invalidateAll_unasked {t : Nat} {n : BitVec 16} (l : List Nat) {s : State}
    (h : ∀ c ∈ l, s.Unasked t n c) :
    Unnamed s (l.foldl (fun s c => s.invalidateAt t n c) s) t n (· ∈ l) := by
  induction l generalizing s with
  | nil => exact ⟨rfl, fun d ⟨hd, _⟩ => absurd hd List.not_mem_nil, fun _ _ => rfl⟩
  | cons c l ih =>
    have first := State.invalidateAt_unasked (h c List.mem_cons_self)
    have rest := ih fun d hd => first.unasked (h d (List.mem_cons_of_mem c hd))
    rw [List.foldl_cons]
    simpa only [List.mem_cons] using first.trans rest

theorem Unnamed.sameSlots {s u : State} {t : Nat} {n : BitVec 16} {among : Nat → Prop} (h : Unnamed s u t n among) :
    SameSlots s u := fun q => by
  by_cases hd : among q.core ∧ (s.core q.core).task = some t
  · rw [State.slot, h.named q.core hd]
    rfl
  · rw [State.slot, h.other q.core hd]
    rfl

end Sys2Proof.Machine
end

section
/-! SUPPORT. What a core does for itself: an access that is routed or performed, a release, a give, a segment that waits
for a name (R235, R264, R274, R289, R311) changes no other core and nothing of the front end and the firmware. -/

namespace Sys2Proof.Machine

/-- No other core, nothing of the front end and nothing of the firmware differs. -/
structure ActsAt (c : Nat) (s t : State) : Prop where
  others : ∀ d, d ≠ c → t.core d = s.core d
  fe : t.fe = s.fe
  fw : t.fw = s.fw

section

variable {c : Nat} {s t u : State}

theorem ActsAt.of_cores (h : t.cores = s.cores) (hfe : t.fe = s.fe) (hfw : t.fw = s.fw) : ActsAt c s t :=
  ⟨fun d _ => by rw [State.core, h, State.core], hfe, hfw⟩

theorem ActsAt.refl : ActsAt c s s := .of_cores rfl rfl rfl

theorem ActsAt.trans (h : ActsAt c s t) (h' : ActsAt c t u) : ActsAt c s u :=
  ⟨fun d hd => (h'.others d hd).trans (h.others d hd), h'.fe.trans h.fe, h'.fw.trans h.fw⟩

theorem ActsAt.modCore (f : Core → Core) : ActsAt c s (s.modCore c f) :=
  ⟨fun d hd => State.core_modCore_ne s c d f hd, rfl, rfl⟩

theorem ActsAt.modSlot (k : Nat) (f : Slot → Slot) : ActsAt c s (s.modSlot ⟨c, k⟩ f) :=
  ActsAt.modCore (c := c) (s := s) fun x => x.setSlot k (f (s.slot ⟨c, k⟩))

theorem ActsAt.laterX (h : ActsAt c s t) (d : Nat) (i : Instr) : ActsAt c s (t.laterX d i) := by
  rw [State.laterX_eq]
  exact h.trans (.of_cores rfl rfl rfl)

theorem ActsAt.later (h : ActsAt c s t) (d : Nat) (i : Instr) : ActsAt c s (t.later d i) :=
  h.trans (.of_cores rfl rfl rfl)

theorem ActsAt.soon (h : ActsAt c s t) (i : Instr) : ActsAt c s (t.soon i) := h.trans (.of_cores rfl rfl rfl)

theorem ActsAt.work (h : ActsAt c s t) (d : Nat) (w : Due) : ActsAt c s (t.work d w) := h.trans (.of_cores rfl rfl rfl)

theorem ActsAt.modBank (h : ActsAt c s t) (b : Nat) (f : Bank → Bank) : ActsAt c s (t.modBank b f) :=
  h.trans (.of_cores rfl rfl rfl)

theorem ActsAt.modLens (h : ActsAt c s t) (l : Nat) (f : Lens → Lens) : ActsAt c s (t.modLens l f) :=
  h.trans (.of_cores rfl rfl rfl)

theorem ActsAt.foldl {α : Type} {f : State → α → State} {l : List α} (hf : ∀ s, ∀ a ∈ l, ActsAt c s (f s a))
    (s : State) : ActsAt c s (l.foldl f s) := by
  induction l generalizing s with
  | nil => exact .refl
  | cons a l ih =>
    exact (hf s a List.mem_cons_self).trans (ih (fun s b hb => hf s b (List.mem_cons_of_mem a hb)) _)

end

section

variable (s : State) (c k : Nat) (a : Access)

/-! ### Names, packets and frames -/

theorem State.deferAcc_actsAt (cause addr info withDist) :
    ActsAt c s (s.deferAcc ⟨c, k⟩ a cause addr info withDist) := by
  unfold State.deferAcc State.defer
  exact .modSlot k _

theorem State.useName_actsAt (n : BitVec 16) : ActsAt c s (s.useName c n) := .modCore _

theorem State.startWalk_actsAt (n : BitVec 16) : ActsAt c s (s.startWalk c n) := by
  unfold State.startWalk
  split
  · exact .refl
  · exact ActsAt.laterX (.modCore _) _ _

theorem State.sendFrame_actsAt (die pkt : Nat) : ActsAt c s (s.sendFrame die pkt) := by
  unfold State.sendFrame
  (repeat' split) <;> exact .of_cores rfl rfl rfl

theorem State.takeSeq_actsAt (dst : Nat) : ActsAt c s (s.takeSeq c dst).2 := by
  unfold State.takeSeq
  dsimp only
  exact .modCore _

theorem State.stage_actsAt (dst slot : Nat) (pc : BitVec 14) (name : BitVec 16) (g : Cargo) :
    ActsAt c s (s.stage c dst slot pc name g).2 := by
  unfold State.stage
  dsimp only
  generalize hp : (if g.writes && dst != 769 then s.takeSeq c dst else (0, s)) = p
  have seq : ActsAt c s p.2 := by
    rw [← hp]
    split
    · exact s.takeSeq_actsAt c dst
    · exact .refl
  have put : ActsAt c s { p.2 with
      nextPkt := s.nextPkt + 1
      packets := p.2.packets ++ [⟨s.nextPkt, c, dst, slot, pc, name, p.1, g, false, false⟩] } :=
    seq.trans (.of_cores rfl rfl rfl)
  split
  · exact put.trans (State.sendFrame_actsAt ..)
  · exact put

/-! ### Accesses -/

theorem State.sendAcc_actsAt (dst : Nat) : ActsAt c s (s.sendAcc ⟨c, k⟩ a dst) := by
  have sent : ActsAt c s (((s.modSlot ⟨c, k⟩ fun sl => sl.setAcc { a with st := .sent }).stage c dst k a.pc a.name
      (.access { a with st := .sent })).2) := (ActsAt.modSlot k _).trans (State.stage_actsAt ..)
  unfold State.sendAcc
  dsimp only
  split
  · exact sent.laterX _ _
  · exact sent

theorem State.routeAcc_actsAt : ActsAt c s (s.routeAcc ⟨c, k⟩ a) := by
  unfold State.routeAcc
  split
  · exact (s.useName_actsAt c _).trans (State.sendAcc_actsAt ..)
  · exact (s.useName_actsAt c _).trans (State.sendAcc_actsAt ..)
  · exact (ActsAt.modSlot k _).trans (State.startWalk_actsAt ..)
  · exact .modSlot k _
  · exact (ActsAt.modSlot k _).trans (State.deferAcc_actsAt ..)
  · exact (ActsAt.modSlot k _).trans (State.deferAcc_actsAt ..)

theorem State.landLocal_actsAt (b : Access) : ActsAt c s (s.landLocal ⟨c, k⟩ a b) := by
  unfold State.landLocal State.lateWrite
  dsimp only
  (repeat' split) <;> exact .modSlot k _

theorem OnlyMemory.actsAt {s t : State} (h : OnlyMemory s t) : ActsAt c s t := by
  rw [h]
  exact .of_cores rfl rfl rfl

theorem State.performLocal_actsAt : ActsAt c s (s.performLocal ⟨c, k⟩ a) := by
  unfold State.performLocal
  split
  · dsimp only
    split
    · exact (ActsAt.modSlot k _).trans (State.deferAcc_actsAt ..)
    · split <;> exact .modSlot k _
  · have performed := s.performNext_onlyMemory c ((s.slot ⟨c, k⟩).accs.filter fun e => decide (e.id < a.id)) a
    split
    next u b step =>
      rw [step] at performed
      exact (performed.actsAt c).trans (State.landLocal_actsAt ..)
    next e u b step =>
      rw [step] at performed
      exact ((performed.actsAt c).trans (.modSlot k _)).work _ _

theorem State.launchAcc_actsAt : ActsAt c s (s.launchAcc ⟨c, k⟩ a) := by
  unfold State.launchAcc
  dsimp only
  split
  · exact State.routeAcc_actsAt ..
  · exact State.performLocal_actsAt ..

theorem State.launchHeld_actsAt (n : Nat) : ActsAt c s (State.launchHeld n ⟨c, k⟩ s) := by
  induction n generalizing s with
  | zero => exact .refl
  | succ n ih =>
    unfold State.launchHeld
    split
    · exact (State.launchAcc_actsAt ..).trans (ih _)
    · exact .refl

/-! ### Releases and stalls -/

theorem State.enqueue_actsAt (m : Msg) : ActsAt c s (s.enqueue c m) := by
  have numbered : ActsAt c s { s with nextPkt := s.nextPkt + 1 } := .of_cores rfl rfl rfl
  unfold State.enqueue
  dsimp only
  split
  · exact (numbered.trans (.modCore _)).later _ _
  · exact numbered.trans (.modCore _)

theorem State.doRelease_actsAt (act : RelAct) : ActsAt c s (s.doRelease ⟨c, k⟩ act) := by
  unfold State.doRelease
  split
  · unfold State.sendNote
    split
    · exact .refl
    · split
      · exact .of_cores rfl rfl rfl
      · split
        · exact .modSlot k _
        · exact State.enqueue_actsAt ..
  · unfold State.giveReleased
    (repeat' split) <;> exact .of_cores rfl rfl rfl
  · exact .of_cores rfl rfl rfl

theorem State.settlePends_actsAt : ActsAt c s (s.settlePends ⟨c, k⟩) :=
  (ActsAt.modSlot k _).trans (.foldl (fun t p _ => t.doRelease_actsAt c k p.act) _)

theorem State.settleStall_actsAt : ActsAt c s (s.settleStall ⟨c, k⟩) := by
  unfold State.settleStall State.stallStage State.endStall
  dsimp only
  split
  · split
    · exact .refl
    · split
      · exact .modSlot k _
      · exact ActsAt.laterX (.modSlot k _) _ _
      · exact .modSlot k _
      · exact .modSlot k _
      · split
        · exact .modSlot k _
        · exact .refl
      · exact .refl
  · exact .refl

theorem State.settle_actsAt : ActsAt c s (s.settle ⟨c, k⟩) := by
  have launched := (s.launchHeld_actsAt c k (s.slot ⟨c, k⟩).accs.length).trans (State.settlePends_actsAt _ c k)
  unfold State.settle
  dsimp only
  split
  · split
    · exact launched
    · exact launched.trans (State.settleStall_actsAt ..)
  · exact launched.trans (State.settleStall_actsAt ..)

end

/-! ### What waits for a name -/

section

variable (s : State) (c : Nat) (n : BitVec 16)

theorem State.wakeAccs_actsAt (k : Nat) : ActsAt c s (s.wakeAccs ⟨c, k⟩ n) := by
  unfold State.wakeAccs
  dsimp only
  split
  · exact .refl
  · exact (ActsAt.foldl (fun t a _ => t.routeAcc_actsAt c k a) s).trans (State.settle_actsAt ..)

theorem State.askQuery_actsAt (k : Nat) (own : Option Nat) (ea : Word) (rt : BitVec 5) (pc : BitVec 14) :
    ActsAt c s (s.askQuery ⟨c, k⟩ own ea rt pc) := by
  unfold State.askQuery
  dsimp only
  split
  · refine ActsAt.laterX (ActsAt.trans ?_ (.modSlot k _)) _ _
    split
    · exact .refl
    · exact State.useName_actsAt ..
  · exact (s.useName_actsAt c _).trans (.modSlot k _)
  · exact (ActsAt.modSlot k _).trans (State.startWalk_actsAt ..)
  · exact (ActsAt.modSlot k _).trans (.modSlot k _)
  · exact .modSlot k _

theorem State.wakeQuery_actsAt (k : Nat) : ActsAt c s (s.wakeQuery ⟨c, k⟩ n) := by
  unfold State.wakeQuery
  split
  · split
    · exact State.askQuery_actsAt ..
    · exact .refl
  · exact .refl

theorem State.nodeEnd_actsAt (m : Nat) (status detail : BitVec 8) : ActsAt c s (s.nodeEnd c m status detail) := by
  unfold State.nodeEnd State.nodeEndIn
  split
  · exact .refl
  · exact (ActsAt.modCore _).soon _

theorem State.freeGive_actsAt (g : Give) : ActsAt c s (s.freeGive c g) := by
  unfold State.freeGive
  exact (ActsAt.modCore _).modBank _ _

theorem State.refuseGive_actsAt (g : Give) (status : Nat) : ActsAt c s (s.refuseGive c g status) := by
  have dropped := (s.freeGive_actsAt c g).trans (.modCore fun x => x.dropGive g.id)
  unfold State.refuseGive State.endGive
  dsimp only
  split
  · exact dropped.trans (.modSlot g.slot _)
  · exact dropped.trans (State.nodeEnd_actsAt ..)

theorem State.startGive_actsAt (g : Give) (res : NameRes) : ActsAt c s (s.startGive c g res) := by
  unfold State.startGive
  split
  · exact (((s.useName_actsAt c g.name).trans (.modCore _)).trans (State.stage_actsAt ..)).later _ _
  · exact (ActsAt.modCore _).trans (State.startWalk_actsAt ..)
  · exact .modCore _

theorem State.wakeGive_actsAt (g : Give) : ActsAt c s (s.wakeGive c g) := by
  unfold State.wakeGive
  dsimp only
  split
  · split
    · exact State.refuseGive_actsAt ..
    · exact (ActsAt.modCore _).trans (State.startGive_actsAt ..)
  · exact State.refuseGive_actsAt ..
  · split
    · exact (s.refuseGive_actsAt c g 3).trans (.modSlot g.slot _)
    · exact ((ActsAt.modCore _).trans (State.freeGive_actsAt ..)).trans (State.nodeEnd_actsAt ..)
  · exact (ActsAt.modCore _).trans (State.startGive_actsAt ..)
  · exact .refl

theorem State.agRefused_actsAt (m : Nat) (detail : BitVec 8) (a : Word) (bank : Nat) :
    ActsAt c s (s.agRefused c m detail a bank) := by
  unfold State.agRefused
  exact (ActsAt.modCore _).modLens _ _

theorem State.wakeSeg_actsAt {p : Packet} (hp : p.src = c) : ActsAt c s (s.wakeSeg p) := by
  subst hp
  have sent (dst : Nat) (f : Packet → Packet) :
      ActsAt p.src s (((s.useName p.src p.name).takeSeq p.src dst).2.modPacket p.id f) :=
    ((s.useName_actsAt ..).trans (State.takeSeq_actsAt ..)).trans (.of_cores rfl rfl rfl)
  unfold State.wakeSeg
  split
  · dsimp only
    split
    · exact (sent _ _).laterX _ _
    · exact (sent _ _).trans (State.sendFrame_actsAt ..)
    · exact State.startWalk_actsAt ..
    · exact .refl
    · have dropped : ActsAt p.src s (s.dropPacket p.id) := .of_cores rfl rfl rfl
      exact (dropped.trans (State.agRefused_actsAt ..)).soon _
  · exact .refl

theorem State.wakeName_actsAt : ActsAt c s (s.wakeName c n) := by
  have slots : ActsAt c s (s.wakeSlots c n) :=
    .foldl (fun t k _ => (t.wakeAccs_actsAt c n k).trans (State.wakeQuery_actsAt ..)) s
  have gives (t : State) : ActsAt c t (t.wakeGives c n) := .foldl (fun u g _ => u.wakeGive_actsAt c g) t
  have segs (t : State) : ActsAt c t (t.wakeSegs c n) := .foldl (fun u p hp => by
    have mine := (List.mem_filter.1 hp).2
    simp only [Bool.and_eq_true, beq_iff_eq] at mine
    exact u.wakeSeg_actsAt c mine.1.1) t
  have sends (t : State) : ActsAt c t (t.wakeSends c n) := by
    unfold State.wakeSends
    split
    · exact .modCore _
    · exact .refl
  have head (t : State) : ActsAt c t (t.wakeHead c n) := by
    unfold State.wakeHead
    (repeat' split) <;> exact .of_cores rfl rfl rfl
  rw [State.wakeName_eq]
  exact (((slots.trans (gives _)).trans (segs _)).trans (sends _)).trans (head _)

theorem State.invalidateName_actsAt : ActsAt c s (s.invalidateName c n) :=
  (ActsAt.modCore _).trans (State.wakeName_actsAt ..)

end

/-- R234: an invalidation of a name leaves a core alone that runs nothing of the task. -/
theorem State.invalidateTask_others {s : State} {c t : Nat} (n : BitVec 16) (hc : (s.core c).task ≠ some t) :
    (s.invalidateTask t n).core c = s.core c ∧ (s.invalidateTask t n).fe = s.fe ∧ (s.invalidateTask t n).fw = s.fw := by
  rw [State.invalidateTask_eq]
  generalize frameCores (s.task t).rec_ = l
  induction l generalizing s with
  | nil => exact ⟨rfl, rfl, rfl⟩
  | cons d l ih =>
    have here : (s.invalidateAt t n d).core c = s.core c ∧ (s.invalidateAt t n d).fe = s.fe ∧
        (s.invalidateAt t n d).fw = s.fw := by
      unfold State.invalidateAt
      split
      next task =>
        have only := s.invalidateName_actsAt d n
        exact ⟨only.others c fun hd => hc (hd ▸ task), only.fe, only.fw⟩
      next => exact ⟨rfl, rfl, rfl⟩
    obtain ⟨core, fe, fw⟩ := here
    obtain ⟨core', fe', fw'⟩ := ih (s := s.invalidateAt t n d) (by rwa [core])
    exact ⟨core'.trans core, fe'.trans fe, fw'.trans fw⟩

end Sys2Proof.Machine
end

section
/-! SUPPORT. The retirement of a core: what its parts do to the cores, to the banks of the core, to the records, to
memory and to the tasks (R128, R234, R352). -/

namespace Sys2Proof.Machine

/-! ### Steps that leave the cores -/

/-- The cores, memory and the firmware are as they were, and so is the front end but for its barriers. -/
structure Bystand (s t : State) : Prop where
  cores : t.cores = s.cores
  mem : t.mem = s.mem
  fw : t.fw = s.fw
  fe : t.fe = { s.fe with bars := t.fe.bars }

section

variable {s t u : State}

theorem Bystand.of_eq (cores : t.cores = s.cores) (mem : t.mem = s.mem) (fw : t.fw = s.fw)
    (fe : t.fe = s.fe) : Bystand s t :=
  ⟨cores, mem, fw, by rw [fe]⟩

theorem Bystand.refl : Bystand s s := .of_eq rfl rfl rfl rfl

theorem Bystand.trans (h : Bystand s t) (h' : Bystand t u) : Bystand s u :=
  ⟨h'.cores.trans h.cores, h'.mem.trans h.mem, h'.fw.trans h.fw, by rw [h'.fe, h.fe]⟩

theorem Bystand.later (h : Bystand s t) (d : Nat) (i : Instr) : Bystand s (t.later d i) :=
  h.trans (.of_eq rfl rfl rfl rfl)

theorem Bystand.foldl {α : Type} {f : State → α → State} (hf : ∀ s a, Bystand s (f s a)) (l : List α) (s : State) :
    Bystand s (l.foldl f s) := by
  induction l generalizing s with
  | nil => exact .refl
  | cons a l ih => exact (hf s a).trans (ih _)

theorem Bystand.core (h : Bystand s t) (c : Nat) : t.core c = s.core c := by rw [State.core, h.cores, State.core]

end

section

variable (s : State) (c : Nat)

theorem State.freezeFor_bystand : Bystand s (s.freezeFor c) :=
  .foldl (fun t key => by
    dsimp only
    split
    · exact .refl
    · exact .of_eq rfl rfl rfl rfl) _ s

theorem State.setExcuse_bystand (on : Bool) : Bystand s (s.setExcuse c on) := .of_eq rfl rfl rfl rfl

theorem State.forget_bystand (cs : List Nat) (ni : Bool) : Bystand s (s.forget cs ni) := .of_eq rfl rfl rfl rfl

theorem State.takeExtra_bystand : Bystand s s.takeExtra.2 := by
  rw [State.takeExtra_eq]
  exact .of_eq rfl rfl rfl rfl

theorem State.releaseGroup_bystand (k : Nat) (group : List Nat) : Bystand s (s.releaseGroup k group) := by
  unfold State.releaseGroup
  dsimp only
  exact s.takeExtra_bystand.trans (.foldl (fun t _ => t.takeExtra_bystand.later _ _) _ _)

theorem State.checkBarrier_bystand (k : Nat) : Bystand s (s.checkBarrier c k) := by
  unfold State.checkBarrier
  split
  · exact .refl
  · dsimp only
    split
    · exact .refl
    · split
      · split
        · exact .refl
        · exact ⟨rfl, rfl, rfl, rfl⟩
      · exact State.releaseGroup_bystand ..

theorem State.checkBarriers_bystand : Bystand s (s.checkBarriers c) :=
  .foldl (fun t k => t.checkBarrier_bystand c k) _ s

theorem State.resendAll_bystand : Bystand s s.resendAll :=
  .foldl (fun t p => by (repeat' split) <;> exact .of_eq rfl rfl rfl rfl) _ s

end

/-! ### Records (R352 step 2) -/

/-- R352: the record of a retirement. -/
def retireRecord (c : Nat) (p : Nat × Slot) : Nat × Nat × Word × Word × Word × Word :=
  (c, p.1, p.2.pc.setWidth 64, 0x38, 0, 0)

theorem State.retireRecords_eq (s : State) (c : Nat) : s.retireRecords c = s.modFe fun e =>
    { e with records := e.records ++ ((s.core c).slots.filter fun p => p.2.bound).map (retireRecord c) } := by
  unfold State.retireRecords
  generalize (s.core c).slots = l
  induction l generalizing s with
  | nil => simp [State.modFe]
  | cons p l ih =>
    rw [List.foldl_cons, ih]
    by_cases hp : p.2.bound = true
    · simp [hp, State.record, State.modFe, retireRecord]
    · simp [hp]

/-! ### Banks (R352, R269) -/

/-- R269: one window entry leaves a core. -/
def State.leaveEntry (s : State) (c : Nat) (f : Nat → BankSt) (e : Nat) : State :=
  let w := (s.core c).bm e
  let s := if bmV w then s.modBank (bmIndex w) fun b => { b with st := f e } else s
  let s := match s.pendingBank c e with
    | some b => s.modBank b fun y => { y with st := .pooled }
    | none => s
  s.modCore c fun x => x.setBm e 0

theorem State.leaveBanks_eq (s : State) (c : Nat) (f : Nat → BankSt) :
    s.leaveBanks c f = (List.range 16).foldl (fun s e => s.leaveEntry c f e) s := rfl

/-- Only the window of a core differs among the cores, and nothing of the front end and the firmware. -/
structure WindowOnly (c : Nat) (s t : State) : Prop where
  acts : ActsAt c s t
  own : ∃ m, t.core c = { s.core c with bmap := m }

theorem WindowOnly.trans {c : Nat} {s t u : State} (h : WindowOnly c s t) (h' : WindowOnly c t u) :
    WindowOnly c s u := by
  obtain ⟨m', hm'⟩ := h'.own
  obtain ⟨m, hm⟩ := h.own
  exact ⟨h.acts.trans h'.acts, m', by rw [hm', hm]⟩

theorem State.leaveEntry_core (s : State) (c : Nat) (f : Nat → BankSt) (e : Nat) :
    (s.leaveEntry c f e).core c = (s.core c).setBm e 0 := by
  unfold State.leaveEntry
  dsimp only
  rw [State.core_modCore]
  (repeat' split) <;> rfl

theorem State.leaveEntry_windowOnly (s : State) (c : Nat) (f : Nat → BankSt) (e : Nat) :
    WindowOnly c s (s.leaveEntry c f e) := by
  refine ⟨?_, (Tab.store (s.core c).bmap 0 e 0), s.leaveEntry_core c f e⟩
  unfold State.leaveEntry
  dsimp only
  refine ActsAt.trans ?_ (.modCore _)
  (repeat' split) <;> exact .of_cores rfl rfl rfl

/-- R269: the entries that leave read as after reset. -/
theorem State.leaveEntries_bm (c : Nat) (f : Nat → BankSt) (l : List Nat) (s : State) (e : Nat)
    (h : e ∈ l ∨ (s.core c).bm e = 0) : ((l.foldl (fun s e => s.leaveEntry c f e) s).core c).bm e = 0 := by
  induction l generalizing s with
  | nil => exact h.resolve_left List.not_mem_nil
  | cons d l ih =>
    refine ih _ ?_
    rw [State.leaveEntry_core, Core.bm, Core.setBm]
    by_cases hd : e = d
    · exact .inr (by rw [hd, Tab.at_store])
    · rw [Tab.at_store_ne _ _ _ _ _ hd]
      exact h.imp_left fun hin => (List.mem_cons.1 hin).resolve_left hd

theorem State.leaveEntries_windowOnly (c : Nat) (f : Nat → BankSt) (l : List Nat) (s : State) :
    WindowOnly c s (l.foldl (fun s e => s.leaveEntry c f e) s) := by
  induction l generalizing s with
  | nil => exact ⟨.refl, (s.core c).bmap, rfl⟩
  | cons e l ih => exact (s.leaveEntry_windowOnly c f e).trans (ih _)

section

variable (s : State) (c : Nat)

/-- The banks that a core holds, zeroed. -/
def State.zeroHeld : State :=
  (((List.range 16).map fun e => (s.core c).bm e).filter bmV).foldl (fun s w => s.zeroBank (bmIndex w)) s

theorem State.poolBanks_eq : s.poolBanks c = (s.zeroHeld c).leaveBanks c fun _ => .pooled := rfl

theorem State.zeroHeld_rest : (s.zeroHeld c).cores = s.cores ∧ (s.zeroHeld c).fe = s.fe ∧ (s.zeroHeld c).fw = s.fw := by
  unfold State.zeroHeld
  generalize ((List.range 16).map fun e => (s.core c).bm e).filter bmV = l
  induction l generalizing s with
  | nil => exact ⟨rfl, rfl, rfl⟩
  | cons w l ih => exact ih (s.zeroBank (bmIndex w))

theorem State.zeroHeld_none (h : ∀ e < 16, ((s.core c).bm e).getLsbD 63 = false) : s.zeroHeld c = s := by
  have none : ((List.range 16).map fun e => (s.core c).bm e).filter bmV = [] :=
    List.filter_eq_nil_iff.2 fun w hw => by
      obtain ⟨e, he, rfl⟩ := List.mem_map.1 hw
      exact ne_true_of_eq_false (h e (List.mem_range.1 he))
  rw [State.zeroHeld, none]
  rfl

theorem State.poolBanks_windowOnly : WindowOnly c s (s.poolBanks c) := by
  obtain ⟨cores, fe, fw⟩ := s.zeroHeld_rest c
  have zeroed : WindowOnly c s (s.zeroHeld c) :=
    ⟨.of_cores cores fe fw, (s.core c).bmap, by rw [State.core, cores]; rfl⟩
  rw [State.poolBanks_eq, State.leaveBanks_eq]
  exact zeroed.trans (State.leaveEntries_windowOnly ..)

theorem State.poolBanks_bm {e : Nat} (he : e < 16) : ((s.poolBanks c).core c).bm e = 0 := by
  rw [State.poolBanks_eq, State.leaveBanks_eq]
  exact State.leaveEntries_bm c _ _ _ e (.inl (List.mem_range.2 he))

theorem State.poolBanks_mem (h : ∀ e < 16, ((s.core c).bm e).getLsbD 63 = false) : (s.poolBanks c).mem = s.mem := by
  rw [State.poolBanks_eq, State.leaveBanks_mem, s.zeroHeld_none c h]

end

/-! ### The parts of a retirement (R352) -/

/-- R352, R378: the firmware keeps that a core retires. -/
def State.noteRetire (s : State) (c : Nat) (router : Bool) : State :=
  (if router then s.modFw fun f => { f with deadRouters := f.deadRouters ++ [c] } else s).modFw fun f =>
    { f with loupe := { f.loupe with retirements := f.loupe.retirements ++ [(c, 0x38)] } }

/-- R352 steps 2 to 4: the records, the freeze lines, the excuses and the end of what was to come. -/
def State.stopCore (s : State) (c : Nat) : State :=
  (((((s.retireRecords c).freezeFor c).setExcuse c true).modCore c fun x =>
    { x with retired := true }).checkBarriers c).forget [c] false

/-- R352: a core is taken out of its task. -/
def State.takeOut (s : State) (c : Nat) (router : Bool) : State :=
  let u := (((s.noteRetire c router).stopCore c).poolBanks c).modCore c Core.retire
  if router then u.resendAll else u

/-- R234, R352 steps 5 and 6: the name of a core that has been taken out of a task reads as retired, and the task's
queue has its notice. -/
def State.strikeName (s : State) (t c : Nat) (r : BindRec) (name : BitVec 16) (froze : Bool) : State :=
  let place := dpaKey (namePlace r c)
  let u := (s.poke place (leBytes 8 (retiredEntry (w64 (s.word place 8))).toNat)).invalidateTask t name
  let n := u.noticeWord t c name froze
  ((u.postNotice (u.task t).queue n).modFw fun f =>
    { f with service := f.service ++ [.retirement n] }).modTask t fun k =>
    { k with worst := some (match k.worst with
      | some w => if w.toNat < 0x38 then w else 0x38
      | none => 0x38) }

section

variable {s : State} {c : Nat} {router : Bool}

theorem State.retireCore_free (h : (s.core c).task = none) : s.retireCore c router = s.takeOut c router := by
  rw [State.retireCore, h]
  rfl

theorem State.retireCore_bound {t : Nat} (h : (s.core c).task = some t) : s.retireCore c router =
    (s.takeOut c router).strikeName t c ((s.noteRetire c router).recOf c) ((s.noteRetire c router).ownName c)
      (!(s.lensesOf c).isEmpty) := by
  rw [State.retireCore, h]
  rfl

end

/-! ### A core that is taken out -/

/-- What a core leaves when it is taken out of its task. -/
structure TakenOut (c : Nat) (router : Bool) (s t : State) : Prop where
  own : (t.core c).retired = true ∧ (t.core c).task = none ∧ (t.core c).slots = []
  banks : ∀ e < 16, (t.core c).bm e = 0
  others : ∀ d, d ≠ c → t.core d = s.core d
  dead : router = true → c ∈ t.fw.deadRouters
  records : ∀ p ∈ (s.core c).slots, p.2.bound = true → retireRecord c p ∈ t.fe.records
  fe : t.fe = { s.fe with records := t.fe.records, bars := t.fe.bars }
  mem : (∀ e < 16, ((s.core c).bm e).getLsbD 63 = false) → t.mem = s.mem

section

variable (s : State) (c : Nat) (router : Bool)

theorem State.noteRetire_bystand : (s.noteRetire c router).cores = s.cores ∧ (s.noteRetire c router).mem = s.mem ∧
    (s.noteRetire c router).fe = s.fe := by
  cases router <;> exact ⟨rfl, rfl, rfl⟩

theorem State.noteRetire_dead : router = true → c ∈ (s.noteRetire c router).fw.deadRouters := by
  rintro rfl
  simp [State.noteRetire]

/-- The freeze lines and excuses of a retirement change no core. -/
theorem State.stopCore_facts :
    (s.stopCore c).mem = s.mem ∧ (s.stopCore c).fw = s.fw ∧
      (∀ d, (s.stopCore c).core d = if d = c then { s.core c with retired := true } else s.core d) ∧
      (s.stopCore c).fe = { s.fe with
        records := s.fe.records ++ ((s.core c).slots.filter fun p => p.2.bound).map (retireRecord c)
        bars := (s.stopCore c).fe.bars } := by
  let u := ((s.retireRecords c).freezeFor c).setExcuse c true
  have first : Bystand (s.retireRecords c) u := (State.freezeFor_bystand _ c).trans (State.setExcuse_bystand _ c true)
  have last : Bystand (u.modCore c fun x => { x with retired := true }) (s.stopCore c) :=
    (State.checkBarriers_bystand _ c).trans (State.forget_bystand _ [c] false)
  rw [s.retireRecords_eq c] at first
  refine ⟨last.mem.trans first.mem, last.fw.trans first.fw, fun d => ?_, ?_⟩
  · rw [last.core]
    by_cases hd : d = c
    · rw [if_pos hd, hd, State.core_modCore, first.core]
      rfl
    · rw [if_neg hd, State.core_modCore_ne u c d _ hd, first.core]
      rfl
  · have fe := last.fe
    rw [State.modCore_fe, first.fe] at fe
    exact fe

theorem State.takeOut_takenOut : TakenOut c router s (s.takeOut c router) := by
  obtain ⟨cores, mem, fe⟩ := s.noteRetire_bystand c router
  obtain ⟨mem', fw', core', fe'⟩ := (s.noteRetire c router).stopCore_facts c
  have core (d : Nat) : (s.noteRetire c router).core d = s.core d := by rw [State.core, cores, State.core]
  obtain ⟨m, own⟩ := (State.poolBanks_windowOnly ((s.noteRetire c router).stopCore c) c).own
  have acts := (State.poolBanks_windowOnly ((s.noteRetire c router).stopCore c) c).acts
  let v := (((s.noteRetire c router).stopCore c).poolBanks c).modCore c Core.retire
  have out : Bystand v (s.takeOut c router) := by
    cases router
    · exact .refl
    · exact State.resendAll_bystand v
  have here : (s.takeOut c router).core c = (((((s.noteRetire c router).stopCore c).poolBanks c).core c)).retire := by
    rw [out.core, State.core_modCore]
  have front : v.fe = ((s.noteRetire c router).stopCore c).fe := acts.fe
  have listed : (s.takeOut c router).fe.records =
      s.fe.records ++ ((s.core c).slots.filter fun p => p.2.bound).map (retireRecord c) := by
    rw [out.fe, front, fe', fe, core]
  refine ⟨?_, fun e he => ?_, fun d hd => ?_, fun hr => ?_, fun p hp bound => ?_, ?_, fun free => ?_⟩
  · rw [here]
    exact ⟨rfl, rfl, rfl⟩
  · rw [here]
    exact State.poolBanks_bm _ c he
  · rw [out.core, State.core_modCore_ne _ c d _ hd, acts.others d hd, core', if_neg hd, core]
  · rw [out.fw]
    change c ∈ (((s.noteRetire c router).stopCore c).poolBanks c).fw.deadRouters
    rw [acts.fw, fw']
    exact s.noteRetire_dead c router hr
  · rw [listed]
    exact List.mem_append_right _ (List.mem_map_of_mem (List.mem_filter.2 ⟨hp, bound⟩))
  · rw [out.fe, front, fe', fe]
  · have same : (((s.noteRetire c router).stopCore c).core c).bmap = (s.core c).bmap := by rw [core', if_pos rfl, core]
    rw [out.mem, State.modCore_mem, State.poolBanks_mem _ c (by simpa only [Core.bm, same] using free), mem', mem]

end

/-! ### Its name -/

theorem State.invalidateAt_other {s : State} {t d : Nat} (n : BitVec 16) (h : (s.core d).task ≠ some t) :
    s.invalidateAt t n d = s := by
  rw [State.invalidateAt, if_neg h]

theorem State.invalidateTask_idle {s : State} {t : Nat} (n : BitVec 16) (h : ∀ d, (s.core d).task ≠ some t) :
    s.invalidateTask t n = s := by
  rw [State.invalidateTask_eq]
  exact foldl_eq_self fun d _ => State.invalidateAt_other n (h d)

theorem State.postNotice_rest (s : State) (q : Nat) (n : BitVec 256) : (s.postNotice q n).cores = s.cores ∧
    (s.postNotice q n).fw = s.fw ∧ (s.postNotice q n).fe.records = s.fe.records := by
  unfold State.postNotice
  dsimp only
  split
  · exact ⟨rfl, rfl, rfl⟩
  · unfold State.raiseMsix State.modQueue
    refine ⟨?_, ?_, ?_⟩
    · rw [State.modFe_cores, State.modFe_cores, State.poke_cores]
    · rw [State.modFe_fw, State.modFe_fw, State.poke_fw]
    · rw [State.modFe_fe, State.modFe_fe, State.poke_fe]

theorem State.postNotice_none {s : State} {q : Nat} (n : BitVec 256) (h : (s.queue q).notice = 0) :
    s.postNotice q n = s :=
  if_pos h

section

variable {s : State} {t c : Nat} (r : BindRec) (name : BitVec 16) (froze : Bool)

theorem State.strikeName_kept (hc : (s.core c).task = none) :
    (s.strikeName t c r name froze).core c = s.core c ∧
      (s.strikeName t c r name froze).fe.records = s.fe.records ∧
      (s.strikeName t c r name froze).fw.deadRouters = s.fw.deadRouters := by
  unfold State.strikeName
  dsimp only
  generalize hu : s.poke (dpaKey (namePlace r c)) _ = u
  have core : u.core c = s.core c := by rw [← hu, State.core_poke]
  have fe : u.fe = s.fe := by rw [← hu, State.poke_fe]
  have fw : u.fw = s.fw := by rw [← hu, State.poke_fw]
  obtain ⟨core', fe', fw'⟩ := u.invalidateTask_others (c := c) (t := t) name (by rw [core, hc]; simp)
  generalize u.invalidateTask t name = v at core' fe' fw' ⊢
  obtain ⟨cores, fw'', records⟩ := v.postNotice_rest (v.task t).queue (v.noticeWord t c name froze)
  generalize v.postNotice _ _ = w at cores fw'' records ⊢
  refine ⟨?_, ?_, ?_⟩
  · rw [← core, ← core', State.core, State.modTask_cores, State.modFw_cores, cores, ← State.core]
  · rw [State.modTask_fe, State.modFw_fe, records, fe', fe]
  · rw [State.modTask_fw, State.modFw_fw, fw'', fw', fw]

theorem State.strikeName_mem (idle : ∀ d, (s.core d).task ≠ some t) (notice : (s.queue (s.task t).queue).notice = 0) :
    (s.strikeName t c r name froze).mem = memWriteAll s.mem (dpaKey (namePlace r c))
      (leBytes 8 (retiredEntry (w64 (s.word (dpaKey (namePlace r c)) 8))).toNat) := by
  unfold State.strikeName
  dsimp only
  generalize hb : leBytes 8 _ = bs
  rw [State.invalidateTask_idle name (by exact idle), State.modTask_mem, State.modFw_mem,
    State.postNotice_none _ (by exact notice), State.poke_mem]

end

/-! ### What firmware's command does -/

theorem Tab.mem_of_find {β : Type} {t : Tab β} {k : Nat} {v : β} (h : Tab.find t k = some v) : (k, v) ∈ t := by
  induction t with
  | nil => cases h
  | cons p r ih =>
    obtain ⟨j, u⟩ := p
    by_cases hj : j = k
    · obtain rfl : u = v := by simpa [Tab.find, hj] using h
      simp [hj]
    · exact List.mem_cons_of_mem _ (ih (by simpa [Tab.find, hj] using h))

/-- R11: a slot that is bound is listed. -/
theorem Core.mem_slots {x : Core} {k : Nat} (h : (x.slot k).life ≠ .unbound) : (k, x.slot k) ∈ x.slots := by
  rw [Core.slot, Tab.at] at h ⊢
  cases found : Tab.find x.slots k with
  | none =>
    rw [found] at h
    exact absurd rfl h
  | some sl => exact Tab.mem_of_find found

section

variable {s : State} {c : Nat} {router : Bool} (hc : c < 768)
include hc

theorem execCoreRetire_eq : exec (.coreRetire c router) s = .next (s.retireAgain c router) := if_pos hc

theorem coreRetire_idle (h : s.fw.booted = false ∨ (s.core c).retired = true) :
    exec (.coreRetire c router) s = .next s := by
  have no : (s.fw.booted && !(s.core c).retired) = false := by rcases h with h | h <;> simp [h]
  rw [execCoreRetire_eq hc, State.retireAgain, no]
  rfl

variable (booted : s.fw.booted = true) (present : (s.core c).retired = false)
include booted present

theorem coreRetire_starts : exec (.coreRetire c router) s = .next (s.startRetire c router) := by
  rw [execCoreRetire_eq hc, State.retireAgain, booted, present]
  rfl

theorem coreRetire_waits (beats : (s.core c).beatsLeft = true) : exec (.coreRetire c router) s =
    .next ((s.setCore c { s.core c with retiring := true }).work 1 (.retire c router)) := by
  rw [coreRetire_starts hc booted present, State.startRetire, if_pos beats]
  rfl

theorem coreRetire_goes (beats : (s.core c).beatsLeft = false) :
    exec (.coreRetire c router) s = .next (s.retireCore c router) := by
  rw [coreRetire_starts hc booted present, State.startRetire, if_neg (by simp [beats])]

end

/-- R352: a retired core holds no slot and no bank, and its slots are recorded. -/
theorem State.retireCore_kept (s : State) (c : Nat) (router : Bool) :
    (s.retireCore c router).core c = (s.takeOut c router).core c ∧
      (s.retireCore c router).fe.records = (s.takeOut c router).fe.records ∧
      (s.retireCore c router).fw.deadRouters = (s.takeOut c router).fw.deadRouters := by
  cases task : (s.core c).task with
  | none =>
    rw [State.retireCore_free task]
    exact ⟨rfl, rfl, rfl⟩
  | some t =>
    obtain ⟨-, gone, -⟩ := (s.takeOut_takenOut c router).own
    rw [State.retireCore_bound task]
    exact State.strikeName_kept _ _ _ gone

/-- R234, R352: where nothing else runs the task and its queue takes no notice, memory changes in the name alone. -/
theorem State.retireCore_mem {s : State} {c tk : Nat} (router : Bool) (task : (s.core c).task = some tk)
    (notice : (s.queue (s.task tk).queue).notice = 0) (alone : ∀ d, d ≠ c → (s.core d).task = none)
    (free : ∀ e < 16, ((s.core c).bm e).getLsbD 63 = false) :
    (s.retireCore c router).mem = memWriteAll s.mem (dpaKey (namePlace (s.task tk).rec_ c))
      (leBytes 8 (retiredEntry (w64 (s.word (dpaKey (namePlace (s.task tk).rec_ c)) 8))).toNat) := by
  have out := s.takeOut_takenOut c router
  obtain ⟨-, gone, -⟩ := out.own
  obtain ⟨cores, -, fe⟩ := s.noteRetire_bystand c router
  have rec_ : (s.noteRetire c router).recOf c = (s.task tk).rec_ := by
    unfold State.recOf State.task State.core
    rw [cores, fe, ← State.core, task]
  have tasks (k : Nat) : (s.takeOut c router).task k = s.task k := by rw [State.task, out.fe, State.task]
  have queues (q : Nat) : (s.takeOut c router).queue q = s.queue q := by rw [State.queue, out.fe, State.queue]
  have idle (d : Nat) : ((s.takeOut c router).core d).task ≠ some tk := by
    by_cases hd : d = c
    · rw [hd, gone]
      exact nofun
    · rw [out.others d hd, alone d hd]
      exact nofun
  have bytes (a : Nat) : (s.takeOut c router).word a 8 = s.word a 8 := by
    unfold State.word State.bytes State.byte
    rw [out.mem free]
  rw [State.retireCore_bound task, State.strikeName_mem _ _ _ idle (by rw [tasks, queues, notice]), rec_,
    out.mem free, bytes]

end Sys2Proof.Machine
end

section
/-! SUPPORT. Walks, extents, invalidations, moves of pages, names and cores that go: the obligation from its parts. -/

namespace Sys2Proof.Machine

/-- Settles O51, part by part: the walk (`State.findLeaf_small`, `walkComplete_node_mapped`, `walkComplete_ag_mapped`
and their failures), the extent (`extentInstall_some`), the invalidation (`State.core_invalidate`,
`State.invalidate_extent`), the move (`migrationStart_free`, `State.commitMigration_eq`), the name
(`State.invalidateAll_unasked`) and the core (`State.takeOut_takenOut`, `State.retireCore_kept`,
`State.retireCore_mem`). -/
theorem translationAndRetirement : Obligations.TranslationAndRetirement := by
  refine ⟨?_, ?_, ?_, ?_, ?_, ?_, ?_, ?_, ?_⟩
  · intro s root va w1 w2 w3 hva pointer table h1 p1 h2 p2 h3 valid high low tier
    have reads {w : Word} : pointer w → Pte.Pointer w := fun ⟨hv, hh, hl, leaf, range⟩ => ⟨hv, hh, hl, leaf, range⟩
    exact State.findLeaf_small hva h1 (reads p1) h2 (reads p2) h3 ((Pte.sound_iff w3).2 ⟨valid, high, low, tier⟩)
  · intro s w h hr leaf allowed touched found
    refine ⟨fun l => walkComplete_moving h hr, fun c n who asks used => ⟨?_, ?_, fun hl => ?_⟩,
      fun c n who asks => ⟨?_, ?_⟩⟩
    · rintro l _ ⟨hl, rfl, hm⟩ ok
      exact walkComplete_node_mapped h hr who asks hl hm ok
    · rintro l _ ⟨hl, rfl, hm⟩ no
      exact walkComplete_node_failed h hr who asks used (.inr ⟨rfl, rfl⟩) (State.walk0_denied hl hm no)
    · exact walkComplete_node_failed h hr who asks used (.inl ⟨rfl, rfl⟩) (State.walk0_none hl)
    · rintro l _ ⟨hl, rfl, hm⟩ ok
      exact walkComplete_ag_mapped h hr who asks hl hm ok
    · rintro (hl | ⟨l, _, ⟨hl, rfl, hm⟩, no⟩)
      · exact walkComplete_ag_failed h hr who asks (.inl rfl) (State.walk0_none hl)
      · exact walkComplete_ag_failed h hr who asks (.inr rfl) (State.walk0_denied hl hm no)
  · intro s c n e hc g live
    exact ⟨extentInstall_none hc, extentInstall_some hc⟩
  · intro s asid va n
    refine ⟨_, rfl, State.invalidate_sameMemory .., State.invalidate_sameSlots s asid va n, State.invalidate_fe ..,
      ?_, ?_, ?_⟩
    · intro c e
      rw [State.core_invalidate]
      exact mem_dropTlb asid va n _ e
    · intro k e
      rw [State.cluster_invalidate]
      exact mem_dropTlb asid va n _ e
    · intro c a tk x task mine hx valid meeting
      have apart := s.invalidate_extent asid va n task mine hx valid
      simp [meets, extVa, extPages, meeting] at apart
  · intro s asid a va l hva sp hl size mig still host
    refine ⟨fun page rest free quota => ?_, fun full => ?_⟩
    · obtain ⟨t, ran, mem, slots, space, coming⟩ := migrationStart_free hva hl size mig still host free quota
      rw [State.space_markMoving] at space
      exact ⟨t, ran, mem, slots, by rw [space], by rw [space], by rw [space], coming⟩
    · exact (execMigrationStart_eq s asid a).trans (congrArg _ (State.startMigration_none hva hl full))
  · intro s asid va
    exact ⟨execMigrationCommit_held, fun free still =>
      (execMigrationCommit_free free).trans (congrArg _ (State.commitMigration_none still))⟩
  · intro s asid va page l sp old free hm hl
    exact ⟨_, execMigrationCommit_free free, State.commitMigration_sameSlots hm hl, State.commitMigration_moving hm hl,
      (State.commitMigration_mem hm hl).trans (s.copyPage_mem l page)⟩
  · intro s tk n mine idle
    have unasked : ∀ c ∈ frameCores (s.task tk).rec_, s.Unasked tk n c := fun c hc task => by
      obtain ⟨sends, gives, packets, slots⟩ := idle c ⟨hc, task⟩
      exact ⟨⟨sends, gives, fun k hk => (slots k hk).1, fun k hk => (slots k hk).2⟩, packets⟩
    have gone : Unnamed s (s.invalidateTask tk n) tk n (· ∈ frameCores (s.task tk).rec_) :=
      State.invalidateAll_unasked _ unasked
    refine ⟨_, congrArg (fun m => Host.Outcome.next (s.invalidateTask tk m)) (by simp), gone.rest, gone.sameSlots,
      fun c => ⟨fun hc => ?_, gone.other c⟩⟩
    rw [gone.named c hc]
    rfl
  · intro s c router hc
    refine ⟨coreRetire_idle hc, coreRetire_waits hc, fun booted present beats =>
      ⟨_, coreRetire_goes hc booted present beats, ?_⟩⟩
    have out := s.takeOut_takenOut c router
    obtain ⟨core, records, dead⟩ := s.retireCore_kept c router
    obtain ⟨retired, task, slots⟩ := out.own
    dsimp only
    rw [core, records, dead]
    refine ⟨retired, task, slots, fun e he => by rw [out.banks e he]; rfl, out.dead, fun k bound => ?_, ?_⟩
    · exact out.records (k, s.slot ⟨c, k⟩) (Core.mem_slots bound) (by simpa [Slot.bound] using bound)
    · intro tk task notice _ alone free
      exact State.retireCore_mem router task notice alone free

end Sys2Proof.Machine
end

section
/-! SUPPORT. What a vector word gives: the lanes of its result, the bits of its mask, and the trap it takes instead
(R41, R125, R135, R136, R141). -/

namespace Sys2Proof.Machine

/-! ### Lanes, masks and conditions -/

theorem getLsbD_lanesOf_iff {l : List Nat} {k : Nat} (hk : k < 64) : (lanesOf l).getLsbD k = true ↔ k ∈ l := by
  have fold (a : Word) (h : a.getLsbD k = true ∨ k ∈ l) :
      (l.foldl (fun a i => a ||| ((1 : Word) <<< i)) a).getLsbD k = true := by
    induction l generalizing a with
    | nil => simpa using h
    | cons i l ih =>
      refine ih _ ?_
      have one : ((1 : Word) <<< k).getLsbD k = true := by simp [hk]
      rw [BitVec.getLsbD_or, Bool.or_eq_true, or_assoc]
      exact h.imp_right fun h => (List.mem_cons.1 h).imp_left fun e : k = i => e ▸ one
  exact ⟨mem_of_getLsbD_lanesOf, fun h => fold 0 (.inr h)⟩

/-- R125: a register image of lane values holds each of them in its lane, and zero elsewhere. -/
theorem vlane_packLanes (l : List Nat) (f : Nat → BitVec 32) {k : Nat} (hk : k < 64) :
    vlane (packLanes (l.map fun i => (i, f i))) k = if k ∈ l then f k else 0 := by
  have fold (a : VReg) : vlane (((l.map fun i => (i, f i)).foldl
      (fun (a : VReg) (p : Nat × BitVec 32) => a ||| ((p.2.setWidth 2048 : VReg) <<< (32 * p.1))) a)) k =
      vlane a k ||| if k ∈ l then f k else 0 := by
    induction l generalizing a with
    | nil => simp
    | cons i l ih =>
      rw [List.map_cons, List.foldl_cons, ih, vlane_or, vlane_placed _ _ _ hk, BitVec.or_assoc]
      congr 1
      rcases eq_or_ne k i with rfl | hi
      · by_cases hm : k ∈ l <;> simp [hm]
      · simp [hi, hi.symm]
  refine (fold 0).trans ?_
  rw [vlane_zero]
  exact BitVec.zero_or

theorem mem_activeLanes {sl : Slot} {o : FmtV} {k : Nat} :
    k ∈ activeLanes sl o ↔ k < 64 ∧ (activeMask sl o).getLsbD k = true := by
  rw [activeLanes, bitList, List.mem_filter, List.mem_range]

/-- R125: a register image of the lanes of a mask holds their values, and zero in the others. -/
theorem vlane_packLanes_mask {mask : Word} {l : List Nat} {f : Nat → BitVec 32}
    (hm : ∀ k, k < 64 → (k ∈ l ↔ mask.getLsbD k = true)) :
    (∀ k, k < 64 → mask.getLsbD k = true → vlane (packLanes (l.map fun i => (i, f i))) k = f k) ∧
      ∀ k, k < 64 → mask.getLsbD k = false → vlane (packLanes (l.map fun i => (i, f i))) k = 0 := by
  refine ⟨fun k hk ha => ?_, fun k hk ha => ?_⟩
  · rw [vlane_packLanes _ _ hk, if_pos ((hm k hk).2 ha)]
  · rw [vlane_packLanes _ _ hk, if_neg]
    rw [hm k hk, ha]
    decide

theorem allFlags_eq_zero {fs : List (Nat × Flags)} (h : ∀ p ∈ fs, p.2 = 0) : allFlags fs = 0 :=
  List.foldlRecOn fs _ (motive := fun f : Flags => f = 0) rfl fun f hf p hp => by rw [hf, h p hp]; rfl

theorem allFlags_map_zero (l : List Nat) : allFlags (l.map fun k => (k, 0)) = 0 := by
  refine allFlags_eq_zero fun p hp => ?_
  obtain ⟨k, -, rfl⟩ := List.mem_map.1 hp
  rfl

theorem laneTrap_of_allFlags {fpctl : BitVec 13} {fs : List (Nat × Flags)} (h : allFlags fs = 0) :
    laneTrap fpctl fs = none := by
  have trap : trapCause fpctl (fs.foldl (fun acc x => acc ||| x.2) 0) = none := by
    rw [show fs.foldl (fun acc x => acc ||| x.2) 0 = (0 : Flags) from h]
    simp [trapCause]
  rw [laneTrap, trap]

theorem trapCause_ne (fpctl : BitVec 13) (f : Flags) : trapCause fpctl f ≠ some 0x39 := by
  unfold trapCause
  split_ifs <;> decide

/-- R41, R403: the trap of a lane is never the cause of an uncorrectable lane. -/
theorem laneTrap_cause {fpctl : BitVec 13} {fs : List (Nat × Flags)} {c : BitVec 8} {k : Nat}
    (h : laneTrap fpctl fs = some (c, k)) : c ≠ 0x39 := by
  rintro rfl
  unfold laneTrap at h
  dsimp only at h
  split at h
  · exact absurd h (by simp)
  · next trap =>
    obtain ⟨rfl, -⟩ := Prod.mk.inj (Option.some.inj h)
    exact trapCause_ne _ _ trap

/-! ### Words -/

/-- R41, R135: a vector word that is ready and has a condition that traps. -/
theorem vectorWord_traps {s : State} {h : Hdr} {o : FmtV} {beats lat : Nat} {srcs : List (BitVec 4)} {whole : Bool}
    {body : State → VOut} {after : State → State} {c : BitVec 8} {k : Nat} (hr : VectorReady s h)
    (hh : s.me.h = false) (hb : (body s).fault = none) (ht : laneTrap s.me.fpctl (body s).flags = some (c, k)) :
    vectorWord h o s beats lat srcs whole body after = .next (s.faulted c 0 (BitVec.ofNat 64 k)) := by
  obtain ⟨hg, hfree, -⟩ := hr
  rw [← State.precise_eq s _ _ _ hh]
  simp only [vectorWord, hg, if_true, Nat.not_lt.2 hfree, if_false, VOut.cause, hb, ht, laneTrap_cause ht]
  rfl

/-- R136: a vector word with one write and no condition. -/
theorem vectorWord_writes {s : State} {h : Hdr} {o : FmtV} {beats lat : Nat} {srcs : List (BitVec 4)} {whole : Bool}
    {body : State → VOut} {w : Write} (hr : VectorReady s h) (hl : lat ≠ 0) (hb : body s = ⟨[w], [], none⟩) :
    vectorWord h o s beats lat srcs whole body id = .next (s.vissued beats lat [w]) := by
  rw [vectorWord_issues hr hl hb (laneTrap_nil _), Write.withFlags_nil]
  rfl

/-- R125: a word whose result stands in the active lanes. -/
theorem pureLanes_of_vresult {i : Instr} {s : State} {o : FmtV} {lat : Nat} {l : List Nat} {f lane : Nat → BitVec 32}
    (hi : exec i s = .next (s.vissued (beatsOf o.fold) lat [vresult s.me o (l.map fun k => (k, f k))]))
    (hm : ∀ k, k < 64 → (k ∈ l ↔ (activeMask s.me o).getLsbD k = true)) (hf : ∀ k, k < 64 → f k = lane k) :
    PureLanes i s o lat lane := by
  obtain ⟨active, rest⟩ := vlane_packLanes_mask (f := f) hm
  exact ⟨_, hi, _, rfl, fun k hk ha => (active k hk ha).trans (hf k hk), rest⟩

section

variable {i : Instr} {s : State} {h : Hdr} {o : FmtV} {lat : Nat} {srcs : List (BitVec 4)} {whole : Bool}
  {body : State → VOut} (hr : VectorReady s h) (hl : lat ≠ 0)
  (hi : exec i s = vectorWord h o s (beatsOf o.fold) lat srcs whole body id)

include hr hl hi

/-- R41, R125, R136: a word computed lane by lane. -/
theorem lanesOutcome_of_vmap {lane : Nat → BitVec 32 × Flags} (hb : body s = vmap s.me o lane) :
    LanesOutcome i s o lat lane := by
  rw [vmap_eq] at hb
  have lanes := vlane_packLanes_mask (f := fun k => (lane k).1) fun k hk =>
    (mem_activeLanes (sl := s.me) (o := o)).trans (and_iff_right hk)
  refine ⟨fun ht => ⟨_, hi.trans (vectorWord_issues hr hl hb ht), _, rfl, lanes⟩, fun c k hh ht => ?_⟩
  exact hi.trans (vectorWord_traps hr hh (by rw [hb]) (by rw [hb]; exact ht))

/-- R125: a word computed lane by lane that meets no condition. -/
theorem pureLanes_of_vmapPure {f lane : Nat → BitVec 32} (hb : body s = vmapPure s.me o f)
    (hf : ∀ k, k < 64 → f k = lane k) : PureLanes i s o lat lane := by
  refine pureLanes_of_vresult (hi.trans (vectorWord_writes hr hl hb)) (fun k hk => ?_) hf
  rw [mem_activeLanes, and_iff_right hk]

/-- R125, R141: a word that gives the active lanes that meet a test. -/
theorem maskBits_of_vmask {lane bit : Nat → Bool} {fs : List (Nat × Flags)} (hlat : lat = beatsOf o.fold + 3)
    (hb : body s = vmask s.me o ((activeLanes s.me o).filter lane) fs) (hf : allFlags fs = 0)
    (hbit : ∀ k, k < 64 → lane k = bit k) : MaskBits i s o bit := by
  subst hlat
  have issues := hi.trans (vectorWord_issues hr hl hb (laneTrap_of_allFlags hf))
  rw [Write.withFlags, if_pos hf] at issues
  refine ⟨_, issues, _, rfl, fun k hk => ?_⟩
  rw [Bool.eq_iff_iff, getLsbD_lanesOf_iff hk, List.mem_filter, mem_activeLanes, hbit k hk, Bool.and_eq_true,
    and_iff_right hk]

end

/-- R136: where no lane meets a condition, the word's result is its lanes alone. -/
theorem LanesOutcome.pureLanes {i : Instr} {s : State} {o : FmtV} {lat : Nat} {lane : Nat → BitVec 32 × Flags}
    {f : Nat → BitVec 32} (hl : LanesOutcome i s o lat lane) (hf : ∀ k, lane k = (f k, 0)) :
    PureLanes i s o lat f := by
  obtain ⟨gives, -⟩ := hl
  have clean : allFlags ((activeLanes s.me o).map fun k => (k, (lane k).2)) = 0 := by
    simp only [hf, allFlags_map_zero]
  obtain ⟨t, ht, v, hv, active, rest⟩ := gives (laneTrap_of_allFlags clean)
  rw [if_pos clean] at hv
  exact ⟨t, ht, v, hv, fun k hk ha => by rw [active k hk ha, hf], rest⟩

end Sys2Proof.Machine
end

section
/-! SUPPORT. Vector moves, selects and bit rows (R140, R142, R147, R148). -/

namespace Sys2Proof.Machine

/-! ### Selection of pairs, and shifts -/

theorem sextNat_toNat (x : BitVec w) : sextNat w x.toNat = x.toInt := by
  rw [sextNat, Nat.mod_eq_of_lt x.isLt, BitVec.toInt_eq_toNat_cond]

/-- R125, R142: the mask of pairs has the even bit in both lanes of a pair. -/
theorem getLsbD_pairMask (m : Word) {k : Nat} (hk : k < 64) : (pairMask m).getLsbD k = m.getLsbD (k / 2 * 2) := by
  have even (j : Nat) (hj : j < 64) : (0x5555555555555555#64).getLsbD j = decide (j % 2 = 0) := by
    revert j
    decide
  rw [pairMask, BitVec.getLsbD_or, BitVec.getLsbD_and, BitVec.getLsbD_shiftLeft, BitVec.getLsbD_and, even k hk]
  rcases Nat.mod_two_eq_zero_or_one k with h | h
  · rw [show k / 2 * 2 = k by omega]
    by_cases h0 : k = 0
    · simp [h0]
    · rw [even (k - 1) (by omega)]
      simp [h, show (k - 1) % 2 ≠ 0 by omega]
  · rw [show k / 2 * 2 = k - 1 by omega, even (k - 1) (by omega)]
    simp [hk, h, show (k - 1) % 2 = 0 by omega, show k ≠ 0 by omega]

section

variable (a : BitVec 32) {n : Nat} (hn : n < 32)
include hn

theorem shiftLane_left : shiftLane 0 32 n a = a <<< n := by
  rw [shiftLane, if_neg (by omega), Nat.mod_eq_of_lt a.isLt]
  apply BitVec.eq_of_toNat_eq
  simp [Nat.shiftLeft_eq]

theorem shiftLane_right : shiftLane 1 32 n a = a >>> n := by
  rw [shiftLane, if_neg (by omega), Nat.mod_eq_of_lt a.isLt, ← Nat.shiftRight_eq_div_pow, ← BitVec.toNat_ushiftRight,
    BitVec.ofNat_toNat, BitVec.setWidth_eq]

theorem shiftLane_arithmetic : shiftLane 2 32 n a = a.sshiftRight n := by
  have signed : sextNat 32 (a.toNat % 2 ^ 32) = a.toInt := by
    rw [Nat.mod_eq_of_lt a.isLt, sextNat_toNat]
  rw [shiftLane, signed, show Nat.min n (32 - 1) = n from Nat.min_eq_left (by omega), BitVec.sshiftRight,
    Int.shiftRight_eq_div_pow, ← BitVec.toNat_ofInt, BitVec.ofNat_toNat, BitVec.setWidth_eq]

end

/-- Settles O32: each row is a vector word whose lanes meet no condition (`pureLanes_of_vmapPure`); a pair is selected
by the even bit of its mask (`getLsbD_pairMask`), and the shifts of 32-bit lanes are `shiftLane_left`,
`shiftLane_right` and `shiftLane_arithmetic`. -/
theorem vectorMovesAndBits : Obligations.VectorMovesAndBits := by
  intro s h o hr sl lat vl a b n ob pure
  have hl : lat ≠ 0 := Nat.succ_ne_zero _
  have amount (k : Nat) : bits (b k) 0 5 = (b k).toNat % 32 := bits_low (b k) 5
  have small (k : Nat) : (b k).toNat % 32 < 32 := Nat.mod_lt _ (by omega)
  refine ⟨?and, ?or, ?xor, fun hft hf => ?left, fun hft hf => ?right, fun hft hf => ?arithmetic, ?shift,
    fun hft => ?sel, fun hft => ?selPair, ?sgn, fun hf => ?move, fun hf => ?maskMove, fun hf => ?perm,
    fun hf => ?permXor, fun hf => ?place, fun hf => ?bcast, fun hf => ?iota, fun hf => ?count, fun hf => ?up,
    fun hf => ?down, ?unpack, fun hf => ?random⟩
  case and => exact pureLanes_of_vmapPure hr hl (by rfl) (by rfl) fun _ _ => by rfl
  case or => exact pureLanes_of_vmapPure hr hl (by rfl) (by rfl) fun _ _ => by rfl
  case xor => exact pureLanes_of_vmapPure hr hl (by rfl) (by rfl) fun _ _ => by rfl
  case left =>
    refine pureLanes_of_vmapPure hr hl (by rfl) (by rfl) fun k _ => ?_
    rw [← shiftLane_left _ (small k), ← amount k, hft, hf]
    rfl
  case right =>
    refine pureLanes_of_vmapPure hr hl (by rfl) (by rfl) fun k _ => ?_
    rw [← shiftLane_right _ (small k), ← amount k, hft, hf]
    rfl
  case arithmetic =>
    refine pureLanes_of_vmapPure hr hl (by rfl) (by rfl) fun k _ => ?_
    rw [← shiftLane_arithmetic _ (small k), ← amount k, hft, hf]
    rfl
  case shift => exact pureLanes_of_vmapPure hr hl (by rfl) (by rfl) fun _ _ => by rfl
  case sel =>
    refine pureLanes_of_vmapPure hr hl (by rfl) (by rfl) fun k _ => ?_
    rw [if_neg hft, apply_ite sl.vr, apply_ite (vlane · k)]
  case selPair =>
    refine pureLanes_of_vmapPure hr hl (by rfl) (by rfl) fun k hk => ?_
    rw [if_pos hft, getLsbD_pairMask _ hk, apply_ite sl.vr, apply_ite (vlane · k)]
  case sgn => exact pureLanes_of_vmapPure hr hl (by rfl) (by rfl) fun _ _ => by rfl
  case move => exact pureLanes_of_vmapPure hr hl (by rfl) (if_pos hf) fun _ _ => by rfl
  case maskMove =>
    refine pureLanes_of_vmapPure hr hl (by rfl) (by rw [hf]; rfl) fun k _ => ?_
    simp only [isFloatFt, decide_eq_true_eq]
    rfl
  case perm => exact pureLanes_of_vmapPure hr hl (by rfl) (by rfl) fun k _ => by rw [if_pos hf, bits_low]; rfl
  case permXor => exact pureLanes_of_vmapPure hr hl (by rfl) (by rfl) fun k _ => by rw [if_neg hf]; rfl
  case place => exact pureLanes_of_vmapPure hr hl (by rfl) (by rfl) fun k _ => by exact if_pos hf
  case bcast => exact pureLanes_of_vmapPure hr hl (by rfl) (by rfl) fun k _ => by exact if_neg hf
  case iota => exact pureLanes_of_vmapPure hr hl (by rfl) (by rfl) fun k _ => by rw [if_pos hf]
  case count => exact pureLanes_of_vmapPure hr hl (by rfl) (by rfl) fun k _ => by rw [if_neg hf]; rfl
  case up => exact pureLanes_of_vmapPure hr hl (by rfl) (by rfl) fun k _ => by exact if_pos hf
  case down => exact pureLanes_of_vmapPure hr hl (by rfl) (by rfl) fun k _ => by exact if_neg hf
  case unpack => exact pureLanes_of_vmapPure hr hl (by rfl) (by rfl) fun _ _ => by rfl
  case random => exact pureLanes_of_vmapPure hr hl (by rfl) (by rfl) fun k _ => by exact if_pos hf

end Sys2Proof.Machine
end

section
/-! SUPPORT. VINS, VEXT, VPACK and the float form of VRNG (R147, R148, R160). -/

namespace Sys2Proof.Machine

/-- R403: VEXT reads no uncorrectable lane where the slot has none. -/
theorem execVext_issues {s : State} {h : Hdr} {o : FmtV} {v : Word} (hr : VectorReady s h)
    (hv : (if o.fn = 1 then (vlane (s.me.vr o.va) (bits o.imm 0 6)).signExtend 64
      else (vlane (s.me.vr o.va) (bits o.imm 0 6)).setWidth 64) = v) :
    execVext h o s = .next (s.vissued (beatsOf o.fold) (beatsOf o.fold + 3) [.g o.rs v]) := by
  have ⟨_, _, hbad⟩ := hr
  subst hv
  unfold execVext
  refine vectorWord_writes hr (Nat.succ_ne_zero _) ?_
  rw [badLane_none hbad, Option.map_none]

/-- R125, R147: VINS writes the lanes it inserts, whatever the mask. -/
theorem execVins_issues {s : State} {h : Hdr} {o : FmtV} {ls : List Nat} {lanes : Word} (hr : VectorReady s h)
    (hls : (if o.ft = 11 then [2 * (bits o.imm 0 6 / 2), 2 * (bits o.imm 0 6 / 2) + 1] else [bits o.imm 0 6]) = ls)
    (hlanes : lanesOf ls = lanes) : execVins h o s = .next (s.vissued (beatsOf o.fold) (beatsOf o.fold + 3)
      [.v o.vd lanes (packLanes (ls.map fun i => (i, placeAt o.ft (s.me.gr o.rs) i)))]) := by
  subst hls hlanes
  unfold execVins
  exact vectorWord_writes hr (Nat.succ_ne_zero _) rfl

theorem lanesOf_singleton (k : Nat) : lanesOf [k] = 1#64 <<< k := BitVec.zero_or

theorem lanesOf_pair (k : Nat) : lanesOf [k, k + 1] = 3#64 <<< k := by
  rw [show 3#64 = 1#64 ||| 1#64 <<< 1 from rfl, BitVec.shiftLeft_or_distrib, ← BitVec.shiftLeft_add, Nat.add_comm 1,
    ← lanesOf_singleton k]
  rfl

theorem bits_six_lt (x : BitVec w) : bits x 0 6 < 64 := by
  rw [bits_low]
  exact Nat.mod_lt _ (by omega)

/-- Settles O33: VEXT and VINS are words with one write (`execVext_issues`, `execVins_issues`), and the lanes that VINS
inserts stand in its image (`vlane_packLanes`); VPACK and VRNG.f are words of lanes (`vectorWord_issues`,
`pureLanes_of_vmapPure`). -/
theorem insertExtractPackComplete : Obligations.InsertExtractPackComplete := by
  intro s h o hr sl k done lane pk vs w
  have hk : k < 64 := bits_six_lt o.imm
  have hl : beatsOf o.fold + 3 ≠ 0 := Nat.succ_ne_zero _
  refine ⟨fun hf => ?zero, fun hf => ?sign, fun hft => ?lane, fun hft => ?pair, fun ht => ?pack, fun hf => ?random⟩
  case zero => exact execVext_issues hr (if_neg hf)
  case sign => exact execVext_issues hr (if_pos hf)
  case lane =>
    refine ⟨_, execVins_issues hr (ls := [k]) (if_neg hft) (lanesOf_singleton k), _, ?_, rfl⟩
    rw [vlane_packLanes _ _ hk, if_pos (List.mem_singleton_self k), placeAt, if_neg hft]
  case pair =>
    have even : k / 2 * 2 % 2 = 0 := Nat.mul_mod_left _ _
    have lanes : (if o.ft = 11 then [2 * (k / 2), 2 * (k / 2) + 1] else [k]) = [k / 2 * 2, k / 2 * 2 + 1] := by
      rw [if_pos hft, Nat.mul_comm]
    refine ⟨_, execVins_issues hr lanes (lanesOf_pair _), _, ?_, ?_, rfl⟩
    · rw [vlane_packLanes _ _ (by omega), if_pos (by simp), placeAt, if_pos hft, if_pos even]
    · rw [vlane_packLanes _ _ (by omega), if_pos (by simp), placeAt, if_pos hft, if_neg (by omega)]
  case pack =>
    change execVpack h o s = _
    unfold execVpack
    exact vectorWord_issues hr hl rfl ht
  case random => exact pureLanes_of_vmapPure hr hl (by rfl) (by rfl) fun j _ => by exact if_neg hf

end Sys2Proof.Machine
end

section
/-! SUPPORT. Mask rows (R141, R149). -/

namespace Sys2Proof.Machine

/-- R141: VCMP gives the lanes that compare, and the conditions of the comparisons. -/
theorem execVcmp_eq (h : Hdr) (o : FmtV) (s : State) : execVcmp h o s = velem h o s [o.va, o.vb] fun sl =>
    let compare := compareLane o.ft (bits o.fn 0 4) (sl.vr o.va) (sl.vr o.vb)
    vmask sl o ((activeLanes sl o).filter fun k => (compare k).1)
      ((activeLanes sl o).map fun k => (k, (compare k).2)) := by
  simp only [execVcmp, List.filter_map, List.map_map, Function.comp_def, List.map_id']

/-- R149: the table of VMLOG is the low four bits of FN. -/
theorem lut4_bits (fn : BitVec w) (a b : Bool) : lut4 (bits fn 0 4) a b = fn.getLsbD (2 * a.toNat + b.toNat) := by
  rw [bits, lut4_eq_getLsbD, BitVec.getLsbD_extractLsb', Nat.zero_add]
  cases a <;> cases b <;> rfl

/-- R149: the set lanes are the active lanes whose bit of the mask is set. -/
theorem setLanes_eq (sl : Slot) (o : FmtV) : setLanes sl o = (List.range 64).filter fun k =>
    (activeMask sl o).getLsbD k && (sl.mr (o.va.setWidth 3)).getLsbD k := by
  simp only [setLanes, bitList, BitVec.getLsbD_and]

/-- Settles O34: VCMP, VMLOG and VMOV give the active lanes that meet a test (`maskBits_of_vmask`), VCMP with its
conditions (`execVcmp_eq`); VMPOP and VMFST count the set active lanes and find their first (`setLanes_eq`). -/
theorem maskRowsComplete : Obligations.MaskRowsComplete := by
  intro s h o hr sl m lit fs
  have hl : beatsOf o.fold + 3 ≠ 0 := Nat.succ_ne_zero _
  refine ⟨fun hf => ?compare, fun hf ht => ?flagged, fun hf => ?move, ?logic, ?count, ?first⟩
  case compare => exact maskBits_of_vmask hr hl (by exact execVcmp_eq h o s) rfl (by rfl) hf fun _ _ => rfl
  case flagged =>
    have issues := (execVcmp_eq h o s).trans (vectorWord_issues hr hl (by rfl) ht)
    rw [Write.withFlags, if_neg hf] at issues
    exact ⟨_, issues, _, rfl⟩
  case move => exact maskBits_of_vmask hr hl (by rfl) rfl (by rw [hf]; rfl) rfl fun _ _ => rfl
  case logic => exact maskBits_of_vmask hr hl (by rfl) rfl (by rfl) rfl fun k _ => lut4_bits _ _ _
  case count =>
    change execVmpop h o s = _
    unfold execVmpop
    exact vectorWord_writes hr hl (by simp only [setLanes_eq]; rfl)
  case first =>
    change execVmfst h o s = _
    unfold execVmfst
    exact vectorWord_writes hr hl (by simp only [setLanes_eq, List.headD_eq_head?_getD, List.head?_filter]; rfl)

end Sys2Proof.Machine
end

section
/-! SUPPORT. Vector arithmetic lane by lane, and the sums of 32-bit lanes (R138, R139, R143 to R146). -/

namespace Sys2Proof.Machine

/-! ### The arithmetic rows -/

section

variable {i : Instr} {s : State} {h : Hdr} {o : FmtV} (hr : VectorReady s h)
include hr

theorem varith_outcome {scalar : Bool} {srcs : List (BitVec 4)} {ff : Rm → FVal → FVal → FVal → FVal × Flags}
    {fi : Int → Int → Int → Int} (hi : exec i s = varith h o s scalar srcs ff fi) :
    LanesOutcome i s o (beatsOf o.fold + 3) fun k => arithLane o.ft (laneRnd s.me o k) ff fi (vlane (s.me.vr o.va) k)
      (operandB s.me o scalar k) (vlane (s.me.vr o.vc) k) :=
  lanesOutcome_of_vmap hr (Nat.succ_ne_zero _) (hi.trans (by rfl)) (by rfl)

theorem vminmax_outcome {isMax : Bool} (hi : exec i s = vminmax h o s isMax) :
    LanesOutcome i s o (beatsOf o.fold + 3) fun k => if o.ft = 11 then
        ((minMaxPair isMax (pairOf (s.me.vr o.va) (k / 2)) (pairOf (s.me.vr o.vb) (k / 2))).half k, 0)
      else minMaxLane isMax o.ft (o.fn.getLsbD 1) (vlane (s.me.vr o.va) k) (operandB s.me o (o.fn.getLsbD 0) k) :=
  lanesOutcome_of_vmap hr (Nat.succ_ne_zero _) (hi.trans (by rfl)) (by rfl)

end

/-! ### 32-bit lanes -/

theorem intLane_s32 (v : Int) : intLane 8 false v = (BitVec.ofInt 32 v, 0) := by
  have low : (Int.emod v (2 ^ 32 : Nat)).toNat = (BitVec.ofInt 32 v).toNat := (BitVec.toNat_ofInt v).symm
  change (BitVec.ofInt 32 (sextNat 32 (Int.emod v (2 ^ 32 : Nat)).toNat), (0 : Flags)) = _
  rw [low, sextNat_toNat, BitVec.ofInt_toInt]

theorem minMaxLane_min_s32 (prop : Bool) (a b : BitVec 32) :
    minMaxLane false 8 prop a b = (BitVec.ofInt 32 (min a.toInt b.toInt), 0) := by
  rw [min_def, apply_ite (BitVec.ofInt 32), BitVec.ofInt_toInt, BitVec.ofInt_toInt]
  by_cases h : a.toInt ≤ b.toInt <;> simp [minMaxLane, isFloatFt, laneInt, intUnsigned, h]

theorem minMaxLane_max_s32 (prop : Bool) (a b : BitVec 32) :
    minMaxLane true 8 prop a b = (BitVec.ofInt 32 (max a.toInt b.toInt), 0) := by
  rw [max_def, apply_ite (BitVec.ofInt 32), BitVec.ofInt_toInt, BitVec.ofInt_toInt]
  by_cases h : a.toInt ≤ b.toInt <;> simp [minMaxLane, isFloatFt, laneInt, intUnsigned, h]

theorem reduceStep_s32 (a b : BitVec 32) : reduceStep 0 8 a b = (a + b, 0) := rfl

theorem deliverLane_s32 (r : Rnd) (b : BitVec 32) : deliverLane 8 r b = (b, 0) :=
  (intLane_s32 b.toInt).trans (by rw [BitVec.ofInt_toInt])

section

variable {i : Instr} {s : State} {h : Hdr} {o : FmtV} (hr : VectorReady s h) (hft : o.ft = 8) (hfn : o.fn = 0)
include hr hft hfn

/-- R138: an operation on 32-bit integers wraps. -/
theorem varith_s32 {srcs : List (BitVec 4)} {ff : Rm → FVal → FVal → FVal → FVal × Flags}
    {fi : Int → Int → Int → Int} {g : BitVec 32 → BitVec 32 → BitVec 32}
    (hi : exec i s = varith h o s (o.fn.getLsbD 0) srcs ff fi)
    (hg : ∀ a b c : BitVec 32, BitVec.ofInt 32 (fi a.toInt b.toInt c.toInt) = g a b) :
    PureLanes i s o (beatsOf o.fold + 3) fun k => g (vlane (s.me.vr o.va) k) (vlane (s.me.vr o.vb) k) := by
  refine (varith_outcome hr hi).pureLanes fun k => ?_
  have wraps : (laneRnd s.me o k).sat = false := by rw [laneRnd, hfn]; rfl
  have vector : operandB s.me o (o.fn.getLsbD 0) k = vlane (s.me.vr o.vb) k := by rw [hfn]; rfl
  rw [vector, hft, ← hg _ _ (vlane (s.me.vr o.vc) k), ← intLane_s32, ← wraps]
  rfl

/-- R139: the minimum or maximum of 32-bit integers compares them as signed. -/
theorem vminmax_s32 {isMax : Bool} {g : BitVec 32 → BitVec 32 → BitVec 32} (hi : exec i s = vminmax h o s isMax)
    (hg : ∀ prop a b, minMaxLane isMax 8 prop a b = (g a b, 0)) :
    PureLanes i s o (beatsOf o.fold + 3) fun k => g (vlane (s.me.vr o.va) k) (vlane (s.me.vr o.vb) k) := by
  refine (vminmax_outcome hr hi).pureLanes fun k => ?_
  have vector : operandB s.me o (o.fn.getLsbD 0) k = vlane (s.me.vr o.vb) k := by rw [hfn]; rfl
  rw [vector, if_neg (by rw [hft]; decide), hft, hg]

end

/-! ### Sums of the active lanes -/

/-- R145, R146: the sum of the active lanes of VA below n, modulo 2^32. -/
def activeSum (sl : Slot) (o : FmtV) (n : Nat) : BitVec 32 :=
  ((List.range n).filter fun k => (activeMask sl o).getLsbD k).foldl (fun x k => x + vlane (sl.vr o.va) k) 0

theorem activeSum_succ (sl : Slot) (o : FmtV) (n : Nat) : activeSum sl o (n + 1) =
    activeSum sl o n + if (activeMask sl o).getLsbD n then vlane (sl.vr o.va) n else 0 := by
  rw [activeSum, List.range_succ, List.filter_append, List.foldl_append, List.filter_singleton]
  cases (activeMask sl o).getLsbD n with
  | true => rfl
  | false => exact (BitVec.add_zero _).symm

/-- R145: the lanes of VA below n, an inactive one as zero. -/
def activeLeaves (sl : Slot) (o : FmtV) (n : Nat) : List (BitVec 32) :=
  (List.range n).map fun k => if (activeMask sl o).getLsbD k then vlane (sl.vr o.va) k else 0

theorem activeLeaves_length (sl : Slot) (o : FmtV) (n : Nat) : (activeLeaves sl o n).length = n := by
  rw [activeLeaves, List.length_map, List.length_range]

theorem sum_activeLeaves (sl : Slot) (o : FmtV) (n : Nat) : (activeLeaves sl o n).sum = activeSum sl o n := by
  unfold activeLeaves
  induction n with
  | zero => rfl
  | succ n ih =>
    rw [List.range_succ, List.map_append, List.sum_append, ih, activeSum_succ, List.map_singleton, List.sum_singleton]

theorem lt_vlOf_of_active {sl : Slot} {o : FmtV} {k : Nat} (h : (activeMask sl o).getLsbD k = true) :
    k < vlOf o.fold := by
  rw [activeMask, BitVec.getLsbD_and, Bool.and_eq_true] at h
  obtain ⟨-, hk⟩ := h
  exact List.mem_range.1 (mem_of_getLsbD_lanesOf hk)

/-! ### The tree of VRED (R59) -/

section

variable (f : α → α → α × Flags)

/-- R59: a level halves the number of values. -/
theorem treeLevel_length (span : Nat) : ∀ (j : Nat) (l : List α), (treeLevel f span j l).1.length = (l.length + 1) / 2
  | _, [] => by simp [treeLevel]
  | _, [_] => by simp [treeLevel]
  | j, a :: b :: l => by
    have rest := treeLevel_length span (j + 1) l
    simp only [treeLevel, List.length_cons, rest]
    omega

theorem reduceTree_length (n span : Nat) (l : List α) (hl : l.length ≤ 2 ^ n) :
    (reduceTree f n span l).1.length ≤ 1 := by
  induction n generalizing span l with
  | zero => exact hl
  | succ n ih =>
    refine ih (2 * span) _ ?_
    rw [Nat.pow_succ] at hl
    rw [treeLevel_length]
    omega

end

/-- R145: values with a given sum modulo 2^32, reached without a condition. -/
def SumsTo (x : BitVec 32) (r : List (BitVec 32) × List (Nat × Flags)) : Prop := r.1.sum = x ∧ ∀ p ∈ r.2, p.2 = 0

theorem treeLevel_sumsTo (span : Nat) :
    ∀ (j : Nat) (l : List (BitVec 32)), SumsTo l.sum (treeLevel (reduceStep 0 8) span j l)
  | _, [] => ⟨rfl, fun _ hp => absurd hp List.not_mem_nil⟩
  | _, [_] => ⟨rfl, fun _ hp => absurd hp List.not_mem_nil⟩
  | j, a :: b :: l => by
    obtain ⟨sum, clean⟩ := treeLevel_sumsTo span (j + 1) l
    refine ⟨?_, fun p hp => ?_⟩
    · simp only [treeLevel, reduceStep_s32, List.sum_cons, sum, BitVec.add_assoc]
    · rcases List.mem_cons.1 hp with rfl | hp
      · rfl
      · exact clean p hp

theorem reduceTree_sumsTo (n span : Nat) (l : List (BitVec 32)) :
    SumsTo l.sum (reduceTree (reduceStep 0 8) n span l) := by
  induction n generalizing span l with
  | zero => exact ⟨rfl, fun _ hp => absurd hp List.not_mem_nil⟩
  | succ n ih =>
    obtain ⟨level, clean⟩ := treeLevel_sumsTo span 0 l
    obtain ⟨sum, rest⟩ := ih (2 * span) (treeLevel (reduceStep 0 8) span 0 l).1
    exact ⟨sum.trans level, fun p hp => (List.mem_append.1 hp).elim (clean p) (rest p)⟩

theorem headD_eq_sum {l : List (BitVec 32)} (h : l.length ≤ 1) : l.headD 0 = l.sum := by
  match l, h with
  | [], _ => rfl
  | [a], _ => exact List.sum_singleton.symm

/-- R145: VRED adds the active 32-bit lanes. -/
theorem reduceLanes_s32 (sl : Slot) {o : FmtV} (hft : o.ft = 8) :
    (reduceLanes sl o 0).1 = activeSum sl o (vlOf o.fold) ∧ allFlags (reduceLanes sl o 0).2 = 0 := by
  have vl : vlOf o.fold ≤ 2 ^ 6 := by
    have fold := o.fold.isLt
    exact Nat.mul_le_mul_left 8 (Nat.pow_le_pow_right (by omega) (show o.fold.toNat ≤ 3 by omega))
  obtain ⟨sum, clean⟩ := reduceTree_sumsTo 6 2 (activeLeaves sl o (vlOf o.fold))
  have one := headD_eq_sum (reduceTree_length (reduceStep 0 8) 6 2 (activeLeaves sl o (vlOf o.fold))
    (by rwa [activeLeaves_length]))
  rw [sum_activeLeaves] at sum
  simp only [reduceLanes, hft, deliverLane_s32]
  refine ⟨one.trans sum, allFlags_eq_zero fun p hp => ?_⟩
  rcases List.mem_append.1 hp with hp | hp
  · exact clean p hp
  · rw [List.mem_singleton.1 hp]

/-! ### The running sums of VSCAN -/

/-- R146: each active 32-bit lane gets the sum of the active lanes up to it, or, exclusive, before it. -/
theorem scanLanes_s32 (sl : Slot) {o : FmtV} (hft : o.ft = 8) (excl : Bool) (m n : Nat) :
    scanLanes sl o 0 excl (List.range' m n) (activeSum sl o m) =
      (((List.range' m n).filter fun k => (activeMask sl o).getLsbD k).map fun k =>
        (k, activeSum sl o (if excl then k else k + 1)), (List.range' m n).map fun k => (k, 0)) := by
  induction n generalizing m with
  | zero => rfl
  | succ n ih =>
    have next : activeSum sl o m + (if (activeMask sl o).getLsbD m then vlane (sl.vr o.va) m else identityLane 0 8) =
        activeSum sl o (m + 1) := (activeSum_succ sl o m).symm
    rw [List.range'_succ, scanLanes, hft]
    simp only [reduceStep_s32, next, deliverLane_s32, ih, ← apply_ite (activeSum sl o), List.filter_cons]
    split
    · rfl
    · rfl

/-- R146: VSCAN of 32-bit lanes. -/
theorem vscan_s32 {s : State} {h : Hdr} {o : FmtV} {f : Nat → BitVec 32} (hr : VectorReady s h) (hft : o.ft = 8)
    (hop : bits o.fn 0 4 = 0) (hf : ∀ k, activeSum s.me o (if o.fn.getLsbD 4 then k else k + 1) = f k) :
    PureLanes (.vscan h o) s o (beatsOf o.fold + 6) f := by
  have scan := scanLanes_s32 s.me hft (o.fn.getLsbD 4) 0 (vlOf o.fold)
  rw [← List.range_eq_range'] at scan
  have clean := allFlags_map_zero (List.range (vlOf o.fold))
  have issues := execVscan_issues hr (Eq.trans (by rw [hop, hft]; rfl) scan) (laneTrap_of_allFlags clean)
  rw [Write.withFlags, if_pos clean] at issues
  refine pureLanes_of_vresult issues (fun k _ => ?_) fun k _ => hf k
  rw [List.mem_filter, List.mem_range]
  exact ⟨And.right, fun ha => ⟨lt_vlOf_of_active ha, ha⟩⟩

/-- Settles O30: each row is computed lane by lane (`varith_outcome`, `vminmax_outcome`, `lanesOutcome_of_vmap`); on
32-bit integers the lanes wrap (`varith_s32`, `vminmax_s32`), the tree of VRED sums them (`reduceLanes_s32`) and VSCAN
gives their running sums (`scanLanes_s32`). -/
theorem vectorArithmeticLanes : Obligations.VectorArithmeticLanes := by
  refine ⟨fun s h o hr => ?_, fun s h o hr hft => ?_⟩
  · intro sl lat a c b r does np na mm
    have hl : lat ≠ 0 := Nat.succ_ne_zero _
    refine ⟨?add, ?sub, ?mul, ?fma, ?min, ?max, ?clamp, ?convert, ?special⟩
    case add => exact varith_outcome hr rfl
    case sub => exact varith_outcome hr rfl
    case mul => exact varith_outcome hr rfl
    case fma => exact varith_outcome hr rfl
    case min => exact vminmax_outcome hr rfl
    case max => exact vminmax_outcome hr rfl
    case clamp => exact lanesOutcome_of_vmap hr hl (by rfl) (by rfl)
    case convert => exact lanesOutcome_of_vmap hr hl (by rfl) (by rfl)
    case special => exact lanesOutcome_of_vmap hr (Nat.succ_ne_zero _) (by rfl) (by rfl)
  · intro sl a b lat act sum
    refine ⟨fun hf => ⟨?add, ?sub, ?mul, ?min, ?max⟩, fun hf => ?red, fun hf => ?scan, fun hf => ?exclusive⟩
    case add =>
      exact varith_s32 hr hft hf rfl fun a b _ => by rw [BitVec.ofInt_add, BitVec.ofInt_toInt, BitVec.ofInt_toInt]
    case sub =>
      exact varith_s32 hr hft hf rfl fun a b _ => by
        rw [Int.sub_eq_add_neg, BitVec.ofInt_add, BitVec.ofInt_neg, BitVec.ofInt_toInt, BitVec.ofInt_toInt,
          BitVec.sub_eq_add_neg]
    case mul =>
      exact varith_s32 hr hft hf rfl fun a b _ => by rw [BitVec.ofInt_mul, BitVec.ofInt_toInt, BitVec.ofInt_toInt]
    case min => exact vminmax_s32 hr hft hf rfl minMaxLane_min_s32
    case max => exact vminmax_s32 hr hft hf rfl minMaxLane_max_s32
    case red =>
      obtain ⟨total, clean⟩ := reduceLanes_s32 sl hft
      have issues := execVred_lanes hr (by rw [hft]; decide) (by rw [hf]; rfl) (laneTrap_of_allFlags clean)
      rw [Write.withFlags, if_pos clean, total] at issues
      have first : lanesOf [0] = 1 := rfl
      refine ⟨_, issues, _, vlane_packLanes [0] (fun _ => sum _) (by decide), ?_⟩
      rw [← first]
      rfl
    case scan => exact vscan_s32 hr hft (by rw [hf]; rfl) fun k => by rw [hf]; rfl
    case exclusive => exact vscan_s32 hr hft (by rw [hf]; rfl) fun k => by rw [hf]; rfl

end Sys2Proof.Machine
end

section
/-! SUPPORT. The cells of a lens: what a cell's A-cycle leaves of its lens, and each operation's registers and outputs
(R165, R168 to R172). -/

namespace Sys2Proof.Machine

theorem cellKey_inj {a b i j : Nat} (hb : b < 1536) (hj : j < 1536) (h : cellKey i j = cellKey a b) : i = a ∧ j = b := by
  unfold cellKey at h
  omega

@[simp] theorem Lens.cell_setCell (l : Lens) (a b : Nat) (c : Cell) : (l.setCell a b c).cell a b = c := by
  simp [Lens.cell, Lens.setCell]

theorem Lens.cell_setCell_ne (l : Lens) {a b i j : Nat} (c : Cell) (hb : b < 1536) (hj : j < 1536) (h : ¬(i = a ∧ j = b)) :
    (l.setCell a b c).cell i j = l.cell i j :=
  Tab.at_store_ne _ _ _ _ _ fun e => h (cellKey_inj hb hj e)

@[simp] theorem State.lens_setLens (s : State) (k : Nat) (l : Lens) : (s.setLens k l).lens k = l := by
  simp [State.lens]

@[simp] theorem State.lens_modLens (s : State) (k : Nat) (f : Lens → Lens) : (s.modLens k f).lens k = f (s.lens k) :=
  State.lens_setLens s k _

/-! ### The outputs of a cell (R169) -/

/-- R168, R169: what leaves east of a cell whose entry has the result r. -/
def Cell.east (old : Cell) (w : CtlWord) (win nin : Token) (r : BitVec 32) : Token :=
  match w.eosel with
  | 0 => win
  | 1 => (resultToken w false nin r).1
  | 2 => Token.idle
  | _ => ⟨false, 11, if old.pq then old.held.extractLsb' 32 32 else old.held.extractLsb' 0 32⟩

/-- R168, R169: what leaves south. -/
def Cell.south (old : Cell) (w : CtlWord) (nin : Token) (r : BitVec 32) : Token :=
  match w.sosel with
  | 0 => nin
  | 1 => (resultToken w false nin r).1
  | 2 => Token.idle
  | _ => (resultToken w true nin (old.acc w)).1

theorem cellTokens_outputs (w : CtlWord) (old : Cell) (win nin : Token) (r : BitVec 32) :
    (cellTokens w old win nin r).1 = old.east w win nin r ∧ (cellTokens w old win nin r).2.1 = old.south w nin r := by
  constructor
  · unfold Cell.east
    split <;> simp [cellTokens, *]
  · have last (h0 : w.sosel ≠ 0) (h1 : w.sosel ≠ 1) (h2 : w.sosel ≠ 2) : w.sosel = 3 := by
      have : w.sosel < 4 := (w.extractLsb' 25 2).isLt
      omega
    unfold Cell.south
    split
    case h_4 h0 h1 h2 => simp [cellTokens, last h0 h1 h2]
    all_goals simp [cellTokens, *]

/-! ### The A-cycle of a cell (R172) -/

theorem Cell.cycle_hold (c : Cell) {w : CtlWord} (is sn : Bool) (win nin : Token) (h : w.op = 0) :
    c.cycle w is sn win nin = (c.begin is sn, 0, false) := by
  simp [Cell.cycle, h]

theorem Cell.cycle_pass (c : Cell) {w : CtlWord} (is sn : Bool) (win nin : Token) (h : w.op = 1) :
    c.cycle w is sn win nin = ({ c.begin is sn with eOut := win, sOut := nin }, 0, false) := by
  simp [Cell.cycle, h]

theorem Cell.cycle_run (c : Cell) {w : CtlWord} (is sn : Bool) (win nin : Token) (h : 1 < w.op) :
    (c.cycle w is sn win nin).1 = { ((c.begin is sn).run w win nin).cell with
      eOut := (c.begin is sn).east w win nin ((c.begin is sn).run w win nin).res
      sOut := (c.begin is sn).south w nin ((c.begin is sn).run w win nin).res } := by
  obtain ⟨e, s⟩ := cellTokens_outputs w (c.begin is sn) win nin ((c.begin is sn).run w win nin).res
  rw [← e, ← s]
  unfold Cell.cycle
  split
  · omega
  · omega
  · rfl

theorem Cell.cycle_untrapped (c : Cell) {w : CtlWord} (is sn : Bool) (win nin : Token) (h : w.trapen = false) :
    (c.cycle w is sn win nin).2.2 = false := by
  unfold Cell.cycle
  split
  · rfl
  · rfl
  · simp [h]

/-! ### The step of a cell in its lens (R165) -/

/-- What the step of a cell leaves of everything else: the other cells and all that is outside the lens; it raises an
event only under TRAPEN, and clears no flag. -/
def OnlyCell (key a b : Nat) (w : CtlWord) (s t : State) : Prop :=
  t = s.setLens key (t.lens key) ∧ (w.trapen = false → (t.lens key).raised = (s.lens key).raised) ∧
    (∀ i j, j < 1536 → ¬(i = a ∧ j = b) → (t.lens key).cell i j = (s.lens key).cell i j) ∧
    (t.lens key).waves = (s.lens key).waves ∧ (s.lens key).flags ||| (t.lens key).flags = (t.lens key).flags

theorem Lens.checkParity_clean {l : Lens} (a b : Nat) (v : Wave) (w : CtlWord) (pq : Bool) (h : l.parity = []) :
    l.checkParity a b v w pq = l := by
  simp [Lens.checkParity, h]

section

variable {s : State} {key a b : Nat} {v : Wave} (hv : (s.lens key).waveAt a b = some v) (ha : a < (s.lens key).rows)
  (hb : b < (s.lens key).cols) (hr : (s.lens key).runs ((s.lens key).cellCore a b) = true)
  (hp : (s.lens key).parity = [])

include hv ha hb hr hp

theorem Lens.cellStep_eq {op : CellOp} (ho : ((s.lens key).entry a b v.ph.toNat).op = op.num) :
    let l := s.lens key
    let w := l.entry a b v.ph.toNat
    let x := (l.cell a b).cycle w v.is v.sn (l.input a b true) (l.input a b false)
    l.cellStep op a b = { (l.setCell a b x.1).flag x.2.1 with
      wires := l.wires ++ l.sendOn a b w v x.1
      raised := l.raised ++ if x.2.2 then [l.cellFault a b v 1] else [] } := by
  intro l w x
  unfold Lens.cellStep
  have runs : ¬(w.op ≠ op.num || decide (l.rows ≤ a) || decide (l.cols ≤ b) || !l.runs (l.cellCore a b)) = true := by
    simp [w, l, ho, hr, Nat.not_le.2 ha, Nat.not_le.2 hb]
  rw [hv]
  dsimp only
  rw [if_neg runs, Lens.checkParity_clean]
  · split <;> simp [x, w, l, Lens.raise, Lens.flag, Lens.setCell, *]
  · split <;> exact hp

/-- R165: the cell runs its entry, and nothing but the cell and the tokens on their way changes. -/
theorem cellEvent_gives {i : Instr} {op : CellOp} (hi : exec i s = cellEvent op key a b s) (hj : b < 1536)
    (ho : ((s.lens key).entry a b v.ph.toNat).op = op.num) :
    let l := s.lens key
    let w := l.entry a b v.ph.toNat
    Gives i s fun t => OnlyCell key a b w s t ∧ (t.lens key).cell a b =
      ((l.cell a b).cycle w v.is v.sn (l.input a b true) (l.input a b false)).1 := by
  intro l w
  have step := Lens.cellStep_eq hv ha hb hr hp ho
  refine ⟨_, hi, ?_⟩
  unfold OnlyCell
  dsimp only
  rw [State.lens_modLens, step]
  refine ⟨⟨?outside, fun quiet => ?raised, fun i j hj' other => ?cells, rfl, ?flags⟩, Lens.cell_setCell _ _ _ _⟩
  case outside => rw [State.modLens, step]
  case raised =>
    dsimp only
    rw [Cell.cycle_untrapped _ _ _ _ _ quiet]
    exact List.append_nil _
  case cells => exact Lens.cell_setCell_ne l _ hj hj' other
  case flags => exact (BitVec.or_assoc _ _ _).symm.trans (congrArg (· ||| _) BitVec.or_self)

/-- R168: an operation with registers and a result of its own. -/
theorem cellEvent_operates {i : Instr} {n : Nat} (hi : exec i s = cellEvent (cellOpOf n) key a b s)
    (hn : (cellOpOf n).num = n) (hj : b < 1536) (h1 : 1 < n) {new : Cell} {r : BitVec 32}
    (hrun : ((s.lens key).entry a b v.ph.toNat).op = n →
      let x := (((s.lens key).cell a b).begin v.is v.sn).run ((s.lens key).entry a b v.ph.toNat)
        ((s.lens key).input a b true) ((s.lens key).input a b false)
      x.cell = new ∧ x.res = r)
    (ho : ((s.lens key).entry a b v.ph.toNat).op = n) :
    let l := s.lens key
    let w := l.entry a b v.ph.toNat
    let old := (l.cell a b).begin v.is v.sn
    Gives i s fun t => OnlyCell key a b w s t ∧ (t.lens key).cell a b = { new with
      eOut := old.east w (l.input a b true) (l.input a b false) r
      sOut := old.south w (l.input a b false) r } := by
  intro l w old
  obtain ⟨rfl, rfl⟩ := hrun ho
  rw [← Cell.cycle_run _ _ _ _ _ (ho ▸ h1)]
  exact cellEvent_gives hv ha hb hr hp hi hj (ho.trans hn.symm)

end

/-- Settles O42: a cell event is one step of a cell in its lens (`cellEvent_gives`), and each operation's registers and
result are those of `Cell.run`. -/
theorem cellOperations : Obligations.CellOperations := by
  intro s key a b v l w old win nin hv ha hb hj hr hp fl A el sum pair prev both only half does toA
  have operates {i : Instr} {n : Nat} {new : Cell} {r : BitVec 32} (hi : exec i s = cellEvent (cellOpOf n) key a b s)
      (hn : (cellOpOf n).num = n) (h1 : 1 < n)
      (hrun : w.op = n → (old.run w win nin).cell = new ∧ (old.run w win nin).res = r) :
      does i n new r := cellEvent_operates hv ha hb hr hp hi hn hj h1 hrun
  refine ⟨fun h => ?hold, fun h => ?pass, ?acm, ?acmz, ?psm, ?wld, ?drn, fun hq => ?cmpx0, fun hq => ?cmpx1, ?rec, ?gen,
    ?add, ?maxp, fun hq => ?ldh0, fun hq => ?ldh1, ?snap, ?restore, ?zero⟩
  case hold =>
    obtain ⟨t, e, rest, cell⟩ := cellEvent_gives hv ha hb hr hp (i := .cellHold key a b) (op := .hold) rfl hj h
    exact ⟨t, e, rest, cell.trans (congrArg Prod.fst (Cell.cycle_hold _ _ _ _ _ h))⟩
  case pass =>
    obtain ⟨t, e, rest, cell⟩ := cellEvent_gives hv ha hb hr hp (i := .cellPass key a b) (op := .pass) rfl hj h
    exact ⟨t, e, rest, cell.trans (congrArg Prod.fst (Cell.cycle_pass _ _ _ _ _ h))⟩
  case maxp =>
    refine operates rfl rfl (by decide) fun h => ?_
    simp only [Cell.run, h, fl, Cell.toAcc]
    split
    · exact ⟨rfl, rfl⟩
    · exact ⟨rfl, rfl⟩
  case cmpx0 | ldh0 => exact operates rfl rfl (by decide) fun h => by simp [Cell.run, h, pair, Cell.pairCycle, hq]
  case ldh1 =>
    refine operates rfl rfl (by decide) fun h => ?_
    simp [Cell.run, h, pair, both, Cell.pairCycle, hq, bitsOfPair]
  case cmpx1 =>
    refine operates rfl rfl (by decide) fun h => ?_
    by_cases above : ranksAbove ⟨old.pk, pair⟩ ⟨old.held.extractLsb' 0 32, old.held.extractLsb' 32 32⟩
    · simp [Cell.run, h, Cell.pairCycle, hq, pairOfBits, bitsOfPair, both, pair, above]
    · simp [Cell.run, h, Cell.pairCycle, hq, pairOfBits, bitsOfPair, both, pair, above]
  all_goals exact operates rfl rfl (by decide) fun h => by unfold Cell.run; rw [h]; exact ⟨rfl, rfl⟩

end Sys2Proof.Machine
end

section
/-! SUPPORT. What works on cores alone: their lanes, address generators and nodes change, no slot and nothing outside the
cores does (R195 to R198, R208). -/

namespace Sys2Proof.Machine

/-- Only cores change, and no slot of theirs. -/
def OnlyCores (s t : State) : Prop := t = { s with cores := t.cores } ∧ ∀ c, (t.core c).slots = (s.core c).slots

section

variable {s t u : State}

theorem OnlyCores.refl : OnlyCores s s := ⟨rfl, fun _ => rfl⟩

theorem OnlyCores.trans (h : OnlyCores s t) (h' : OnlyCores t u) : OnlyCores s u :=
  ⟨by rw [h'.1, h.1], fun c => (h'.2 c).trans (h.2 c)⟩

theorem OnlyCores.modCore (c : Nat) {f : Core → Core} (hf : (f (s.core c)).slots = (s.core c).slots) :
    OnlyCores s (s.modCore c f) := by
  refine ⟨rfl, fun d => ?_⟩
  by_cases hd : d = c
  · rw [hd, State.core_modCore, hf]
  · rw [State.core_modCore_ne _ _ _ _ hd]

theorem OnlyCores.foldl {α : Type} {f : State → α → State} (hf : ∀ s a, OnlyCores s (f s a)) (l : List α) (s : State) :
    OnlyCores s (l.foldl f s) := by
  induction l generalizing s with
  | nil => exact .refl
  | cons a l ih => exact (hf s a).trans (ih _)

theorem OnlyCores.sameMemory (h : OnlyCores s t) : SameMemory s t := by
  rw [h.1]
  exact ⟨rfl, rfl⟩

theorem OnlyCores.slot (h : OnlyCores s t) (r : SlotRef) : t.slot r = s.slot r :=
  congrArg (fun l => Tab.at l r.slot Slot.reset) (h.2 r.core)

theorem OnlyCores.sameSlots (h : OnlyCores s t) : SameSlots s t := h.slot

theorem OnlyCores.lenses (h : OnlyCores s t) : t.lenses = s.lenses := by rw [h.1]

theorem OnlyCores.lens (h : OnlyCores s t) (k : Nat) : t.lens k = s.lens k := by rw [State.lens, h.lenses, State.lens]

theorem OnlyCores.agenda (h : OnlyCores s t) : t.agenda = s.agenda := by rw [h.1]

end

/-! ### Folds -/

theorem foldl_keeps {σ α : Type} {P : σ → Prop} {f : σ → α → σ} (keep : ∀ s a, P s → P (f s a)) (l : List α) {s : σ}
    (h : P s) : P (l.foldl f s) := by
  induction l generalizing s with
  | nil => exact h
  | cons a l ih => exact ih (keep s a h)

/-- Under an invariant, what one element brings about and the others keep holds after all of them. -/
theorem foldl_brings_under {σ α : Type} {I P : σ → Prop} {f : σ → α → σ} (inv : ∀ s a, I s → I (f s a))
    (keep : ∀ s a, P s → P (f s a)) {l : List α} {a : α} (ha : a ∈ l) (make : ∀ s, I s → P (f s a)) {s : σ} (h : I s) :
    P (l.foldl f s) := by
  induction l generalizing s with
  | nil => exact absurd ha List.not_mem_nil
  | cons b l ih =>
    rcases List.mem_cons.1 ha with rfl | ha
    · exact foldl_keeps keep l (make s h)
    · exact ih ha (inv s b h)

theorem foldl_brings {σ α : Type} {P : σ → Prop} {f : σ → α → σ} (keep : ∀ s a, P s → P (f s a)) {l : List α} {a : α}
    (ha : a ∈ l) (make : ∀ s, P (f s a)) (s : σ) : P (l.foldl f s) :=
  foldl_brings_under (I := fun _ => True) (fun _ _ _ => trivial) keep ha (fun s _ => make s) trivial

@[simp] theorem State.lens_modSlot (s : State) (r : SlotRef) (f : Slot → Slot) (k : Nat) :
    (s.modSlot r f).lens k = s.lens k := rfl

/-! ### Edge lanes -/

theorem Core.lane_modLane (x : Core) (i j e k : Nat) (f : Lane → Lane) :
    (x.modLane i j f).lane e k = if 64 * e + k = 64 * i + j then f (x.lane e k) else x.lane e k := by
  unfold Core.lane Core.modLane
  split
  · simp [Core.lane, *]
  · exact Tab.at_put_ne _ _ _ _ _ ‹_›

theorem State.lane_modCore (s : State) (d i j c e k : Nat) (f : Lane → Lane) :
    ((s.modCore d fun x => x.modLane i j f).core c).lane e k =
      if c = d ∧ 64 * e + k = 64 * i + j then f ((s.core c).lane e k) else (s.core c).lane e k := by
  by_cases hc : c = d
  · simp [hc, Core.lane_modLane]
  · simp [hc, State.core_modCore_ne]

@[simp] theorem State.lane_setSlot (s : State) (r : SlotRef) (sl : Slot) (c e k : Nat) :
    ((s.setSlot r sl).core c).lane e k = (s.core c).lane e k := by
  by_cases hc : c = r.core
  · rw [hc, State.core_setSlot]
    rfl
  · rw [State.setSlot, State.core_modCore_ne _ _ _ _ hc]

theorem OnlyCores.modLane (s : State) (c e k : Nat) (f : Lane → Lane) : OnlyCores s (s.modCore c fun x => x.modLane e k f) :=
  .modCore c rfl

/-- Lane `k` of edge `e` of core `c` is as FUSE leaves it: it holds no token, and its converter is reset. -/
def State.FreshLane (s : State) (c e k : Nat) : Prop :=
  ((s.core c).lane e k).fifo = [] ∧ ((s.core c).lane e k).conv = Conv.reset

theorem State.FreshLane.modLane {s : State} {c e k : Nat} (h : s.FreshLane c e k) (d i j : Nat) {f : Lane → Lane}
    (hf : ∀ a, a.fifo = [] ∧ a.conv = Conv.reset → (f a).fifo = [] ∧ (f a).conv = Conv.reset) :
    (s.modCore d fun x => x.modLane i j f).FreshLane c e k := by
  unfold State.FreshLane
  rw [State.lane_modCore]
  split
  · exact hf _ h
  · exact h

theorem State.resetLanes_onlyCores (s : State) (l : Lens) : OnlyCores s (s.resetLanes l) :=
  .foldl (fun _ _ => .foldl (fun s _ => .modLane s _ _ _ _) _ _) _ _

theorem State.attachIngress_onlyCores (s : State) (l : Lens) : OnlyCores s (s.attachIngress l) := by
  refine .foldl (fun s p => ?_) _ _
  dsimp only
  split
  · exact .foldl (fun _ _ => .foldl (fun s _ => .modLane s _ _ _ _) _ _) _ _
  · exact .refl

/-- R195, R215: every lane of a lens that is built is emptied and its converter reset. -/
theorem State.resetLanes_fresh (s : State) (l : Lens) {e i : Nat} (he : e < 4) (hi : i < l.lanesOn e) :
    (s.resetLanes l).FreshLane (l.laneAt e i).1 e (l.laneAt e i).2 := by
  have reset (s : State) (d j : Nat) (h : s.FreshLane (l.laneAt e i).1 e (l.laneAt e i).2) :
      (s.modEdgeLane l d j fun a => { Lane.reset with inFlight := a.inFlight }).FreshLane (l.laneAt e i).1 e (l.laneAt e i).2 :=
    h.modLane _ _ _ fun _ _ => ⟨rfl, rfl⟩
  unfold State.resetLanes
  refine foldl_brings (P := fun s => s.FreshLane (l.laneAt e i).1 e (l.laneAt e i).2) (a := e) ?keep ?edge
    (fun s => ?make) s
  case keep => exact fun s d h => foldl_keeps (reset · d ·) _ h
  case edge =>
    simp only [List.mem_cons, List.not_mem_nil]
    omega
  case make =>
    refine foldl_brings (P := fun s => s.FreshLane (l.laneAt e i).1 e (l.laneAt e i).2) (reset · e ·)
      (List.mem_range.2 hi) (fun s => ?_) s
    unfold State.FreshLane State.modEdgeLane
    rw [State.lane_modCore, if_pos ⟨rfl, rfl⟩]
    exact ⟨rfl, rfl⟩

theorem State.attachIngress_fresh {s : State} (l : Lens) {c e k : Nat} (h : s.FreshLane c e k) :
    (s.attachIngress l).FreshLane c e k := by
  unfold State.attachIngress
  refine foldl_keeps (P := fun s : State => s.FreshLane c e k) (fun s p h => ?_) _ h
  dsimp only
  split
  · refine foldl_keeps (P := fun s : State => s.FreshLane c e k) (fun s a h => ?_) _ h
    refine foldl_keeps (P := fun s : State => s.FreshLane c e k) (fun s k h => ?_) _ h
    obtain ⟨d, i, j⟩ := s.rangeLane l.task a k
    exact h.modLane d i j fun _ fresh => fresh
  · exact h

end Sys2Proof.Machine
end

section
/-! SUPPORT. FUSE and CTAB as they end (R174 to R177, R180, R215, R223, R309). -/

namespace Sys2Proof.Machine

/-- R175: the lens that FUSE builds where it meets nothing against it. -/
def State.fusedLens (s : State) (key : Nat) : Lens :=
  let l := { s.lens key with bypR := (s.bypassOf (s.lens key)).1, bypC := (s.bypassOf (s.lens key)).2 }
  let t := l.liveTable ((s.task l.task).kernel.cells.getD l.num [])
  { l with
    st := .idle, table := t, cells := [], unfusing := none, westCnt := l.countersOf 0, northCnt := l.countersOf 1
    restart := restartMask t, acyc := 0, mid := false, oldSkew := [], waves := [], wires := [], seq := Sequencer.reset
    open_ := [], ctabs := [], raised := [], kept := none, freezing := false, parity := [] }

theorem State.fuseResult_accepted {s : State} {key : Nat} {m : Lens} (h : s.fuseResult key = (m, 0)) :
    m = s.fusedLens key := by
  unfold State.fuseResult at h
  dsimp only at h
  (repeat' split at h) <;> simp_all [State.fusedLens]

theorem Tab.find_map_range' (f : Nat → β) {m n i : Nat} (h : m ≤ i) (h' : i < m + n) :
    Tab.find ((List.range' m n).map fun i => (i, f i)) i = some (f i) := by
  induction n generalizing m with
  | zero => omega
  | succ n ih =>
    rw [List.range'_succ, List.map_cons, Tab.find]
    split
    · simp [*]
    · exact ih (by omega) (by omega)

/-- R180: a computed counter is read back. -/
theorem Tab.at_map_range (f : Nat → β) (d : β) {n i : Nat} (h : i < n) :
    Tab.at ((List.range n).map fun i => (i, f i)) i d = f i := by
  rw [Tab.at, List.range_eq_range', Tab.find_map_range' f (Nat.zero_le i) (by omega), Option.getD_some]

theorem State.fusedLens_counter (s : State) (key : Nat) :
    let m := s.fusedLens key
    (∀ i, i < m.rows → m.counter 0 i = m.rowTime (m.physRow i) - i) ∧
      ∀ i, i < m.cols → m.counter 1 i = m.colTime (m.physCol i) - i :=
  ⟨fun _ h => Tab.at_map_range _ _ h, fun _ h => Tab.at_map_range _ _ h⟩

/-- The work that a lens's command leaves at its end: the next list of the lens, where one waits. -/
def State.goOn (s : State) (key : Nat) (queue : List LensJob) : State :=
  if queue.isEmpty then s else s.soon (.lensNodeStart key)

theorem State.goOn_agenda (s : State) (key : Nat) (queue : List LensJob) :
    (s.goOn key queue).agenda = s.agenda ++ if queue = [] then [] else [Due.ev (.lensNodeStart key)] := by
  unfold State.goOn
  cases queue <;> simp [State.soon]

theorem State.goOn_rest (s : State) (key : Nat) (queue : List LensJob) :
    s.goOn key queue = { s with agenda := (s.goOn key queue).agenda } := by
  unfold State.goOn
  split
  · rfl
  · rfl

section

variable (s : State) (key : Nat) (queue : List LensJob)

@[simp] theorem State.goOn_cores : (s.goOn key queue).cores = s.cores := by rw [State.goOn_rest]

@[simp] theorem State.goOn_mem : (s.goOn key queue).mem = s.mem := by rw [State.goOn_rest]

@[simp] theorem State.goOn_memErr : (s.goOn key queue).memErr = s.memErr := by rw [State.goOn_rest]

@[simp] theorem State.goOn_lenses : (s.goOn key queue).lenses = s.lenses := by rw [State.goOn_rest]

@[simp] theorem State.goOn_core (c : Nat) : (s.goOn key queue).core c = s.core c := by simp [State.core]

@[simp] theorem State.goOn_slot (r : SlotRef) : (s.goOn key queue).slot r = s.slot r := by simp [State.slot]

@[simp] theorem State.goOn_lens (k : Nat) : (s.goOn key queue).lens k = s.lens k := by simp [State.lens]

end

/-- R175, R215: the state with a lens built: its record, its emptied lanes, and the lanes that channels feed. -/
def State.built (s : State) (key : Nat) : State :=
  ((s.setLens key { s.fusedLens key with last := 0 }).resetLanes (s.fusedLens key)).attachIngress (s.fusedLens key)

theorem State.built_onlyCores (s : State) (key : Nat) :
    OnlyCores (s.setLens key { s.fusedLens key with last := 0 }) (s.built key) :=
  (State.resetLanes_onlyCores _ _).trans (State.attachIngress_onlyCores _ _)

theorem State.built_slot (s : State) (key : Nat) (r : SlotRef) : (s.built key).slot r = s.slot r :=
  (s.built_onlyCores key).slot r

theorem State.built_lens (s : State) (key : Nat) : (s.built key).lens key = { s.fusedLens key with last := 0 } := by
  rw [(s.built_onlyCores key).lens, State.lens_setLens]

theorem State.built_lens_ne (s : State) {key k : Nat} (h : k ≠ key) : (s.built key).lens k = s.lens k := by
  rw [(s.built_onlyCores key).lens]
  exact Tab.at_put_ne _ _ _ _ _ h

theorem State.built_fresh (s : State) (key : Nat) {e i : Nat} (he : e < 4) (hi : i < (s.fusedLens key).lanesOn e) :
    (s.built key).FreshLane ((s.fusedLens key).laneAt e i).1 e ((s.fusedLens key).laneAt e i).2 :=
  State.attachIngress_fresh _ (State.resetLanes_fresh _ _ he hi)

section

variable {s : State} {key : Nat} (hst : (s.lens key).st = .fusing) (hu : s.unfuseFirst (s.lens key) = false)

include hst hu

theorem execFuseComplete_refused (hc : (s.fuseResult key).2 ≠ 0) : exec (.fuseComplete key) s = .next
    (((s.setLens key { s.lens key with st := .failed, last := BitVec.ofNat 8 (s.fuseResult key).2 }).modSlot
      ⟨(s.lens key).origin, (s.lens key).fuser⟩ fun sl =>
        sl.told 0x80 (s.lens key).num (s.fuseResult key).2).goOn key (s.lens key).queue) := by
  show execFuseComplete key s = _
  simp [execFuseComplete, hst, hu, hc, Slot.finishL_eq, State.goOn]

theorem execFuseComplete_built (hc : (s.fuseResult key).2 = 0) : exec (.fuseComplete key) s = .next
    (((s.built key).modSlot ⟨(s.lens key).origin, (s.lens key).fuser⟩ fun sl =>
      sl.told 0x80 (s.lens key).num 0).goOn key (s.lens key).queue) := by
  show execFuseComplete key s = _
  have fused := State.fuseResult_accepted (m := (s.fuseResult key).1) (Prod.ext rfl hc)
  simp [execFuseComplete, hst, hu, hc, fused, Slot.finishL_eq, State.goOn, State.built]

end

theorem entryKey_inj {a b ph i j k : Nat} (hb : b < 1536) (hj : j < 1536) (hp : ph < 16) (hk : k < 16)
    (h : entryKey a b ph = entryKey i j k) : a = i ∧ b = j ∧ ph = k := by
  unfold entryKey cellKey at h
  omega

/-- R223: the lens in which a written entry has landed. -/
def Lens.landed (l : Lens) (j : CtabJob) : Lens :=
  { l with
    ctabs := l.ctabs.filter fun k => k.id != j.id
    parity := l.parity.filter fun p => p != (cellKey j.row j.col, .entry j.entry)
    table := Tab.put l.table (entryKey j.row j.col j.entry) j.word
    restart := if restartOp (CtlWord.op j.word) then l.restart ||| ((1 : BitVec 16) <<< j.entry) else l.restart }

theorem Lens.landed_entry (l : Lens) {j : CtabJob} (hc : j.col < 1536) (he : j.entry < 16) {a b ph : Nat} (hb : b < 1536)
    (hp : ph < 16) :
    (l.landed j).entry a b ph = if a = j.row ∧ b = j.col ∧ ph = j.entry then j.word else l.entry a b ph := by
  unfold Lens.entry Lens.landed
  by_cases same : a = j.row ∧ b = j.col ∧ ph = j.entry
  · obtain ⟨rfl, rfl, rfl⟩ := same
    simp
  · rw [if_neg same]
    exact Tab.at_put_ne _ _ _ _ _ fun key => same (entryKey_inj hb hc hp he key)

theorem Lens.landed_restart (l : Lens) (j : CtabJob) (k : Nat) (hk : k < 16) : (l.landed j).restart.getLsbD k =
    (l.restart.getLsbD k || (restartOp (CtlWord.op j.word) && k == j.entry)) := by
  unfold Lens.landed
  dsimp only
  by_cases op : restartOp (CtlWord.op j.word)
  · have bit : (1 : BitVec 16) <<< j.entry = BitVec.twoPow 16 j.entry := (BitVec.twoPow_eq 16 j.entry).symm
    rw [if_pos op, op, Bool.true_and, BitVec.getLsbD_or, bit, BitVec.getLsbD_twoPow]
    grind
  · simp [op]

theorem execCtabLand_landed {s : State} {key : Nat} {j : CtabJob}
    (hj : (s.lens key).ctabs.find? (fun i => i.id == j.id) = some j) : exec (.ctabLand key j.id) s = .next
      (if j.told then s.setLens key ((s.lens key).landed j) else
        (s.setLens key ((s.lens key).landed j)).modSlot ⟨j.core, j.slot⟩ fun sl => sl.told 0x8D (key % 64) 0) := by
  show execCtabLand key j.id s = _
  simp only [execCtabLand, hj, Slot.finishL_eq]
  rfl

/-- Settles O38: the end of FUSE is one of `execFuseComplete_refused` and `execFuseComplete_built`; what it builds is
`State.fusedLens`, and its lanes are emptied by `State.resetLanes_fresh`. -/
theorem fuseAndCtabEnd : Obligations.FuseAndCtabEnd := by
  refine ⟨fun s key => ?fuse, fun s key k st => ?unfuse, fun s key j => ?ctab⟩
  case fuse =>
    intro l m code goesOn
    refine ⟨fun h => ?idle, fun h hu => ?waits, fun h hu hc => ?refused, fun h hu hc => ?built, fun h => ?hole,
      fun h ht => ?taken⟩
    case idle =>
      show execFuseComplete key s = _
      exact congrArg Host.Outcome.next (if_pos h)
    case waits => exact congrArg Host.Outcome.next ((if_neg (not_not.2 h)).trans (if_pos hu))
    case refused =>
      refine ⟨_, execFuseComplete_refused h hu hc, State.goOn_agenda _ _ _, ?_⟩
      rw [State.goOn_rest]
      rfl
    case built =>
      have fused : m = s.fusedLens key := State.fuseResult_accepted (Prod.ext rfl hc)
      have complete := execFuseComplete_built h hu hc
      obtain ⟨rowCounters, colCounters⟩ := s.fusedLens_counter key
      clear_value m code
      subst fused
      refine ⟨_, complete, ?agenda, ?memory, ?lens, ?st, ?cells, ?waves, ?wires, ?bypass, ?rows,
        ?cols, ?lenses, ?lanes, ?slots, ?told⟩
      case agenda =>
        unfold goesOn
        rw [State.goOn_agenda, State.modSlot_agenda, (s.built_onlyCores key).agenda, State.setLens_agenda]
      case memory =>
        obtain ⟨mem, err⟩ := (s.built_onlyCores key).sameMemory
        constructor
        · rw [State.goOn_mem, State.modSlot_mem, mem, State.setLens_mem]
        · rw [State.goOn_memErr, State.modSlot_memErr, err, State.setLens_memErr]
      case lens => rw [State.goOn_lens, State.lens_modSlot, State.built_lens]
      case lenses =>
        intro k hk
        rw [State.goOn_lens, State.lens_modSlot, State.built_lens_ne _ hk]
      case lanes =>
        intro d k hd hk
        unfold State.edgeLane
        dsimp only
        rw [State.goOn_core, State.modSlot, State.lane_setSlot]
        exact s.built_fresh key hd hk
      case slots =>
        intro r hr
        rw [State.goOn_slot, State.modSlot, State.slot_setSlot_ne _ _ _ _ hr, State.built_slot]
      case told => rw [State.goOn_slot, State.slot_modSlot, State.built_slot]
      case rows => exact rowCounters
      case cols => exact colCounters
      all_goals rfl
    case hole => simp [code, l, State.fuseResult, h]
    case taken => simp [code, l, State.fuseResult, h, ht]
  case unfuse =>
    intro l hk
    simp only [State.unfuseEnd, show (s.lens key).unfusing = some (k, st) from hk, Slot.finishL_eq]
    exact ⟨fun hw => if_pos hw, fun hw => if_neg (by simp [l, hw])⟩
  case ctab =>
    intro l hj hcol hentry
    exact ⟨_, execCtabLand_landed hj, l.landed j, rfl, rfl, fun a b ph hb hp => l.landed_entry hcol hentry hb hp,
      l.landed_restart j⟩

end Sys2Proof.Machine
end

section
/-! SUPPORT. Panel links: training, frames, replay, retraining and the loss of a link (R379 to R382, R389). -/

namespace Sys2Proof.Machine

/-! ### Events that are put down for later -/

/-- Nothing changes but that events are to come; the outside's next delays are used up. -/
def OnlyTimers (s t : State) : Prop :=
  t = { s with coming := t.coming, extra := t.extra } ∧ ∀ e ∈ s.coming, e ∈ t.coming

section

variable {s t u : State}

theorem OnlyTimers.refl : OnlyTimers s s := ⟨rfl, fun _ h => h⟩

theorem OnlyTimers.trans (h : OnlyTimers s t) (h' : OnlyTimers t u) : OnlyTimers s u :=
  ⟨by rw [h'.1, h.1], fun e he => h'.2 e (h.2 e he)⟩

theorem Scheduled.onlyTimers {lo hi : Nat} {i : Instr} (h : Scheduled s t lo hi i) : OnlyTimers s t := ⟨h.1, h.2.1⟩

theorem OnlyTimers.foldl {α : Type} {f : State → α → State} (hf : ∀ s a, OnlyTimers s (f s a)) (l : List α) (s : State) :
    OnlyTimers s (l.foldl f s) := by
  induction l generalizing s with
  | nil => exact .refl
  | cons a l ih => exact (hf s a).trans (ih _)

theorem State.later_onlyTimers (s : State) (d : Nat) (i : Instr) : OnlyTimers s (s.later d i) :=
  (s.later_scheduled d i).onlyTimers

/-- What one element of a list puts down is among the events to come after all of them. -/
theorem OnlyTimers.foldl_mem {α : Type} {f : State → α → State} (hf : ∀ s a, OnlyTimers s (f s a)) {l : List α} {a : α}
    (ha : a ∈ l) {s : State} {P : Nat × Instr → Prop} (make : ∀ u, OnlyTimers s u → ∃ e ∈ (f u a).coming, P e) :
    ∃ e ∈ (l.foldl f s).coming, P e :=
  foldl_brings_under (I := OnlyTimers s) (P := fun u => ∃ e ∈ u.coming, P e) (fun u a h => h.trans (hf u a))
    (fun u a ⟨e, he, h⟩ => ⟨e, (hf u a).2 e he, h⟩) ha make .refl

end

/-! ### The state of a link -/

@[simp] theorem State.link_modLink (s : State) (p : Nat) (f : Link → Link) : (s.modLink p f).link p = f (s.link p) := by
  simp [State.link, State.modLink]

theorem State.link_modLink_ne (s : State) {p k : Nat} (f : Link → Link) (h : k ≠ p) : (s.modLink p f).link k = s.link k :=
  Tab.at_put_ne _ _ _ _ _ h

/-- Memory, the cores and the other links are the same. -/
def LinkFrame (p : Nat) (s t : State) : Prop := SameMemory s t ∧ t.cores = s.cores ∧ ∀ k, k ≠ p → t.link k = s.link k

section

variable {p : Nat} {s t u : State}

theorem LinkFrame.trans (h : LinkFrame p s t) (h' : LinkFrame p t u) : LinkFrame p s u :=
  ⟨h.1.trans h'.1, h'.2.1.trans h.2.1, fun k hk => (h'.2.2 k hk).trans (h.2.2 k hk)⟩

theorem LinkFrame.modLink (f : Link → Link) : LinkFrame p s (s.modLink p f) :=
  ⟨⟨rfl, rfl⟩, rfl, fun _ hk => s.link_modLink_ne f hk⟩

theorem LinkFrame.of_links (hm : SameMemory s t) (hc : t.cores = s.cores) (hl : t.links = s.links) : LinkFrame p s t :=
  ⟨hm, hc, fun k _ => by rw [State.link, hl, State.link]⟩

end

theorem onPort_eq {p : Nat} (hp : p < 4) (s : State) : onPort p s = .next s := if_pos hp

theorem linkWidth_iff (w : Nat) : linkWidth w = true ↔ w = 4 ∨ w = 8 ∨ w = 16 := by
  simp [linkWidth, or_assoc]

/-! ### Training (R379, R382) -/

/-- R382: the boot agents agree only once every link has trained or failed. -/
theorem State.remap_untrained {s : State} {k : Nat} (hk : k < 4) (h : (s.link k).st = .reset) : s.remap = s := by
  have open_ : s.trained = false := by
    simp only [State.trained, List.all_eq_false]
    exact ⟨k, by simp only [List.mem_cons, List.not_mem_nil]; omega, by simp [h]⟩
  simp [State.remap, open_]

/-- R379: a link trains while another has not: the panel set is not formed yet. -/
theorem execLinkTraining_early {s : State} {p k : Nat} (hp : p < 4) (w : Nat) (hw : s.fw.powered = true)
    (hst : (s.link p).st = .reset) (hk : k < 4) (hkp : k ≠ p) (hopen : (s.link k).st = .reset) :
    exec (.linkTraining p w) s = .next (s.modLink p fun l =>
      if linkWidth w then { l with st := .up, width := w } else { l with st := .down, width := 0 }) := by
  show execLinkTraining p w s = _
  rw [execLinkTraining, onPort_eq hp, if_pos hw, State.trainLink, if_neg (not_not.2 hst),
    State.remap_untrained hk ((congrArg Link.st (s.link_modLink_ne _ hkp)).trans hopen)]

/-! ### Packets sent again (R240, R381) -/

/-- R240, R354: a packet of this die is sent again, or given up where its destination is cut off. -/
def State.resendOne (s : State) (p : Packet) : State :=
  if p.dst = 769 ∨ 1024 ≤ p.src then s
  else if (if p.dst < 768 then s.cutOff p.src p.dst else s.dieCut (farDie p.dst)) then s.later 1 (.niGiveUp p.id)
  else s.later 1 (.packetRetransmit p.id)

theorem State.resendOne_onlyTimers (s : State) (p : Packet) : OnlyTimers s (s.resendOne p) := by
  unfold State.resendOne
  by_cases away : p.dst = 769 ∨ 1024 ≤ p.src
  · rw [if_pos away]
    exact .refl
  · rw [if_neg away, ← apply_ite (s.later 1)]
    exact s.later_onlyTimers _ _

theorem State.resendAll_onlyTimers (s : State) : OnlyTimers s s.resendAll := .foldl State.resendOne_onlyTimers _ _

theorem State.resendAll_keeps (s : State) : SameMemory s s.resendAll ∧ s.resendAll.cores = s.cores ∧
    s.resendAll.links = s.links ∧ s.resendAll.packets = s.packets ∧ s.resendAll.fe = s.fe := by
  obtain ⟨rest, -⟩ := s.resendAll_onlyTimers
  rw [rest]
  exact ⟨⟨rfl, rfl⟩, rfl, rfl, rfl, rfl⟩

theorem State.mem_later (s : State) (d : Nat) (i : Instr) : (s.now + d, i) ∈ (s.later d i).coming :=
  (mem_insertBy _ _ _ _).2 (.inl rfl)

theorem State.resendAll_resends {s : State} {k : Packet} (hk : k ∈ s.packets) (hs : k.src < 768) (hd : k.dst < 768)
    (hc : s.cutOff k.src k.dst = false) : (s.now + 1, Instr.packetRetransmit k.id) ∈ s.resendAll.coming := by
  have put (u : State) (hu : OnlyTimers s u) : ∃ e ∈ (u.resendOne k).coming, e = (s.now + 1, Instr.packetRetransmit k.id) := by
    have now : u.now = s.now := by rw [hu.1]
    have reached : u.cutOff k.src k.dst = false := by rw [hu.1]; exact hc
    rw [State.resendOne, if_neg (by omega), if_pos hd, reached, if_neg Bool.false_ne_true, ← now]
    exact ⟨_, u.mem_later 1 _, rfl⟩
  obtain ⟨_, he, rfl⟩ := OnlyTimers.foldl_mem State.resendOne_onlyTimers hk put
  exact he

/-! ### Retraining (R381) -/

theorem Link.send_kept (l : Link) (pkt : Nat) :
    l.send pkt = { l with txSeq := (l.send pkt).txSeq, replay := (l.send pkt).replay } := by
  simp only [Link.send]

/-- The frames that leave a link change what it has sent, and nothing else. -/
theorem State.sendWaiting_kept (s : State) (p : Nat) : LinkFrame p s (s.sendWaiting p) ∧
    (s.sendWaiting p).link p =
      { s.link p with txSeq := ((s.sendWaiting p).link p).txSeq, replay := ((s.sendWaiting p).link p).replay } := by
  unfold State.sendWaiting
  refine foldl_keeps (P := fun u => LinkFrame p s u ∧ u.link p =
    { s.link p with txSeq := (u.link p).txSeq, replay := (u.link p).replay }) (fun u k ⟨frame, link⟩ => ?_) _ ?_
  · refine ⟨frame.trans (.modLink _), ?_⟩
    rw [State.link_modLink, Link.send_kept, link]
  · exact ⟨.of_links ⟨rfl, rfl⟩ rfl rfl, rfl⟩

theorem State.sendWaiting_none {s : State} (p : Nat) (h : ∀ k ∈ s.packets, k.dst < 1024) : s.sendWaiting p = s := by
  have none : s.packets.filter (fun k => decide (1024 ≤ k.dst) && s.portTo (farDie k.dst) == some p &&
      !(s.link p).replay.any fun f => f.2 == k.id) = [] :=
    List.filter_eq_nil_iff.2 fun k hk => by simp [Nat.not_le.2 (h k hk)]
  rw [State.sendWaiting, none]
  rfl

theorem State.retrain_up {s : State} {p : Nat} (h : (s.link p).st = .up) : s.retrain p =
    s.modLink p fun l => { l with st := .retraining, retrains := l.retrains + 1, recent := 0, since := s.now } := by
  simp [State.retrain, State.modLink, h]

/-- R381: a replay from a number on; one that the buffer does not hold leaves the buffer. -/
theorem Link.resend_eq (l : Link) (seq : BitVec 12) : l.resend seq = { l with
    replay := if (∃ f ∈ l.replay, f.1 = seq) then l.replay.dropWhile fun f => f.1 != seq else l.replay
    replays := l.replays + 1
    recent := l.recent + 1 } := by
  simp only [Link.resend, List.any_eq_true, beq_iff_eq]

theorem execLinkReplay_up {s : State} {p : Nat} (hp : p < 4) (seq : BitVec 12) (h : (s.link p).st = .up) :
    exec (.linkReplay p seq) s = .next (if 15 ≤ (s.link p).recent
      then (s.modLink p fun l => l.resend seq).modLink p fun l =>
        { l with st := .retraining, retrains := l.retrains + 1, recent := 0, since := s.now }
      else s.modLink p fun l => l.resend seq) := by
  show execLinkReplay p seq s = _
  have up : ((s.modLink p fun l => l.resend seq).link p).st = .up := by rw [State.link_modLink]; exact h
  have count : 16 ≤ ((s.modLink p fun l => l.resend seq).link p).recent ↔ 15 ≤ (s.link p).recent := by
    rw [State.link_modLink]
    exact Nat.succ_le_succ_iff
  rw [execLinkReplay, onPort_eq hp, if_neg (not_not.2 h)]
  simp only [count, State.retrain_up up]
  rfl

theorem execLinkRetrainDone_trained {s : State} {p w : Nat} (hp : p < 4) (h : (s.link p).st = .retraining)
    (hw : linkWidth w = true) : exec (.linkRetrainDone p w) s = .next ((s.modLink p fun l =>
      { l with st := .up, width := w, changes := l.changes + (if l.width = w then 0 else 1) }).sendWaiting p) := by
  show execLinkRetrainDone p w s = _
  rw [execLinkRetrainDone, onPort_eq hp, State.retrainDone, if_neg (not_not.2 h), if_pos hw]

/-! ### The loss of a link (R381, R389) -/

theorem execLinkDown_up {s : State} {p : Nat} (hp : p < 4) (hw : s.fw.powered = true)
    (h : (s.link p).st = .up ∨ (s.link p).st = .retraining) : exec (.linkDown p) s = .next
      ((s.modLink p fun l => { l with st := .down, width := 0, changes := l.changes + 1 }).resendAll.deviceEvent) := by
  show execLinkDown p s = _
  rw [execLinkDown, onPort_eq hp, State.linkDown]
  rcases h with h | h
  · simp [hw, h]
  · simp [hw, h]

end Sys2Proof.Machine
end

section
/-! SUPPORT. Power, temperature, clocks, timing classes, scrub and the loupe (R189, R282, R400, R401, R403 to R405). -/

namespace Sys2Proof.Machine

/-! ### Power (R400, R401) -/

theorem Core.part_slot (x : Core) (k : Nat) : x.part.slot k = Slot.reset := rfl

theorem Tab.find_map (f : β → γ) (t : Tab β) (k : Nat) :
    Tab.find (t.map fun p => (p.1, f p.2)) k = (Tab.find t k).map f := by
  induction t with
  | nil => rfl
  | cons p r ih =>
    rw [List.map_cons, Tab.find, Tab.find, ih]
    split
    · rfl
    · rfl

/-- R400: a part whose rails are off has no slot bound. -/
theorem State.powerOff_slot (s : State) (q : SlotRef) : (s.powerOff.slot q) = Slot.reset := by
  show (Tab.at (s.cores.map fun p => (p.1, p.2.part)) q.core Core.reset).slot q.slot = Slot.reset
  rw [Tab.at, Tab.find_map]
  cases Tab.find s.cores q.core with
  | none => rfl
  | some x => exact x.part_slot q.slot

/-- R400: what the device's own memory held is lost. -/
theorem State.powerOff_byte (s : State) {a : Nat} (h : a < 2 ^ 60) : s.powerOff.byte a = emptyByte := by
  show memRead (s.mem.filter fun c => hostKey c.1) a = emptyByte
  induction s.mem with
  | nil => rfl
  | cons c r ih =>
    rw [List.filter_cons]
    split
    case isTrue host =>
      have : c.1 ≠ a := by
        rintro rfl
        simp only [hostKey, Bool.and_eq_true, decide_eq_true_eq] at host
        omega
      rw [memRead, if_neg this, ih]
    case isFalse => exact ih

theorem onCluster_eq {cl : Nat} (h : cl < 48) (s : State) : onCluster cl s = .next s := if_pos h

/-! ### Temperature (R401) -/

theorem maxOf_lt_iff (d n : Nat) (l : List Nat) : maxOf d l < n ↔ d < n ∧ ∀ a ∈ l, a < n := by
  induction l with
  | nil => simp [maxOf]
  | cons a l ih =>
    rw [maxOf, show Nat.max a (maxOf d l) < n ↔ a < n ∧ maxOf d l < n from max_lt_iff, ih]
    simp only [List.mem_cons, forall_eq_or_imp]
    tauto

theorem State.lensTemp_lt (s : State) (l : Lens) : s.lensTemp l < 95 ↔ ∀ c ∈ l.clusters, (s.cluster c).temp < 95 := by
  simp [State.lensTemp, maxOf_lt_iff]

/-- R401: a lens steps down where it is too hot and can. -/
theorem State.stepFor_down {s : State} {l : Lens} {hot : Bool} (h : hot = true ∨ ∃ c ∈ l.clusters, 95 ≤ (s.cluster c).temp)
    (hc : 2 < l.clock) : s.stepFor l hot = some false := by
  have tooHot : (decide (95 ≤ s.lensTemp l) || hot) = true := by
    rcases h with rfl | ⟨c, hl, ht⟩
    · exact Bool.or_true _
    · have : ¬s.lensTemp l < 95 := fun low => by
        have := (s.lensTemp_lt l).1 low c hl
        omega
      simp [Nat.not_lt.1 this]
  rw [State.stepFor, if_pos tooHot, if_pos hc]

/-- R401: a lens steps up where all its clusters have been cool long enough. -/
theorem State.stepFor_up {s : State} {l : Lens} (hc : l.clock < 4) (h : ∀ c ∈ l.clusters, (s.cluster c).temp < 95 ∧
    ∃ k, (s.cluster c).coolSince = some k ∧ k + 2000000 ≤ s.now) : s.stepFor l false = some true := by
  have low : s.lensTemp l < 95 := (s.lensTemp_lt l).2 fun c hl => (h c hl).1
  have cool : s.lensCool l = true := List.all_eq_true.2 fun c hl => by
    obtain ⟨-, k, since, long⟩ := h c hl
    simp [since, coolTime, long]
  simp [State.stepFor, Nat.not_le.2 low, cool, hc]

/-- R401, R404: the sample of a cluster is recorded. -/
def State.sampled (s : State) (cl t : Nat) : State :=
  (s.modCluster cl fun k =>
    { k with temp := t, coolSince := if t < 85 then some (k.coolSince.getD s.now) else none }).modLoupe fun p =>
      { p with temps := bump p.temps (cl * 16 + tempBin t) }

theorem State.sampled_records (s : State) (cl t : Nat) : (s.sampled cl t).cores = s.cores ∧ SameMemory s (s.sampled cl t) ∧
    (s.sampled cl t).lenses = s.lenses ∧ ((s.sampled cl t).cluster cl).temp = t ∧
    (((s.sampled cl t).cluster cl).coolSince = none ↔ 85 ≤ t) ∧
    Tab.at (s.sampled cl t).fw.loupe.temps (cl * 16 + Nat.min 15 ((t - 40) / 5)) 0 =
      Tab.at s.fw.loupe.temps (cl * 16 + Nat.min 15 ((t - 40) / 5)) 0 + 1 := by
  have sample : (s.sampled cl t).cluster cl = { s.cluster cl with
      temp := t, coolSince := if t < 85 then some ((s.cluster cl).coolSince.getD s.now) else none } := Tab.at_put _ _ _ _
  refine ⟨rfl, ⟨rfl, rfl⟩, rfl, by rw [sample], ?_, Tab.at_put _ _ _ _⟩
  rw [sample]
  simp

/-- R401: the step that firmware decides for a lens is put down. -/
def State.stepLens (hot : Bool) (s : State) (p : Nat × Lens) : State :=
  match s.stepFor p.2 hot with
  | some up => s.laterWithin 1 4000 (.thermalStep p.1 up)
  | none => s

theorem State.sample_eq (s : State) (cl t : Nat) (hot : Bool) : s.sample cl t hot = if 110 ≤ t then (s.sampled cl t).trip
    else (s.lenses.filter fun p => p.2.fused && maxOf 0 p.2.clusters == cl).foldl (State.stepLens hot) (s.sampled cl t) := rfl

theorem State.stepLens_onlyTimers (hot : Bool) (s : State) (p : Nat × Lens) : OnlyTimers s (s.stepLens hot p) := by
  unfold State.stepLens
  split
  · exact (s.laterWithin_scheduled 1 4000 _ (by omega)).onlyTimers
  · exact .refl

section

variable {s : State} {cl t : Nat} (hcl : cl < 48) (hw : s.fw.powered = true) (hb : s.fw.booted = true) (hot : Bool)

include hcl hw hb

theorem execTemperatureSample_eq : exec (.temperatureSample cl t hot) s = .next (s.sample cl t hot) := by
  show execTemperatureSample cl t hot s = _
  rw [execTemperatureSample, onCluster_eq hcl, hw, hb, Bool.true_and, if_pos rfl]

theorem temperatureSample_trips (ht : 110 ≤ t) : exec (.temperatureSample cl t hot) s = .next (s.sampled cl t).trip := by
  rw [execTemperatureSample_eq hcl hw hb, State.sample_eq, if_pos ht]

/-- R401: below 110 °C a sample is recorded, and steps may be put down. -/
theorem temperatureSample_records (ht : t < 110) :
    Gives (.temperatureSample cl t hot) s fun u => OnlyTimers (s.sampled cl t) u :=
  ⟨_, by rw [execTemperatureSample_eq hcl hw hb, State.sample_eq, if_neg (Nat.not_le.2 ht)],
    .foldl (State.stepLens_onlyTimers hot) _ _⟩

/-- R401: the step of a lens is put down at the sample of the last of its clusters. -/
theorem temperatureSample_steps (ht : t < 110) {key : Nat} {l : Lens} {up : Bool} (hl : (key, l) ∈ s.lenses)
    (hf : l.fused = true) (hm : maxOf 0 l.clusters = cl) (hs : (s.sampled cl t).stepFor l hot = some up) :
    Gives (.temperatureSample cl t hot) s fun u =>
      ∃ d, 1 ≤ d ∧ d ≤ 4000 ∧ (s.now + d, Instr.thermalStep key up) ∈ u.coming := by
  refine ⟨_, by rw [execTemperatureSample_eq hcl hw hb, State.sample_eq, if_neg (Nat.not_le.2 ht)], ?_⟩
  have among : (key, l) ∈ s.lenses.filter fun p => p.2.fused && maxOf 0 p.2.clusters == cl :=
    List.mem_filter.2 ⟨hl, by simp [hf, hm]⟩
  have puts (u : State) (hu : OnlyTimers (s.sampled cl t) u) : ∃ e ∈ (State.stepLens hot u (key, l)).coming,
      ∃ d, 1 ≤ d ∧ d ≤ 4000 ∧ e = (s.now + d, Instr.thermalStep key up) := by
    have step : u.stepFor l hot = some up := by rw [hu.1]; exact hs
    have now : u.now = s.now := by rw [hu.1]; rfl
    obtain ⟨-, -, d, lo, hi, put⟩ := u.laterWithin_scheduled 1 4000 (.thermalStep key up) (by omega)
    rw [State.stepLens]
    dsimp only
    rw [step]
    exact ⟨_, put, d, lo, hi, by rw [now]⟩
  obtain ⟨_, he, d, lo, hi, rfl⟩ := OnlyTimers.foldl_mem (State.stepLens_onlyTimers hot) among puts
  exact ⟨d, lo, hi, he⟩

end

/-- Settles O57, an event at a time: the equation of each event above, then the field it writes. -/
theorem linksAndServiceComplete : Obligations.LinksAndServiceComplete := by
  refine ⟨fun s p w hp => ?links, fun s r => ?power, fun s cl temp hot hcl hw hb => ?temperature, fun s key => ?clocks,
    fun s cl cls hcl hw hb => ?classes, fun s bank block hbank hblock hw => ?scrub, fun s r hc hk hw hb => ?loupe⟩
  case links =>
    intro l others fits
    refine ⟨fun hw hst ⟨k, hk, hkp, hopen⟩ => ?training, fun hst => ?trained, fun seq ok n hst => ?frames,
      fun hst hr => ?retrain, fun hr => ?few, fun hst => ?retrained, fun hst => ?upAlready, fun hw hst => ?lost⟩
    case training =>
      have trains := execLinkTraining_early hp w hw hst hk hkp hopen
      refine ⟨fun hfit => ⟨_, trains, LinkFrame.modLink _, ?_⟩, fun hfit => ⟨_, trains, LinkFrame.modLink _, ?_⟩⟩
      · rw [State.link_modLink, if_pos ((linkWidth_iff w).2 hfit)]
      · rw [State.link_modLink, if_neg fun h => hfit ((linkWidth_iff w).1 h)]
    case trained =>
      show execLinkTraining p w s = _
      rw [execLinkTraining, onPort_eq hp, State.trainLink, if_pos hst, ite_self]
    case frames =>
      have receive (t : State) (h : (s.modLink p fun l => l.receive seq ok n) = t) :
          exec (.linkFrameReceive p seq ok n) s = .next t := by
        rw [← h]
        exact onPort_eq hp _
      have replays := execLinkReplay_up hp seq hst
      refine ⟨fun hok => receive _ ?bad, fun hok hseq => receive _ ?inOrder, fun hok hseq => ?other, fun hr => ?again,
        fun hr => ?often⟩
      case bad => simp [State.modLink, Link.receive, show (s.link p).st = .up from hst, hok]
      case inOrder => simp [State.modLink, Link.receive, show (s.link p).st = .up from hst, hok, hseq, l]
      case other =>
        refine ⟨_, receive _ rfl, LinkFrame.modLink _, ?_⟩
        rw [State.link_modLink]
        simp [Link.receive, show (s.link p).st = .up from hst, hok, show seq ≠ (s.link p).rxSeq from hseq, l]
      case again =>
        rw [if_neg (Nat.not_le.2 hr)] at replays
        refine ⟨_, replays, LinkFrame.modLink _, ?_⟩
        rw [State.link_modLink, Link.resend_eq]
      case often =>
        rw [if_pos hr] at replays
        refine ⟨_, replays, (LinkFrame.modLink _).trans (.modLink _), ?_⟩
        rw [State.link_modLink, State.link_modLink]
        exact ⟨rfl, rfl, rfl⟩
    case retrain =>
      show execLinkRetrain p s = _
      rw [execLinkRetrain, onPort_eq hp, if_pos hr, State.retrain_up hst]
    case few =>
      show execLinkRetrain p s = _
      rw [execLinkRetrain, onPort_eq hp, if_neg (Nat.not_le.2 hr)]
    case retrained =>
      refine ⟨fun hfit => ?fits, fun hfit hw => ?fails⟩
      case fits =>
        obtain ⟨frame, link⟩ := State.sendWaiting_kept (s.modLink p fun l =>
          { l with st := .up, width := w, changes := l.changes + (if l.width = w then 0 else 1) }) p
        refine ⟨_, execLinkRetrainDone_trained hp hst ((linkWidth_iff w).2 hfit), (LinkFrame.modLink _).trans frame, ?_⟩
        rw [State.link_modLink] at link
        refine ⟨?_, ?_, ?_, ?_, fun near => ?_⟩
        · rw [link]
        · rw [link]
        · rw [link]
        · rw [link]
        · rw [State.sendWaiting_none (s := s.modLink p _) p near, State.link_modLink]
      case fails =>
        show execLinkRetrainDone p w s = execLinkDown p s
        have : ¬linkWidth w = true := fun h => hfit ((linkWidth_iff w).1 h)
        rw [execLinkRetrainDone, execLinkDown, State.retrainDone, if_neg (not_not.2 hst), if_neg this]
        simp [hw, show (s.link p).st = .retraining from hst]
    case upAlready =>
      show execLinkRetrainDone p w s = _
      rw [execLinkRetrainDone, onPort_eq hp, State.retrainDone, if_pos hst]
    case lost =>
      obtain ⟨mem, cores, links, packets, fe⟩ := (s.modLink p fun l =>
        { l with st := .down, width := 0, changes := l.changes + 1 }).resendAll_keeps
      refine ⟨_, execLinkDown_up hp hw hst, LinkFrame.trans (LinkFrame.modLink _) (.of_links mem cores links), ?_, ?_,
        packets, fun k hk hs hd hc => State.resendAll_resends hk hs hd hc⟩
      · exact congrArg (fun e : FrontEnd => { e with msix := e.msix ++ [0] }) fe
      · show State.link (State.resendAll _) p = _
        rw [State.link, links]
        exact s.link_modLink p _
  case power =>
    refine ⟨fun hr h4 => ?rail, fun h3 => ?last, fun hr => ?outOfOrder, fun h0 => ?off, fun h0 => ?fails,
      fun cl hcl hw => ?trips⟩
    case rail =>
      show execPowerRailGood r s = _
      rw [execPowerRailGood, if_pos ⟨hr, by omega⟩, if_neg (by omega)]
      have : (r == 4) = false := by simp; omega
      simp [State.modFw, this]
    case last =>
      show execPowerRailGood 4 s = _
      rw [execPowerRailGood, if_pos ⟨by omega, by omega⟩, if_pos rfl]
      rfl
    case outOfOrder =>
      show execPowerRailGood r s = _
      rw [execPowerRailGood, if_neg (by omega)]
    case off => exact congrArg Host.Outcome.next (if_pos h0)
    case fails =>
      refine ⟨_, congrArg Host.Outcome.next (if_neg h0), rfl, rfl, rfl, rfl, rfl, rfl, fun a ha => s.powerOff_byte ha,
        fun q => ?_⟩
      rw [State.powerOff_slot]
      rfl
    case trips =>
      refine ⟨_, (onCluster_eq hcl _).trans (congrArg Host.Outcome.next (if_pos hw)), rfl, rfl, rfl, fun q => ?_⟩
      show (s.powerOff.slot q).life = _
      rw [State.powerOff_slot]
      rfl
  case temperature =>
    refine ⟨fun ht => ⟨_, temperatureSample_trips hcl hw hb hot ht, rfl, rfl⟩, fun ht => ?records,
      fun key l ht hl hf hm => ?steps⟩
    case records =>
      obtain ⟨t, sampled, rest⟩ := temperatureSample_records hcl hw hb hot ht
      refine ⟨t, sampled, ?_⟩
      exact rest.1 ▸ s.sampled_records cl temp
    case steps =>
      intro u steps
      refine ⟨fun hhot hc => ?down, fun hhot hc cool => ?up⟩
      case down => exact temperatureSample_steps hcl hw hb hot ht hl hf hm (State.stepFor_down hhot hc)
      case up =>
        subst hhot
        exact temperatureSample_steps hcl hw hb false ht hl hf hm (State.stepFor_up hc cool)
  case clocks =>
    intro l
    refine ⟨fun hf up => ?idle, fun hf => ?even, fun hf => ⟨?up, ?down, ?stretch⟩⟩
    case idle => exact congrArg Host.Outcome.next (if_neg fun h => Bool.false_ne_true (hf.symm.trans h))
    case even => exact congrArg Host.Outcome.next (if_neg fun h => Bool.false_ne_true (hf.symm.trans h))
    case up => exact congrArg Host.Outcome.next (if_pos hf)
    case down => exact congrArg Host.Outcome.next (if_pos hf)
    case stretch =>
      exact ⟨_, congrArg Host.Outcome.next (if_pos hf), rfl, ⟨rfl, rfl⟩, s.lens_setLens key _⟩
  case classes =>
    intro k
    have runs : exec (.vtclassChange cl cls) s = .next (if (s.cluster cl).cls != cls then
        (s.modCluster cl fun k => { k with cls := cls, chg := k.chg + 1 }).modLoupe fun p =>
          { p with vtChanges := bump p.vtChanges cl }
        else s) := by
      show execVtclassChange cl cls s = _
      rw [execVtclassChange, onCluster_eq hcl, hw, hb, Bool.true_and, Bool.true_and]
    refine ⟨fun same => ?_, fun new => ⟨_, runs.trans (congrArg Host.Outcome.next (if_pos (bne_iff_ne.2 new))), rfl, ⟨rfl, rfl⟩,
      Tab.at_put _ _ _ _, Tab.at_put _ _ _ _⟩⟩
    rw [runs, if_neg fun h => bne_iff_ne.1 h same]
  case scrub =>
    intro bad
    have runs : exec (.patrolScrub bank block) s = .next (if bad = true then
        (s.countError (unitBank bank)).modFw fun f => { f with service := f.service ++ [.scrubbed bank block] } else s) := by
      show execPatrolScrub bank block s = _
      rw [execPatrolScrub, if_neg (by omega), hw, Bool.true_and]
    refine ⟨fun clean => ?_, fun dirty => ⟨_, runs.trans (congrArg Host.Outcome.next (if_pos dirty)), rfl, ⟨rfl, rfl⟩, rfl⟩⟩
    rw [runs, clean, if_neg Bool.false_ne_true]
  case loupe =>
    have onIt (t : State) : onSlot r.core r.slot t = .next t := if_pos ⟨hc, hk⟩
    have up : (s.fw.powered && s.fw.booted) = true := by rw [hw, hb]; rfl
    refine ⟨congrArg Host.Outcome.next (if_pos up), fun hd => ?_, fun hd => ?_, fun hcl => ?_, fun hcl => ?_⟩
    · exact (onIt _).trans (congrArg Host.Outcome.next ((if_neg (by simp [up])).trans (if_pos hd)))
    · exact (onIt _).trans (congrArg Host.Outcome.next ((if_neg (by simp [up])).trans (if_neg (by simp [hd]))))
    · exact (onIt _).trans (congrArg Host.Outcome.next (if_pos hcl))
    · exact (onIt _).trans (congrArg Host.Outcome.next (if_neg fun h => Bool.false_ne_true (hcl.symm.trans h)))

end Sys2Proof.Machine
end

section
/-! SUPPORT. The sequencer of a lens: what entering a row, starting it and injecting a wave token change (R181 to R188). -/

namespace Sys2Proof.Machine

/-- The bytes of memory, their errors and the slots are the same. -/
def Steady (s t : State) : Prop := SameMemory s t ∧ SameSlots s t

section

variable {s t u : State}

theorem Steady.trans (h : Steady s t) (h' : Steady t u) : Steady s u :=
  ⟨⟨h'.1.1.trans h.1.1, h'.1.2.trans h.1.2⟩, h.2.trans h'.2⟩

theorem Steady.of_cores (hm : t.mem = s.mem) (he : t.memErr = s.memErr) (hc : t.cores = s.cores) : Steady s t :=
  ⟨⟨hm, he⟩, State.sameSlots_of_cores hc⟩

theorem Steady.refl : Steady s s := .of_cores rfl rfl rfl

theorem OnlyCores.steady (h : OnlyCores s t) : Steady s t := ⟨h.sameMemory, h.sameSlots⟩

theorem Steady.setLens (h : Steady s t) (key : Nat) (l : Lens) : Steady s (t.setLens key l) := h.trans (.of_cores rfl rfl rfl)

theorem Steady.modLens (h : Steady s t) (key : Nat) (f : Lens → Lens) : Steady s (t.modLens key f) :=
  h.trans (.of_cores rfl rfl rfl)

theorem Steady.next1 (h : Steady s t) (i : Instr) : Steady s (t.next1 i) := h.trans (.of_cores rfl rfl rfl)

theorem Steady.soon (h : Steady s t) (i : Instr) : Steady s (t.soon i) := h.trans (.of_cores rfl rfl rfl)

theorem Steady.modCore (h : Steady s t) (c : Nat) {f : Core → Core} (hf : ∀ x, (f x).slots = x.slots) :
    Steady s (t.modCore c f) :=
  h.trans ⟨⟨rfl, rfl⟩, t.modCore_sameSlots c hf⟩

theorem Steady.nodeEnd (h : Steady s t) (c n : Nat) (status detail : BitVec 8) : Steady s (t.nodeEnd c n status detail) := by
  by_cases free : ((t.core c).node n).st = .free
  · rwa [State.nodeEnd, State.nodeEndIn, if_pos free]
  · rw [State.nodeEnd_eq free]
    exact (h.modCore c (f := fun x => x.modNode n _) fun _ => rfl).soon _

end

/-! ### Rows -/

section

variable (s : State) (key : Nat)

/-- R185: what entering a row sets; its bits and why they may not be read are as `readRow` or the row read ahead gives. -/
theorem State.lens_enterRow (n : Nat) : ∃ cur bad, (s.enterRow key n).lens key = { s.lens key with
    seq := { (s.lens key).seq with
      row := n, cur := cur, bad := bad, ahead := none, fresh := true, rep := 0, ofs := 0, budget := 0, fenceDone := false
      rowDone := false } } :=
  ⟨_, _, State.lens_setLens ..⟩

/-- R185: a row that starts is no longer new. -/
theorem State.lens_startRow : ∃ ahead named, (s.startRow key).lens key = { s.lens key with
    seq := { (s.lens key).seq with fresh := false, ahead := ahead, named := named } } := by
  unfold State.startRow
  dsimp only
  split
  case isTrue => exact ⟨_, _, State.lens_setLens ..⟩
  case isFalse old => exact ⟨(s.lens key).seq.ahead, (s.lens key).seq.named, by rw [← Bool.eq_false_iff.2 old]⟩

theorem State.startRow_steady : Steady s (s.startRow key) := by
  unfold State.startRow
  dsimp only
  split
  · exact Steady.refl.setLens _ _
  · exact .refl

theorem State.startRow_cores : (s.startRow key).cores = s.cores := by
  unfold State.startRow
  dsimp only
  split <;> rfl

/-- R184: the condition of a SYNC row is the same once the row has started. -/
theorem State.synced_startRow (l : Lens) : (s.startRow key).synced l = s.synced l := by
  have now : (s.startRow key).now = s.now := by
    unfold State.startRow
    dsimp only
    split <;> rfl
  rw [State.synced, State.cycle, State.core, s.startRow_cores, now]
  rfl

theorem State.checkBudget_steady : Steady s (s.checkBudget key) := by
  unfold State.checkBudget
  split
  · exact Steady.refl.next1 _
  · exact .refl

@[simp] theorem State.lens_checkBudget (k : Nat) : (s.checkBudget key).lens k = s.lens k := by
  unfold State.checkBudget
  split <;> rfl

theorem State.noInject_steady : Steady s (s.noInject key) := (Steady.refl.modLens _ _).trans (State.checkBudget_steady ..)

theorem State.lens_noInject : (s.noInject key).lens key = { s.lens key with mid := true } := by
  rw [State.noInject, State.lens_checkBudget, State.lens_modLens, Lens.halt]

end

/-- The sequencer comes to row n with a loop stack, and the event of that row is next. -/
def ComesTo (key : Nat) (s t : State) (n : Nat) (loops : List (Nat × Nat × Nat)) : Prop :=
  Steady s t ∧ (t.lens key).seq.row = n ∧ (t.lens key).seq.loops = loops ∧ (t.lens key).seq.fresh = true ∧
    t.agenda.head? = some (Due.ev ((t.lens key).rowEvent key))

theorem ComesTo.nextRow {s u : State} {key : Nat} {loops : List (Nat × Nat × Nat)} (h : Steady s u)
    (hl : (u.lens key).seq.loops = loops) (n : Nat) : ComesTo key s (u.nextRow key n) n loops := by
  obtain ⟨cur, bad, entered⟩ := u.lens_enterRow key n
  have lens : (u.nextRow key n).lens key = (u.enterRow key n).lens key := rfl
  refine ⟨h.trans (.of_cores rfl rfl rfl), ?_, ?_, ?_, rfl⟩
  · rw [lens, entered]
  · rw [lens, entered, ← hl]
  · rw [lens, entered]

/-- The lens raises the event of a row that cannot be run (R181, R184, R346). -/
def RaisesRow (key : Nat) (s t : State) : Prop :=
  Steady s t ∧ ∃ e, (t.lens key).raised = (s.lens key).raised ++ [e] ∧ e.cause = 0x0E ∧
    e.vec = ((s.lens key).seq.row, (s.lens key).seq.rep, (s.lens key).seq.ofs)

/-! ### STEP rows -/

/-- R186: the invocation that an interval opens. -/
def State.invocation (s : State) (key : Nat) : Invocation :=
  let l := s.lens key
  { row := l.seq.row, rep := l.seq.rep, first := l.acyc, last := none, phases := Row.phases l.seq.cur
    snap := Row.snap l.seq.cur, segs := [], loops := l.seq.loops
    rewind := (s.inAgs key).flatMap fun p => s.rewindOf key p }

/-- R186: opening an invocation adds it to those that are open. -/
theorem State.openInvocation_opens (s : State) (key : Nat) : Steady s (s.openInvocation key) ∧
    (s.openInvocation key).lens key = { s.lens key with open_ := (s.lens key).open_ ++ [s.invocation key] } := by
  unfold State.openInvocation
  dsimp only
  have ags : OnlyCores s ((s.outAgs key).foldl (fun u p =>
      if (Row.agadv (s.lens key).seq.cur).getLsbD p.2 then
        u.modCore p.1 fun x => x.modAg p.2 fun g => { g with intervals := g.intervals ++ [((s.lens key).acyc, g.i2)] }
      else u) s) := by
    refine .foldl (fun u p => ?_) _ _
    split
    · exact .modCore _ rfl
    · exact .refl
  refine ⟨ags.steady.modLens _ _, ?_⟩
  rw [State.lens_modLens, ags.lens]
  rfl

/-- R183, R186: the invocation of the next token, which an interval's first token opens. -/
theorem State.opened (s : State) (key : Nat) {x : Invocation} (h : (s.lens key).open_ = [x]) :
    ∃ u op v, (if (s.lens key).seq.ofs = 0 then s.openInvocation key else s) = u ∧ Steady s u ∧
      u.lens key = { s.lens key with open_ := op } ∧ op.getLast? = some v ∧
      v.first = if (s.lens key).seq.ofs = 0 then (s.lens key).acyc else x.first := by
  by_cases start : (s.lens key).seq.ofs = 0
  · obtain ⟨steady, lens⟩ := s.openInvocation_opens key
    exact ⟨_, _, s.invocation key, if_pos start, steady, lens, List.getLast?_concat .., (if_pos start).symm⟩
  · exact ⟨_, [x], x, if_neg start, .refl, by rw [← h], rfl, (if_neg start).symm⟩

/-- R183: the wave token of the next injection. -/
def Lens.nextWave (l : Lens) (x : Invocation) : Wave :=
  ⟨l.acyc, if l.seq.ofs = 0 then l.acyc else x.first, Row.phase l.seq.cur l.seq.ofs, l.seq.ofs == 0,
    l.seq.ofs == 0 && Row.snap l.seq.cur, l.seq.row, l.seq.rep, l.seq.ofs⟩

/-- R183: an injection adds its wave token and goes on to the next one of the interval, to the next interval of the row, or
past the row. -/
theorem State.inject_injects (s : State) (key : Nat) {x : Invocation} (h : (s.lens key).open_ = [x]) :
    Steady s (s.inject key) ∧ ((s.inject key).lens key).st = .run ∧ ((s.inject key).lens key).mid = true ∧
    ((s.inject key).lens key).waves = (s.lens key).waves ++ [(s.lens key).nextWave x] ∧
    ((s.inject key).lens key).seq.row = (s.lens key).seq.row ∧
    (let q := (s.lens key).seq
    let q' := ((s.inject key).lens key).seq
    (q.ofs + 1 < Row.len q.cur → q'.rep = q.rep ∧ q'.ofs = q.ofs + 1) ∧
    (¬q.ofs + 1 < Row.len q.cur → (q.rep + 1 < Row.rep q.cur → q'.rep = q.rep + 1 ∧ q'.ofs = 0 ∧ q'.rowDone = q.rowDone) ∧
      (¬q.rep + 1 < Row.rep q.cur → q'.rowDone = true))) := by
  obtain ⟨u, op, v, opened, steady, lens, last, first⟩ := s.opened key h
  unfold State.inject
  rw [opened]
  simp only [lens, last, first]
  split
  case isTrue more =>
    simp [steady.trans ((Steady.refl.setLens _ _).trans (State.checkBudget_steady ..)), Lens.nextWave, more]
  case isFalse last =>
    split
    case isTrue more =>
      simp [steady.trans ((Steady.refl.setLens _ _).trans (State.checkBudget_steady ..)), Lens.nextWave, Lens.modOpen, last, more]
    case isFalse done => simp [steady.trans (Steady.refl.setLens _ _), Lens.nextWave, Lens.modOpen, last, done]

/-- R185, R188: a row that goes on for one more A-cycle. -/
theorem State.lens_counted (s : State) (key : Nat) : ∃ ahead named, ((s.startRow key).countRow key).lens key =
    { s.lens key with seq := { (s.lens key).seq with
      fresh := false, ahead := ahead, named := named, budget := (s.lens key).seq.budget + 1 } } := by
  obtain ⟨ahead, named, started⟩ := s.lens_startRow key
  exact ⟨ahead, named, by rw [State.countRow, State.lens_modLens, started]⟩

theorem State.counted_steady (s : State) (key : Nat) : Steady s ((s.startRow key).countRow key) :=
  (s.startRow_steady key).modLens _ _

/-- R183, R186: a STEP row without a fence, none of whose lanes lacks an extent, injects a wave token. -/
theorem State.runStep_injects {s : State} {key : Nat} (hf : Row.fence (s.lens key).seq.cur = false)
    (hs : ((s.startRow key).countRow key).starved key (Row.phase (s.lens key).seq.cur (s.lens key).seq.ofs) = none) :
    s.runStep key = ((s.startRow key).countRow key).inject key := by
  obtain ⟨ahead, named, counted⟩ := s.lens_counted key
  simp only [State.runStep, counted, hf, Bool.false_and, Bool.false_eq_true, if_false, hs]

section

variable {s : State} {key : Nat}

/-- R181, R184: a row outside the list or with no meaning. -/
theorem State.rowFault_raises (hd : (s.lens key).seq.rowDone = false) (hb : (s.lens key).seq.bad = 0) :
    RaisesRow key s (s.rowFault key) := by
  refine ⟨Steady.refl.modLens _ _, (s.lens key).seqEvent 0x0E 0 0 0, ?_, rfl, by simp [Lens.seqEvent, Lens.pos, hd]⟩
  simp [State.rowFault, hb, Lens.raise, Lens.halt]

theorem execStepRow_bad (hr : (s.lens key).ready = true) (hb : (s.lens key).badRow = true) :
    exec (.stepRow key) s = .next (s.rowFault key) := by
  show execStepRow key s = _
  simp [execStepRow, hr, hb]

theorem execStepRow_runs (hr : (s.lens key).ready = true) (hb : (s.lens key).badRow = false)
    (hk : Row.kind (s.lens key).seq.cur = 0) : exec (.stepRow key) s = .next (s.runStep key) := by
  show execStepRow key s = _
  simp [execStepRow, hr, hb, hk]

end

/-! ### LOOP rows (R184) -/

/-- R184: the innermost counter is the row's own. -/
theorem loopStep_own {n tgt cnt f c : Nat} {r : List (Nat × Nat × Nat)} (h : tgt < n) : loopStep ((n, f, c) :: r) n tgt cnt =
    some (if c = 0 then (r, n + 1) else ((n, f, c - 1) :: r, tgt)) := by
  simp [loopStep, Nat.not_le.2 h]

/-- R184: the first counter of the list. -/
theorem loopStep_empty {n tgt cnt : Nat} (h : tgt < n) (hc : 0 < cnt) : loopStep [] n tgt cnt =
    some (if cnt = 1 then ([], n + 1) else ([(n, tgt, cnt - 2)], tgt)) := by
  simp [loopStep, Nat.not_le.2 h, Nat.sub_sub, show cnt - 1 = 0 ↔ cnt = 1 by omega]

/-- R184: a counter inside the innermost one. -/
theorem loopStep_inner {n tgt cnt m f c : Nat} {r : List (Nat × Nat × Nat)} (h : tgt < n) (hm : n < m) (hf : f ≤ tgt)
    (hl : ((m, f, c) :: r).length < 4) (hc : 0 < cnt) : loopStep ((m, f, c) :: r) n tgt cnt =
      some (if cnt = 1 then ((m, f, c) :: r, n + 1) else ((n, tgt, cnt - 2) :: (m, f, c) :: r, tgt)) := by
  rw [loopStep]
  dsimp only
  rw [if_neg (by omega), if_neg (by omega), if_neg (by omega)]
  simp only [Nat.sub_sub, show cnt - 1 = 0 ↔ cnt = 1 by omega]

/-- R184: a counter that is neither the innermost row's nor inside it, or beyond the fourth. -/
theorem loopStep_outside {n tgt cnt m f c : Nat} {r : List (Nat × Nat × Nat)} (hm : m ≠ n)
    (h : 4 ≤ ((m, f, c) :: r).length ∨ tgt < f ∨ m ≤ n) : loopStep ((m, f, c) :: r) n tgt cnt = none := by
  rw [loopStep]
  dsimp only
  rw [if_neg hm, if_pos h, ite_self]

theorem loopStep_ahead {n tgt cnt : Nat} (st : List (Nat × Nat × Nat)) (h : n ≤ tgt) : loopStep st n tgt cnt = none :=
  if_pos h

/-! ### The rows that inject nothing (R184) -/

section

variable {s : State} {key : Nat} (hr : (s.lens key).ready = true) (hb : (s.lens key).badRow = false)

include hr hb

/-- A row that the sequencer can run is not passed over. -/
theorem Lens.row_due {k : Nat} (hk : Row.kind (s.lens key).seq.cur = k) :
    ¬(!(s.lens key).ready || (s.lens key).badRow || decide (Row.kind (s.lens key).seq.cur ≠ k)) = true := by
  simp [hr, hb, hk]

section

variable (hk : Row.kind (s.lens key).seq.cur = 1)

include hk

theorem tileLoopRow_comesTo {loops : List (Nat × Nat × Nat)} {n : Nat}
    (h : loopStep (s.lens key).seq.loops (s.lens key).seq.row (Row.tgt (s.lens key).seq.cur) (Row.cnt (s.lens key).seq.cur) =
      some (loops, n)) : Gives (.tileLoopRow key) s fun t => ComesTo key s t n loops := by
  obtain ⟨ahead, named, started⟩ := s.lens_startRow key
  refine ⟨_, congrArg Host.Outcome.next (if_neg (Lens.row_due hr hb hk)), ?_⟩
  simp only [started, h]
  exact .nextRow ((s.startRow_steady key).setLens _ _) (by rw [State.lens_setLens]) n

/-- R184: a LOOP row goes past its loop or back to its first row. -/
theorem tileLoopRow_turns {p : Prop} [Decidable p] {past back : List (Nat × Nat × Nat)} {m n : Nat}
    (h : loopStep (s.lens key).seq.loops (s.lens key).seq.row (Row.tgt (s.lens key).seq.cur) (Row.cnt (s.lens key).seq.cur) =
      some (if p then (past, m) else (back, n))) :
    Gives (.tileLoopRow key) s fun t => if p then ComesTo key s t m past else ComesTo key s t n back := by
  by_cases hp : p
  · simp only [if_pos hp] at h ⊢
    exact tileLoopRow_comesTo hr hb hk h
  · simp only [if_neg hp] at h ⊢
    exact tileLoopRow_comesTo hr hb hk h

theorem tileLoopRow_raises (hd : (s.lens key).seq.rowDone = false)
    (h : loopStep (s.lens key).seq.loops (s.lens key).seq.row (Row.tgt (s.lens key).seq.cur) (Row.cnt (s.lens key).seq.cur) =
      none) : Gives (.tileLoopRow key) s (RaisesRow key s) := by
  obtain ⟨ahead, named, started⟩ := s.lens_startRow key
  refine ⟨_, congrArg Host.Outcome.next (if_neg (Lens.row_due hr hb hk)), ?_⟩
  simp only [started, h]
  refine ⟨(s.startRow_steady key).setLens _ _, (s.lens key).seqEvent 0x0E 0 0 0, ?_, rfl, by simp [Lens.seqEvent, Lens.pos, hd]⟩
  simp [Lens.raise, Lens.halt, Lens.seqEvent, Lens.pos, Lens.origin]

end

/-- R184: WAITG of a node that is not under way. -/
theorem waitgRow_comesTo (hk : Row.kind (s.lens key).seq.cur = 2)
    (hn : ¬((((s.core (s.lens key).origin).node (bits (s.lens key).seq.cur 0 6)).st = .armed) ∨
      ((s.core (s.lens key).origin).node (bits (s.lens key).seq.cur 0 6)).st = .running)) :
    Gives (.waitgRow key) s fun t => ComesTo key s t ((s.lens key).seq.row + 1) (s.lens key).seq.loops := by
  obtain ⟨ahead, named, started⟩ := s.lens_startRow key
  refine ⟨_, congrArg Host.Outcome.next ((if_neg (Lens.row_due hr hb hk)).trans (if_neg ?_)), ?_⟩
  · rwa [State.core, s.startRow_cores key]
  · exact .nextRow (s.startRow_steady key) (by rw [started]) _

/-- R184: WAITG of a node that is under way. -/
theorem waitgRow_waits (hk : Row.kind (s.lens key).seq.cur = 2)
    (hn : (((s.core (s.lens key).origin).node (bits (s.lens key).seq.cur 0 6)).st = .armed) ∨
      ((s.core (s.lens key).origin).node (bits (s.lens key).seq.cur 0 6)).st = .running) :
    Gives (.waitgRow key) s fun t => Steady s t ∧ (t.lens key).mid = true ∧
      (t.lens key).seq.row = (s.lens key).seq.row ∧ (t.lens key).seq.budget = (s.lens key).seq.budget + 1 := by
  obtain ⟨ahead, named, counted⟩ := s.lens_counted key
  refine ⟨_, congrArg Host.Outcome.next ((if_neg (Lens.row_due hr hb hk)).trans (if_pos ?_)),
    (s.counted_steady key).trans (State.noInject_steady ..), ?_⟩
  · rwa [State.core, s.startRow_cores key]
  · rw [State.lens_noInject, counted]
    exact ⟨rfl, rfl, rfl⟩

/-- R184, R310: SIGNAL without a fence. -/
theorem signalRow_signals (hk : Row.kind (s.lens key).seq.cur = 3) (hf : Row.fence (s.lens key).seq.cur = false) :
    Gives (.signalRow key) s fun t => Steady s t ∧ (t.lens key).seq.row = (s.lens key).seq.row + 1 ∧
      t.agenda.take 2 = [Due.ev (.notifyArrive (s.lens key).origin (bits (s.lens key).seq.cur 16 3)
        ((s.lens key).seq.cur.setWidth 16)), Due.ev ((t.lens key).rowEvent key)] := by
  obtain ⟨cur, bad, entered⟩ := (s.startRow key).lens_enterRow key ((s.lens key).seq.row + 1)
  refine ⟨_, congrArg Host.Outcome.next ((if_neg (Lens.row_due hr hb hk)).trans (if_neg ?_)),
    (s.startRow_steady key).trans (.of_cores rfl rfl rfl), ?_, rfl⟩
  · rw [hf, Bool.false_and]
    exact Bool.false_ne_true
  · exact congrArg (fun l => l.seq.row) entered

/-- R184: END. -/
theorem endRow_ends (hk : Row.kind (s.lens key).seq.cur = 4) : Gives (.endRow key) s fun t => Steady s t ∧
    (t.lens key).seq.ended = true ∧ (t.lens key).waves = (s.lens key).waves := by
  refine ⟨_, congrArg Host.Outcome.next (if_neg (Lens.row_due hr hb hk)), Steady.refl.setLens _ _, ?_⟩
  rw [State.lens_setLens]
  exact ⟨rfl, rfl⟩

/-- R184: SYNC after its P-cycle. -/
theorem syncRow_comesTo (hk : Row.kind (s.lens key).seq.cur = 5) (hs : s.synced (s.lens key) = true) :
    Gives (.syncRow key) s fun t => ComesTo key s t ((s.lens key).seq.row + 1) (s.lens key).seq.loops := by
  obtain ⟨ahead, named, started⟩ := s.lens_startRow key
  refine ⟨_, congrArg Host.Outcome.next ((if_neg (Lens.row_due hr hb hk)).trans (if_pos ?_)), ?_⟩
  · exact (s.synced_startRow key _).trans hs
  · exact .nextRow (s.startRow_steady key) (by rw [started]) _

/-- R184: SYNC before its P-cycle. -/
theorem syncRow_pauses (hk : Row.kind (s.lens key).seq.cur = 5) (hs : s.synced (s.lens key) = false) :
    Gives (.syncRow key) s fun t => Steady s t ∧ (t.lens key).seq.paused = true ∧
      (t.lens key).seq.row = (s.lens key).seq.row := by
  obtain ⟨ahead, named, started⟩ := s.lens_startRow key
  refine ⟨_, congrArg Host.Outcome.next ((if_neg (Lens.row_due hr hb hk)).trans (if_neg ?_)),
    (s.startRow_steady key).modLens _ _, ?_⟩
  · rw [State.synced_startRow, hs]
    exact Bool.false_ne_true
  · rw [State.lens_modLens, started]
    exact ⟨rfl, rfl⟩

end

end Sys2Proof.Machine
end

section
/-! SUPPORT. LGO, the start of a list and its end (R184, R216, R350), and the obligation about lists. -/

namespace Sys2Proof.Machine

section

variable {s : State} {key : Nat}

/-- R184: the P-cycle that a paused list waits for. -/
theorem syncResume_comesTo (ha : (s.lens key).seq.active = true) (hp : (s.lens key).seq.paused = true)
    (he : (s.lens key).seq.ended = false) (hf : (s.lens key).freezing = false) (hs : s.synced (s.lens key) = true) :
    Gives (.syncResume key) s fun t => ComesTo key s t ((s.lens key).seq.row + 1) (s.lens key).seq.loops ∧
      (t.lens key).seq.paused = false := by
  obtain ⟨cur, bad, entered⟩ := (s.setLens key { s.lens key with
    seq := { (s.lens key).seq with paused := false } }).lens_enterRow key ((s.lens key).seq.row + 1)
  refine ⟨_, congrArg Host.Outcome.next (if_pos (by simp [ha, hp, he, hf, hs])), .nextRow (Steady.refl.setLens _ _) ?_ _, ?_⟩
  · rw [State.lens_setLens]
  · refine (congrArg (fun l => l.seq.paused) entered).trans ?_
    rw [State.lens_setLens]

/-- R188: a row whose budget is exhausted. -/
theorem rowBudgetDeadline_raises (ho : (s.lens key).overBudget = true) (hf : (s.lens key).freezing = false) :
    Gives (.rowBudgetDeadline key) s fun t => Steady s t ∧
      ∃ e, (t.lens key).raised = (s.lens key).raised ++ [e] ∧ e.cause = 0x06 ∧ e.vec = (s.lens key).nextVec := by
  refine ⟨_, rfl, Steady.refl.modLens _ _, { (s.lens key).seqEvent 0x06 0 0 0 with vec := (s.lens key).nextVec }, ?_, rfl, rfl⟩
  simp [ho, hf, Lens.raise]

/-- R198: the AGs that are done give their lanes back; nodes stay. -/
theorem State.freeDone_keeps (s : State) (key : Nat) : OnlyCores s (s.freeDone key) ∧
    ∀ c n, ((s.freeDone key).core c).node n = (s.core c).node n := by
  unfold State.freeDone
  refine foldl_keeps (P := fun u : State => OnlyCores s u ∧ ∀ c n, (u.core c).node n = (s.core c).node n)
    (fun u c ⟨only, nodes⟩ => ?_) _ ⟨.refl, fun _ _ => rfl⟩
  have inner := foldl_keeps (P := fun x : Core => x.slots = (u.core c).slots ∧ x.nodes = (u.core c).nodes)
    (f := fun x n => if (x.ag n).st = .done && (x.ag n).lens == key then x.freeLanes n else x)
    (fun x n h => by split <;> exact h) (List.range 4) (s := u.core c) ⟨rfl, rfl⟩
  refine ⟨only.trans (.modCore c inner.1), fun d n => ?_⟩
  by_cases hd : d = c
  · subst hd
    rw [State.core_modCore, ← nodes]
    exact congrArg (fun t => Tab.at t n Node.reset) inner.2
  · rw [State.core_modCore_ne _ _ _ _ hd, nodes]

/-- R319: the node of a list ends with a status, where it is in use. -/
theorem State.nodeEnd_ends {s : State} {c n : Nat} (hn : ((s.core c).node n).st ≠ .free) (status detail : BitVec 8) :
    (((s.nodeEnd c n status detail).core c).node n).status = status ∧
      (((s.nodeEnd c n status detail).core c).node n).detail = detail ∧
      Due.ev (.nodeComplete c n) ∈ (s.nodeEnd c n status detail).agenda := by
  rw [State.nodeEnd_eq hn]
  refine ⟨?_, ?_, List.mem_append_right _ (List.mem_singleton_self _)⟩
  · rw [State.core_soon, State.core_modCore, Core.node_modNode]
  · rw [State.core_soon, State.core_modCore, Core.node_modNode]

@[simp] theorem State.lens_soon (s : State) (i : Instr) (k : Nat) : (s.soon i).lens k = s.lens k := rfl

@[simp] theorem State.lens_nodeEnd (s : State) (c n : Nat) (status detail : BitVec 8) (k : Nat) :
    (s.nodeEnd c n status detail).lens k = s.lens k := by
  unfold State.nodeEnd State.nodeEndIn
  split <;> rfl

/-- R184: a list that has run out. -/
theorem listFinish_finishes (ho : s.listOver key = true)
    (hk : ((s.core (s.lens key).origin).node (s.lens key).seq.node).killed = false) (hs : (s.lens key).seq.stop = .none)
    (hq : (s.lens key).queue = []) : Gives (.listFinish key) s fun t => Steady s t ∧ (t.lens key).st = .idle ∧
      (t.lens key).last = 0 ∧ (t.lens key).seq.active = false ∧
      (((s.core (s.lens key).origin).node (s.lens key).seq.node).st ≠ .free →
        ((t.core (s.lens key).origin).node (s.lens key).seq.node).status = 0 ∧
        Due.ev (.nodeComplete (s.lens key).origin (s.lens key).seq.node) ∈ t.agenda) := by
  obtain ⟨only, nodes⟩ := (s.modLens key fun l =>
    { l with st := .idle, last := 0, seq := { l.seq with active := false, stop := .none } }).freeDone_keeps key
  have lens := only.lens key
  rw [State.lens_modLens] at lens
  have runs : exec (.listFinish key) s = .next (((s.modLens key fun l =>
      { l with st := .idle, last := 0, seq := { l.seq with active := false, stop := .none } }).freeDone key).nodeEnd
        (s.lens key).origin (s.lens key).seq.node 0 0) := by
    show execListFinish key s = _
    unfold execListFinish
    simp only [ho, hk, hs, Bool.not_true, Bool.false_eq_true, if_false, if_true, State.lens_nodeEnd, lens, hq, List.isEmpty_nil]
  refine ⟨_, runs, ((Steady.refl.modLens _ _).trans only.steady).nodeEnd .., ?_, ?_, ?_, fun hn => ?_⟩
  · rw [State.lens_nodeEnd, lens]
  · rw [State.lens_nodeEnd, lens]
  · rw [State.lens_nodeEnd, lens]
  · obtain ⟨status, -, due⟩ := State.nodeEnd_ends (by rw [nodes]; exact hn) 0 0
    exact ⟨status, due⟩

end

/-! ### The start of a list -/

section

variable {s : State} {key : Nat} {j : LensJob} (hq : (s.lens key).queue = [j]) (ha : (s.lens key).seq.active = false)
  (hf : (s.lens key).freezing = false)

include hq ha hf

/-- R216: a list of a lens that is not fused ends at once. -/
theorem lensNodeStart_refuses (hst : (s.lens key).st = .unfused ∨ (s.lens key).st = .failed) :
    Gives (.lensNodeStart key) s fun t => SameMemory s t ∧ SameSlots s t ∧
      (t.lens key).queue = [] ∧ (t.lens key).last = 0xF3 ∧
      (((s.core (s.lens key).origin).node j.node).st ≠ .free →
        ((t.core (s.lens key).origin).node j.node).status = 0xF3 ∧
        Due.ev (.nodeComplete (s.lens key).origin j.node) ∈ t.agenda) := by
  have loose : (s.lens key).fused = false := by
    rcases hst with h | h
    · simp [Lens.fused, h]
    · simp [Lens.fused, h]
  have settled : (s.lens key).st ≠ .fusing := by
    rcases hst with h | h
    · simp [h]
    · simp [h]
  have runs : exec (.lensNodeStart key) s = .next (((s.modLens key fun l => { l with queue := [] }).modLens key fun l =>
      { l with last := 0xF3 }).nodeEnd (s.lens key).origin j.node 0xF3 0) := by
    show execLensNodeStart key s = _
    simp [execLensNodeStart, hq, ha, hf, settled, loose, Lens.origin]
  obtain ⟨memory, slots⟩ := ((Steady.refl.modLens key fun l => { l with queue := [] }).modLens key fun l =>
    { l with last := 0xF3 }).nodeEnd (s := s) (s.lens key).origin j.node 0xF3 0
  refine ⟨_, runs, memory, slots, ?_, ?_, fun hn => ?_⟩
  · rw [State.lens_nodeEnd, State.lens_modLens, State.lens_modLens]
  · rw [State.lens_nodeEnd, State.lens_modLens]
  · obtain ⟨status, -, due⟩ := State.nodeEnd_ends (s := (s.modLens key fun l => { l with queue := [] }).modLens key fun l =>
      { l with last := 0xF3 }) hn 0xF3 0
    exact ⟨status, due⟩

/-- R216, R350: a list of an idle lens starts at its first row. -/
theorem lensNodeStart_starts (hst : (s.lens key).st = .idle) :
    Gives (.lensNodeStart key) s fun t => SameMemory s t ∧ SameSlots s t ∧ (t.lens key).queue = [] ∧ (t.lens key).st = .run ∧
      (t.lens key).flags = 0 ∧ (t.lens key).seq.active = true ∧ (t.lens key).seq.base = j.base ∧
      (t.lens key).seq.node = j.node ∧ (t.lens key).seq.row = 0 ∧ (t.lens key).seq.fresh = true := by
  have runs : exec (.lensNodeStart key) s = .next (((s.modLens key fun l => { l with queue := [] }).modLens key fun l =>
      l.started j).enterRow key 0) := by
    show execLensNodeStart key s = _
    simp [execLensNodeStart, hq, ha, hf, hst, Lens.fused, State.freshLens, State.modLens]
  obtain ⟨cur, bad, entered⟩ := ((s.modLens key fun l => { l with queue := [] }).modLens key fun l =>
    l.started j).lens_enterRow key 0
  rw [State.lens_modLens, State.lens_modLens] at entered
  refine ⟨_, runs, ⟨rfl, rfl⟩, State.sameSlots_of_cores rfl, ?_⟩
  rw [entered]
  exact ⟨rfl, rfl, rfl, rfl, rfl, rfl, rfl, rfl⟩

end

/-! ### LGO -/

section

variable {s : State} {h : Hdr} {o : FmtA} {key ox oy w hh : Nat} (hg : s.me.guard h = true)
  (hal : (s.me.gr o.ra).toNat % 16 = 0) (hr : rangeFault s.myCore (s.me.gr o.ra) 16 = none)
  (hn : s.namedLens o = some (key, ox, oy, w, hh)) (hc : s.cur.core = coreAt ox oy)

/-- R216: the state once LGO has armed its node and put its list down. -/
def State.listArmed (s : State) (key ox oy w hh n : Nat) (a : Word) : State :=
  (((s.placeLens key ox oy w hh).modCore s.cur.core fun x => x.modNode n fun _ =>
    { Node.reset with st := .running, owner := s.cur.slot, kind := 4 }).modLens key fun l =>
      { l with queue := l.queue ++ [⟨n, s.cur.slot, a⟩] }).soon (.lensNodeStart key)

include hg hal hr hn hc

theorem execLgo_arms {n : Nat} (hf : s.myCore.freeNode = some n) : exec (.lgo h o) s = .next
    ((s.listArmed key ox oy w hh n (s.me.gr o.ra)).issued 4 [.g o.rd (BitVec.ofNat 64 n)]) := by
  show execLgo h o s = _
  have named : s.lensFor o false = some (key, ox, oy, w, hh) := by simp [State.lensFor, hn, hc]
  rw [execLgo, word_of_guard _ hg]
  simp only [hal, hr, named, hf, State.listArmed, State.result_eq, ne_eq, not_true_eq_false, if_false]
  rfl

theorem execLgo_full (hf : s.myCore.freeNode = none) (hh0 : s.me.h = false) :
    exec (.lgo h o) s = .next (s.faulted 0x0F 0 0x02000000) := by
  show execLgo h o s = _
  have named : s.lensFor o false = some (key, ox, oy, w, hh) := by simp [State.lensFor, hn, hc]
  rw [execLgo, word_of_guard _ hg]
  simp [hal, hr, named, hf, State.precise_eq _ _ _ _ hh0, info0F, w64]

end

/-- R13: the end of a word leaves the slot alike where the slot was alike. -/
theorem State.issued_me_of {s t : State} (h : t.me = s.me) (lat : Nat) (ws : List Write) :
    (t.issued lat ws).me = (s.issued lat ws).me := by
  rw [State.issued, State.issued, State.me_setSlot_cur, State.me_setSlot_cur, h]

theorem State.listArmed_node (s : State) (key ox oy w hh n : Nat) (a : Word) :
    ((s.listArmed key ox oy w hh n a).core s.cur.core).node n =
      { Node.reset with st := .running, owner := s.cur.slot, kind := 4 } :=
  (congrArg (fun x : Core => x.node n) ((s.placeLens key ox oy w hh).core_modCore s.cur.core fun x =>
    x.modNode n fun _ => _)).trans (Core.node_modNode ..)

theorem State.listArmed_lens (s : State) (key ox oy w hh n : Nat) (a : Word) :
    (s.listArmed key ox oy w hh n a).lens key = { (s.placeLens key ox oy w hh).lens key with
      queue := ((s.placeLens key ox oy w hh).lens key).queue ++ [⟨n, s.cur.slot, a⟩] } := by
  rw [State.listArmed, State.lens_soon, State.lens_modLens]
  rfl

/-- R216: LGO arms its node, puts its list down and passes. -/
theorem State.listArmed_issued (s : State) (key ox oy w hh n : Nat) (a : Word) (ws : List Write) :
    let t := (s.listArmed key ox oy w hh n a).issued 4 ws
    SameMemory s t ∧ OtherSlots s t ∧ t.me = (s.issued 4 ws).me ∧
      t.myCore.node n = { Node.reset with st := .running, owner := s.cur.slot, kind := 4 } ∧
      t.lens key = { (s.placeLens key ox oy w hh).lens key with
        queue := ((s.placeLens key ox oy w hh).lens key).queue ++ [⟨n, s.cur.slot, a⟩] } ∧
      t.agenda = s.agenda ++ [Due.ev (.lensNodeStart key)] := by
  have steady : Steady s (s.listArmed key ox oy w hh n a) :=
    (((Steady.refl.modLens _ _).modCore _ (f := fun x => x.modNode n _) fun _ => rfl).modLens _ _).soon _
  refine ⟨⟨rfl, rfl⟩, fun q hq => ?_, State.issued_me_of (steady.2 _) 4 ws, ?_, ?_, rfl⟩
  · exact (State.slot_setSlot_ne _ s.cur _ _ hq).trans (steady.2 q)
  · have core : ((s.listArmed key ox oy w hh n a).issued 4 ws).myCore.nodes =
        ((s.listArmed key ox oy w hh n a).core s.cur.core).nodes :=
      (congrArg Core.nodes (State.core_setSlot (s.listArmed key ox oy w hh n a) s.cur _)).trans rfl
    rw [Core.node, core]
    exact s.listArmed_node key ox oy w hh n a
  · exact s.listArmed_lens key ox oy w hh n a

/-- Settles O43, a row at a time: each row's event by the lemma of its kind above, a LOOP row's by where `loopStep` leads. -/
theorem tileStepListsRun : Obligations.TileStepListsRun := by
  refine ⟨fun s h o key ox oy w hh hg hal hr hn hc => ?lgo, fun s key j => ?starts, fun s key => ?rows⟩
  case lgo =>
    intro p
    exact ⟨fun hh0 hf => execLgo_full hg hal hr hn hc hf hh0, fun n hf =>
      ⟨_, execLgo_arms hg hal hr hn hc hf, s.listArmed_issued key ox oy w hh n _ _⟩⟩
  case starts =>
    intro l hq ha hf
    exact ⟨lensNodeStart_refuses hq ha hf, lensNodeStart_starts hq ha hf⟩
  case rows =>
    intro l r q runs same comesTo raises
    refine ⟨fun x ⟨hr, hd, hb, hk⟩ hf hs hx => ?step, fun hr hd hb bad => ?bad, fun ⟨hr, hd, hb, hk⟩ ht => ?loop,
      fun ⟨hr, hd, hb, hk⟩ ht => tileLoopRow_raises hr hb hk hd (loopStep_ahead _ ht), fun ⟨hr, hd, hb, hk⟩ => ?waitg,
      fun ⟨hr, hd, hb, hk⟩ hf => signalRow_signals hr hb hk hf, fun ⟨hr, hd, hb, hk⟩ => endRow_ends hr hb hk,
      fun ⟨hr, hd, hb, hk⟩ => ⟨syncRow_comesTo hr hb hk, syncRow_pauses hr hb hk⟩, syncResume_comesTo,
      rowBudgetDeadline_raises, listFinish_finishes⟩
    case step =>
      obtain ⟨ahead, named, counted⟩ := s.lens_counted key
      have opens : (((s.startRow key).countRow key).lens key).open_ = [x] := by rw [counted, ← hx]
      obtain ⟨steady, st, mid, waves, row, goes, ends⟩ := State.inject_injects _ key opens
      rw [counted] at waves row goes ends
      refine ⟨_, execStepRow_runs hr hb hk, ?_⟩
      rw [State.runStep_injects hf hs]
      refine ⟨(s.counted_steady key).trans steady, st, mid, waves, fun more => ?_, fun last =>
        ⟨row, fun more => ?_, fun last' => ?_⟩⟩
      · exact ⟨row, goes more⟩
      · obtain ⟨rep, ofs, done⟩ := (ends last.not_lt).1 more
        exact ⟨rep, ofs, done.trans hd⟩
      · exact (ends last.not_lt).2 last'.not_lt
    case bad =>
      have bad : (s.lens key).badRow = true := by
        rcases bad with far | wrong
        · simp [Lens.badRow, show 65535 < (s.lens key).seq.row from far]
        · simp [Lens.badRow, show Row.ok (s.lens key).seq.cur = false from wrong]
      exact ⟨_, execStepRow_bad hr bad, State.rowFault_raises hd hb⟩
    case loop =>
      have count : 0 < Row.cnt r := Nat.succ_pos _
      refine ⟨fun f c u own => ?own, fun empty => ?empty, fun m f c u inner hm out => ?outside,
        fun m f c u inner hm hf hl => ?inner⟩
      case own =>
        exact tileLoopRow_turns hr hb hk (by rw [show (s.lens key).seq.loops = _ from own, loopStep_own ht])
      case empty =>
        exact tileLoopRow_turns hr hb hk (by
          rw [show (s.lens key).seq.loops = _ from empty, loopStep_empty ht count])
      case outside =>
        exact tileLoopRow_raises hr hb hk hd (by
          rw [show (s.lens key).seq.loops = _ from inner]
          exact loopStep_outside hm (inner ▸ out))
      case inner =>
        rw [inner] at hl ⊢
        exact tileLoopRow_turns hr hb hk (by
          rw [show (s.lens key).seq.loops = _ from inner, loopStep_inner ht hm hf hl count])
    case waitg =>
      intro nd
      refine ⟨fun idle => waitgRow_comesTo hr hb hk ?_, waitgRow_waits hr hb hk⟩
      rcases idle with h | h
      · simp [show ((s.core (s.lens key).origin).node (bits (s.lens key).seq.cur 0 6)).st = .free from h]
      · simp [show ((s.core (s.lens key).origin).node (bits (s.lens key).seq.cur 0 6)).st = .done from h]

end Sys2Proof.Machine
end

section
/-! SUPPORT. The agents of a lens in an A-cycle: input lanes, edge waits, channels and the ends of invocations (R186, R195,
R202, R211, R307, R346). -/

namespace Sys2Proof.Machine

/-! ### Input lanes (R195) -/

theorem Lane.take_data {a : Lane} {tok : Token} {rest : List Token} (h : a.fifo = tok :: rest) (hd : tok.hdr = false) :
    a.take = ({ a with fifo := rest }, some tok) := by
  simp [Lane.take, h, hd]

theorem portToken_plain {c : Conv} {tok : Token} (hc : c.bad = false) (h5 : tok.ft ≠ 5) (h8 : tok.ft ≠ 8) :
    portToken c tok = (tok, 0) := by
  rw [portToken, if_neg (by rw [hc]; exact Bool.false_ne_true), if_neg h5, if_neg fun h => h8 h.1]

section

variable {s : State} {key edge i : Nat} {v : Wave} {tok : Token} {rest : List Token}

/-- R195: a data token at the head of a lane of the prism is presented. -/
theorem State.presentLane_prism
    (hf : ((s.core ((s.lens key).laneAt edge i).1).lane edge ((s.lens key).laneAt edge i).2).fifo = tok :: rest)
    (hd : tok.hdr = false) (h9 : tok.ft ≠ 9)
    (ha : ((s.core ((s.lens key).laneAt edge i).1).lane edge ((s.lens key).laneAt edge i).2).att = .prism) :
    s.presentLane key edge i v =
      (s.modCore ((s.lens key).laneAt edge i).1 fun x => x.modLane edge ((s.lens key).laneAt edge i).2 fun _ =>
        { (s.core ((s.lens key).laneAt edge i).1).lane edge ((s.lens key).laneAt edge i).2 with
          fifo := rest }).modLens key fun l => l.give edge i 0
          (portToken ((s.core ((s.lens key).laneAt edge i).1).lane edge ((s.lens key).laneAt edge i).2).conv tok) := by
  unfold State.presentLane
  dsimp only
  rw [Lane.take_data hf hd]
  dsimp only
  rw [if_neg fun h => h9 h.1, State.agPresented, ha]

theorem execInputPresent_presents (he : edge < 2) (hi : i < (s.lens key).lanesOn edge)
    (hp : s.presents (s.lens key) edge i = some v) :
    exec (.inputPresent key edge i) s = .next (s.presentLane key edge i v) := by
  show execInputPresent key edge i s = _
  simp [execInputPresent, Nat.not_le.2 he, Nat.not_le.2 hi, hp]

end

/-! ### The end of an edge wait (R202) -/

/-- R202: a waiting AG goes on. -/
def AG.goOn (g : AG) : AG := if g.st = .edgeWait then { g with st := .run } else g

theorem Core.ag_modAg_ne (x : Core) {n m : Nat} (f : AG → AG) (h : m ≠ n) : (x.modAg n f).ag m = x.ag m :=
  Tab.at_put_ne _ _ _ _ _ h

/-- What each AG of a core is after one was changed. -/
theorem State.ag_modCore (s : State) (d m c n : Nat) (f : AG → AG) :
    ((s.modCore d fun x => x.modAg m f).core c).ag n = if c = d ∧ n = m then f ((s.core c).ag n) else (s.core c).ag n := by
  by_cases hc : c = d
  · subst hc
    rw [State.core_modCore]
    by_cases hn : n = m
    · rw [if_pos ⟨rfl, hn⟩, hn, Core.ag_modAg]
    · rw [if_neg fun h => hn h.2, Core.ag_modAg_ne _ _ hn]
  · rw [if_neg fun h => hc h.1, State.core_modCore_ne _ _ _ _ hc]

theorem edgeWaitEnd_ends {s : State} {key : Nat} (hst : (s.lens key).st = .edgeWait) :
    Gives (.edgeWaitEnd key) s fun t => SameMemory s t ∧ SameSlots s t ∧ t.lens key = { s.lens key with st := .run } ∧
      ∀ p ∈ s.lensAgs key, ((s.core p.1).ag p.2).st = .edgeWait → ((t.core p.1).ag p.2).st = .run := by
  have ags : (s.setLens key { s.lens key with st := .run }).lensAgs key = s.lensAgs key := by
    rw [State.lensAgs, State.lens_setLens]
    rfl
  have only : OnlyCores (s.setLens key { s.lens key with st := .run }) ((s.lensAgs key).foldl
      (fun u p => u.modCore p.1 fun x => x.modAg p.2 AG.goOn) (s.setLens key { s.lens key with st := .run })) :=
    .foldl (fun u p => .modCore _ rfl) _ _
  obtain ⟨memory, slots⟩ := (Steady.refl.setLens key { s.lens key with st := .run }).trans only.steady
  have runs : exec (.edgeWaitEnd key) s = .next ((s.lensAgs key).foldl
      (fun u p => u.modCore p.1 fun x => x.modAg p.2 AG.goOn) (s.setLens key { s.lens key with st := .run })) := by
    refine (congrArg Host.Outcome.next (if_pos hst)).trans ?_
    dsimp only
    rw [ags]
    rfl
  refine ⟨_, runs, memory, slots, (only.lens key).trans (State.lens_setLens ..), fun p hp hw => ?_⟩
  refine foldl_brings_under (I := fun u : State => ((u.core p.1).ag p.2).st = .edgeWait ∨ ((u.core p.1).ag p.2).st = .run)
    (P := fun u : State => ((u.core p.1).ag p.2).st = .run) (fun u q h => ?_) (fun u q h => ?_) hp (fun u h => ?_) (.inl hw)
  · rw [State.ag_modCore]
    split
    · right
      rcases h with h | h
      · simp [AG.goOn, h]
      · simp [AG.goOn, h]
    · exact h
  · rw [State.ag_modCore]
    split
    · simp [AG.goOn, h]
    · exact h
  · rw [State.ag_modCore, if_pos ⟨rfl, rfl⟩]
    rcases h with h | h
    · simp [AG.goOn, h]
    · simp [AG.goOn, h]

/-! ### Channels (R211) -/

@[simp] theorem State.chan_modChan (s : State) (k : Nat) (f : Channel → Channel) : (s.modChan k f).chan k = f (s.chan k) := by
  simp [State.chan, State.modChan]

/-- R211: nothing is delivered while every token is still under way. -/
theorem State.deliverChan_none {s : State} {task n now : Nat} {r : Route} (h : ∀ x ∈ (s.chan (chanKey task n)).fly, now < x.due) :
    s.deliverChan task n r now = s.modChan (chanKey task n) fun x => { x with fly := (s.chan (chanKey task n)).fly } := by
  have due : (s.chan (chanKey task n)).fly.filter (fun t => decide (t.due ≤ now)) = [] :=
    List.filter_eq_nil_iff.2 fun x hx => by simpa using h x hx
  have rest : (s.chan (chanKey task n)).fly.filter (not ∘ fun t => decide (t.due ≤ now)) = (s.chan (chanKey task n)).fly :=
    List.filter_eq_self.2 fun x hx => by simpa using h x hx
  rw [State.deliverChan, List.partition_eq_filter_filter, due, rest]
  rfl

section

variable {s : State} {task n k : Nat} {r : Route} {a : LaneRange} {tok : Token} {rest : List Token}

theorem channelForward_forwards (hr : s.routeOf task n = some r) (ha : r.src = some a) (hm : s.mayForward task n k = true)
    (hf : ((s.core (s.rangeLane task a k).1).lane (s.rangeLane task a k).2.1 (s.rangeLane task a k).2.2).fifo = tok :: rest)
    (hd : ∀ x ∈ (s.chan (chanKey task n)).fly, (s.lens (lensKey task a.lens)).region < x.due)
    (hl : ∀ b ∈ r.dst, 0 < s.rangeLatency task a b) :
    Gives (.channelForward task n k) s fun t => SameMemory s t ∧ SameSlots s t ∧
      ((t.core (s.rangeLane task a k).1).lane (s.rangeLane task a k).2.1 (s.rangeLane task a k).2.2).fifo = rest ∧
      (t.chan (chanKey task n)).fly = (s.chan (chanKey task n)).fly ++ r.dst.zipIdx.map fun q =>
        ⟨(s.lens (lensKey task a.lens)).region + s.rangeLatency task a q.1, q.2, k, tok⟩ := by
  have runs : exec (.channelForward task n k) s = .next (s.forward task n k r a) := by
    show execChannelForward task n k s = _
    simp [execChannelForward, hr, ha, hm]
  refine ⟨_, runs, ?_⟩
  unfold State.forward
  revert hf
  obtain ⟨c, e, i⟩ := s.rangeLane task a k
  intro hf
  dsimp only at hf ⊢
  rw [hf]
  dsimp only
  have flying : ∀ x ∈ (s.chan (chanKey task n)).fly ++ r.dst.zipIdx.map (fun q =>
      (⟨(s.lens (lensKey task a.lens)).region + s.rangeLatency task a q.1, q.2, k, tok⟩ : ChanTok)),
      (s.lens (lensKey task a.lens)).region < x.due := by
    intro x hx
    rcases List.mem_append.1 hx with hx | hx
    · exact hd x hx
    · obtain ⟨q, hq, rfl⟩ := List.mem_map.1 hx
      exact Nat.lt_add_of_pos_right (hl q.1 (List.fst_mem_of_mem_zipIdx hq))
  rw [State.deliverChan_none (by rw [State.chan_modChan]; exact flying)]
  refine ⟨⟨rfl, rfl⟩, ?_, ?_, ?_⟩
  · exact s.modCore_sameSlots c (f := fun x => x.modLane e i _) fun _ => rfl
  · exact congrArg Lane.fifo ((s.lane_modCore c e i c e i _).trans (if_pos ⟨rfl, rfl⟩))
  · rw [State.chan_modChan, State.chan_modChan]
    rfl

end

/-! ### The ends of invocations (R186, R307) -/

/-- R284: one held store is one block. -/
theorem segBlocks_one (g : Seg) : segBlocks [g] = [[g]] := rfl

/-- Which AGs a lens has does not depend on how many of their writes are to perform. -/
theorem State.outAgs_congr {s t : State} {key : Nat} (hl : (t.lens key).cores = (s.lens key).cores)
    (h : ∀ c n, ((t.core c).ag n).st = ((s.core c).ag n).st ∧ ((t.core c).ag n).lens = ((s.core c).ag n).lens ∧
      ((t.core c).ag n).desc = ((s.core c).ag n).desc) : t.outAgs key = s.outAgs key := by
  have among : t.lensAgs key = s.lensAgs key := by
    simp only [State.lensAgs, hl, AG.active, fun c n => (h c n).1, fun c n => (h c n).2.1]
  simp only [State.outAgs, among, fun c n => (h c n).2.2]

/-- R186: the lens with no invocation open. -/
def State.shut (s : State) (key : Nat) : State := s.setLens key { s.lens key with open_ := [] }

@[simp] theorem State.lens_shut (s : State) (key : Nat) : (s.shut key).lens key = { s.lens key with open_ := [] } :=
  State.lens_setLens ..

theorem State.shut_outAgs (s : State) (key : Nat) : (s.shut key).outAgs key = s.outAgs key :=
  State.outAgs_congr (by rw [State.lens_shut]; rfl) fun _ _ => ⟨rfl, rfl, rfl⟩

/-- R284: a write segment starts: one more write of its AG is to perform. -/
theorem State.segmentStart_ag (s : State) (c n d m : Nat) : ((s.segmentStart c n).core d).ag m =
    if d = c ∧ m = n then { (s.core d).ag m with pending := ((s.core d).ag m).pending + 1 } else (s.core d).ag m := by
  have bulk : (((s.bulkStart c).core d).ag m) = (s.core d).ag m := by
    by_cases hd : d = c
    · rw [hd, State.bulkStart, State.core_modCore]
      rfl
    · rw [State.bulkStart, State.core_modCore_ne _ _ _ _ hd]
  rw [State.segmentStart, State.ag_modCore, bulk]

theorem State.segmentStart_issued (s : State) (c n : Nat) : ((s.segmentStart c n).core c).issued = (s.core c).issued + 1 := by
  rw [State.segmentStart, State.core_modCore, State.bulkStart, State.core_modCore]
  rfl

theorem State.segmentStart_sameSlots (s : State) (c n : Nat) : SameSlots s (s.segmentStart c n) :=
  (s.modCore_sameSlots c (f := fun x => { x with issued := x.issued + 1 }) fun _ => rfl).trans
    (State.modAg_sameSlots _ c n _)

/-- R266, R284: a held store to the own window goes to the back port of its bank. -/
theorem State.commitAll_local (s : State) {g : Seg} (hg : g.space = 0) : s.commitAll [g] =
    (s.segmentStart g.core g.ag).backPort (bmIndex ((s.core g.core).bm (eaEntry g.addr)))
      (.segment g.core g.ag [(g.addr, g.bytes)] (s.classOf g.core)) := by
  rw [State.commitAll, segBlocks_one, List.foldl_cons, List.foldl_nil, State.commitBlock, hg]
  rfl

/-- R284: a held store to device memory performs at once. -/
theorem State.commitAll_device (s : State) {g : Seg} (hg : g.space = 2) :
    s.commitAll [g] = s.writeAt g.keys g.bytes := by
  rw [State.commitAll, segBlocks_one, List.foldl_cons, List.foldl_nil, State.commitBlock, hg]
  rfl

theorem State.pokeAt_eq (s : State) (ks : List Nat) (bs : List Byte) :
    s.pokeAt ks bs = { s with mem := (ks.zip bs).foldl (fun m x => memWrite m x.1 x.2) s.mem } := by
  rw [State.pokeAt]
  induction ks.zip bs generalizing s with
  | nil => rfl
  | cons p l ih => rw [List.foldl_cons, ih, List.foldl_cons]

section

variable {s : State} {key : Nat} {v : Invocation} (ho : (s.lens key).open_ = [v])
  (he : (s.lens key).endedBy v (s.lens key).endLimit = true)

include ho he

/-- R186, R307: the only open invocation is over; no AG of the lens stores its tokens. -/
theorem execInvocationEnd_ends (hn : ((s.shut key).commitAll v.segs).outAgs key = []) :
    exec (.invocationEnd key) s = .next ((s.shut key).commitAll v.segs) := by
  show execInvocationEnd key s = _
  have first : (s.lens key).open_.find? (fun v => (s.lens key).endedBy v (s.lens key).endLimit) = some v := by
    simp [ho, he]
  rw [State.shut] at hn
  unfold execInvocationEnd
  dsimp only
  rw [first]
  simp only [ho, dropFirst, beq_self_eq_true, if_true, hn, List.foldl_nil, State.shut]

variable (hn : s.outAgs key = [])

include hn

theorem invocationEnd_bare (hs : v.segs = []) :
    exec (.invocationEnd key) s = .next (s.setLens key { s.lens key with open_ := [] }) := by
  have ends := execInvocationEnd_ends ho he (by rw [hs]; exact (s.shut_outAgs key).trans hn)
  rw [hs] at ends
  exact ends

theorem invocationEnd_local {g : Seg} (hs : v.segs = [g]) (hg : g.space = 0) :
    Gives (.invocationEnd key) s fun t => SameMemory s t ∧ SameSlots s t ∧
      (t.lens key).open_ = [] ∧ (t.core g.core).issued = (s.core g.core).issued + 1 ∧
      ((t.core g.core).ag g.ag).pending = ((s.core g.core).ag g.ag).pending + 1 ∧
      t.back = s.back ++ [(bmIndex ((s.core g.core).bm (eaEntry g.addr)),
        Due.segment g.core g.ag [(g.addr, g.bytes)] (s.classOf g.core))] := by
  have ags (c m : Nat) := (s.shut key).segmentStart_ag g.core g.ag c m
  have none : ((s.shut key).commitAll v.segs).outAgs key = [] := by
    rw [hs, State.commitAll_local _ hg]
    refine (State.outAgs_congr (s := s.shut key) ?_ fun c m => ?_).trans ((s.shut_outAgs key).trans hn)
    · rfl
    rw [show (State.backPort _ _ _).core c = ((s.shut key).segmentStart g.core g.ag).core c from rfl, ags]
    split
    · exact ⟨rfl, rfl, rfl⟩
    · exact ⟨rfl, rfl, rfl⟩
  have ends := execInvocationEnd_ends ho he none
  rw [hs, State.commitAll_local _ hg] at ends
  refine ⟨_, ends, ⟨rfl, rfl⟩, ?_, ?_, ?_, ?_, rfl⟩
  · exact (State.sameSlots_of_cores rfl).trans ((s.shut key).segmentStart_sameSlots g.core g.ag)
  · exact congrArg Lens.open_ (s.lens_shut key)
  · exact (s.shut key).segmentStart_issued g.core g.ag
  · exact congrArg AG.pending ((ags g.core g.ag).trans (if_pos ⟨rfl, rfl⟩))

theorem invocationEnd_device {g : Seg} (hs : v.segs = [g]) (hg : g.space = 2) :
    Gives (.invocationEnd key) s fun t => SameSlots s t ∧ (t.lens key).open_ = [] ∧
      t.mem = (g.keys.zip g.bytes).foldl (fun m x => memWrite m x.1 x.2) s.mem := by
  have writes : (s.shut key).commitAll v.segs = ((s.shut key).pokeAt g.keys g.bytes).healAt g.keys := by
    rw [hs, State.commitAll_device _ hg]
    rfl
  rw [State.pokeAt_eq] at writes
  have ends := execInvocationEnd_ends ho he (by rw [writes]; exact (s.shut_outAgs key).trans hn)
  rw [writes] at ends
  exact ⟨_, ends, State.sameSlots_of_cores rfl, congrArg Lens.open_ (s.lens_shut key), rfl⟩

end

/-! ### Write segments at their bank (R284) -/

theorem segment_performs {s : State} {c n : Nat} {ea : Word} {bs : List Byte} {rest : List Due}
    (h : s.agenda = .segment c n [(ea, bs)] 0 :: rest) : Steps s fun t => SameSlots s t ∧
      t.mem = memWriteAll s.mem ((s.core c).winKey ea) bs ∧ ((t.core c).ag n).pending = ((s.core c).ag n).pending - 1 ∧
      t.agenda = rest ++ [.ev (.bulkTransferDone c)] := by
  have runs : step s = .next (((({ s with agenda := rest } : State).winPoke c ea bs).modCore c fun x => x.modAg n fun g =>
      { g with pending := g.pending - 1 }).soon (.bulkTransferDone c)) := by
    rw [step, h]
    rfl
  have ag := (({ s with agenda := rest } : State).winPoke c ea bs).ag_modCore c n c n fun g => { g with pending := g.pending - 1 }
  rw [if_pos ⟨rfl, rfl⟩] at ag
  exact ⟨_, runs, (State.sameSlots_of_cores (t := ({ s with agenda := rest } : State).winPoke c ea bs) rfl).trans
    (State.modAg_sameSlots _ c n _), rfl, congrArg AG.pending ag, rfl⟩

/-! ### The freeze line (R346, R347) -/

theorem freezeLine_freezes {s : State} {key : Nat} {e : RegionEvent} (hr : firstEvent (s.lens key).raised = some e)
    (hf : (s.lens key).freezing = false) (hl : (s.lens key).fused = true) : Gives (.freezeLine key) s fun t =>
      SameMemory s t ∧ SameSlots s t ∧
        t.lens key = { s.lens key with kept := some e, freezing := true, raised := [], mid := false } := by
  have counts (P : State → Prop) (same : P s) (count : ∀ u, P (s.countError u)) : P
      (if e.cause = 0x30 && (e.detail = 3 || e.detail = 4) then s.countError (unitCells e.core)
        else if e.cause = 0x39 then s.countError (unitBank (clusterOf e.core * 128 + e.bank)) else s) := by
    split
    · exact count _
    · split
      · exact count _
      · exact same
  have runs : exec (.freezeLine key) s = .next ((if e.cause = 0x30 && (e.detail = 3 || e.detail = 4) then
      s.countError (unitCells e.core)
      else if e.cause = 0x39 then s.countError (unitBank (clusterOf e.core * 128 + e.bank)) else s).setLens key
        { s.lens key with kept := some e, freezing := true, raised := [], mid := false }) := by
    show execFreezeLine key s = _
    unfold execFreezeLine
    dsimp only
    rw [hr]
    dsimp only
    rw [hf, hl]
    rfl
  obtain ⟨memory, slots⟩ := (counts (Steady s) .refl fun u => .of_cores rfl rfl rfl).setLens key
    { s.lens key with kept := some e, freezing := true, raised := [], mid := false }
  exact ⟨_, runs, memory, slots, State.lens_setLens ..⟩

end Sys2Proof.Machine
end

section
/-! SUPPORT. What an address generator's reads add to the lanes of its edge (R206, R208, R266). -/

namespace Sys2Proof.Machine

/-! ### Steps of an AG that add no token -/

/-- No slot and no lane of the core differs, and the AG has the same descriptor. -/
structure NoTokens (c n : Nat) (s u : State) : Prop where
  slots : SameSlots s u
  lanes : (u.core c).lanes = (s.core c).lanes
  desc : ((u.core c).ag n).desc = ((s.core c).ag n).desc

section

variable {c n : Nat} {s t u : State}

theorem NoTokens.of_cores (h : u.cores = s.cores) : NoTokens c n s u :=
  ⟨State.sameSlots_of_cores h, by rw [State.core, h, State.core], by rw [State.core, h, State.core]⟩

theorem NoTokens.refl : NoTokens c n s s := .of_cores rfl

theorem NoTokens.trans (h : NoTokens c n s t) (h' : NoTokens c n t u) : NoTokens c n s u :=
  ⟨h.slots.trans h'.slots, h'.lanes.trans h.lanes, h'.desc.trans h.desc⟩

theorem NoTokens.modCore {f : Core → Core} (hs : ∀ x, (f x).slots = x.slots) (hl : ∀ x, (f x).lanes = x.lanes)
    (ha : ∀ x, ((f x).ag n).desc = (x.ag n).desc) : NoTokens c n s (s.modCore c f) :=
  ⟨s.modCore_sameSlots c hs, by rw [State.core_modCore, hl], by rw [State.core_modCore, ha]⟩

theorem NoTokens.modAg {f : AG → AG} (hf : ∀ g, (f g).desc = g.desc) :
    NoTokens c n s (s.modCore c fun x => x.modAg n f) :=
  .modCore (fun _ => rfl) (fun _ => rfl) fun x => by rw [Core.ag_modAg, hf]

variable (c n s)

theorem State.useName_noTokens (m : BitVec 16) : NoTokens c n s (s.useName c m) :=
  .modCore (fun x => by split <;> rfl) (fun x => by split <;> rfl) fun x => by split <;> rfl

theorem State.startWalk_noTokens (m : BitVec 16) : NoTokens c n s (s.startWalk c m) := by
  unfold State.startWalk State.newWalk
  split
  · exact .refl
  · rw [State.laterX_eq]
    exact NoTokens.trans (t := s.modCore c fun x => { x with walks := x.walks ++ [m] })
      (.modCore (fun _ => rfl) (fun _ => rfl) fun _ => rfl) (.of_cores rfl)

theorem State.sendFrame_noTokens (die pkt : Nat) : NoTokens c n s (s.sendFrame die pkt) := by
  unfold State.sendFrame
  split
  · split
    · exact .of_cores rfl
    · exact .refl
  · exact .refl

theorem State.stage_noTokens (dst slot : Nat) (pc : BitVec 14) (name : BitVec 16) (g : Cargo) :
    NoTokens c n s (s.stage c dst slot pc name g).2 := by
  have numbered : NoTokens c n s (if g.writes && dst != 769 then s.takeSeq c dst else (0, s)).2 := by
    split
    · exact .modCore (f := fun x => { x with seqTo := _ }) (fun _ => rfl) (fun _ => rfl) fun _ => rfl
    · exact .refl
  unfold State.stage
  dsimp only
  split
  · refine NoTokens.trans ?_ (State.sendFrame_noTokens c n _ _ _)
    exact numbered.trans (.of_cores rfl)
  · exact numbered.trans (.of_cores rfl)

theorem State.sendRead_noTokens (k rd : Nat) (ea : Word) (size : Nat) (sc : Bool) (dst : Nat) :
    NoTokens c n s (s.sendRead c n k rd ea size sc dst) := by
  have staged := (s.useName_noTokens c n (eaName ea)).trans
    (State.stage_noTokens c n _ dst (8 + n) 0 (eaName ea) (.agRead n k rd ea size sc [] none))
  unfold State.sendRead
  dsimp only
  split
  · rw [State.laterX_eq]
    exact staged.trans (.of_cores rfl)
  · exact staged

theorem State.laneErr_noTokens (k : Nat) (e : AgErr) : NoTokens c n s (s.laneErr c n k e) := .modAg fun _ => rfl

theorem State.loseToken_noTokens (a : Word) : NoTokens c n s (s.loseToken c n a) := .modAg fun _ => rfl

theorem State.agWalk_noTokens (a : Word) (write : Bool) : NoTokens c n s (s.agWalk c n a write) := by
  unfold State.agWalk
  dsimp only
  split
  · exact .refl
  · rw [State.requestWalk, State.laterX_eq]
    refine NoTokens.trans (.modAg (f := fun g => { g with walk := some a, st := _ }) fun _ => rfl) (.of_cores rfl)

theorem State.agConflict_noTokens (m bank : Nat) : NoTokens c n s (s.agConflict c n m bank) := by
  unfold State.agConflict
  exact .of_cores rfl

variable {c n s}

theorem State.agPort_noTokens {timed : Bool} {used : List (Nat × Nat)} {bank blk : Nat}
    (h : s.agPort c n timed used bank blk = some u) : NoTokens c n s u := by
  unfold State.agPort at h
  split at h
  · cases h
    exact .refl
  · split at h
    · cases h
    · dsimp only at h
      split at h
      · cases h
      · split at h
        · cases h
          exact State.agConflict_noTokens ..
        · cases h
          exact .refl
      · cases h
        exact .modCore (fun _ => rfl) (fun _ => rfl) fun _ => rfl

theorem State.agPorts_noTokens {timed : Bool} {as : List Word} {used : List (Nat × Nat)} {r : State × List (Nat × Nat)}
    (h : s.agPorts c n timed used as = some r) : NoTokens c n s r.1 := by
  induction as generalizing s used with
  | nil =>
    cases h
    exact .refl
  | cons a as ih =>
    rw [State.agPorts] at h
    split at h
    case h_1 port => exact (State.agPort_noTokens port).trans (ih h)
    case h_2 => cases h

theorem State.askRead_noTokens {k : Nat} {al : AgLane} {p : AgPos} {addr : Word} {used : List (Nat × Nat)}
    {r : State × List (Nat × Nat)} (h : s.askRead c n k al p addr used = some r) : NoTokens c n s r.1 := by
  have stops {q : Place} {r : State × List (Nat × Nat)} (h : (match q with
      | .bad cause _ => some (s.laneErr c n k (agErrOf cause addr 0), used)
      | .name nm true => some (s.startWalk c nm, (1000000, 0) :: used)
      | _ => none) = some r) : NoTokens c n s r.1 := by
    split at h
    · cases h
      exact State.laneErr_noTokens ..
    · cases h
      exact State.startWalk_noTokens ..
    · cases h
  unfold State.askRead at h
  dsimp only at h
  split at h
  · cases h
    exact .modAg fun _ => rfl
  · split at h
    · cases h
      refine NoTokens.trans ?_ (NoTokens.modAg fun _ => rfl)
      have asked (size dst : Nat) :=
        (NoTokens.of_cores (c := c) (n := n) (s := s) (u := { s with nextPkt := s.nextPkt + 1 }) rfl).trans
          (State.sendRead_noTokens c n _ k s.nextPkt addr size false dst)
      split
      · exact (asked _ _).trans (State.sendRead_noTokens c n _ k _ _ _ _ _)
      · exact asked _ _
    · exact stops h
    · exact stops h

end

/-! ### The tokens of a lane -/

/-- A lane of an AG's edge. -/
def State.agLane (s : State) (c n j : Nat) : Lane := (s.core c).lane (AgDesc.edge ((s.core c).ag n).desc) j

/-- An AG's reads: no slot differs, its descriptor is the same, no lane of another edge differs, and its own lanes have
more tokens behind those they had; `fits` holds of every lane of which it held. -/
structure Fetches (c n : Nat) (fits : State → Nat → Prop) (s u : State) : Prop where
  slots : SameSlots s u
  desc : ((u.core c).ag n).desc = ((s.core c).ag n).desc
  others : ∀ e j, e ≠ AgDesc.edge ((s.core c).ag n).desc → j < 64 → (u.core c).lane e j = (s.core c).lane e j
  tails : ∀ j, ∃ more, (u.agLane c n j).fifo = (s.agLane c n j).fifo ++ more
  fits : ∀ j, fits s j → fits u j

/-- A lane holds no more tokens than its buffer. -/
def State.Fits (c n : Nat) (s : State) (j : Nat) : Prop := (s.agLane c n j).fifo.length ≤ 32

/-- So does a lane once the reads under way have come, each a header and a data token at most. -/
def State.FitsReads (c n : Nat) (s : State) (j : Nat) : Prop :=
  (s.agLane c n j).fifo.length + 2 * (((s.core c).ag n).lane j).reads.length ≤ 32

section

variable {c n : Nat} {fits : State → Nat → Prop} {s t u : State}

theorem Fetches.refl : Fetches c n fits s s :=
  ⟨fun _ => rfl, rfl, fun _ _ _ _ => rfl, fun _ => ⟨[], (List.append_nil _).symm⟩, fun _ => id⟩

theorem Fetches.trans (h : Fetches c n fits s t) (h' : Fetches c n fits t u) : Fetches c n fits s u := by
  refine ⟨h.slots.trans h'.slots, h'.desc.trans h.desc, fun e j he hj => ?_, fun j => ?_, fun j hj => h'.fits j (h.fits j hj)⟩
  · rw [h'.others e j (by rwa [h.desc]) hj, h.others e j he hj]
  · obtain ⟨more, tail⟩ := h.tails j
    obtain ⟨more', tail'⟩ := h'.tails j
    exact ⟨more ++ more', by rw [tail', tail, List.append_assoc]⟩

theorem Fetches.foldl {α : Type} {f : State → α → State} {l : List α} (hf : ∀ s, ∀ a ∈ l, Fetches c n fits s (f s a))
    (s : State) : Fetches c n fits s (l.foldl f s) := by
  induction l generalizing s with
  | nil => exact .refl
  | cons a l ih =>
    exact (hf s a List.mem_cons_self).trans (ih (fun s b hb => hf s b (List.mem_cons_of_mem a hb)) _)

theorem NoTokens.agLane (h : NoTokens c n s u) (j : Nat) : u.agLane c n j = s.agLane c n j := by
  rw [State.agLane, h.desc, Core.lane, h.lanes]
  rfl

theorem NoTokens.fetches (h : NoTokens c n s u) (hf : ∀ j, fits s j → fits u j) : Fetches c n fits s u := by
  refine ⟨h.slots, h.desc, fun e j _ _ => ?_, fun j => ⟨[], by rw [h.agLane, List.append_nil]⟩, hf⟩
  rw [Core.lane, h.lanes]
  rfl

theorem NoTokens.fetches_fits (h : NoTokens c n s u) : Fetches c n (State.Fits c n) s u :=
  h.fetches fun j hj => by rwa [State.Fits, h.agLane]

/-- Tokens enter a lane of the AG's edge. -/
def State.addTokens (s : State) (c n k : Nat) (ts : List Token) (f : AG → AG) : State :=
  s.modCore c fun x => (x.modLane (AgDesc.edge ((s.core c).ag n).desc) k fun a => { a with fifo := a.fifo ++ ts }).modAg n f

theorem State.addTokens_ag (s : State) (c n k : Nat) (ts : List Token) (f : AG → AG) :
    ((s.addTokens c n k ts f).core c).ag n = f ((s.core c).ag n) := by
  rw [State.addTokens, State.core_modCore, Core.ag_modAg]
  rfl

theorem State.addTokens_lane (s : State) (c n k : Nat) (ts : List Token) (f : AG → AG) (e j : Nat) :
    ((s.addTokens c n k ts f).core c).lane e j =
      if 64 * e + j = 64 * AgDesc.edge ((s.core c).ag n).desc + k then
        { (s.core c).lane e j with fifo := ((s.core c).lane e j).fifo ++ ts } else (s.core c).lane e j := by
  rw [State.addTokens, State.core_modCore]
  exact Core.lane_modLane (s.core c) _ k e j fun a => { a with fifo := a.fifo ++ ts }

theorem State.addTokens_agLane {k : Nat} {ts : List Token} {f : AG → AG} (hf : ∀ g, (f g).desc = g.desc) (j : Nat) :
    (s.addTokens c n k ts f).agLane c n j =
      if j = k then { s.agLane c n j with fifo := (s.agLane c n j).fifo ++ ts } else s.agLane c n j := by
  rw [State.agLane, State.addTokens_ag, hf, State.addTokens_lane]
  simp only [Nat.add_left_cancel_iff, State.agLane]

theorem State.addTokens_fetches {k : Nat} (hk : k < 64) {ts : List Token} {f : AG → AG} (hf : ∀ g, (f g).desc = g.desc)
    (fit : ∀ j, fits s j → fits (s.addTokens c n k ts f) j) : Fetches c n fits s (s.addTokens c n k ts f) := by
  refine ⟨s.modCore_sameSlots c fun _ => rfl, by rw [State.addTokens_ag, hf], fun e j he hj => ?_, fun j => ?_, fit⟩
  · rw [State.addTokens_lane, if_neg (by omega)]
  · rw [State.addTokens_agLane hf]
    split
    · exact ⟨ts, rfl⟩
    · exact ⟨[], (List.append_nil _).symm⟩

end

/-! ### Answered reads (R208) -/

theorem agTokens_length (d : AgDesc) (i0 : Nat) (p : AgPos) (bs : List Byte) (scale : Byte) :
    (agTokens d i0 p bs scale).length = p.tokens d i0 := by
  unfold agTokens AgPos.tokens
  dsimp only
  split
  · rfl
  · rfl

theorem AgPos.tokens_le (p : AgPos) (d : AgDesc) (i0 : Nat) : p.tokens d i0 ≤ 2 := by
  unfold AgPos.tokens
  split
  · exact le_refl 2
  · exact one_le_two

theorem AG.modLane_desc (g : AG) (k : Nat) (f : AgLane → AgLane) : (g.modLane k f).desc = g.desc := rfl

@[simp] theorem AG.lane_modLane_same (g : AG) (k : Nat) (f : AgLane → AgLane) : (g.modLane k f).lane k = f (g.lane k) := by
  simp [AG.lane, AG.modLane]

theorem AG.lane_modLane_ne (g : AG) {j k : Nat} (f : AgLane → AgLane) (h : j ≠ k) : (g.modLane k f).lane j = g.lane j :=
  Tab.at_put_ne _ _ _ _ _ h

section

variable {c n : Nat} {s : State}

theorem State.laneErr_fetches (k : Nat) (e : AgErr) : Fetches c n (State.FitsReads c n) s (s.laneErr c n k e) := by
  have still := State.laneErr_noTokens c n s k e
  refine still.fetches fun j hj => ?_
  have reads : (((s.laneErr c n k e).core c).ag n).lane j = (if j = k then
      { ((s.core c).ag n).lane j with err := some e } else ((s.core c).ag n).lane j) := by
    rw [State.laneErr, State.core_modCore, Core.ag_modAg]
    split
    case isTrue h => rw [h, AG.lane_modLane_same]
    case isFalse h => exact AG.lane_modLane_ne _ _ h
  rw [State.FitsReads, still.agLane, reads]
  split
  · exact hj
  · exact hj

theorem State.landReads_fetches {k : Nat} (hk : k < 64) (m : Nat) (s : State) :
    Fetches c n (State.FitsReads c n) s (State.landReads c n k m s) := by
  induction m generalizing s with
  | zero => exact .refl
  | succ m ih =>
    rw [State.landReads]
    dsimp only
    split
    case h_1 x rest reads =>
      split
      · exact .refl
      · split
        · exact State.laneErr_fetches ..
        · refine Fetches.trans ?_ (ih _)
          refine State.addTokens_fetches hk (fun _ => rfl) fun j hj => ?_
          rw [State.FitsReads] at hj ⊢
          rw [State.addTokens_ag, State.addTokens_agLane fun _ => AG.modLane_desc ..]
          have two := x.pos.tokens_le ((s.core c).ag n).desc ((AgDesc.dataLane ((s.core c).ag n).desc k).getD 0)
          by_cases h : j = k
          · subst h
            rw [if_pos rfl, AG.lane_modLane_same, List.length_append, agTokens_length]
            rw [reads, List.length_cons] at hj
            show _ + 2 * rest.length ≤ 32
            omega
          · rwa [if_neg h, AG.lane_modLane_ne _ _ h]
    case h_2 => exact .refl

/-! ### Tokens that are read (R206, R266) -/

theorem AgLane.fifo_le_filled (al : AgLane) (d : AgDesc) (i0 : Nat) (a : Lane) : a.fifo.length ≤ al.filled d i0 a := by
  unfold AgLane.filled
  omega

/-- R208: a token enters a lane only where it has room. -/
theorem State.addTokens_fits {u : State} {k : Nat} (hk : k < 64) {ts : List Token} {f : AG → AG}
    (hf : ∀ g, (f g).desc = g.desc) (room : (u.agLane c n k).fifo.length + ts.length ≤ 32) :
    Fetches c n (State.Fits c n) u (u.addTokens c n k ts f) := by
  refine State.addTokens_fetches hk hf fun j hj => ?_
  rw [State.Fits, State.addTokens_agLane hf]
  split
  case isTrue h =>
    subst h
    rwa [List.length_append]
  case isFalse => exact hj

theorem State.newTokens_fits {u : State} {e k : Nat} (hk : k < 64) (he : e = AgDesc.edge ((u.core c).ag n).desc)
    {ts : List Token} {f : AG → AG} (hf : ∀ g, (f g).desc = g.desc)
    (room : (u.agLane c n k).fifo.length + ts.length ≤ 32) : Fetches c n (State.Fits c n) u
      (u.modCore c fun x => (x.modLane e k fun a => { a with fifo := a.fifo ++ ts }).modAg n f) := by
  subst he
  exact State.addTokens_fits hk hf room

theorem AG.hit_desc (g : AG) (a : Word) : (g.hit a).desc = g.desc := by
  unfold AG.hit
  split <;> rfl

theorem State.fetchToken_fetches {k : Nat} (hk : k < 64) {used : List (Nat × Nat)} {r : State × List (Nat × Nat)}
    (h : s.fetchToken c n k used = some r) : Fetches c n (State.Fits c n) s r.1 := by
  unfold State.fetchToken at h
  dsimp only at h
  split at h
  case isTrue => cases h
  case isFalse goes =>
    simp only [Bool.or_eq_true, not_or, decide_eq_true_eq, not_lt] at goes
    obtain ⟨-, room⟩ := goes
    split at h
    case isTrue => exact (State.askRead_noTokens h).fetches_fits
    case isFalse =>
      split at h
      · split at h
        · cases h
          exact (State.loseToken_noTokens ..).fetches_fits
        · cases h
          exact (State.laneErr_noTokens ..).fetches_fits
      · cases h
        exact (State.agWalk_noTokens ..).fetches_fits
      · cases h
      · split at h
        case h_1 => cases h
        case h_2 u used' port =>
          have served : NoTokens c n s u := by
            split at port
            · exact State.agPorts_noTokens port
            · cases port
              exact .refl
          rcases ite_eq_iff.1 h with ⟨-, h⟩ | ⟨-, h⟩
          · cases h
            exact (served.trans (State.laneErr_noTokens ..)).fetches_fits
          · cases h
            refine served.fetches_fits.trans (State.newTokens_fits hk (by rw [served.desc]) ?_ ?_)
            · exact fun g => (AG.modLane_desc ..).trans (g.hit_desc _)
            · rw [served.agLane, agTokens_length]
              exact (Nat.add_le_add_right (AgLane.fifo_le_filled ..) _).trans room

theorem State.fetchLane_fetches {k : Nat} (hk : k < 64) (m : Nat) (r : State × List (Nat × Nat)) :
    Fetches c n (State.Fits c n) r.1 (State.fetchLane c n k m r).1 := by
  induction m generalizing r with
  | zero => exact .refl
  | succ m ih =>
    obtain ⟨s, used⟩ := r
    rw [State.fetchLane]
    split
    · exact .refl
    · split
      case h_1 fetched => exact (State.fetchToken_fetches hk fetched).trans (ih _)
      case h_2 => exact .refl

theorem State.fetchLanes_fetches {order : List Nat} (ho : ∀ k ∈ order, k < 64) (r : State × List (Nat × Nat)) :
    Fetches c n (State.Fits c n) r.1 (order.foldl (fun r k => State.fetchLane c n k 40 r) r).1 := by
  induction order generalizing r with
  | nil => exact .refl
  | cons k order ih =>
    exact (State.fetchLane_fetches (ho k List.mem_cons_self) 40 r).trans (ih (fun j hj => ho j (List.mem_cons_of_mem k hj)) _)

/-! ### One P-cycle of an AG's reads -/

/-- R208: an AG that is done adds no token. -/
theorem State.agWriteBack_lanes (s : State) (c n : Nat) :
    SameSlots s (s.agWriteBack c n) ∧ ((s.agWriteBack c n).core c).lanes = (s.core c).lanes := by
  have written (v : Nat) : SameSlots s (s.modCore c fun x => x.modAg n fun g => { g with desc := setBits g.desc 448 64 v }) ∧
      ((s.modCore c fun x => x.modAg n fun g => { g with desc := setBits g.desc 448 64 v }).core c).lanes =
        (s.core c).lanes :=
    ⟨State.modAg_sameSlots s c n _, by rw [State.core_modCore]; rfl⟩
  unfold State.agWriteBack
  dsimp only
  split
  · exact written _
  · obtain ⟨slots, lanes⟩ := written _
    exact ⟨slots.trans (State.sameSlots_of_cores rfl), lanes⟩

theorem State.agInDone_lanes (s : State) (c n : Nat) :
    SameSlots s (s.agInDone c n) ∧ ((s.agInDone c n).core c).lanes = (s.core c).lanes := by
  unfold State.agInDone
  dsimp only
  split
  · obtain ⟨slots, lanes⟩ := State.agWriteBack_lanes (s.modCore c fun x => x.modAg n _) c n
    refine ⟨(State.modAg_sameSlots s c n _).trans slots, lanes.trans ?_⟩
    rw [State.core_modCore]
    rfl
  · exact ⟨fun _ => rfl, rfl⟩

theorem Lens.segment_le (l : Lens) (edge f : Nat) : (l.segment edge f).2 ≤ 64 := by
  have inside (p : Nat → Bool) (m : Nat) : (((List.range m).filter p).filter fun i => i / 64 == f).length ≤ 64 := by
    have sub : (((List.range m).filter p).filter fun i => i / 64 == f) ⊆ List.range' (64 * f) 64 := fun i hi => by
      have := List.of_mem_filter hi
      simp only [beq_iff_eq] at this
      rw [List.mem_range'_1]
      omega
    have nodup := ((List.nodup_range (n := m)).filter p).filter fun i => i / 64 == f
    simpa using (nodup.subperm sub).length_le
  unfold Lens.segment
  dsimp only
  split
  · exact inside _ _
  · exact inside _ _

/-- R208: what an AG's reads of one P-cycle leave of the lanes of its core. -/
def ReadsOnly (c n : Nat) (s t : State) : Prop :=
  SameSlots s t ∧
  (∀ e j, e ≠ AgDesc.edge ((s.core c).ag n).desc → j < 64 → (t.core c).lane e j = (s.core c).lane e j) ∧
  ∀ j, (∃ more, ((t.core c).lane (AgDesc.edge ((s.core c).ag n).desc) j).fifo =
    ((s.core c).lane (AgDesc.edge ((s.core c).ag n).desc) j).fifo ++ more) ∧
    (((s.core c).lane (AgDesc.edge ((s.core c).ag n).desc) j).fifo.length + 2 * (((s.core c).ag n).lane j).reads.length ≤ 32 →
      ((t.core c).lane (AgDesc.edge ((s.core c).ag n).desc) j).fifo.length ≤ 32)

theorem Fetches.readsOnly {t u v : State} (lands : Fetches c n (State.FitsReads c n) s t)
    (reads : Fetches c n (State.Fits c n) t u) (slots : SameSlots u v) (lanes : (v.core c).lanes = (u.core c).lanes) :
    ReadsOnly c n s v := by
  have all : Fetches c n (fun _ _ => True) s u :=
    Fetches.trans ⟨lands.slots, lands.desc, lands.others, lands.tails, fun _ h => h⟩
      ⟨reads.slots, reads.desc, reads.others, reads.tails, fun _ h => h⟩
  have lane (e j : Nat) : (v.core c).lane e j = (u.core c).lane e j := by rw [Core.lane, lanes, Core.lane]
  have own (j : Nat) : (v.core c).lane (AgDesc.edge ((s.core c).ag n).desc) j = u.agLane c n j := by
    rw [lane, State.agLane, all.desc]
  refine ⟨all.slots.trans slots, fun e j he hj => (lane e j).trans (all.others e j he hj), fun j => ⟨?_, fun hj => ?_⟩⟩
  · obtain ⟨more, tail⟩ := all.tails j
    exact ⟨more, by rw [own, tail, State.agLane]⟩
  · rw [own]
    refine reads.fits j ?_
    have after : t.FitsReads c n j := lands.fits j hj
    exact (Nat.le_add_right _ _).trans after

/-- R206: some lanes of an AG take what has been answered, then read. -/
theorem State.fetchLanes_readsOnly {ks : List Nat} (hk : ∀ k ∈ ks, k < 64) (lane : Nat) : ReadsOnly c n s
    ((((ks.filter fun k => decide (lane ≤ k)) ++ ks.filter fun k => decide (k < lane)).foldl
      (fun r k => State.fetchLane c n k 40 r) (ks.foldl (fun s k => State.landReads c n k 33 s) s, [])).1.agInDone c n) := by
  have lands : Fetches c n (State.FitsReads c n) s (ks.foldl (fun s k => State.landReads c n k 33 s) s) :=
    .foldl (fun s k h => State.landReads_fetches (hk k h) 33 s) s
  have order : ∀ k ∈ (ks.filter fun k => decide (lane ≤ k)) ++ ks.filter fun k => decide (k < lane), k < 64 := fun k h =>
    (List.mem_append.1 h).elim (fun h => hk k (List.mem_of_mem_filter h)) fun h => hk k (List.mem_of_mem_filter h)
  have reads := State.fetchLanes_fetches (c := c) (n := n) order (ks.foldl (fun s k => State.landReads c n k 33 s) s, [])
  obtain ⟨slots, lanes⟩ := State.agInDone_lanes _ c n
  exact lands.readsOnly reads slots lanes

theorem State.agFetchAll_readsOnly (s : State) (c n lane : Nat) : ReadsOnly c n s (s.agFetchAll c n lane) := by
  unfold State.agFetchAll
  dsimp only
  split
  · exact Fetches.refl.readsOnly .refl (fun _ => rfl) rfl
  · refine State.fetchLanes_readsOnly (fun k hk => ?_) lane
    exact lt_of_lt_of_le (of_decide_eq_true (List.mem_filter.1 hk).2) (Lens.segment_le _ _ _)

theorem State.agFetchAll_shut {lane : Nat} (h : (s.core c).gates.getLsbD (AgDesc.edge ((s.core c).ag n).desc) = true) :
    s.agFetchAll c n lane = s := by
  unfold State.agFetchAll
  exact if_pos (by simp only [h, Bool.or_true, Bool.true_or])

end

end Sys2Proof.Machine
end

section
/-! SUPPORT. A complete freeze of a lens (R346 to R349), and the obligation about the agents of a lens. -/

namespace Sys2Proof.Machine

/-! ### The AGs of a core and the writes that they have under way -/

/-- No AG of the lens has a write under way. -/
def Core.Settled (key : Nat) (x : Core) : Prop := ∀ q ∈ x.ags, q.2.lens = key → q.2.pending = 0

theorem Tab.mem_put (t : Tab β) (k : Nat) (v : β) (q : Nat × β) (h : q ∈ Tab.put t k v) : q = (k, v) ∨ q ∈ t := by
  induction t with
  | nil => exact .inl (List.mem_singleton.1 h)
  | cons p r ih =>
    rw [Tab.put] at h
    split at h
    · exact (List.mem_cons.1 h).imp_right fun h => h
    · split at h
      · exact (List.mem_cons.1 h).imp_right (List.mem_cons_of_mem _)
      · rcases List.mem_cons.1 h with rfl | h
        · exact .inr List.mem_cons_self
        · exact (ih h).imp_right (List.mem_cons_of_mem _)

/-- An AG that is not listed has no write under way. -/
theorem Core.Settled.ag {key : Nat} {x : Core} (h : x.Settled key) {n : Nat} (hl : (x.ag n).lens = key) : (x.ag n).pending = 0 := by
  rw [Core.ag, Tab.at] at hl ⊢
  cases found : Tab.find x.ags n with
  | none => rfl
  | some g =>
    rw [found] at hl
    exact h (n, g) (Tab.mem_of_find found) hl

theorem Core.Settled.modAg {key : Nat} {x : Core} (h : x.Settled key) {n : Nat} {f : AG → AG}
    (hl : (f (x.ag n)).lens = (x.ag n).lens) (hp : (f (x.ag n)).pending = (x.ag n).pending) : (x.modAg n f).Settled key := by
  intro q hq hk
  rcases Tab.mem_put _ _ _ _ hq with rfl | hq
  · exact hp.trans (h.ag (hl.symm.trans hk))
  · exact h q hq hk

/-! ### What stopping the AGs of a lens leaves -/

/-- The slots and the nodes of a core are the same, and AGs without writes under way have none. -/
structure Core.Halts (key : Nat) (x y : Core) : Prop where
  slots : y.slots = x.slots
  nodes : y.nodes = x.nodes
  settled : x.Settled key → y.Settled key

/-- So for every core, and the lenses and the front end are the same. -/
structure Halts (key : Nat) (s u : State) : Prop where
  lenses : u.lenses = s.lenses
  fe : u.fe = s.fe
  cores : ∀ c, Core.Halts key (s.core c) (u.core c)

section

variable {key : Nat} {s t u : State}

theorem Core.Halts.refl {x : Core} : Core.Halts key x x := ⟨rfl, rfl, id⟩

theorem Core.Halts.modAg {x : Core} {n : Nat} {f : AG → AG} (hl : (f (x.ag n)).lens = (x.ag n).lens)
    (hp : (f (x.ag n)).pending = (x.ag n).pending) : Core.Halts key x (x.modAg n f) :=
  ⟨rfl, rfl, fun h => h.modAg hl hp⟩

theorem Halts.of_cores (hl : u.lenses = s.lenses) (hf : u.fe = s.fe) (hc : u.cores = s.cores) : Halts key s u :=
  ⟨hl, hf, fun c => by rw [State.core, State.core, hc]; exact .refl⟩

theorem Halts.refl : Halts key s s := .of_cores rfl rfl rfl

theorem Halts.trans (h : Halts key s t) (h' : Halts key t u) : Halts key s u :=
  ⟨h'.lenses.trans h.lenses, h'.fe.trans h.fe, fun c => ⟨(h'.cores c).slots.trans (h.cores c).slots,
    (h'.cores c).nodes.trans (h.cores c).nodes, fun x => (h'.cores c).settled ((h.cores c).settled x)⟩⟩

theorem Halts.modCore {c : Nat} {f : Core → Core} (h : Core.Halts key (s.core c) (f (s.core c))) :
    Halts key s (s.modCore c f) := by
  refine ⟨rfl, rfl, fun d => ?_⟩
  by_cases hd : d = c
  · rw [hd, State.core_modCore]
    exact h
  · rw [State.core_modCore_ne _ _ _ _ hd]
    exact .refl

theorem Halts.foldl {α : Type} {f : State → α → State} (hf : ∀ s a, Halts key s (f s a)) (l : List α) (s : State) :
    Halts key s (l.foldl f s) := by
  induction l generalizing s with
  | nil => exact .refl
  | cons a l ih => exact (hf s a).trans (ih _)

theorem Halts.sameSlots (h : Halts key s u) : SameSlots s u := fun q => by
  rw [State.slot, Core.slot, (h.cores q.core).slots]
  rfl

theorem Halts.node (h : Halts key s u) (c n : Nat) : (u.core c).node n = (s.core c).node n := by
  rw [Core.node, (h.cores c).nodes]
  rfl

variable (key s)

theorem State.modLane_halts (c e k : Nat) (f : Lane → Lane) : Halts key s (s.modCore c fun x => x.modLane e k f) :=
  .modCore ⟨rfl, rfl, id⟩

theorem State.agWriteBack_halts (c n : Nat) : Halts key s (s.agWriteBack c n) := by
  have written (v : Nat) : Halts key s (s.modCore c fun x => x.modAg n fun g => { g with desc := setBits g.desc 448 64 v }) :=
    .modCore (.modAg rfl rfl)
  unfold State.agWriteBack
  dsimp only
  split
  · exact written _
  · exact (written _).trans (.of_cores rfl rfl rfl)

theorem State.stopAg_halts (c n : Nat) {v : AG} (hl : v.lens = ((s.core c).ag n).lens)
    (hp : v.pending = ((s.core c).ag n).pending) :
    Halts key s (s.modCore c fun x => (x.freeLanes n).modAg n fun _ => v) :=
  .modCore ⟨rfl, rfl, fun h => Core.Settled.modAg (x := (s.core c).freeLanes n) h hl hp⟩

/-- R347: an AG that stops stays on its lens, its writes under way with it. -/
theorem State.rewindAg_halts (open_ : List Invocation) (e : RegionEvent) (c n : Nat) :
    Halts key s (s.rewindAg open_ e c n) := by
  unfold State.rewindAg
  dsimp only
  refine Halts.trans ?_ (State.agWriteBack_halts key _ c n)
  have lanes (l : List Nat) (f : Nat → AgLane) :=
    foldl_keeps (P := fun g : AG => g.lens = ((s.core c).ag n).lens ∧ g.pending = ((s.core c).ag n).pending)
      (f := fun g k => g.modLane k fun _ => f k) (fun _ _ h => h) l ⟨rfl, rfl⟩
  split
  · exact State.stopAg_halts _ _ _ _ (lanes _ _).1 (lanes _ _).2
  · refine Halts.trans (State.stopAg_halts key s c n ?_ ?_) (.foldl (fun u k => ?_) _ _)
    · exact (lanes _ _).1
    · exact (lanes _ _).2
    · split
      · exact State.modLane_halts ..
      · exact .refl

theorem State.modEdgeLane_halts (l : Lens) (edge i : Nat) (f : Lane → Lane) : Halts key s (s.modEdgeLane l edge i f) := by
  unfold State.modEdgeLane
  exact State.modLane_halts ..

theorem State.clearLanes_halts (l : Lens) (firsts : List Nat) : Halts key s (s.clearLanes l firsts) := by
  unfold State.clearLanes
  dsimp only
  refine Halts.foldl (fun u e => ?_) _ _
  refine Halts.foldl (fun v i => ?_) _ _
  exact State.modEdgeLane_halts ..

theorem State.winPoke_halts (c : Nat) (a : Word) (bs : List Byte) : Halts key s (s.winPoke c a bs) := .of_cores rfl rfl rfl

theorem State.writeRecord_halts (l : Lens) (r : BitVec 512) : Halts key s (s.writeRecord l r) := by
  unfold State.writeRecord
  dsimp only
  split
  · exact State.winPoke_halts ..
  · exact .refl

end

/-! ### The freeze record (R348) -/

theorem dwords_sum (l : List Nat) (k w : Nat) : ∃ m,
    (l.zipIdx k).foldl (fun w p => w + p.1 % 2 ^ 64 * 2 ^ (64 * p.2)) w = w + 2 ^ (64 * k) * m := by
  induction l generalizing k w with
  | nil => exact ⟨0, rfl⟩
  | cons a l ih =>
    obtain ⟨m, sum⟩ := ih (k + 1) (w + a % 2 ^ 64 * 2 ^ (64 * k))
    refine ⟨a % 2 ^ 64 + 2 ^ 64 * m, ?_⟩
    rw [List.zipIdx_cons, List.foldl_cons, sum]
    ring

/-- The highest byte of a record's first dword. -/
theorem recordOf_cause (a : Nat) (l : List Nat) : bits (recordOf (a :: l)) 56 8 = a / 2 ^ 56 % 256 := by
  obtain ⟨m, sum⟩ := dwords_sum l 1 (a % 2 ^ 64)
  have whole : recordOf (a :: l) = BitVec.ofNat 512 (a % 2 ^ 64 + 2 ^ 64 * m) := by
    rw [recordOf, List.zipIdx_cons, List.foldl_cons]
    simpa using congrArg (BitVec.ofNat 512) sum
  rw [whole, bits, BitVec.extractLsb'_toNat, BitVec.toNat_ofNat, Nat.shiftRight_eq_div_pow]
  omega

theorem freezeRecord_cause (l : Lens) (e : RegionEvent) (why : Nat) : bits (freezeRecord l e why) 56 8 = e.cause.toNat := by
  unfold freezeRecord
  dsimp only
  rw [recordOf_cause]
  have := e.cause.isLt
  have := e.detail.isLt
  omega

/-! ### The freeze is complete -/

theorem Lens.setSkids_eq (l : Lens) (e : RegionEvent) : l.setSkids e = { l with cells := (l.setSkids e).cells } := by
  unfold Lens.setSkids
  exact foldl_keeps (P := fun m : Lens => m = { l with cells := m.cells })
    (fun m a h => foldl_keeps (P := fun m : Lens => m = { l with cells := m.cells })
      (fun m b h => by dsimp only [Lens.setCell]; rw [h]) _ h) _ rfl

/-- R347 to R349: the lens once every facet has stopped. -/
def Lens.stopped (l : Lens) (e : RegionEvent) (r : BitVec 512) : Lens :=
  { l.setSkids e with
    st := .frozen, last := e.cause, freezing := false, record := r, raised := [], open_ := [], waves := [], wires := []
    mid := false
    seq := { l.seq with
      active := false, ended := true, paused := false, stop := .none, adv := 0
      loops := match l.open_ with
        | v :: _ => v.loops
        | [] => l.seq.loops } }

/-- R347 to R349: the machine then, before the node of the list completes. -/
def State.frozenBy (s : State) (key : Nat) (e : RegionEvent) : State :=
  let l := s.lens key
  let r := freezeRecord l e (s.freezeWhy l e)
  ((((((s.frozenAgs key).foldl (fun s p => s.rewindAg l.open_ e p.1 p.2) s).clearLanes l (l.open_.map (·.first))).writeRecord l
    r).modFe fun f => { f with freezes := f.freezes ++ [r] }).setLens key (l.stopped e r))

section

variable (s : State) (key : Nat) (e : RegionEvent)

theorem State.frozenBy_halts : ∃ u, Halts key s u ∧ s.frozenBy key e =
    (u.modFe fun f => { f with freezes := f.freezes ++ [freezeRecord (s.lens key) e (s.freezeWhy (s.lens key) e)] }).setLens key
      ((s.lens key).stopped e (freezeRecord (s.lens key) e (s.freezeWhy (s.lens key) e))) :=
  ⟨_, (Halts.foldl (fun _ _ => State.rewindAg_halts ..) _ _).trans
    ((State.clearLanes_halts ..).trans (State.writeRecord_halts ..)), rfl⟩

@[simp] theorem State.lens_frozenBy : (s.frozenBy key e).lens key =
    (s.lens key).stopped e (freezeRecord (s.lens key) e (s.freezeWhy (s.lens key) e)) := State.lens_setLens ..

theorem State.frozenBy_freezes : (s.frozenBy key e).fe.freezes = s.fe.freezes ++ [((s.frozenBy key e).lens key).record] := by
  obtain ⟨u, halts, frozen⟩ := s.frozenBy_halts key e
  rw [State.lens_frozenBy, frozen]
  exact congrArg (fun f : FrontEnd => f.freezes ++ _) halts.fe

theorem State.frozenBy_core (c : Nat) : Core.Halts key (s.core c) ((s.frozenBy key e).core c) := by
  obtain ⟨u, halts, frozen⟩ := s.frozenBy_halts key e
  rw [frozen]
  exact halts.cores c

theorem State.frozenBy_sameSlots : SameSlots s (s.frozenBy key e) := fun q =>
  congrArg (fun t => Tab.at t q.slot Slot.reset) (s.frozenBy_core key e q.core).slots

variable {s key e}

/-- R347, R348: what the lens, its record and the front end are from then on. -/
theorem State.frozenBy_record {t : State} {P : Prop} (slots : SameSlots (s.frozenBy key e) t)
    (lens : t.lens key = (s.frozenBy key e).lens key) (fe : t.fe = (s.frozenBy key e).fe) (h : P) :
    SameSlots s t ∧ (t.lens key).st = .frozen ∧ (t.lens key).last = e.cause ∧ (t.lens key).freezing = false ∧
      (t.lens key).open_ = [] ∧ (t.lens key).waves = [] ∧ (t.lens key).wires = [] ∧
      t.fe.freezes = s.fe.freezes ++ [(t.lens key).record] ∧
      (t.lens key).record = freezeRecord (s.lens key) e (s.freezeWhy (s.lens key) e) ∧
      bits (t.lens key).record 56 8 = e.cause.toNat ∧ P := by
  have freezes := s.frozenBy_freezes key e
  rw [← lens, ← fe] at freezes
  refine ⟨(s.frozenBy_sameSlots key e).trans slots, ?_⟩
  rw [State.lens_frozenBy] at lens
  rw [freezes, lens]
  exact ⟨rfl, rfl, rfl, rfl, rfl, rfl, rfl, rfl, freezeRecord_cause .., h⟩

variable (s key e)

theorem Lens.stopped_rect (l : Lens) (r : BitVec 512) :
    (l.stopped e r).cores = l.cores ∧ (l.stopped e r).origin = l.origin ∧ (l.stopped e r).queue = l.queue := by
  rw [Lens.stopped, Lens.setSkids_eq]
  exact ⟨rfl, rfl, rfl⟩

end

section

variable {s : State} {key : Nat}

/-- R307, R347: what the end of a frozen list leaves as it is. -/
theorem State.frozenEnd_keeps (hq : (s.lens key).queue = []) (n : Nat) (cause detail : BitVec 8) :
    SameSlots s (s.frozenEnd key n cause detail) ∧ (s.frozenEnd key n cause detail).lens key = s.lens key ∧
      (s.frozenEnd key n cause detail).fe = s.fe := by
  have fe : (s.nodeEnd (s.lens key).origin n cause detail).fe = s.fe := by
    unfold State.nodeEnd State.nodeEndIn
    split <;> rfl
  unfold State.frozenEnd
  dsimp only
  split
  · exact ⟨State.sameSlots_of_cores rfl, rfl, rfl⟩
  · rw [State.lens_nodeEnd, hq, List.isEmpty_nil, if_pos rfl]
    exact ⟨(Steady.refl.nodeEnd (s := s) _ n cause detail).2, State.lens_nodeEnd .., fe⟩

/-- R307, R347: the node of a frozen list ends where no write of its AGs is under way. -/
theorem State.frozenEnd_ends (hq : (s.lens key).queue = []) {n : Nat} {cause detail : BitVec 8}
    (hs : ∀ c ∈ (s.lens key).cores, (s.core c).Settled key) (hn : ((s.core (s.lens key).origin).node n).st ≠ .free) :
    (((s.frozenEnd key n cause detail).core (s.lens key).origin).node n).status = cause ∧
      (((s.frozenEnd key n cause detail).core (s.lens key).origin).node n).detail = detail := by
  have none : ¬((s.lens key).cores.any fun c => (s.core c).ags.any fun q => q.2.lens == key && q.2.pending != 0) = true := by
    simp only [List.any_eq_true, not_exists, not_and, Bool.and_eq_true, beq_iff_eq, bne_iff_ne, ne_eq, not_not]
    exact fun c hc q hq hk => hs c hc q hq hk
  have ends : s.frozenEnd key n cause detail = s.nodeEnd (s.lens key).origin n cause detail := by
    unfold State.frozenEnd
    dsimp only
    rw [if_neg none, State.lens_nodeEnd, hq, List.isEmpty_nil, if_pos rfl]
  obtain ⟨status, detail, -⟩ := State.nodeEnd_ends hn cause detail
  rw [ends]
  exact ⟨status, detail⟩

/-- R347: a freeze is not complete while an output AG waits with tokens of ended invocations. -/
theorem execFreezeComplete_waits (h : s.storesWalk key ((s.lens key).open_.map (·.first)) = true) :
    exec (.freezeComplete key) s = .next s := by
  show execFreezeComplete key s = _
  unfold execFreezeComplete
  dsimp only
  split
  · rfl
  · rw [if_pos (by rw [h, Bool.or_true])]

theorem execFreezeComplete_stops {e : RegionEvent} (hk : (s.lens key).kept = some e) (hf : (s.lens key).freezing = true)
    (hd : e.fcyc + (s.lens key).skMax e < (s.lens key).acyc) (hq : (s.lens key).queue = [])
    (hs : s.storesWalk key ((s.lens key).open_.map (·.first)) = false) : exec (.freezeComplete key) s = .next
      (if (s.lens key).seq.active = true then (s.frozenBy key e).frozenEnd key (s.lens key).seq.node e.cause e.detail
        else s.frozenBy key e) := by
  have queue : ((s.frozenBy key e).lens key).queue = [] := by
    rw [State.lens_frozenBy, (Lens.stopped_rect e (s.lens key) _).2.2, hq]
  have runs : exec (.freezeComplete key) s = .next
      (if (s.lens key).seq.active = true then (s.frozenBy key e).frozenEnd key (s.lens key).seq.node e.cause e.detail
        else if ((s.frozenBy key e).lens key).queue.isEmpty then s.frozenBy key e
        else (s.frozenBy key e).soon (.lensNodeStart key)) := by
    show execFreezeComplete key s = _
    unfold execFreezeComplete
    dsimp only
    rw [hk]
    dsimp only
    rw [if_neg (by simp [hf, hs, Nat.not_le.2 hd])]
    rfl
  rw [runs, queue]
  rfl

end

/-- Settles O44, agent by agent, by the lemmas of each agent above. -/
theorem lensAgentsAct : Obligations.LensAgentsAct := by
  refine ⟨fun s key edge i v tok rest => ?input, fun s key => ?wait, fun s c n k hc hn => ?fetch,
    fun s task n k r a tok rest => ?channel, fun s key v => ?invocation, fun s c n ea bs rest h => segment_performs h,
    fun s key e => ?freeze⟩
  case input =>
    intro l c k a he hi hp hf hd h9 ha
    refine ⟨_, (execInputPresent_presents he hi hp).trans
      (congrArg Host.Outcome.next (State.presentLane_prism hf hd h9 ha)), ⟨rfl, rfl⟩, ?_, ?_, ?_, ?_, ?_⟩
    · exact (s.modCore_sameSlots c (f := fun x => x.modLane edge k _) fun _ => rfl).trans (State.sameSlots_of_cores rfl)
    · exact (s.lane_modCore c edge k c edge k _).trans (if_pos ⟨rfl, rfl⟩)
    · rw [State.lens_modLens]
      rfl
    · rw [State.lens_modLens]
      rfl
    · exact fun hb h5 h8 => congrArg Prod.fst (portToken_plain hb h5 h8)
  case wait => exact edgeWaitEnd_ends
  case fetch =>
    intro d
    have runs : exec (.agFetch c n k) s = .next (s.agFetchAll c n k) :=
      (if_pos hc).trans (congrArg Host.Outcome.next (if_pos hn))
    exact ⟨⟨_, runs, s.agFetchAll_readsOnly c n k⟩, fun shut =>
      runs.trans (congrArg Host.Outcome.next (State.agFetchAll_shut shut))⟩
  case channel =>
    intro key p l hr ha hm hf hd hl
    exact channelForward_forwards hr ha hm hf hd hl
  case invocation =>
    intro l ho he hn
    exact ⟨invocationEnd_bare ho he hn, fun g => invocationEnd_local ho he hn, fun g => invocationEnd_device ho he hn⟩
  case freeze =>
    intro l
    refine ⟨freezeLine_freezes, ?_⟩
    intro stored
    refine ⟨fun walks => execFreezeComplete_waits (by simpa [stored] using walks), fun hk hf hd hq hs => ?_⟩
    have runs := execFreezeComplete_stops hk hf hd hq hs
    by_cases live : (s.lens key).seq.active = true
    · rw [if_pos live] at runs
      obtain ⟨cores, origin, queue⟩ := Lens.stopped_rect e (s.lens key) (freezeRecord l e (s.freezeWhy l e))
      obtain ⟨slots, lens, fe⟩ := State.frozenEnd_keeps (s := s.frozenBy key e) (key := key)
        (by rw [State.lens_frozenBy, queue, hq]) (s.lens key).seq.node e.cause e.detail
      refine ⟨_, runs, State.frozenBy_record slots lens fe fun _ hn settled => ?_⟩
      have ends := State.frozenEnd_ends (s := s.frozenBy key e) (key := key) (n := (s.lens key).seq.node) (cause := e.cause)
        (detail := e.detail) (by rw [State.lens_frozenBy, queue, hq])
      rw [State.lens_frozenBy, cores, origin] at ends
      refine ends (fun c hc => (s.frozenBy_core key e c).settled (settled c hc)) ?_
      rw [Core.node, (s.frozenBy_core key e _).nodes]
      exact hn
    · rw [if_neg live] at runs
      exact ⟨_, runs, State.frozenBy_record (fun _ => rfl) rfl rfl fun active => absurd active live⟩

end Sys2Proof.Machine
end

section
/-! SUPPORT. A command of a slot that leaves its status (R213, R214): what the slot is then, and what else changes. -/

namespace Sys2Proof.Machine

/-! ### Words that have passed -/

/-- What is written in its slot by a word that has passed. -/
theorem State.passed_modMe (s : State) (f : Slot → Slot) : s.passed.modMe f = s.setSlot s.cur (f s.passed.me) := by
  rw [State.passed_me, State.passed, State.modMe_setSlot]

theorem State.reported_eq (s : State) (opc unit code : Nat) : s.reported opc unit code =
    s.setSlot s.cur { s.passed.me with lstate := lstateValue false opc unit code } := s.passed_modMe _

theorem State.reporting_eq (s : State) (opc unit : Nat) : s.reporting opc unit =
    s.setSlot s.cur { s.passed.me with lstate := lstateValue true opc unit 0 } := s.passed_modMe _

/-- An event is put down as well before the end of its word as after it. -/
theorem Scheduled.passed {s t : State} {lo hi : Nat} {i : Instr} (h : Scheduled s t lo hi i) :
    Scheduled s.passed t.passed lo hi i := by
  obtain ⟨rest, keep, put⟩ := h
  exact ⟨by rw [rest]; rfl, keep, put⟩

/-- R213, R214: a command that has issued, whose end is put down. -/
theorem State.reporting_scheduled (s : State) (opc unit : Nat) {lo hi : Nat} (h : lo ≤ hi) (i : Instr) :
    Scheduled (s.reporting opc unit)
      ((s.modMe fun sl => sl.setL true opc unit 0).laterWithin lo hi i).retire lo hi i := by
  have put := (State.laterWithin_scheduled (s.modMe fun sl => sl.setL true opc unit 0) lo hi i h).passed
  rwa [← State.retire_eq, ← State.retire_eq, State.setL_retire] at put

/-! ### The frame of a command -/

section

variable {s t : State}

theorem Steady.work (h : Steady s t) (d : Nat) (i : Due) : Steady s (t.work d i) := h

theorem Steady.me (h : Steady s t) (hc : t.cur = s.cur) : t.me = s.me := by
  rw [State.me, hc]
  exact h.2 s.cur

theorem Steady.passed_me (h : Steady s t) (hc : t.cur = s.cur) : t.passed.me = s.passed.me := by
  rw [State.passed_me, State.passed_me, h.me hc]

/-- What a slot's own word writes in its slot, where the rest of it left the slots and memory alone. -/
theorem Steady.setSlot (h : Steady s t) (hc : t.cur = s.cur) (sl : Slot) :
    SameMemory s (t.setSlot t.cur sl) ∧ OtherSlots s (t.setSlot t.cur sl) ∧ (t.setSlot t.cur sl).me = sl :=
  ⟨h.1, fun q hq => (t.slot_setSlot_ne t.cur q sl (hc ▸ hq)).trans (h.2 q), t.me_setSlot_cur sl⟩

theorem Steady.reported (h : Steady s t) (hc : t.cur = s.cur) (opc unit code : Nat) :
    SameMemory s (t.reported opc unit code) ∧ OtherSlots s (t.reported opc unit code) ∧
      (t.reported opc unit code).me = { s.passed.me with lstate := lstateValue false opc unit code } := by
  rw [State.reported_eq, h.passed_me hc]
  exact h.setSlot hc _

theorem Steady.reporting (h : Steady s t) (hc : t.cur = s.cur) (opc unit : Nat) :
    SameMemory s (t.reporting opc unit) ∧ OtherSlots s (t.reporting opc unit) ∧
      (t.reporting opc unit).me = { s.passed.me with lstate := lstateValue true opc unit 0 } := by
  rw [State.reporting_eq, h.passed_me hc]
  exact h.setSlot hc _

end

end Sys2Proof.Machine
end

section
/-! SUPPORT. The commands to a lens: whom R213 lets give them, and what each comes to (R213 to R218, R222, R223, R309). -/

namespace Sys2Proof.Machine

/-! ### The lens of a command (R213) -/

theorem State.lensFor_origin {s : State} {o : FmtA} {key ox oy w hh : Nat}
    (hn : s.namedLens o = some (key, ox, oy, w, hh)) (hc : s.cur.core = coreAt ox oy) :
    s.lensFor o false = some (key, ox, oy, w, hh) := by
  simp [State.lensFor, hn, hc]

theorem State.lensFor_within {s : State} {o : FmtA} {key ox oy w hh : Nat}
    (hn : s.namedLens o = some (key, ox, oy, w, hh)) (hin : ox ≤ coreX s.cur.core ∧ coreX s.cur.core < ox + w ∧
      oy ≤ coreY s.cur.core ∧ coreY s.cur.core < oy + hh) : s.lensFor o true = some (key, ox, oy, w, hh) := by
  simp [State.lensFor, hn, hin]

theorem State.lensFor_elsewhere {s : State} {o : FmtA}
    (h : ∀ key ox oy w hh, s.namedLens o = some (key, ox, oy, w, hh) → s.cur.core ≠ coreAt ox oy) :
    s.lensFor o false = none := by
  unfold State.lensFor
  split
  next key ox oy w hh hn => simp [h key ox oy w hh hn]
  next => rfl

theorem State.lensFor_outside {s : State} {o : FmtA}
    (h : ∀ key ox oy w hh, s.namedLens o = some (key, ox, oy, w, hh) → ¬(ox ≤ coreX s.cur.core ∧
      coreX s.cur.core < ox + w ∧ oy ≤ coreY s.cur.core ∧ coreY s.cur.core < oy + hh)) : s.lensFor o true = none := by
  unfold State.lensFor
  split
  next key ox oy w hh hn => simp [h key ox oy w hh hn]
  next => rfl

/-- R213: a command whose lens its core may not command takes 0x0E. -/
theorem lensWord_refused {s : State} {h : Hdr} {o : FmtA} {within : Bool} {body : State → State}
    (hg : s.me.guard h = true) (hh : s.me.h = false) (hl : s.lensFor o within = none)
    (hb : s.lensFor o within = none → body s = s.precise 0x0E 0 0) : word h s body = .next (s.faulted 0x0E 0 0) := by
  rw [word_of_guard body hg, hb hl, State.precise_eq _ _ _ _ hh]

end Sys2Proof.Machine
end

section
/-! SUPPORT. UNFUSE of an idle lens: its facets and lanes are given back (R195, R215, R309). -/

namespace Sys2Proof.Machine

/-! ### What emptying the lanes leaves of a core -/

theorem State.modLane_ags (s : State) (d e k : Nat) (f : Lane → Lane) (c : Nat) :
    ((s.modCore d fun x => x.modLane e k f).core c).ags = (s.core c).ags := by
  by_cases hc : c = d
  · rw [hc, State.core_modCore]
    rfl
  · rw [State.core_modCore_ne _ _ _ _ hc]

theorem State.resetLanes_ags (s : State) (l : Lens) (c : Nat) : ((s.resetLanes l).core c).ags = (s.core c).ags :=
  foldl_keeps (P := fun u : State => (u.core c).ags = (s.core c).ags) (fun _ _ h =>
    foldl_keeps (P := fun u : State => (u.core c).ags = (s.core c).ags) (fun u _ h => (u.modLane_ags ..).trans h) _ h) _ rfl

/-- R309: whether writes are still to perform is read off the AGs. -/
theorem State.writing_congr {s t : State} (h : ∀ c, (t.core c).ags = (s.core c).ags) (l : Lens) :
    t.writing l = s.writing l := by
  simp only [State.writing, h]

/-! ### A lens that is released -/

section

variable (p : State) (key : Nat)

@[simp] theorem State.lens_setSlot (s : State) (r : SlotRef) (sl : Slot) (k : Nat) : (s.setSlot r sl).lens k = s.lens k := rfl

@[simp] theorem State.lens_work (s : State) (d : Nat) (i : Due) (k : Nat) : (s.work d i).lens k = s.lens k := rfl

theorem State.lens_setLens_ne (s : State) {k j : Nat} (l : Lens) (h : j ≠ k) : (s.setLens k l).lens j = s.lens j :=
  Tab.at_put_ne _ _ _ _ _ h

@[simp] theorem State.core_setLens (s : State) (k : Nat) (l : Lens) (c : Nat) : (s.setLens k l).core c = s.core c := rfl

@[simp] theorem State.core_modLens (s : State) (k : Nat) (f : Lens → Lens) (c : Nat) : (s.modLens k f).core c = s.core c := rfl

theorem State.edgeLane_eq (s : State) (l : Lens) (e i : Nat) :
    s.edgeLane l e i = (s.core (l.laneAt e i).1).lane e (l.laneAt e i).2 := rfl

theorem State.releaseLens_eq : (p.releaseLens key).1 = (p.resetLanes (p.lens key)).setLens key
    { p.lens key with st := .unfused, waves := [], wires := [], kept := none, raised := [] } := rfl

theorem State.releaseLens_steady : Steady p (p.releaseLens key).1 :=
  (State.resetLanes_onlyCores p (p.lens key)).steady.setLens key _

theorem State.releaseLens_cur : (p.releaseLens key).1.cur = p.cur := by
  rw [State.releaseLens_eq, State.setLens_cur, (State.resetLanes_onlyCores p (p.lens key)).1]

theorem State.releaseLens_writing (l : Lens) : (p.releaseLens key).1.writing l = p.writing l :=
  State.writing_congr (p.resetLanes_ags (p.lens key)) l

/-- R215: tokens are discarded where a lane of the lens holds one. -/
theorem State.releaseLens_held : (p.releaseLens key).2 = true ↔
    ∃ d k, d < 4 ∧ k < (p.lens key).lanesOn d ∧ (p.edgeLane (p.lens key) d k).fifo ≠ [] := by
  rw [State.releaseLens, show [0, 1, 2, 3] = List.range 4 from rfl]
  simp

/-- R215: in a state, a lens is released with a status: its facets are free, its lanes empty, its tables and cells kept. -/
def State.Released (c : Nat) (t : State) : Prop :=
  (t.lens key).st = .unfused ∧ (t.lens key).table = (p.lens key).table ∧ (t.lens key).cells = (p.lens key).cells ∧
    (∀ k, k ≠ key → t.lens k = p.lens k) ∧
    (∀ d k, d < 4 → k < (p.lens key).lanesOn d → (t.edgeLane (p.lens key) d k).fifo = []) ∧
    (t.lens key).last = BitVec.ofNat 8 c

theorem State.releaseLens_released (c : Nat) {f : Lens → Lens} (hf : ∀ x, (f x).st = x.st ∧ (f x).table = x.table ∧
    (f x).cells = x.cells ∧ (f x).last = BitVec.ofNat 8 c) : p.Released key c ((p.releaseLens key).1.modLens key f) := by
  unfold State.Released
  rw [State.lens_modLens, State.releaseLens_eq, State.lens_setLens]
  obtain ⟨st, table, cells, last⟩ := hf
    { p.lens key with st := .unfused, waves := [], wires := [], kept := none, raised := [] }
  refine ⟨st, table, cells, fun k hk => ?others, fun d k hd hk => ?lanes, last⟩
  case lanes =>
    obtain ⟨empty, -⟩ := State.resetLanes_fresh p (p.lens key) hd hk
    rw [State.edgeLane_eq, State.core_modLens, State.core_setLens]
    exact empty
  case others => rw [State.modLens, State.lens_setLens_ne _ _ hk, State.lens_setLens_ne _ _ hk,
    (State.resetLanes_onlyCores p (p.lens key)).lens]

variable {p key}

theorem State.Released.setSlot {c : Nat} {t : State} (h : p.Released key c t) (r : SlotRef) (sl : Slot) :
    p.Released key c (t.setSlot r sl) := by
  obtain ⟨st, table, cells, others, lanes, last⟩ := h
  refine ⟨st, table, cells, others, fun d k hd hk => ?_, last⟩
  rw [State.edgeLane_eq, State.lane_setSlot]
  exact lanes d k hd hk

theorem State.Released.work {c : Nat} {t : State} (h : p.Released key c t) (d : Nat) (i : Due) :
    p.Released key c (t.work d i) := h

end

end Sys2Proof.Machine
end

section
/-! SUPPORT. FUSE and UNFUSE as they issue (R174, R175, R215, R309). -/

namespace Sys2Proof.Machine

/-- R215: a list runs or waits on the lens, or the lens is being fused or frozen. -/
abbrev Lens.Busy (l : Lens) : Prop := l.st = .fusing ∨ l.freezing = true ∨ l.seq.active = true ∨ l.queue ≠ []

/-- R215: UNFUSE ends at once with a status, which LSTATE and the lens show. -/
def State.unfuseRefused (p : State) (key n code : Nat) : State :=
  (p.modLens key fun l => { l with last := BitVec.ofNat 8 code }).reported 0x81 n code

/-- R215: the status of an UNFUSE that releases its lens: whether tokens were discarded. -/
def State.unfuseStatus (p : State) (key : Nat) : Nat := if (p.releaseLens key).2 then 9 else 0

/-- R215, R309: the state after an UNFUSE that releases its lens: its status is known at once, or when the writes of its AGs
have performed. -/
def State.unfused (p : State) (key n : Nat) : State :=
  let code := p.unfuseStatus key
  let r := (p.releaseLens key).1
  if r.writing (p.lens key) = true then
    ((r.modLens key fun l => { l with unfusing := some (p.cur.slot, code), last := BitVec.ofNat 8 code }).work 1
      (.unfuseEnd key)).reporting 0x81 n
  else (r.modLens key fun l => { l with last := BitVec.ofNat 8 code }).reported 0x81 n code

section

variable (p : State) (key n : Nat)

theorem State.unfuseStatus_cases : p.unfuseStatus key = 0 ∨ p.unfuseStatus key = 9 := by
  unfold State.unfuseStatus
  split
  · exact .inr rfl
  · exact .inl rfl

theorem State.unfuseStatus_held : p.unfuseStatus key = 9 ↔
    ∃ d k, d < 4 ∧ k < (p.lens key).lanesOn d ∧ (p.edgeLane (p.lens key) d k).fifo ≠ [] := by
  rw [← State.releaseLens_held, State.unfuseStatus]
  split <;> simp [*]

variable {p key n}

theorem State.unfused_known (hw : p.writing (p.lens key) = false) :
    SameMemory p (p.unfused key n) ∧ OtherSlots p (p.unfused key n) ∧
      p.Released key (p.unfuseStatus key) (p.unfused key n) ∧
      (p.unfused key n).me = { p.passed.me with lstate := lstateValue false 0x81 n (p.unfuseStatus key) } := by
  have steady := p.releaseLens_steady key
  have cur := p.releaseLens_cur key
  have released := p.releaseLens_released key (p.unfuseStatus key) (f := fun l =>
    { l with last := BitVec.ofNat 8 (p.unfuseStatus key) }) fun _ => ⟨rfl, rfl, rfl, rfl⟩
  rw [State.unfused, State.releaseLens_writing, hw, if_neg Bool.false_ne_true]
  generalize (p.releaseLens key).1 = r at *
  obtain ⟨memory, slots, me⟩ := (steady.modLens key fun l =>
    { l with last := BitVec.ofNat 8 (p.unfuseStatus key) }).reported cur 0x81 n (p.unfuseStatus key)
  refine ⟨memory, slots, ?_, me⟩
  rw [State.reported_eq]
  exact released.setSlot _ _

theorem State.unfused_waits (hw : p.writing (p.lens key) = true) :
    SameMemory p (p.unfused key n) ∧ OtherSlots p (p.unfused key n) ∧
      p.Released key (p.unfuseStatus key) (p.unfused key n) ∧
      (p.unfused key n).me = { p.passed.me with lstate := lstateValue true 0x81 n 0 } ∧
      ((p.unfused key n).lens key).unfusing = some (p.cur.slot, p.unfuseStatus key) := by
  have steady := p.releaseLens_steady key
  have cur := p.releaseLens_cur key
  have released := p.releaseLens_released key (p.unfuseStatus key) (f := fun l =>
    { l with unfusing := some (p.cur.slot, p.unfuseStatus key), last := BitVec.ofNat 8 (p.unfuseStatus key) })
      fun _ => ⟨rfl, rfl, rfl, rfl⟩
  rw [State.unfused, State.releaseLens_writing, hw, if_pos rfl]
  generalize (p.releaseLens key).1 = r at *
  obtain ⟨memory, slots, me⟩ := ((steady.modLens key fun l =>
    { l with unfusing := some (p.cur.slot, p.unfuseStatus key), last := BitVec.ofNat 8 (p.unfuseStatus key) }).work 1
      (.unfuseEnd key)).reporting cur 0x81 n
  refine ⟨memory, slots, ?_, me, ?_⟩
  · rw [State.reporting_eq]
    exact (released.work 1 _).setSlot _ _
  · rw [State.reporting_eq, State.lens_setSlot, State.lens_work, State.lens_modLens]

end

section

variable {s : State} {h : Hdr} {o : FmtA} {key ox oy w hh : Nat} (hg : s.me.guard h = true)
  (hn : s.namedLens o = some (key, ox, oy, w, hh)) (hc : s.cur.core = coreAt ox oy)

include hg hn hc

theorem execFuse_held (hx : (s.lens key).fused = true ∨ (s.lens key).st = .fusing) : exec (.fuse h o) s =
    .next ((s.setLens key { s.lens key with last := 2 }).reported 0x80 (bits o.imm 0 6) 2) := by
  show execFuse h o s = _
  rw [execFuse, word_of_guard _ hg]
  simp only [State.lensFor_origin hn hc]
  rw [if_pos (by simpa using hx), State.report_eq]
  rfl

theorem execFuse_begins (hx : (s.lens key).st = .unfused ∨ (s.lens key).st = .failed) :
    Gives (.fuse h o) s fun t => Scheduled (((s.placeLens key ox oy w hh).setLens key
      { (s.placeLens key ox oy w hh).lens key with st := .fusing, fuser := s.cur.slot }).reporting 0x80 (bits o.imm 0 6)) t
        1 (1024 + 16 * w * hh) (.fuseComplete key) := by
  refine ⟨_, (show execFuse h o s = _ from ?_), State.reporting_scheduled _ 0x80 _ (by omega) _⟩
  rw [execFuse, word_of_guard _ hg]
  simp only [State.lensFor_origin hn hc]
  rw [if_neg (by rcases hx with hx | hx <;> simp [Lens.fused, hx])]
  rfl

/-- R215: UNFUSE, from what it finds of its lens on. -/
theorem execUnfuse_eq : exec (.unfuse h o) s = .next
    (let p := s.placeLens key ox oy w hh
     if (p.lens key).Busy then p.unfuseRefused key (bits o.imm 0 6) 5
     else if (p.lens key).fused = false then p.unfuseRefused key (bits o.imm 0 6) 7
     else if p.lensInUse key = true then p.unfuseRefused key (bits o.imm 0 6) 2
     else p.unfused key (bits o.imm 0 6)) := by
  show execUnfuse h o s = _
  rw [execUnfuse, word_of_guard _ hg]
  simp only [State.lensFor_origin hn hc, State.report_eq, State.releaseLens_cur]
  congr 1
  refine if_congr (by simp [Lens.Busy, or_assoc]) rfl (if_congr (by simp) rfl (if_congr Iff.rfl rfl (if_congr Iff.rfl ?_ rfl)))
  exact State.setL_retire (State.work _ 1 (.unfuseEnd key)) true 0x81 _ 0

end

end Sys2Proof.Machine
end

section
/-! SUPPORT. LSTOP, LSTAT, SKEW and CTAB (R217, R218, R222, R223). -/

namespace Sys2Proof.Machine

/-! ### A counter that changes (R222) -/

section

variable (l : Lens) {e : Nat} (i v : Nat)

theorem Lens.setCounter_eq : l.setCounter e i v = { l with
    westCnt := if e = 0 then Tab.put l.westCnt i v else l.westCnt
    northCnt := if e = 0 then l.northCnt else Tab.put l.northCnt i v
    oldSkew := l.oldSkew ++ [(e, i, (if l.mid then l.acyc + 1 else l.acyc), l.counter e i)] } := by
  by_cases he : e = 0 <;> simp [Lens.setCounter, he]

theorem Lens.setCounter_rest : l.setCounter e i v = { l with
    westCnt := (l.setCounter e i v).westCnt, northCnt := (l.setCounter e i v).northCnt
    oldSkew := (l.setCounter e i v).oldSkew } := by
  rw [Lens.setCounter_eq]

theorem Lens.setCounter_counter (he : e < 2) {d : Nat} (hd : d < 2) (k : Nat) :
    (l.setCounter e i v).counter d k = if d = e ∧ k = i then v else l.counter d k := by
  have put (t : Tab Nat) : Tab.at (Tab.put t i v) k 0 = if k = i then v else Tab.at t k 0 := by
    split
    case isTrue same => rw [same, Tab.at_put]
    case isFalse other => exact Tab.at_put_ne _ _ _ _ _ other
  obtain rfl | rfl : e = 0 ∨ e = 1 := by omega
  all_goals obtain rfl | rfl : d = 0 ∨ d = 1 := by omega
  all_goals simp [Lens.setCounter_eq, Lens.counter, put]

/-- R222: a wave token injected before the change keeps the delay that it had. -/
theorem Lens.setCounter_before {a : Nat} (ha : a < (if l.mid then l.acyc + 1 else l.acyc)) :
    (l.setCounter e i v).counterFrom e i a = l.counterFrom e i a := by
  have old := congrArg Lens.oldSkew (l.setCounter_eq i v (e := e))
  rw [Lens.counterFrom, old, List.find?_append, Lens.counterFrom]
  cases l.oldSkew.find? fun x => x.1 == e && x.2.1 == i && decide (a < x.2.2.1) with
  | some x => rfl
  | none => simp [ha]

end

/-! ### The words -/

section

variable {s : State} {h : Hdr} {o : FmtA} {key ox oy w hh : Nat} (hg : s.me.guard h = true)
  (hn : s.namedLens o = some (key, ox, oy, w, hh))

include hg hn

section

variable (hc : s.cur.core = coreAt ox oy)

include hc

theorem stopWord_reports (r : StopReq) : stopWord h o s r = .next (((s.placeLens key ox oy w hh).setLens key
    { (s.placeLens key ox oy w hh).lens key with
      last := 0
      seq := { ((s.placeLens key ox oy w hh).lens key).seq with
        stop := if ((s.placeLens key ox oy w hh).lens key).seq.active = true ∧
            ((s.placeLens key ox oy w hh).lens key).seq.ended = false ∧
            ((s.placeLens key ox oy w hh).lens key).seq.stop ≠ .now then r
          else ((s.placeLens key ox oy w hh).lens key).seq.stop } }).reported 0x83 (bits o.imm 0 6) 0) := by
  rw [stopWord, word_of_guard _ hg]
  simp only [State.lensFor_origin hn hc, State.report_eq]
  rw [State.modLens]
  generalize (s.placeLens key ox oy w hh).lens key = l
  have stops : (l.seq.active && !l.seq.ended && l.seq.stop != .now) = true ↔
      l.seq.active = true ∧ l.seq.ended = false ∧ l.seq.stop ≠ .now := by simp [and_assoc]
  simp only [stops]
  split
  · rfl
  · rfl

theorem execSkewRd_reads : exec (.skewRd h o) s = .next (s.issued 4 [.g o.rd
    (if (s.lens key).fused = true ∧ (s.me.gr o.rb).toNat < (s.lens key).lanesOn (bits o.imm 6 1) then
      BitVec.ofNat 64 ((s.lens key).counter (bits o.imm 6 1) (s.me.gr o.rb).toNat) else BitVec.allOnes 64)]) := by
  show execSkewRd h o s = _
  rw [execSkewRd, word_of_guard _ hg]
  simp only [State.lensFor_origin hn hc, State.result_eq, Bool.and_eq_true, decide_eq_true_eq]
  rfl

theorem execSkewWr_eq : exec (.skewWr h o) s = .next
    (let l := s.lens key
     let e := bits o.imm 6 1
     let i := (s.me.gr o.rb).toNat
     let v := (s.me.gr o.ra).toNat
     let n := bits o.imm 0 6
     if l.fused = false then s.reported 0x8A n 7
     else if l.lanesOn e ≤ i then s.reported 0x8A n 1
     else if 63 < v then s.reported 0x8A n 4
     else (s.setLens key (l.setCounter e i v)).reported 0x8A n 0) := by
  show execSkewWr h o s = _
  rw [execSkewWr, word_of_guard _ hg]
  simp only [State.lensFor_origin hn hc, State.report_eq, Bool.not_eq_true']
  rfl

end

section

variable (hin : ox ≤ coreX s.cur.core ∧ coreX s.cur.core < ox + w ∧ oy ≤ coreY s.cur.core ∧ coreY s.cur.core < oy + hh)

include hin

theorem execLstat_reads : exec (.lstat h o) s = .next (s.issued 4 [.g o.rd (BitVec.ofNat 64
    ((if (s.lens key).fused then (s.lens key).rows % 4096 * 2 ^ 52 + (s.lens key).cols % 4096 * 2 ^ 40 else 0) +
      (s.lens key).st.num * 2 ^ 36 + (s.lens key).last.toNat * 2 ^ 24 + (s.lens key).flags.toNat * 2 ^ 16 +
        (s.lens key).seq.row % 65536))]) := by
  show execLstat h o s = _
  rw [execLstat, word_of_guard _ hg]
  simp only [State.lensFor_within hn hin, State.result_eq]
  cases hf : (s.lens key).fused <;> simp [lstatWord, hf, w64]

/-- R223: the lens with one more entry to write, an earlier command of the same slot reporting nowhere. -/
def Lens.withCtab (l : Lens) (j : CtabJob) : Lens :=
  { l with
    ctabs := l.ctabs.map (fun i =>
      { i with told := i.told || (decide (i.core = j.core) && decide (i.slot = j.slot)) }) ++ [j] }

theorem execCtab_eq : exec (.ctab h o) s = .next
    (let l := s.lens key
     let cw : CtlWord := (s.me.gr o.rb).setWidth 40
     let row := bits (s.me.gr o.ra) 16 16
     let col := bits (s.me.gr o.ra) 0 16
     let n := bits o.imm 0 6
     if l.fused = false ∨ l.rows ≤ row ∨ l.cols ≤ col then s.reported 0x8D n 1
     else if cw.ok = false then s.reported 0x8D n 3
     else (((({ s with nextPkt := s.nextPkt + 1 } : State).setLens key
       (l.withCtab ⟨s.nextPkt, false, s.cur.core, s.cur.slot, row, col, bits o.imm 6 4, cw⟩)).modMe fun sl =>
         sl.setL true 0x8D n 0).laterWithin 1 64 (.ctabLand key s.nextPkt)).retire) := by
  show execCtab h o s = _
  rw [execCtab, word_of_guard _ hg]
  have marks (i : CtabJob) : (if i.core = s.cur.core ∧ i.slot = s.cur.slot then { i with told := true } else i) =
      { i with told := i.told || (decide (i.core = s.cur.core) && decide (i.slot = s.cur.slot)) } := by
    by_cases same : i.core = s.cur.core ∧ i.slot = s.cur.slot
    · simp [same]
    · rw [if_neg same, ← Bool.decide_and, decide_eq_false same, Bool.or_false]
  simp only [State.lensFor_within hn hin, State.report_eq, marks]
  exact congrArg Host.Outcome.next (if_congr (by simp [or_assoc]) rfl (if_congr (by simp) rfl rfl))

end

end

end Sys2Proof.Machine
end

section
/-! SUPPORT. The commands of a core to its lens: the obligation from the words above. -/

namespace Sys2Proof.Machine

/-- R213: a core that is not the origin of the lens that it names takes 0x0E from the commands of an origin. -/
theorem originWords_refused {s : State} {h : Hdr} {o : FmtA} (hg : s.me.guard h = true) (hh : s.me.h = false)
    (hl : s.lensFor o false = none) :
    exec (.fuse h o) s = .next (s.faulted 0x0E 0 0) ∧ exec (.unfuse h o) s = .next (s.faulted 0x0E 0 0) ∧
      exec (.lstop h o) s = .next (s.faulted 0x0E 0 0) ∧ exec (.lstopQ h o) s = .next (s.faulted 0x0E 0 0) ∧
      exec (.skewRd h o) s = .next (s.faulted 0x0E 0 0) ∧ exec (.skewWr h o) s = .next (s.faulted 0x0E 0 0) := by
  refine ⟨?_, ?_, ?_, ?_, ?_, ?_⟩
  all_goals exact lensWord_refused hg hh hl fun none => by rw [none]

theorem execLgo_misaligned {s : State} {h : Hdr} {o : FmtA} (hg : s.me.guard h = true) (hh : s.me.h = false)
    (ha : (s.me.gr o.ra).toNat % 16 ≠ 0) : exec (.lgo h o) s = .next (s.faulted 0x08 (s.me.gr o.ra) 0) :=
  (word_of_guard _ hg).trans (congrArg Host.Outcome.next ((if_pos ha).trans (State.precise_eq _ _ _ _ hh)))

theorem execLgo_refused {s : State} {h : Hdr} {o : FmtA} (hg : s.me.guard h = true) (hh : s.me.h = false)
    (ha : (s.me.gr o.ra).toNat % 16 = 0) (hr : rangeFault s.myCore (s.me.gr o.ra) 16 = none)
    (hl : s.lensFor o false = none) : exec (.lgo h o) s = .next (s.faulted 0x0E 0 0) :=
  lensWord_refused hg hh hl fun _ => by simp [ha, hr, hl]

/-- Settles O37: FUSE begins or is refused (`execFuse_begins`, `execFuse_held`); UNFUSE is the first of its refusals that
applies, or releases the lens (`execUnfuse_eq`, `State.unfused_known`, `State.unfused_waits`); SKEW.wr changes one counter
(`Lens.setCounter_counter`, `Lens.setCounter_before`); a CTAB that is accepted is put down
(`State.reporting_scheduled`); R213 refuses the others by `lensWord_refused`. -/
theorem lensCommandsComplete : Obligations.LensCommandsComplete := by
  refine ⟨fun s h o key ox oy w hh hg hn hc _ _ _ => ?origin, fun s h o key ox oy w hh hg hn hx hx' hy hy' => ?within,
    fun s h o hg hh => ?refused⟩
  case origin =>
    intro n p l busy stopped e i v x
    have alive {y : Lens} (hf : y.fused = true) : ¬y.fused = false := by simp [hf]
    have unfuse := execUnfuse_eq hg hn hc
    have skew := execSkewWr_eq hg hn hc
    refine ⟨execFuse_begins hg hn hc, execFuse_held hg hn hc, fun hb => ?busy, fun hb hf => ?unfused,
      fun hb hf hu => ?inUse, fun hb hf hu => ?releases, stopWord_reports hg hn hc _, stopWord_reports hg hn hc _,
      execSkewRd_reads hg hn hc, fun hf => ?skewUnfused, fun hf hi => ?skewLane, fun hf hi hv => ?skewHigh,
      fun hf hi hv => ?skewSet⟩
    case busy => exact unfuse.trans (congrArg _ (if_pos hb))
    case unfused => exact unfuse.trans (congrArg _ ((if_neg hb).trans (if_pos hf)))
    case inUse =>
      exact unfuse.trans (congrArg _ ((if_neg hb).trans ((if_neg (alive hf)).trans (if_pos hu))))
    case releases =>
      have unused : ¬p.lensInUse key = true := by simp [hu]
      refine ⟨_, unfuse.trans (congrArg _ ((if_neg hb).trans ((if_neg (alive hf)).trans (if_neg unused)))), ?_⟩
      have status := p.unfuseStatus_cases key
      have held := p.unfuseStatus_held key
      have others (k : Nat) (hk : k ≠ key) : p.lens k = s.lens k := s.lens_setLens_ne _ hk
      cases hw : p.writing l with
      | false =>
        obtain ⟨memory, slots, ⟨st, table, cells, lenses, lanes, last⟩, me⟩ := State.unfused_known (n := n) hw
        exact ⟨memory, slots, st, table, cells, fun k hk => (lenses k hk).trans (others k hk), lanes, _, status, last,
          fun _ => me, fun h => absurd h Bool.false_ne_true, held⟩
      | true =>
        obtain ⟨memory, slots, ⟨st, table, cells, lenses, lanes, last⟩, me, waits⟩ := State.unfused_waits (n := n) hw
        exact ⟨memory, slots, st, table, cells, fun k hk => (lenses k hk).trans (others k hk), lanes, _, status, last,
          fun h => absurd h.symm Bool.false_ne_true, fun _ => ⟨me, waits⟩, held⟩
    case skewUnfused => exact skew.trans (congrArg _ (if_pos hf))
    case skewLane =>
      exact skew.trans (congrArg _ ((if_neg (alive hf)).trans (if_pos hi)))
    case skewHigh =>
      exact skew.trans (congrArg _ ((if_neg (alive hf)).trans ((if_neg hi.not_ge).trans (if_pos hv))))
    case skewSet =>
      have two : e < 2 := (o.imm.extractLsb' 6 1).isLt
      exact ⟨_, skew.trans (congrArg _ ((if_neg (alive hf)).trans ((if_neg hi.not_ge).trans (if_neg hv.not_gt)))),
        x.setCounter e i v, rfl, x.setCounter_rest i v, fun d k hd => x.setCounter_counter i v two hd k,
        fun a ha => x.setCounter_before i v ha⟩
  case within =>
    intro n x cw row col
    have ctab := execCtab_eq hg hn ⟨hx, hx', hy, hy'⟩
    refine ⟨execLstat_reads hg hn ⟨hx, hx', hy, hy'⟩, fun hf => ?outside, fun hf hr hc hw => ?word, fun hf hr hc hw => ?lands⟩
    case outside => exact ctab.trans (congrArg _ (if_pos hf))
    all_goals have live : ¬(x.fused = false ∨ x.rows ≤ row ∨ x.cols ≤ col) := by simp [hf, hr, hc]
    case word => exact ctab.trans (congrArg _ ((if_neg live).trans (if_pos hw)))
    case lands =>
      have ok : ¬cw.ok = false := by simp [hw]
      exact ⟨_, ctab.trans (congrArg _ ((if_neg live).trans (if_neg ok))), State.reporting_scheduled _ _ _ (by omega) _⟩
  case refused =>
    intro fault a
    refine ⟨fun away => ?origin, fun away => ?within⟩
    case origin =>
      have none := State.lensFor_elsewhere away
      obtain ⟨fuse, unfuse, lstop, lstopQ, skewRd, skewWr⟩ := originWords_refused hg hh none
      exact ⟨fuse, unfuse, lstop, lstopQ, skewRd, skewWr, execLgo_misaligned hg hh, fun ha hr =>
        execLgo_refused hg hh ha hr none⟩
    case within =>
      have none := State.lensFor_outside away
      exact ⟨lensWord_refused hg hh none fun none => by rw [none], lensWord_refused hg hh none fun none => by rw [none]⟩

end Sys2Proof.Machine
end

section
/-! SUPPORT. AGs as their commands leave them, and the AGs of AGGO (R197, R198, R219). -/

namespace Sys2Proof.Machine

section

variable {s t : State}

theorem OnlyCores.cur (h : OnlyCores s t) : t.cur = s.cur := by rw [h.1]

/-- The end of a command leaves the AGs of its core. -/
theorem State.reported_ag (s : State) (opc unit code m : Nat) :
    (s.reported opc unit code).myCore.ag m = s.myCore.ag m := by
  rw [State.reported_eq, State.myCore, State.setSlot_cur, State.core_setSlot]
  rfl

end

/-! ### AGSET -/

section

variable (s : State) (n : Nat) (f : AG → AG)

/-- R219: AGSET: the AG gives the lanes it holds back to the prism, and is loaded. -/
def State.agReplaced : State := (s.modMyCore fun x => x.freeLanes n).modMyCore fun x => x.modAg n f

theorem State.agReplaced_onlyCores : OnlyCores s (s.agReplaced n f) :=
  (OnlyCores.modCore s.cur.core (f := fun x => x.freeLanes n) rfl).trans
    (OnlyCores.modCore s.cur.core (f := fun x => x.modAg n f) rfl)

theorem State.agReplaced_myCore : (s.agReplaced n f).myCore = (s.myCore.freeLanes n).modAg n f :=
  (State.core_modCore _ s.cur.core _).trans (congrArg (fun x : Core => x.modAg n f) (State.core_modCore _ s.cur.core _))

theorem State.agReplaced_ag : (s.agReplaced n f).myCore.ag n = f (s.myCore.ag n) := by
  rw [State.agReplaced_myCore, Core.ag_modAg]
  rfl

theorem State.agReplaced_ag_ne {m : Nat} (h : m ≠ n) : (s.agReplaced n f).myCore.ag m = s.myCore.ag m := by
  rw [State.agReplaced_myCore, Core.ag_modAg_ne _ _ h]
  rfl

end

/-! ### The start of an AG -/

theorem State.sideLens_congr {s t : State} (h : t.lenses = s.lenses) (c e : Nat) : t.sideLens c e = s.sideLens c e := by
  simp only [State.sideLens, State.lensAt, h]

/-- Lanes that are attached to an AG change no slot and no AG. -/
theorem Core.modLanes_rest (e : Nat) (p : Nat → Prop) [DecidablePred p] (g : Nat → Nat) (f : Lane → Lane) (l : List Nat)
    (x : Core) : (l.foldl (fun x i => if p i then x.modLane e (g i) f else x) x).slots = x.slots ∧
      (l.foldl (fun x i => if p i then x.modLane e (g i) f else x) x).ags = x.ags := by
  refine foldl_keeps (P := fun y : Core => y.slots = x.slots ∧ y.ags = x.ags) (fun y i h => ?_) l ⟨rfl, rfl⟩
  split
  · exact h
  · exact h

/-- R219: what the start of AGs of a core leaves: memory, the slots, the lenses, and the descriptors of the core's AGs. -/
def AgFrame (c : Nat) (s t : State) : Prop :=
  Steady s t ∧ t.cur = s.cur ∧ t.lenses = s.lenses ∧ ∀ m, ((t.core c).ag m).desc = ((s.core c).ag m).desc

theorem AgFrame.refl (c : Nat) (s : State) : AgFrame c s s := ⟨.refl, rfl, rfl, fun _ => rfl⟩

theorem AgFrame.trans {c : Nat} {s t u : State} (h : AgFrame c s t) (h' : AgFrame c t u) : AgFrame c s u := by
  obtain ⟨steady, cur, lenses, desc⟩ := h
  obtain ⟨steady', cur', lenses', desc'⟩ := h'
  exact ⟨steady.trans steady', cur'.trans cur, lenses'.trans lenses, fun m => (desc' m).trans (desc m)⟩

/-- R219: an AG that has started. -/
def AG.begun (key started since : Nat) (g : AG) : AG :=
  { g with st := .run, lens := key, started := started, since := since }

section

variable (s : State) (key c n since : Nat)

/-- R219: an AG that starts takes its lanes, and runs. -/
theorem State.attachAg_eq : ∃ lanes : Core → Core, s.attachAg key c n since =
    { (s.modCore c lanes).modCore c (Core.modAg · n (AG.begun key s.nextPkt since)) with nextPkt := s.nextPkt + 1 } ∧
    ∀ x, (lanes x).slots = x.slots ∧ (lanes x).ags = x.ags :=
  ⟨_, rfl, fun x => Core.modLanes_rest _ _ _ _ _ x⟩

theorem State.attachAg_ag (m : Nat) : ((s.attachAg key c n since).core c).ag m =
    if m = n then AG.begun key s.nextPkt since ((s.core c).ag m) else (s.core c).ag m := by
  obtain ⟨lanes, eq, rest⟩ := s.attachAg_eq key c n since
  have same (k : Nat) : (lanes (s.core c)).ag k = (s.core c).ag k := by rw [Core.ag, (rest _).2, Core.ag]
  have core : (s.attachAg key c n since).core c = (lanes (s.core c)).modAg n (AG.begun key s.nextPkt since) := by
    rw [eq]
    exact (State.core_modCore (s.modCore c lanes) c (Core.modAg · n (AG.begun key s.nextPkt since))).trans
      (congrArg (Core.modAg · n (AG.begun key s.nextPkt since)) (State.core_modCore s c lanes))
  rw [core]
  split
  case isTrue h => rw [h, Core.ag_modAg, same]
  case isFalse h => rw [Core.ag_modAg_ne _ _ h, same]

theorem State.attachAg_frame : AgFrame c s (s.attachAg key c n since) := by
  have ags := s.attachAg_ag key c n since
  obtain ⟨lanes, eq, rest⟩ := s.attachAg_eq key c n since
  refine ⟨?_, by rw [eq]; rfl, by rw [eq]; rfl, fun m => ?_⟩
  · rw [eq]
    have steady : Steady s ((s.modCore c lanes).modCore c (Core.modAg · n (AG.begun key s.nextPkt since))) :=
      (Steady.refl.modCore c fun x => (rest x).1).modCore c fun _ => rfl
    exact steady.trans (.of_cores rfl rfl rfl)
  · rw [ags]
    split
    · rfl
    · rfl

end

section

variable {s : State} {c n : Nat}

theorem State.startAg_attaches (h : s.sideLens c (AgDesc.edge ((s.core c).ag n).desc) ≠ none) :
    ∃ key since, s.startAg c n = s.attachAg key c n since := by
  obtain ⟨⟨key, len⟩, side⟩ := Option.ne_none_iff_exists'.1 h
  exact ⟨key, s.now + s.agDelay c ((s.core c).ag n).desc, by simp only [State.startAg, side]⟩

theorem State.startAg_frame : AgFrame c s (s.startAg c n) := by
  by_cases h : s.sideLens c (AgDesc.edge ((s.core c).ag n).desc) = none
  · rw [State.startAg, h]
    exact .refl c s
  · obtain ⟨key, since, eq⟩ := State.startAg_attaches h
    rw [eq]
    exact s.attachAg_frame key c n since

theorem State.startAg_runs (h : s.sideLens c (AgDesc.edge ((s.core c).ag n).desc) ≠ none) :
    (((s.startAg c n).core c).ag n).st = .run := by
  obtain ⟨key, since, eq⟩ := State.startAg_attaches h
  rw [eq, State.attachAg_ag, if_pos rfl]
  rfl

theorem State.startAg_ag_ne {m : Nat} (h : m ≠ n) : ((s.startAg c n).core c).ag m = (s.core c).ag m := by
  by_cases side : s.sideLens c (AgDesc.edge ((s.core c).ag n).desc) = none
  · rw [State.startAg, side]
  · obtain ⟨key, since, eq⟩ := State.startAg_attaches side
    rw [eq, State.attachAg_ag, if_neg h]

theorem State.startAg_keeps_run {m : Nat} (h : ((s.core c).ag m).st = .run) : (((s.startAg c n).core c).ag m).st = .run := by
  by_cases side : s.sideLens c (AgDesc.edge ((s.core c).ag n).desc) = none
  · rwa [State.startAg, side]
  · obtain ⟨key, since, eq⟩ := State.startAg_attaches side
    rw [eq, State.attachAg_ag]
    split
    · rfl
    · exact h

end

/-! ### AGGO -/

section

variable (s : State) (c : Nat) (named : List Nat)

/-- R219: the AGs of a list start in turn. -/
def State.agsStarted : State := named.foldl (fun s n => s.startAg c n) s

theorem State.agsStarted_frame : AgFrame c s (s.agsStarted c named) :=
  foldl_keeps (fun _ _ h => h.trans State.startAg_frame) named (.refl c s)

theorem State.agsStarted_runs {m : Nat} (hm : m ∈ named) (h : s.sideLens c (AgDesc.edge ((s.core c).ag m).desc) ≠ none) :
    (((s.agsStarted c named).core c).ag m).st = .run := by
  refine foldl_brings_under (I := AgFrame c s) (P := fun u : State => ((u.core c).ag m).st = .run)
    (fun _ _ h => h.trans State.startAg_frame) (fun _ _ h => State.startAg_keeps_run h) hm (fun u frame => ?_) (.refl c s)
  obtain ⟨-, -, lenses, desc⟩ := frame
  exact State.startAg_runs (by rwa [State.sideLens_congr lenses, desc])

theorem State.agsStarted_ag_ne {m : Nat} (hm : m ∉ named) : ((s.agsStarted c named).core c).ag m = (s.core c).ag m :=
  List.foldlRecOn named _ (motive := fun u : State => (u.core c).ag m = (s.core c).ag m) rfl fun _ h _ hn =>
    (State.startAg_ag_ne (ne_of_mem_of_not_mem hn hm).symm).trans h

end

/-! ### The status of AGGO -/

section

variable {s : State} {c : Nat} {named : List Nat}

theorem State.aggoStatus_bad (h : ∃ m ∈ named, ((s.core c).ag m).st = .bad ∨ ((s.core c).ag m).st = .empty ∨
    ((s.core c).ag m).st = .fault) : s.aggoStatus c named = 6 := by
  rw [State.aggoStatus]
  exact if_pos (by simpa [or_assoc] using h)

variable (hs : ∀ m ∈ named, ¬(((s.core c).ag m).st = .bad ∨ ((s.core c).ag m).st = .empty ∨ ((s.core c).ag m).st = .fault))

include hs

theorem State.aggoStatus_active (h : ∃ m ∈ named, ((s.core c).ag m).active = true) : s.aggoStatus c named = 5 := by
  rw [State.aggoStatus]
  exact (if_neg (by simpa [not_or, and_assoc] using hs)).trans (if_pos (by simpa using h))

theorem State.aggoStatus_sideless (ha : ∀ m ∈ named, ((s.core c).ag m).active = false)
    (h : ∃ m ∈ named, s.sideLens c (AgDesc.edge ((s.core c).ag m).desc) = none) : s.aggoStatus c named = 7 := by
  rw [State.aggoStatus]
  exact (if_neg (by simpa [not_or, and_assoc] using hs)).trans
    ((if_neg (by simpa using ha)).trans (if_pos (by simpa using h)))

omit hs

/-- R219: AGs that AGGO starts lie on a side of a fused lens. -/
theorem State.aggoStatus_sides (h : s.aggoStatus c named = 0) {m : Nat} (hm : m ∈ named) :
    s.sideLens c (AgDesc.edge ((s.core c).ag m).desc) ≠ none := by
  intro side
  by_cases bad : ∃ k ∈ named, ((s.core c).ag k).st = .bad ∨ ((s.core c).ag k).st = .empty ∨ ((s.core c).ag k).st = .fault
  · exact absurd (State.aggoStatus_bad bad) (by omega)
  · have sound : ∀ k ∈ named, ¬(((s.core c).ag k).st = .bad ∨ ((s.core c).ag k).st = .empty ∨
        ((s.core c).ag k).st = .fault) := fun k hk b => bad ⟨k, hk, b⟩
    by_cases active : ∃ k ∈ named, ((s.core c).ag k).active = true
    · exact absurd (State.aggoStatus_active sound active) (by omega)
    · have idle : ∀ k ∈ named, ((s.core c).ag k).active = false := fun k hk =>
        Bool.eq_false_iff.2 fun a => active ⟨k, hk, a⟩
      exact absurd (State.aggoStatus_sideless sound idle ⟨m, hm, side⟩) (by omega)

end

end Sys2Proof.Machine
end

section
/-! SUPPORT. AGSET, AGGO, AGSTAT and GATE (R209, R219, R220). -/

namespace Sys2Proof.Machine

/-- R219: the AGs that an AGGO names. -/
def aggoNamed (o : FmtA) : List Nat := (List.range 4).filter fun m => nbit (bits o.imm 0 4) m

theorem mem_aggoNamed {o : FmtA} {m : Nat} : m ∈ aggoNamed o ↔ m < 4 ∧ nbit (bits o.imm 0 4) m = true := by
  simp [aggoNamed]

section

variable {s : State} {h : Hdr} {o : FmtA} (hg : s.me.guard h = true)

include hg

theorem execAgset_misaligned (hh : s.me.h = false) (ha : (s.me.gr o.ra).toNat % 64 ≠ 0) :
    exec (.agset h o) s = .next (s.faulted 0x08 (s.me.gr o.ra) 0) :=
  (word_of_guard _ hg).trans (congrArg Host.Outcome.next ((if_pos ha).trans (State.precise_eq _ _ _ _ hh)))

theorem execAgset_away (hh : s.me.h = false) (ha : (s.me.gr o.ra).toNat % 64 = 0) {f : BitVec 8 × Word × Word}
    (hr : rangeFault s.myCore (s.me.gr o.ra) 64 = some f) : exec (.agset h o) s = .next (s.faulted f.1 f.2.1 f.2.2) := by
  show execAgset h o s = _
  rw [execAgset, word_of_guard _ hg]
  simp [ha, hr, State.precise_eq _ _ _ _ hh]

variable (ha : (s.me.gr o.ra).toNat % 64 = 0) (hr : rangeFault s.myCore (s.me.gr o.ra) 64 = none)

include ha hr

theorem execAgset_busy (hb : (s.myCore.ag (bits o.imm 0 2)).active = true) :
    exec (.agset h o) s = .next (s.reported 0x85 (bits o.imm 0 2) 5) := by
  show execAgset h o s = _
  rw [execAgset, word_of_guard _ hg]
  simp [ha, hr, hb]

variable (hb : (s.myCore.ag (bits o.imm 0 2)).active = false)

include hb

theorem execAgset_waits (hd : s.descriptor (s.me.gr o.ra) 64 = none) :
    exec (.agset h o) s = .next (s.modMe fun sl => { sl with gate := .offer }) := by
  show execAgset h o s = _
  rw [execAgset, word_of_guard _ hg]
  simp [ha, hr, hb, hd]

variable (he : s.hasErr (s.myCore.winKey (s.me.gr o.ra)) 64 = false) {bs : List Byte}
  (hd : s.descriptor (s.me.gr o.ra) 64 = some bs)

include he hd

theorem execAgset_loads {d : AgDesc} (hbs : d = BitVec.ofNat 512 (leNat bs)) {l : List (BitVec 128)} (hok : d.ok = true)
    (hl : (if d.space = .va then s.readExtents s.cur.core (d.dw 6) 16 else some []) = some l) :
    exec (.agset h o) s = .next ((s.agReplaced (bits o.imm 0 2) fun g =>
      { loadedAg d (s.me.gr o.ra) l ((s.modMyCore fun x => x.freeLanes (bits o.imm 0 2)).agSet s.cur.core d) with
        pending := g.pending }).reported 0x85 (bits o.imm 0 2) 0) := by
  show execAgset h o s = _
  rw [execAgset, word_of_guard _ hg]
  simp only [ha, hr, hb, hd, he, ← hbs, hok, hl, State.report_eq, ne_eq, not_true_eq_false, if_false, Bool.false_eq_true]
  rfl

theorem execAgset_rejects {d : AgDesc} (hbs : d = BitVec.ofNat 512 (leNat bs)) (hbad : d.ok = false ∨
    (d.space = .va ∧ s.readExtents s.cur.core (d.dw 6) 16 = none)) :
    exec (.agset h o) s = .next ((s.agReplaced (bits o.imm 0 2) fun g =>
      { AG.reset with st := .bad, daddr := s.me.gr o.ra, pending := g.pending }).reported 0x85 (bits o.imm 0 2) 6) := by
  show execAgset h o s = _
  rw [execAgset, word_of_guard _ hg]
  simp only [ha, hr, hb, hd, he, ← hbs, State.report_eq, ne_eq, not_true_eq_false, if_false, Bool.false_eq_true]
  rcases hbad with bad | ⟨va, none⟩
  · rw [bad]
    rfl
  · rw [va, none]
    cases d.ok <;> rfl

omit ha hr hb he hd

theorem execAggo_refused (hc : s.aggoStatus s.cur.core (aggoNamed o) ≠ 0) : exec (.aggo h o) s =
    .next (s.reported 0x86 (bits o.imm 0 4) (s.aggoStatus s.cur.core (aggoNamed o))) := by
  refine (word_of_guard _ hg).trans (congrArg Host.Outcome.next ?_)
  rw [State.report_eq]
  exact congrArg (State.reported · _ _ _) (if_neg hc)

theorem execAggo_starts (hc : s.aggoStatus s.cur.core (aggoNamed o) = 0) : exec (.aggo h o) s =
    .next ((s.agsStarted s.cur.core (aggoNamed o)).reported 0x86 (bits o.imm 0 4) 0) := by
  refine (word_of_guard _ hg).trans (congrArg Host.Outcome.next ?_)
  rw [State.report_eq]
  exact congrArg₂ (State.reported · _ _ ·) (if_pos hc) hc

theorem execAgstat_reads : exec (.agstat h o) s = .next (s.issued 4 [.g o.rd (BitVec.ofNat 64
    ((s.myCore.ag (bits o.imm 0 2)).progress.1 % 2 ^ 32 * 2 ^ 32 +
      (s.myCore.ag (bits o.imm 0 2)).progress.2 % 2 ^ 24 * 2 ^ 8 + (s.myCore.ag (bits o.imm 0 2)).st.num))]) :=
  (word_of_guard _ hg).trans (congrArg Host.Outcome.next (State.result_eq ..))

theorem execGateClose_reports : exec (.gateClose h o) s = .next
    ((s.setCore s.cur.core { s.myCore with gates := s.myCore.gates ||| o.imm.setWidth 4 }).reported 0x88
      (bits o.imm 0 4) 0) :=
  (word_of_guard _ hg).trans (congrArg Host.Outcome.next (State.report_eq ..))

theorem execGateOpen_reports : exec (.gateOpen h o) s = .next
    ((s.setCore s.cur.core { s.myCore with gates := s.myCore.gates &&& ~~~(o.imm.setWidth 4) }).reported 0x88
      (bits o.imm 0 4) 0) :=
  (word_of_guard _ hg).trans (congrArg Host.Outcome.next (State.report_eq ..))

end

/-- R21: with no access of the slot under way, a descriptor is read as memory holds it. -/
theorem State.descriptor_alone {s : State} (h : s.me.accs = []) (a : Word) (len : Nat) :
    s.descriptor a len = some (s.winBytes s.cur.core a len) := by
  simp [State.descriptor, h, overlayStores]

/-- Settles O39: AGSET is one of its refusals (`execAgset_misaligned` to `execAgset_waits`) or replaces the AG
(`State.agReplaced_ag`); the AGs that AGGO starts are those of `State.agsStarted`, and its status is by the
`State.aggoStatus` lemmas. -/
theorem agCommandsComplete : Obligations.AgCommandsComplete := by
  intro s h o hg c x n a told reached readable others mask named code stops sideless
  have replaced (f : AG → AG) (status : Nat) : told 0x85 n status ((s.agReplaced n f).reported 0x85 n status) ∧
      others ((s.agReplaced n f).reported 0x85 n status) ∧
      ((s.agReplaced n f).reported 0x85 n status).myCore.ag n = f (x.ag n) := by
    have only := s.agReplaced_onlyCores n f
    refine ⟨only.steady.reported only.cur _ _ _, fun m hm => ?_, ?_⟩
    · rw [State.reported_ag, State.agReplaced_ag_ne _ _ _ hm]
    · rw [State.reported_ag, State.agReplaced_ag]
  refine ⟨execAgset_misaligned hg, fun f hh ha hr => execAgset_away hg hh ha hr, execAgset_busy hg,
    fun alone => State.descriptor_alone alone _ _, fun ⟨ha, hr, hb⟩ hd => execAgset_waits hg ha hr hb hd,
    fun l d ⟨⟨ha, hr, hb⟩, he, bs, hd, hbs⟩ hok hl => ?loads, fun d ⟨⟨ha, hr, hb⟩, he, bs, hd, hbs⟩ hbad => ?rejects,
    fun hc => execAggo_refused hg hc, fun hc => ?starts, fun ⟨m, hm, bad⟩ => ?bad, fun sound ⟨m, hm, active⟩ => ?active,
    fun sound ⟨m, hm, side⟩ => ?sideless, execAgstat_reads hg, execGateClose_reports hg, execGateOpen_reports hg⟩
  case loads =>
    have runs := execAgset_loads hg ha hr hb he hd hbs hok hl
    obtain ⟨tells, rest, ag⟩ := replaced (fun g => { loadedAg d a l
      ((s.modMyCore fun x => x.freeLanes n).agSet c d) with pending := g.pending }) 0
    exact ⟨_, runs, tells, rest, by rw [ag]; rfl, by rw [ag]; rfl, by rw [ag]; rfl, by rw [ag]; rfl, by rw [ag]; rfl⟩
  case rejects =>
    have runs := execAgset_rejects hg ha hr hb he hd hbs hbad
    obtain ⟨tells, rest, ag⟩ := replaced (fun g => { AG.reset with st := .bad, daddr := a, pending := g.pending }) 6
    exact ⟨_, runs, tells, rest, by rw [ag]⟩
  case starts =>
    obtain ⟨steady, cur, -, desc⟩ := s.agsStarted_frame c (aggoNamed o)
    have core : (s.agsStarted c (aggoNamed o)).myCore = (s.agsStarted c (aggoNamed o)).core c := by rw [State.myCore, cur]
    refine ⟨_, execAggo_starts hg hc, steady.reported cur _ _ _, fun m hm => ?_, fun m _ hm => ?_⟩
    · rw [State.reported_ag, core]
      exact ⟨s.agsStarted_runs c _ (mem_aggoNamed.2 hm) (State.aggoStatus_sides hc (mem_aggoNamed.2 hm)), desc m⟩
    · rw [State.reported_ag, core]
      exact s.agsStarted_ag_ne c _ fun h => hm (mem_aggoNamed.1 h)
  case bad => exact State.aggoStatus_bad ⟨m, mem_aggoNamed.2 hm, bad⟩
  case active => exact State.aggoStatus_active (fun k hk => sound k (mem_aggoNamed.1 hk)) ⟨m, mem_aggoNamed.2 hm, active⟩
  case sideless =>
    exact State.aggoStatus_sideless (fun k hk => (sound k (mem_aggoNamed.1 hk)).1) (fun k hk => (sound k (mem_aggoNamed.1 hk)).2)
      ⟨m, mem_aggoNamed.2 hm, side⟩

end Sys2Proof.Machine
end

section
/-! SUPPORT. DMAP reads the map as R2 has it, in which a facet that would need three bypassed rows is retired with its core
(R2, R224). -/

namespace Sys2Proof.Machine

/-- What a word's result in flight holds is read off the state that the word leaves. -/
theorem State.issued_writes {s : State} {lat : Nat} {ws vs : List Write} (h : s.issued lat ws = s.issued lat vs) : ws = vs := by
  have flights := congrArg (fun t : State => t.me.flights) h
  simpa [State.issued] using flights

/-- A die whose map lists core 0 as live, with three rows of its facet to bypass. -/
def threeRowsBypassed : State :=
  { State.reset with
    cores := [(0, { Core.reset with slots := [(0, { Slot.reset with life := .running })] })]
    defects := [(0, { Defect.none with rows := [0, 1, 2] })] }

/-- Refutes O40: DMAP.core gives LIVE 0 for a core that is retired with its facet, whose map has three rows to bypass
(`Defect.usable`, R2), where the statement has the map's own `live`. On `threeRowsBypassed`, DMAP.core of core 0 gives 6
(ROUTER and PRISM), and the statement says 7. -/
theorem not_channelAndMapCommandsComplete : ¬ Obligations.ChannelAndMapCommandsComplete := by
  intro complete
  obtain ⟨-, -, map⟩ := complete
  obtain ⟨-, core, -⟩ := map threeRowsBypassed ⟨0, 0, false⟩ ⟨9, 8, 0, 0, 1, 0⟩ (by decide)
  have runs : exec (.dmapCore ⟨0, 0, false⟩ ⟨9, 8, 0, 0, 1, 0⟩) threeRowsBypassed =
      .next (threeRowsBypassed.issued 4 [.g 9 6]) :=
    (word_of_guard _ (by decide)).trans (congrArg Host.Outcome.next (State.result_eq ..))
  have same := State.issued_writes (Host.Outcome.next.inj (runs.symm.trans (core (by decide))))
  exact absurd same (by decide)

end Sys2Proof.Machine
end
